-- ==== Sys2Proof/Word.lean ====
section
/-! DEFINITION. Bytes, little-endian fields and plain lists of bytes (R10). -/

set_option Elab.async false

namespace Sys2Proof

/-- One byte. -/
abbrev Byte := BitVec 8

/-- A byte from a number, modulo 256. -/
abbrev byteOf (n : Nat) : Byte := BitVec.ofNat 8 n

end Sys2Proof
end

