-- ==== Sys2Proof/Syntax.lean ====
section
/-! DEFINITION. The commands of the block: one constructor per row of the table of operations and events.
The first operand `dt` of every command is the number of time-base cycles (nanoseconds) that pass before it.
What the outside world brings (a received unit, a sensor reading, a drive's completion, what ECC and the tag
found on a line) is an operand. -/

set_option Elab.async false

namespace Sys2Proof

/-- Origin codes (R8). -/
inductive Origin
  | pcie | vaneA | vaneB | twin | service | user | fabric | jtag | auto
deriving DecidableEq, Repr

/-- What has happened to stored lines (R188) before an access: the symbols that a disturbance has changed, each with its line (address div 64) and
the bits that changed; what it changed stays so until the line is written. Symbols 0 to 3 are the check symbols, 4 to 67 the ciphertext bytes,
68 to 70 the tag, 71 the minor counter. -/
structure LineFind where
  flips : List (Nat × Fin 72 × Byte) := []
deriving DecidableEq, Repr

/-- What a read of an SRAM word meets: the bits of the code word that a disturbance has changed (R182), data bits 0 to 63 and check bits 64 to 71,
and a valid cell that has changed (R183). -/
structure SramFind where
  flips : List (Fin 72) := []
  upset : Option (Fin 3) := none
deriving DecidableEq, Repr

/-- The kind of a received unit: record types 0x01 to 0x07 (R82), or an idle unit of a fold kind (R89). -/
inductive UnitKind
  | eth | tlp | dllp | flit | oset | raw | spapax | idle (kind : Fin 8)
deriving DecidableEq, Repr

/-- A unit as it arrives at the ball of a Tap port. `pos` is the 10-bit position of its first symbol within
the nanosecond (R18); `ticks` and `fine`, whole ticks and fine steps, run from the first symbol to the unit interval after the last
symbol. `bytes` are those that FEC gives; `errs` are the errors of correctable codewords in them, each a place and the bits that were wrong;
`overBad` says that an uncorrectable codeword overlaps the unit, `cwFixed` and `cwBad` how many codewords it brings of either kind. `fcsErr` is
the check of a PCIe unit; `symErr`, `framing` and `oversize` are coding errors, framing errors, and a TLP beyond its limit. -/
structure RxUnit where
  kind : UnitKind
  pos : Fin 1024 := 0
  ticks : Nat := 4
  fine : Fin 256 := 0
  lane : Nat := 0
  bytes : List Byte := []
  fcsErr : Bool := false
  symErr : Bool := false
  framing : Bool := false
  oversize : Bool := false
  skp : Bool := false
  eios : Bool := false
  cwFixed : Nat := 0
  cwBad : Nat := 0
  errs : List (Nat × Byte) := []
  overBad : Bool := false
deriving DecidableEq, Repr

/-- The content of a link-management frame (R65): the CAPS exchange, or the challenge and its response. -/
inductive LinkMsg
  | caps (identity : List Byte) (lanes : Nat) (use : Nat) (schema : Nat) (nonce : List Byte)
  | response (mac : List Byte)
deriving DecidableEq, Repr

/-- The kinds of frame a Vane port tells apart (R73); `frag` is the first fragment of a datagram to Vane.UdpPort (R257). -/
inductive VaneKind
  | arp | nd | echo | udp (port : Nat) | ptp | frag (id : Nat) | other
deriving DecidableEq, Repr

/-- A message of PTP (R28), with its sequence number. Times are in fine steps since the PTP epoch: the origin of a Sync, when a Delay_Req or
Pdelay_Req was received, when a Pdelay_Resp left; `corr` is the correction field, `logInterval` logMessageInterval. -/
inductive PtpMsg
  | sync (seq : Nat) (twoStep : Bool) (origin corr : Int) (logInterval : Int)
  | followUp (seq : Nat) (origin corr : Int)
  | delayReq (seq : Nat)
  | delayResp (seq : Nat) (receive corr : Int)
  | pdelayReq (seq : Nat)
  | pdelayResp (seq : Nat) (twoStep : Bool) (receipt corr : Int)
  | pdelayFollowUp (seq : Nat) (origin corr : Int)
deriving DecidableEq, Repr

/-- Where a host access goes: an offset of BAR0 (R264) or of BAR2 (R266), or the Message Control word of the MSI-X capability, of which bit 15 is
Enable and bit 14 Function Mask, as PCIe 6.0 has it. -/
inductive BarAddr
  | bar0 (o : Nat) | bar2 (o : Nat) | msixControl
deriving DecidableEq, Repr

/-- An access of the host (R264, R266), or a TLP that is malformed (R69). A read request takes at most 4,096 bytes and a payload 512 (R70). -/
inductive WinOp
  | read (len : Nat) | write (data : List Byte) | malformed
deriving DecidableEq, Repr

/-- What a fabric hook returns (R155): the number of the unit among the channel's offers, the 64-bit verdict word and the returned bytes. -/
structure HookVerdict where
  offer : Nat
  word : Nat
  bytes : List Byte
deriving DecidableEq, Repr

/-- Who asks the memory: the interface number, whether the access carries a page hint (R170: some true is OPEN) and its last line CLOSE, whether it
belongs to a fill stream (R190), to which of the interface's, and ends it, and whether an earlier write to the line was still queued when a read came (R174). -/
structure MemReq where
  ni : Nat := 0
  hint : Option Bool := none
  closeLast : Bool := false
  stream : Bool := false
  strm : Nat := 0
  streamEnd : Bool := false
  rawWait : Bool := false
deriving DecidableEq, Repr

/-- What SPD says of a DDR channel's DIMMs (R163). -/
structure DimmSet where
  chan : Fin 8
  dimms : Nat
  ranks : Nat        -- ranks of each DIMM
  bytes : Nat        -- bytes of each DIMM
  part : Nat := 0    -- the part type
deriving DecidableEq, Repr

/-- The label of a namespace as the mount reads it (R216). -/
structure NsLabel where
  magicOk : Bool
  version : Nat
  index : Nat
  base : Nat
  extents : Nat
  owner : List Byte
deriving DecidableEq, Repr

/-- What the mount finds at one namespace: its controller and identifier, its format, its label, its entry copies. -/
structure NsFound where
  ctl : Fin 64
  nsid : Nat
  fmtOk : Bool
  locked : Bool
  lbas : Nat
  label : NsLabel
  entries : List (Nat × List Byte)     -- extent number, 32-byte entry
  openData : List (Nat × List Byte)    -- data area of each extent found OPEN
  sources : List (Nat × List Byte) := []   -- for each session, the ports that wrote to it
deriving DecidableEq, Repr

/-- What the enumeration finds at one controller (R211). -/
structure CtlFound where
  quad : Fin 36
  bdf : Nat
  identity : List Byte
  namespaces : Nat
  cacheless : Bool
  ok : Bool
deriving DecidableEq, Repr

/-- How an NVMe completion ends; `broken` is an entry that breaks the phase or head rules (R214). -/
inductive NvmeEnd
  | ok | failed | media | denied | broken
deriving DecidableEq, Repr

/-- A user object that the stream declares (R348): its address, its descriptor's codes, its range and what else DESCRIBE returns. -/
structure UserObj where
  index : Nat
  sub : Nat
  type : Nat
  access : Nat
  cls : Nat
  min : Int := 0
  max : Int := 0
  len : Nat := 0
  entry : Nat := 0
  fixed : Bool := false
  dflt : List Byte := []
  name : String := ""
deriving DecidableEq, Repr

/-- The reference of a fabric PLL (R355): the system reference, that of a quad, a clock ball of the bank, or a lower-numbered PLL. -/
inductive FabRef
  | sys | quad (q : Fin 36) | ball (i : Fin 24) | pll (k : Fin 16)
deriving DecidableEq, Repr

/-- A fabric PLL that the stream sets (R355): die, number, its Clock.FabPll.Config word, whether it is enabled, its reference, and the divider and
phase of each output. -/
structure FabPll where
  die : Fin 8
  pll : Fin 16
  config : Nat
  enable : Bool
  ref : FabRef := .sys
  outs : List (Nat × Nat) := []
deriving DecidableEq, Repr

/-- What a spine line carries (R337): an output of a fabric PLL of the die, the recovered or parallel clock of an attached quad, or the clock
of a general-purpose I/O of the bank. -/
inductive ClkSrc
  | pll (k : Fin 16) (out : Fin 4) | quad (q : Fin 36) | io (i : Fin 24)
deriving DecidableEq, Repr

/-- A line of the clock spine of a region of a fabric die (R337). -/
structure Spine where
  region : Fin 1152
  line : Fin 16
  src : ClkSrc
deriving DecidableEq, Repr

/-- What a wire of the fabric carries: a constant, the output of a cell's table or sum bit, its carry, its flip-flop, a bit of the accumulator or OVF
of a multiply-accumulate block, a bit or XERR of a user crossing port, or what comes from outside the user logic (pins, RAM blocks, services). -/
inductive Net
  | const (b : Bool) | cell (c : Nat) | carry (c : Nat) | ff (c : Nat) | acc (m bit : Nat) | ovf (m : Nat) | cross (x bit : Nat) | xerr (x : Nat) | outer (n : Nat)
deriving DecidableEq, Repr

/-- A configured cell (R4, R335, R336): its number (16 cells to a cluster, 2,048 clusters to a region, 144 regions to a die), its table of 16
entries or that it is a bit of a carry chain, the inputs, what the flip-flop takes if not the table's output, its clock
enable, its local reset and whether that is asynchronous, its initial value, its spine line. -/
structure CellCfg where
  num : Nat
  table : Nat := 0
  carry : Bool := false
  ins : List Net := []
  direct : Option Net := none
  enable : Net := .const true
  reset : Net := .const false
  async : Bool := false
  init : Bool := false
  line : Fin 16 := 0
deriving DecidableEq, Repr

/-- A configured multiply-accumulate block (R343): its number (48 to a region), operands of the pre-adder and the multiplier, their signs, what
the accumulator does, the block north of it whose cascade output it takes, and its spine line. -/
structure MacCfg where
  num : Nat
  a : List Net := []
  pre : List Net := []
  b : List Net := []
  signedA : Bool := true
  signedB : Bool := true
  load : Net := .const false
  sub : Net := .const false
  north : Option Nat := none
  line : Fin 16 := 0
deriving DecidableEq, Repr

/-- A user crossing port (R395): the Duaxis edge, its direction and bundle, the port of the bundle, the region and line at each end, the signals. -/
structure CrossCfg where
  edge : Nat
  dir : Fin 2
  bundle : Fin 64
  port : Fin 8
  src : Fin 1152 × Fin 16
  dst : Fin 1152 × Fin 16
  nets : List Net := []
deriving DecidableEq, Repr

/-- A general-purpose pin as a stream sets it (R345): direction 0 input, 1 output, 2 bidirectional; termination 0 none, 1 pull-up, 2 pull-down,
3 bus-keeper; slew; drive strength in mA; registers of input and output, at single or double data rate. -/
structure PinCfg where
  bank : Fin 8
  pin : Fin 24
  dir : Fin 3
  pull : Fin 4
  fast : Bool
  drive : Nat
  inReg : Bool := false
  outReg : Bool := false
  double : Bool := false
deriving DecidableEq, Repr

/-- The CONFIG-class values that a stream carries (R251). -/
structure StreamCfg where
  roles : List (Fin 36 × Nat)
  layouts : List (Fin 36 × Nat)
  refclk : List (Fin 36 × Nat)
  spxUse : List (Fin 36 × Nat)
  twinSide : Nat
  used : Nat
  banks : List (Fin 8 × Nat)
  fabPlls : List FabPll
  userObjs : List UserObj
  hooks : List (Fin 8) := []                                  -- fabric dies whose replay hook the stream uses
  rams : List (Nat × Nat × Nat) := []                         -- block, word and data of RAM words with initial values
  spines : List Spine := []
  cells : List CellCfg := []
  macs : List MacCfg := []
  crossings : List CrossCfg := []
  pins : List PinCfg := []
  noScrub : List Nat := []                                    -- RAM blocks with the attribute SCRUB OFF (R342)
deriving DecidableEq, Repr

/-- Bytes of a stream as they arrive: the header, in clear; some bytes of the payload as it is stored; or that the last byte has come, with the
CONFIG-class values and the logic that the frames spell: how frames spell them is Utori's and not in the spec (log entry 13). -/
inductive StreamPart
  | header (l : List Byte)
  | data (l : List Byte)
  | last (cfg : StreamCfg)
deriving DecidableEq, Repr

/-- What read-back finds in a frame (R383). -/
inductive FrameFind
  | ok | single (bit : Nat) | multi
deriving DecidableEq, Repr

/-- An end of a Spapax link: a port of a quad. -/
structure LinkEnd where
  q : Fin 36
  p : Fin 4 := 0
deriving DecidableEq, Repr

/-- A lane of a quad. -/
structure LaneOf where
  q : Fin 36
  k : Fin 4
deriving DecidableEq, Repr

/-- What training sets say of a PCIe link's lanes (R41): their number, whether their order is reversed, and which are inverted. -/
structure LinkLanes where
  width : Nat
  reversed : Bool := false
  inverted : Nat := 0
deriving DecidableEq, Repr

/-- A PTP message and its domain (R28). -/
structure PtpPdu where
  domain : Fin 256
  m : PtpMsg
deriving DecidableEq, Repr

/-- A read that the device has outstanding behind a root port or endpoint: the quad and the network interface that asked (R70). -/
structure HostRead where
  q : Fin 36
  ni : Nat
deriving DecidableEq, Repr

/-- Where a Vane frame is addressed: its VLAN, 0 for none, and its destination address, empty for a broadcast; `target` is the address that ARP or
neighbour discovery asks for (R72, R73). -/
structure VaneDest where
  vlan : Nat := 0
  dst : List Byte := []
  target : List Byte := []
deriving DecidableEq, Repr

/-- A response of the network: whether it is good, and the age count at its birth (R319, R321). -/
structure NocEnd where
  ok : Bool
  birth : Fin 65536 := 0
deriving DecidableEq, Repr

/-- What the two ports of a RAM block meet in the words that they access. -/
structure PortFinds where
  fa : SramFind := {}
  fb : SramFind := {}
deriving DecidableEq, Repr

/-- A port access of a RAM block (R339): code word, first byte and bytes within it; `none` reads. -/
structure RamAcc where
  word : Fin 1024
  off : Fin 8
  size : Nat
  wdata : Option (List Byte) := none
deriving DecidableEq, Repr

/-- Where and when a unit's first symbol arrives: its 10-bit position within the nanosecond, and its lane within the port (R17, R18). -/
structure BeatAt where
  pos : Fin 1024 := 0
  lane : Fin 8 := 0
deriving DecidableEq, Repr

/-- The commands of the block, in the order of the table. -/
inductive Instr
  -- time base
  | parityBroadcast (dt : Nat) (seen : List (Fin 37 × Int))
  | replicaRealign (dt : Nat) (r : Fin 37)
  | timeMarkerInterval (dt : Nat)
  | ppsEdge (dt : Nat) (pos : Fin 1024)
  | ptpSync (dt : Nat) (pos : Fin 1024) (pdu : PtpPdu)
  | disciplineMeasurement (dt : Nat)
  | referenceLoss (dt : Nat)
  | holdoverLimit (dt : Nat)
  | disciplineModeSet (dt : Nat) (og : Origin) (mode : Nat)
  | timebaseSet (dt : Nat) (og : Origin) (value : Nat)
  -- lanes and ports
  | losAssert (dt : Nat) (q : Fin 36) (k : Fin 4)
  | losDeassert (dt : Nat) (q : Fin 36) (k : Fin 4)
  | lolAssert (dt : Nat) (q : Fin 36) (k : Fin 4)
  | lolDeassert (dt : Nat) (q : Fin 36) (k : Fin 4)
  | alignmentGained (dt : Nat) (lane : LaneOf) (skew : Nat)
  | alignmentLost (dt : Nat) (q : Fin 36) (k : Fin 4)
  | upDebounceExpiry (dt : Nat) (q : Fin 36) (p : Fin 4)
  | downDebounceExpiry (dt : Nat) (q : Fin 36) (p : Fin 4)
  | flapHoldExpiry (dt : Nat) (q : Fin 36) (p : Fin 4)
  | refclkStatusChange (dt : Nat) (q : Fin 36) (status : Fin 3)
  | pcieRateChange (dt : Nat) (q : Fin 36) (p : Fin 4) (speed : Fin 7) (lanes : LinkLanes)
  | retuneLimitExpiry (dt : Nat) (q : Fin 36) (p : Fin 4)
  | pcieIdleLimitExpiry (dt : Nat) (q : Fin 36) (p : Fin 4)
  | quadLayoutSet (dt : Nat) (og : Origin) (layouts : List (Fin 36 × Nat))
  | portModeSet (dt : Nat) (og : Origin) (q : Fin 36) (p : Fin 4) (standard : Option Nat) (rate : Option Nat)
  | portDirectionSet (dt : Nat) (og : Origin) (q : Fin 36) (p : Fin 4) (dir : Bool)
  | laneEqSet (dt : Nat) (og : Origin) (q : Fin 36) (k : Fin 4) (mode : Option Nat) (ctle : Option (Nat × Nat))
      (taps : List (Fin 12 × Int)) (ffe : List (Fin 5 × Int))
  | settleWindowExpiry (dt : Nat) (q : Fin 36) (p : Fin 4)
  | eyescanStart (dt : Nat) (og : Origin) (q : Fin 36)
  | eyescanPoint (dt : Nat) (q : Fin 36) (errors : Nat)
  -- Spapax
  | spapaxEnable (dt : Nat) (og : Origin) (q : Fin 36) (on : Bool)
  | receiverDetectPulse (dt : Nat) (q : Fin 36) (termination : Bool)
  | spapaxBlock (dt : Nat) (port : LinkEnd) (lane : Fin 8) (levels : List (Fin 4))
  | spapaxStageTimeout (dt : Nat) (q : Fin 36) (freq : Bool)
  | spapaxBackoffExpiry (dt : Nat) (q : Fin 36)
  | linkManagementFrame (dt : Nat) (port : LinkEnd) (msg : LinkMsg)
  | spapaxFrame (dt : Nat) (port : LinkEnd) (bytes : List Byte)
  | spapaxFrameSend (dt : Nat) (port : LinkEnd)
  | spapaxAckTimeout (dt : Nat) (port : LinkEnd)
  | spapaxAlignInsert (dt : Nat) (port : LinkEnd)
  -- PCIe and Vane links
  | hostLinkDown (dt : Nat)
  | pcieCompletionTimeout (dt : Nat) (read : HostRead)
  | pcieSurpriseDown (dt : Nat) (q : Fin 36)
  | pcieRetrain (dt : Nat) (q : Fin 36)
  | pcieInboundRequest (dt : Nat) (q : Fin 36) (addr : Nat) (len : Nat)
  | vaneFrame (dt : Nat) (v : Fin 2) (kind : VaneKind) (dest : VaneDest)
  | vaneLockoutExpiry (dt : Nat) (v : Fin 2) (source : List Byte)
  | vaneLinkChange (dt : Nat) (v : Fin 2) (up : Bool)
  -- capture
  | unitReceived (dt : Nat) (q : Fin 36) (p : Fin 4) (u : RxUnit)
  | foldMaxSpanExpiry (dt : Nat) (q : Fin 36) (p : Fin 4) (lane : Nat)
  | recordIngest (dt : Nat) (q : Fin 36) (p : Fin 4)
  | lossRunTimeout (dt : Nat) (q : Fin 36) (p : Fin 4)
  | admissionCycle (dt : Nat) (e : Fin 2) (struck : List (Fin 37 × Bool))
  | flushAgeExpiry (dt : Nat) (e : Fin 2)
  | captureFlush (dt : Nat) (og : Origin) (e : Fin 2)
  | ringWrite (dt : Nat) (e : Fin 2) (struck : List (Fin 37 × Bool))
  | ringWriteAck (dt : Nat) (e : Fin 2) (ok : Bool)
  | flowAgeingVisit (dt : Nat) (e : Fin 2) (hits : List (Fin 8))
  | flowClear (dt : Nat) (og : Origin) (e : Fin 2)
  | captureEnable (dt : Nat) (og : Origin) (q : Fin 36) (p : Fin 4)
  | captureDisable (dt : Nat) (og : Origin) (q : Fin 36) (p : Fin 4)
  | captureQuiesce (dt : Nat) (og : Origin) (e : Fin 2)
  | quiesceComplete (dt : Nat) (e : Fin 2)
  | captureResume (dt : Nat) (og : Origin) (e : Fin 2)
  -- Fronts, retention and delivery
  | frontEvaluate (dt : Nat) (n : Fin 16)
  | frontTimerExpiry (dt : Nat) (n : Fin 16) (t : Fin 2)
  | frontRun (dt : Nat) (og : Origin) (n : Fin 16)
  | frontIdle (dt : Nat) (og : Origin) (n : Fin 16)
  | retentionTrigger (dt : Nat) (og : Origin) (s : Fin 256)
  | windowEndReached (dt : Nat) (s : Fin 256)
  | closeLimitExpiry (dt : Nat) (s : Fin 256)
  | promote (dt : Nat) (e : Fin 2) (busError : Option Nat)
  | notification (dt : Nat) (v : Fin 2)
  | msixMessage (dt : Nat) (v : Fin 2048)
  -- transmit
  | txStart (dt : Nat) (og : Origin) (q : Fin 36) (p : Fin 4)
  | txStop (dt : Nat) (og : Origin) (q : Fin 36) (p : Fin 4)
  | txResume (dt : Nat) (og : Origin) (q : Fin 36) (p : Fin 4)
  | txForceDown (dt : Nat) (og : Origin) (q : Fin 36) (p : Fin 4) (down : Bool)
  | txAnchor (dt : Nat) (q : Fin 36) (p : Fin 4)
  | txUnitStart (dt : Nat) (q : Fin 36) (p : Fin 4) (pos : Fin 1024)
  | txUnitEnd (dt : Nat) (q : Fin 36) (p : Fin 4)
  | txFetch (dt : Nat) (q : Fin 36) (p : Fin 4) (busError : Bool)
  | hookReturn (dt : Nat) (q : Fin 36) (p : Fin 4) (v : HookVerdict)
  | hookTimeout (dt : Nat) (q : Fin 36) (p : Fin 4)
  | holdWindowExpiry (dt : Nat) (q : Fin 36) (p : Fin 4)
  -- DRAM
  | memoryRead (dt : Nat) (addr : Fin (2 ^ 44)) (req : MemReq) (find : LineFind) (bytes : Nat)
  | memoryWrite (dt : Nat) (addr : Fin (2 ^ 44)) (req : MemReq) (find : LineFind) (data : List Byte)
  | reencryptionLine (dt : Nat) (ch : Fin 136) (find : LineFind)
  | refresh (dt : Nat) (ch : Fin 136)
  | memoryTemperatureRead (dt : Nat) (ch : Fin 136) (reading : Option Int)
  | caParityFailure (dt : Nat) (ch : Fin 136) (addr : Fin (2 ^ 44)) (command initiator : Nat)
  | lullEnter (dt : Nat) (og : Origin)
  | lullDrained (dt : Nat)
  | lullExit (dt : Nat) (og : Origin)
  | lullRetrainDone (dt : Nat) (failed : List (Fin 136))
  | thaw (dt : Nat) (og : Origin) (ch : Fin 136)
  | thawRetrainDone (dt : Nat) (ch : Fin 136) (ok : Bool)
  | poisonClear (dt : Nat) (og : Origin) (ch : Fin 136) (i : Fin 16)
  -- integrity
  | leakPeriod (dt : Nat)
  | drizzleScrub (dt : Nat) (target : Sum (Nat × Nat) (Fin (2 ^ 44))) (sram : SramFind) (find : LineFind)
      (last : Bool)
  | chktestWriteRaw (dt : Nat) (og : Origin)
  | chktestReadRaw (dt : Nat) (og : Origin)
  | chktestReadDecoded (dt : Nat) (og : Origin)
  | chktestDramWrite (dt : Nat) (og : Origin) (line : Fin (2 ^ 44))
  | chktestDramRead (dt : Nat) (og : Origin) (line : Fin (2 ^ 44))
  -- far-tier store
  | storeMount (dt : Nat) (og : Origin) (ctls : List CtlFound) (nss : List NsFound)
  | storeStop (dt : Nat) (og : Origin)
  | nvmeCompletion (dt : Nat) (c : Fin 64) (cid : Nat) (fin : NvmeEnd) (data : List Byte) (dw3 : Nat)
  | adminTimeout (dt : Nat) (c : Fin 64)
  | ioTimeout (dt : Nat) (c : Fin 64) (cid : Nat)
  | controllerFatal (dt : Nat) (c : Fin 64)
  | stageDrain (dt : Nat) (e : Fin 2)
  | drainAgeExpiry (dt : Nat) (e : Fin 2) (s : Fin 256)
  | flushInterval (dt : Nat)
  | subentryAgeExpiry (dt : Nat) (e : Fin 2) (s : Fin 256)
  | reclaim (dt : Nat) (s : Fin 256)
  | quotaCut (dt : Nat) (og : Origin) (s : Fin 256) (quota : Nat)
  | remapCopy (dt : Nat) (extent : Nat)
  | storeUnpin (dt : Nat) (og : Origin) (extent : Nat)
  | unpinAll (dt : Nat) (og : Origin) (s : Fin 256)
  | sessionRelease (dt : Nat) (og : Origin) (s : Fin 256)
  | controllerReset (dt : Nat) (og : Origin) (c : Fin 64)
  | adminCommand (dt : Nat) (og : Origin) (c : Fin 64) (entry : List Byte)
  | namespaceInitialise (dt : Nat) (og : Origin) (n : Fin 1024)
  | queryStart (dt : Nat) (og : Origin) (j : Fin 8)
  | queryContinue (dt : Nat) (og : Origin) (j : Fin 8) (addr bytes : Nat)
  | queryAbort (dt : Nat) (og : Origin) (j : Fin 8)
  | queryScan (dt : Nat) (j : Fin 8) (fin : NvmeEnd) (data : List Byte) (hostOk : Bool)
  -- dictionary, transactions, Logbook, Keep
  | vanePdu (dt : Nat) (v : Fin 2) (source : List Byte) (frag : Option Nat) (pdu : List Byte)   -- frag: the reassembly it completes
  | reassemblyTimeout (dt : Nat) (v : Fin 2) (id : Nat)
  | mailboxPost (dt : Nat) (slot : Sum (Fin 8) (Fin 16)) (reqLength : Nat) (request : List Byte)
  | mailboxRelease (dt : Nat) (slot : Sum (Fin 8) (Fin 16))
  | mailboxTake (dt : Nat) (slot : Sum (Fin 8) (Fin 16))
  | read (dt : Nat) (og : Origin) (txn index sub offset length : Nat)
  | write (dt : Nat) (og : Origin) (txn index sub type : Nat) (value : List Byte)
  | describe (dt : Nat) (og : Origin) (index sub : Nat)
  | beginTxn (dt : Nat) (og : Origin)
  | commit (dt : Nat) (og : Origin) (txn : Nat) (tick : Option Nat)
  | rollback (dt : Nat) (og : Origin) (txn : Nat)
  | validationStart (dt : Nat)
  | validationEnd (dt : Nat)
  | commitTick (dt : Nat)
  | objectWrite (dt : Nat) (og : Origin) (index sub : Nat) (value : List Byte)
  | txnIdleTimeout (dt : Nat) (slot : Fin 8)
  | checkpointInterval (dt : Nat)
  | checkpointCount (dt : Nat)
  | logbookCheckpoint (dt : Nat) (og : Origin)
  | keepGroupWrite (dt : Nat) (torn : List Nat)
  | keepPageRefresh (dt : Nat) (page : Nat) (margin : Bool)
  | windowAccess (dt : Nat) (offset : BarAddr) (op : WinOp) (find : LineFind)
  | authKeyWrite (dt : Nat) (og : Origin) (v : Fin 2) (slot : Fin 4) (key : List Byte)
  -- twin
  | propose (dt : Nat) (msgSeq txn : Nat) (items : List (Nat × Nat × List Byte))
  | verdict (dt : Nat) (msgSeq txn status index sub : Nat)
  | schedule (dt : Nat) (msgSeq txn tc : Nat)
  | shadow (dt : Nat) (msgSeq : Nat) (tc : Nat) (items : List (Nat × Nat × List Byte))
  | logbook (dt : Nat) (msgSeq : Nat) (entries : List (List Byte))
  | extent (dt : Nat) (msgSeq : Nat) (number : Nat) (entry : List Byte)
  | subentry (dt : Nat) (msgSeq : Nat) (number : Nat) (entry : List Byte)
  | front (dt : Nat) (msgSeq : Nat) (entry : List Byte)
  -- side, epoch, schema and the Logbook entry that it expects next are the peer's
  | catalogue (dt : Nat) (msgSeq : Nat) (words : List Nat) (side epoch schema logNext : Nat)
  | resyncBegin (dt : Nat) (msgSeq : Nat) (shared : List (Nat × Nat × List Byte))
  | resyncEnd (dt : Nat) (msgSeq : Nat)
  | leave (dt : Nat) (msgSeq : Nat)
  | beatSend (dt : Nat)
  | beat (dt : Nat) (at_ : BeatAt) (payload : List Byte)
  | beatMissed (dt : Nat)
  | twinEvent (dt : Nat) (originTick : Nat) (slot : Nat) (forwarded : Bool) (input : Fin 128) (mult : Fin 16)
  | storageTakeover (dt : Nat) (nss : List NsFound)
  | twinAlign (dt : Nat) (og : Origin)
  | twinLeave (dt : Nat) (og : Origin)
  | twinTakeover (dt : Nat) (og : Origin)
  | adoptStorage (dt : Nat) (og : Origin)
  -- network and cores
  | nocTimeout (dt : Nat) (ni : Fin 640) (tag : Fin 4096)
  | nocResponse (dt : Nat) (ni : Fin 640) (tag : Fin 4096) (fin : NocEnd)
  | postedError (dt : Nat) (ni : Fin 640) (record : List Byte) (freed : Bool)
  | flush (dt : Nat) (ni : Fin 640) (target : Fin 640)
  | ekicWrite (dt : Nat) (c : Fin 16) (bits : Nat) (arriving : List (Fin 32))
  | ekeqWrite (dt : Nat) (c : Fin 16) (value : Nat)
  | coreRun (dt : Nat) (og : Origin) (c : Fin 16)
  | coreReset (dt : Nat) (og : Origin) (c : Fin 16)
  -- fabric
  | fabricEvent (dt : Nat) (d : Fin 8) (j : Fin 32)
  | userMarkRequest (dt : Nat) (d : Fin 8) (set : Fin 16) (value : Nat)
  | pePop (dt : Nat) (ni : Fin 640)
  | fabricDictionaryRequest (dt : Nat) (d : Fin 8) (request : List Byte)
  | objectSample (dt : Nat) (index sub : Nat) (value : List Byte) (again : Nat)
  | objectSampleTimeout (dt : Nat) (index sub : Nat)
  | ramPortAccess (dt : Nat) (blk : Nat) (a b : Option RamAcc) (sameClock : Bool) (finds : PortFinds)
  | bankVoltageSample (dt : Nat) (b : Fin 8) (mv : Nat)
  -- clocks
  | sourceStable (dt : Nat) (src : Fin 5) (fuses : Option (List (Nat × Nat × List Byte)))
  | clockMissing (dt : Nat) (src : Fin 5)
  | pllLossOfLock (dt : Nat) (pll : Sum (Fin 11) (Sum (Fin 8 × Fin 16) (Fin 36 × Fin 2)))
  | pllLock (dt : Nat) (pll : Sum (Fin 11) (Sum (Fin 8 × Fin 16) (Fin 36 × Fin 2)))
  | pllHoldoverExpiry (dt : Nat) (pll : Sum (Fin 11) (Fin 36 × Fin 2)) (mode : Fin 8)
  | clockRevert (dt : Nat) (og : Origin)
  | clockGate (dt : Nat) (og : Origin) (node : Fin 37) (open_ : Bool)
  -- configuration and boot
  | deviceReset (dt : Nat) (cause : Fin 9) (mode : Fin 8)
  | programPin (dt : Nat) (mode : Fin 8) (low : Bool)
  | powerGood (dt : Nat) (mode : Fin 8)
  | entropyStartupDone (dt : Nat) (ok : Bool)
  | firmwareStart (dt : Nat) (ok0 ok1 : Bool) (v0 v1 : Nat)
  | persistRestore (dt : Nat) (badSeal : List (Nat × Nat))
  | streamData (dt : Nat) (part : StreamPart)
  | streamTimeout (dt : Nat)
  | loadStart (dt : Nat)
  | loadAbort (dt : Nat)
  | apertureWrite (dt : Nat) (bytes : Nat)
  | startupStep (dt : Nat)
  | pllWaitExpiry (dt : Nat)
  | bootComplete (dt : Nat)
  -- JTAG
  | idcode (dt : Nat)
  | samplePreload (dt : Nat) (pins : List Bool) (shiftIn : Option (List Bool))
  | extest (dt : Nat)
  | extestPulse (dt : Nat)
  | extestTrain (dt : Nat)
  | highz (dt : Nat)
  | clamp (dt : Nat)
  | cfgLoad (dt : Nat) (bytes : List Byte)
  | dictPost (dt : Nat) (request : List Byte)
  | dictPoll (dt : Nat)
  | dictRead (dt : Nat) (count : Nat)
  | jtagDebug (dt : Nat) (c : Fin 16) (halt : Bool)
  | devreset (dt : Nat) (mode : Fin 8)
  | bypass (dt : Nat)
  -- read-back, firmware, keys
  | readbackFrame (dt : Nat) (frame : Nat) (find : FrameFind) (lastOfSweep : Bool) (mode : Fin 8)
  | watchdogExpiry (dt : Nat) (mode : Fin 8)
  | fwUpdate (dt : Nat) (og : Origin)
  | reconfigure (dt : Nat) (og : Origin)
  | reconfigureDelayExpiry (dt : Nat) (mode : Fin 8)
  | fuseProgram (dt : Nat) (og : Origin) (index sub : Nat) (value : List Byte)
  | fuseBurnDone (dt : Nat) (ok : Bool)
  | bbramErase (dt : Nat) (og : Origin)
  | keyRevoke (dt : Nat) (og : Origin) (bits : Nat)
  | vbatLoss (dt : Nat)
  | entropyHealthFailure (dt : Nat)
  -- Duaxis
  | duaxisFrameError (dt : Nat) (edge : Fin 18) (dir : Fin 2) (bundle : Fin 64) (wire : Option (Fin 34)) (bothCopies : Bool)
  | duaxisTraining (dt : Nat) (errs : List (Fin 18 × Fin 2 × Fin 64 × Fin 34)) (fuseRepairs : List (Fin 18 × Fin 2 × Fin 64 × Fin 34))
  -- power, thermal, ageing
  | avsStep (dt : Nat) (answered : Bool)
  | railFault (dt : Nat) (rail : Fin 10) (mode : Fin 8)
  | powerFailWarning (dt : Nat)
  | powerFailClear (dt : Nat)
  | diePowerSample (dt : Nat) (die : Fin 10) (mw : Nat)
  | domainOn (dt : Nat) (og : Origin) (n : Fin 60)
  | domainOff (dt : Nat) (og : Origin) (n : Fin 60)
  | domainSwitchDone (dt : Nat) (n : Fin 60)
  | domainSwitchTimeout (dt : Nat) (n : Fin 60)
  | domainDroop (dt : Nat) (n : Fin 60)
  -- temperatures in 0.1 °C
  | thermalSample (dt : Nat) (sensors : List (Fin 10 × Fin 9 × Int)) (hbms : List (Fin 8 × Int)) (dimms : List (Fin 8 × Int))
  | ageingSample (dt : Nat)
  | marginMeasure (dt : Nat) (monitors : List (Fin 10 × Fin 9 × Nat))
  | weeklyHistory (dt : Nat)
  | poweredTimePersist (dt : Nat)
  -- self-test
  | sliceDue (dt : Nat) (unit : Fin 16) (inst : Nat)
  | handshakeAck (dt : Nat) (unit : Fin 16) (inst : Nat)
  | handshakeTimeout (dt : Nat) (unit : Fin 16) (inst : Nat)
  | deferralRetry (dt : Nat) (unit : Fin 16) (inst : Nat)
  | sliceEnd (dt : Nat) (unit : Fin 16) (inst : Nat) (signature : Nat)
  | runNow (dt : Nat) (og : Origin) (unit : Fin 16) (inst : Nat)
  | clearPermanent (dt : Nat) (og : Origin) (dies : Nat)
  | clearSuspect (dt : Nat) (og : Origin) (edge : Fin 18) (dir : Fin 2) (bundle : Fin 64)
  -- rows added at the end of the table
  | perstAssert (dt : Nat)
  | perstReleaseExpiry (dt : Nat) (q : Fin 36)
  | pcieLinkUp (dt : Nat) (q : Fin 36) (speed : Fin 7) (width : Nat)
  | controllerReady (dt : Nat) (c : Fin 64) (rdy : Option Bool)
  | dramTrainingDone (dt : Nat) (ok : List (Fin 136)) (dimms : List DimmSet)
  | pllLockTimeout (dt : Nat)
  | clockReturn (dt : Nat) (src : Fin 5)
  | entropyHealthPass (dt : Nat)
  | perstDeassert (dt : Nat)
  | fabricShadowAck (dt : Nat) (index sub : Nat)
deriving DecidableEq, Repr

end Sys2Proof
end

