-- ==== Sys2Proof/Decode.lean ====
section
/-! DEFINITION. What a word of the table spells. The table of this block gives its rows no bits, so no word spells a command. -/

set_option Elab.async false

namespace Sys2Proof

/-- The command that a word of `nbits` bits spells by the bits of the table: none, for the table gives none. -/
def decodeTableWord (nbits w : Nat) : Option Instr :=
  match nbits, w with
  | _, _ => none

end Sys2Proof
end

