-- ==== Sys2Proof/Config.lean ====
section
/-! DEFINITION. Values that the spec leaves open. Each is a constant with no body: nothing can be proved of the
value it gives, so a statement that holds holds for every choice. -/

set_option Elab.async false

namespace Sys2Proof

/-- The n-th open value of a run: a number the spec does not fix (log entry 3). -/
opaque Config.freeNat : Nat → Nat

/-- The n-th open value of a run that is a string of bytes (log entry 3). -/
opaque Config.freeBytes : Nat → List Byte

/-- The voltage-to-level steering correction of a discipline measurement, in 0.001 ppb: the control law is not in
the spec (R15 gives only its bounds; log entry 12). Arguments: the correction in force and the measured offset. -/
opaque Config.steer : Int → Int → Int

/-- Pseudo-channel of an HBM channel, bank, row and column of a channel's offset, and the rows of its banks: the controller's map is not in the
spec (log entry 31). -/
opaque Config.dramPseudo : Nat → Nat → Nat
opaque Config.dramBank : Nat → Nat → Nat
opaque Config.dramRow : Nat → Nat → Nat
opaque Config.dramColumn : Nat → Nat → Nat
opaque Config.dramRows : Nat → Nat

/-- The code over a DRAM line: which polynomial and first root its field and generator take is not in the spec (log entry 37). -/
opaque Config.rsPoly : Nat
opaque Config.rsRoot : Nat

/-- The Hsiao codes: which columns each takes, and the word widths of hardened instances, are not in the spec (log entry 37). -/
opaque Config.hsiaoPick : Nat → Nat
opaque Config.sramWidth : Nat → Nat

/-- The ordinal among its die's capture instances of a buffer or record FIFO (R185). -/
opaque Config.captureOrdinal : Nat → Nat → Bool → Nat

/-- The logical page of the Keep's Dictionary area that holds an object, and the bytes and spare of a physical page: the layout
of a page's data is not in the spec (log entry 43). -/
opaque Config.keepPage : Nat → Nat
opaque Config.keepBytes : Nat → Nat → List Byte

/-- Blocks of the Keep that its test found good (R286, log entry 43). -/
opaque Config.keepSpare : Nat

/-- The security version that the signature of a firmware image verifies to, or none where it does not verify: a published standard under
a key that is not in the spec (R381, log entry 9). -/
opaque Config.fwVersion : List Byte → Option Nat

/-- Reference signature of a self-test slice, by unit, slice and stepping: it lies in the dies' ROM, not in the spec (R429, log entry 50). -/
opaque Config.sliceRef : Nat → Nat → Nat → Nat

/-- Whether a wire of the fabric from outside the user logic is high at a nanosecond (log entry 13): pins, RAM blocks, the services' signals. -/
opaque Config.fabricNet : Nat → Nat → Bool

/-- Whether a net that a fabric quadrant without power should drive is high at a nanosecond: the spec gives no value of it (log entry 13). -/
opaque Config.darkNet : Nat → Nat → Bool

/-- Whether a clock that comes from outside, at a rate the model is not told, has an edge in a nanosecond (R337, log entry 13). -/
opaque Config.clockEdge : Nat → Nat → Bool

/-- Whether a user crossing port between unrelated clocks takes one period more for the word sampled at a nanosecond (R393, log entry 13). -/
opaque Config.crossSlip : Nat → Nat → Bool

end Sys2Proof
end

