-- ==== Sys2Proof/Machine/Map.lean ====
section
/-! DEFINITION. Maps as plain data: lists of a key and a value with the keys strictly rising, and no entry equal to
what an absent key reads as. Looking up scans the whole list, and removing filters it, so that the laws of a lookup
after an update hold of every list. -/

set_option Elab.async false

namespace Sys2Proof.Machine

/-- A map from numbers, as a list. -/
abbrev SMap (α : Type) := List (Nat × α)

/-- The entry of a key. -/
def SMap.find {α : Type} : SMap α → Nat → Option α
  | [], _ => none
  | (j, v) :: m, k => if j = k then some v else SMap.find m k

/-- Put an entry in its place. -/
def SMap.ins {α : Type} : SMap α → Nat → α → SMap α
  | [], k, v => [(k, v)]
  | (j, w) :: m, k, v =>
    if k < j then (k, v) :: (j, w) :: m
    else if k = j then (k, v) :: m
    else (j, w) :: SMap.ins m k v

/-- Remove the entry of a key. -/
def SMap.del {α : Type} (m : SMap α) (k : Nat) : SMap α := m.filter (fun e => e.1 != k)

/-- What a key reads as, with `d` for an absent key. -/
def SMap.getD {α : Type} (m : SMap α) (k : Nat) (d : α) : α := (SMap.find m k).getD d

/-- Set a key; the value `d` of an absent key is kept as no entry at all. -/
def SMap.setD {α : Type} [DecidableEq α] (m : SMap α) (k : Nat) (d v : α) : SMap α :=
  if v = d then SMap.del m k else SMap.ins m k v

/-- The keys rise strictly. -/
def SMap.sorted {α : Type} : SMap α → Bool
  | [] => true
  | [_] => true
  | (j, _) :: (k, w) :: m => decide (j < k) && SMap.sorted ((k, w) :: m)

/-- The canonical form: rising keys and no entry that says what an absent key says. -/
def SMap.wf {α : Type} [DecidableEq α] (m : SMap α) (d : Nat → α) : Bool :=
  SMap.sorted m && m.all (fun e => !decide (e.2 = d e.1))

/-- Change the first element that a test picks. -/
def updateFirst {α : Type} (p : α → Bool) (f : α → α) : List α → List α
  | [] => []
  | x :: xs => if p x then f x :: xs else x :: updateFirst p f xs

/-- Remove the first element that a test picks. -/
def removeFirst {α : Type} (p : α → Bool) : List α → List α
  | [] => []
  | x :: xs => if p x then xs else x :: removeFirst p xs

/-- Insert before the first element that is greater. -/
def insertBy {α : Type} (lt : α → α → Bool) (x : α) : List α → List α
  | [] => [x]
  | y :: ys => if lt x y then x :: y :: ys else y :: insertBy lt x ys

/-- Sort a list (insertion, stable). -/
def sortBy {α : Type} (lt : α → α → Bool) : List α → List α
  | [] => []
  | x :: xs => sortInsert x (sortBy lt xs)
where
  sortInsert (x : α) : List α → List α
    | [] => [x]
    | y :: ys => if lt y x then y :: sortInsert x ys else x :: y :: ys

/-- Sum of the numbers a list gives. -/
def sumBy {α : Type} (f : α → Nat) (l : List α) : Nat := l.foldl (fun n x => n + f x) 0

/-- The numbers below n, rising. -/
def upTo (n : Nat) : List Nat := List.range n

end Sys2Proof.Machine
end

