-- ==== Sys2Proof/Machine/Operands.lean ====
section
/-! DEFINITION. Bit fields, byte order and checksums: how the operands of commands
and the bytes of structures are read and written (R10, R78, R249, R258). -/

set_option Elab.async false

namespace Sys2Proof.Machine

/-- Bits [hi:lo] of a number. -/
def bitsOf (v hi lo : Nat) : Nat := v / 2 ^ lo % 2 ^ (hi + 1 - lo)

/-- Bit i of a number. -/
def bitOf (v i : Nat) : Bool := v.testBit i

/-- A Bool as 0 or 1. -/
def b2n (b : Bool) : Nat := if b then 1 else 0

/-- The n low-order bytes of a number, least significant first (R10). -/
def leBytes : Nat → Nat → List Byte
  | 0, _ => []
  | n + 1, v => byteOf v :: leBytes n (v / 256)

/-- The number that bytes hold, least significant first (R10). -/
def leNat : List Byte → Nat
  | [] => 0
  | b :: bs => b.toNat + 256 * leNat bs

/-- The number that bytes hold, most significant first (fields of published standards). -/
def beNat (l : List Byte) : Nat := l.foldl (fun n b => n * 256 + b.toNat) 0

/-- Two's complement reading of w bits. -/
def signed (w v : Nat) : Int := if v % 2 ^ w < 2 ^ (w - 1) then (v % 2 ^ w : Nat) else (v % 2 ^ w : Nat) - (2 ^ w : Nat)

/-- Two's complement encoding in w bits. -/
def unsigned (w : Nat) (i : Int) : Nat := (i % (2 ^ w : Nat)).toNat

/-- n bytes from offset o; bytes beyond the end count as zero. -/
def slice (l : List Byte) (o n : Nat) : List Byte :=
  let t := (l.drop o).take n
  t ++ List.replicate (n - t.length) 0

/-- The number in n bytes from offset o. -/
def fieldAt (l : List Byte) (o n : Nat) : Nat := leNat ((l.drop o).take n)

/-- Zero bytes. -/
def zeros (n : Nat) : List Byte := List.replicate n 0

/-- A byte string made exactly n long: cut, or filled with zero. -/
def fit (n : Nat) (l : List Byte) : List Byte := slice l 0 n

/-- Bit i of a byte string: bit i mod 8 of byte i div 8 (R139). -/
def octBit (l : List Byte) (i : Nat) : Bool := (l.getD (i / 8) 0).toNat.testBit (i % 8)

/-- Set bit i of a byte string. -/
def octSet (l : List Byte) (i : Nat) : List Byte :=
  l.set (i / 8) (byteOf ((l.getD (i / 8) 0).toNat ||| 2 ^ (i % 8)))

/-- Bytewise AND. -/
def octAnd (a b : List Byte) : List Byte := List.zipWith (fun x y => x &&& y) a b

/-- n shifts of a reflected CRC-32 register. -/
def crcShift (poly : Nat) : Nat → Nat → Nat
  | 0, c => c
  | n + 1, c => crcShift poly n (if c % 2 = 1 then Nat.xor (c / 2) poly else c / 2)

/-- A reflected CRC-32 with all ones before and after. -/
def crc32With (poly : Nat) (l : List Byte) : Nat :=
  Nat.xor (l.foldl (fun c b => crcShift poly 8 (Nat.xor c b.toNat)) 0xFFFFFFFF) 0xFFFFFFFF

/-- CRC-32C as HCRC is computed (R78). -/
def crc32c (l : List Byte) : Nat := crc32With 0x82F63B78 l

/-- The frame check sequence of an Ethernet frame, as bytes: IEEE 802.3 (log entry 9). -/
def ethFcs (l : List Byte) : List Byte := leBytes 4 (crc32With 0xEDB88320 l)

/-- Text as bytes. -/
def asciiBytes (s : String) : List Byte := s.toList.map (fun (c : Char) => byteOf c.toNat)

end Sys2Proof.Machine
end

