-- ==== Sys2Proof/Machine/Crypto.lean ====
section
/-! DEFINITION. The published standards that the spec names: the SHA-2 family and HMAC (R258, R372), AES-256 with GCM, CMAC and the
counter-mode KDF of SP 800-108 (R193, R195, R196, R202, R376, R378), and ECDSA over P-384 (R372, R381). Log entry 9. -/

set_option Elab.async false

namespace Sys2Proof.Machine

/-! SHA-2: FIPS 180-4. Its constants are fractions of roots of the first primes, and are computed as such. -/

/-- The number has no divisor from 2 to itself less 1. -/
def isPrime (n : Nat) : Bool := 2 ≤ n && ((upTo n).drop 2).all (fun k => n % k != 0)

/-- The first 80 primes: those below 410. -/
def somePrimes : List Nat := (upTo 410).filter isPrime

/-- The greatest r below 2^(k+1) with r^e at most v, bit by bit from the highest. -/
def rootUpTo (e v : Nat) : Nat → Nat → Nat
  | 0, r => r
  | k + 1, r => rootUpTo e v k (if (r + 2 ^ k) ^ e ≤ v then r + 2 ^ k else r)

/-- The first w bits of the fraction of the e-th root of p. -/
def rootFraction (e w p : Nat) : Nat := rootUpTo e (p * 2 ^ (e * w)) (w + 6) 0 % 2 ^ w

/-- What tells the members of the family apart: word size, rounds, and the rotations of the four mixing functions, the last number of the
two schedule functions being a shift. -/
structure Sha2 where
  w : Nat
  rounds : Nat
  big0 : List Nat
  big1 : List Nat
  small0 : List Nat × Nat
  small1 : List Nat × Nat

/-- The member with words of 32 bits. -/
def sha2Narrow : Sha2 :=
  { w := 32, rounds := 64, big0 := [2, 13, 22], big1 := [6, 11, 25], small0 := ([7, 18], 3), small1 := ([17, 19], 10) }

/-- The member with words of 64 bits. -/
def sha2Wide : Sha2 :=
  { w := 64, rounds := 80, big0 := [28, 34, 39], big1 := [14, 18, 41], small0 := ([1, 8], 7), small1 := ([19, 61], 6) }

/-- The exclusive or of a word's rotations. -/
def rotations {w : Nat} (ns : List Nat) (x : BitVec w) : BitVec w := ns.foldl (fun y n => y ^^^ x.rotateRight n) 0

/-- Words of a block, most significant byte first, the last word first. -/
def blockWords (w : Nat) : Nat → List Byte → List (BitVec w) → List (BitVec w)
  | 0, _, acc => acc
  | n + 1, l, acc => blockWords w n (l.drop (w / 8)) (BitVec.ofNat w (beNat (l.take (w / 8))) :: acc)

/-- The message schedule, the last word first. -/
def schedule (v : Sha2) : Nat → List (BitVec v.w) → List (BitVec v.w)
  | 0, ws => ws
  | n + 1, ws =>
    let x := ws.getD 1 0
    let y := ws.getD 14 0
    let near := rotations v.small1.1 x ^^^ (x >>> v.small1.2)
    let far := rotations v.small0.1 y ^^^ (y >>> v.small0.2)
    schedule v n ((near + ws.getD 6 0 + far + ws.getD 15 0) :: ws)

/-- The fraction words of the cube roots of the first primes, one for each round. -/
def roundWords (v : Sha2) : List (BitVec v.w) := (somePrimes.take v.rounds).map (fun p => BitVec.ofNat v.w (rootFraction 3 v.w p))

/-- One round on the eight working words, first to last; `kw` is the round's constant plus its schedule word. -/
def sha2Round (v : Sha2) (s : List (BitVec v.w)) (kw : BitVec v.w) : List (BitVec v.w) :=
  let g := fun i => s.getD i 0
  let choose := (g 4 &&& g 5) ^^^ (~~~(g 4) &&& g 6)
  let most := (g 0 &&& (g 1 ^^^ g 2)) ^^^ (g 1 &&& g 2)
  let t := g 7 + rotations v.big1 (g 4) + choose + kw
  [t + rotations v.big0 (g 0) + most, g 0, g 1, g 2, g 3 + t, g 4, g 5, g 6]

/-- One block. -/
def sha2Block (v : Sha2) (ks : List (BitVec v.w)) (s : List (BitVec v.w)) (blk : List Byte) : List (BitVec v.w) :=
  let ws := (schedule v (v.rounds - 16) (blockWords v.w 16 blk [])).reverse
  List.zipWith (fun x y => x + y) s ((List.zipWith (fun k w => k + w) ks ws).foldl (sha2Round v) s)

/-- All blocks. -/
def sha2Blocks (v : Sha2) (ks : List (BitVec v.w)) : Nat → List Byte → List (BitVec v.w) → List (BitVec v.w)
  | 0, _, s => s
  | n + 1, l, s => sha2Blocks v ks n (l.drop (2 * v.w)) (sha2Block v ks s (l.take (2 * v.w)))

/-- The message with its end mark and its length in bits, filled to whole blocks. -/
def sha2Padded (v : Sha2) (l : List Byte) : List Byte :=
  let blk := 2 * v.w
  let used := (l.length + 1 + v.w / 4) % blk
  l ++ [0x80] ++ zeros ((blk - used) % blk) ++ (leBytes (v.w / 4) (8 * l.length)).reverse

/-- The digest from the starting words that the square roots of eight primes give, those from the n-th on. -/
def sha2 (v : Sha2) (n outBytes : Nat) (l : List Byte) : List Byte :=
  let p := sha2Padded v l
  let start := ((somePrimes.drop n).take 8).map (fun p => BitVec.ofNat v.w (rootFraction 2 v.w p))
  let s := sha2Blocks v (roundWords v) (p.length / (2 * v.w)) p start
  (s.flatMap (fun x => (leBytes (v.w / 8) x.toNat).reverse)).take outBytes

/-- SHA-256. -/
def sha256 (l : List Byte) : List Byte := sha2 sha2Narrow 0 32 l

/-- SHA-384. -/
def sha384 (l : List Byte) : List Byte := sha2 sha2Wide 8 48 l

/-- HMAC-SHA-256: RFC 2104. -/
def hmacSha256 (key msg : List Byte) : List Byte :=
  let k := fit 64 (if key.length > 64 then sha256 key else key)
  sha256 (k.map (fun b => b ^^^ 0x5c) ++ sha256 (k.map (fun b => b ^^^ 0x36) ++ msg))

/-! AES-256: FIPS 197. -/

/-- Bytewise exclusive or. -/
def octXor (a b : List Byte) : List Byte := List.zipWith (fun x y => x ^^^ y) a b

/-- Product in GF(2^8) by a polynomial, for n bits of the second factor. -/
def gfMulWith (poly : Nat) : Nat → Nat → Nat → Nat
  | 0, _, _ => 0
  | n + 1, a, b =>
    let doubled := if 128 ≤ a then Nat.xor (2 * a) poly else 2 * a
    Nat.xor (if b % 2 = 1 then a else 0) (gfMulWith poly n doubled (b / 2))

/-- Product in the field of AES. -/
def gfMul (a b : Nat) : Nat := gfMulWith 0x11B 8 a b

/-- Inverse in the field of AES, 0 for 0: the power 254, which is 2 + 4 + 8 + … + 128. -/
def gfInv (a : Nat) : Nat :=
  let sq := fun x => gfMul x x
  ((upTo 7).foldl (fun (r : Nat × Nat) _ => (gfMul r.1 (sq r.2), sq r.2)) (1, a)).1

/-- SubBytes: the inverse, and the affine map. -/
def aesSub (b : Byte) : Byte :=
  let x := byteOf (gfInv b.toNat)
  x ^^^ x.rotateLeft 1 ^^^ x.rotateLeft 2 ^^^ x.rotateLeft 3 ^^^ x.rotateLeft 4 ^^^ 0x63

/-- The table of SubBytes. -/
def aesTable : List Byte := (upTo 256).map (fun n => aesSub (byteOf n))

/-- SubBytes by the table. -/
def aesLookup (t : List Byte) (b : Byte) : Byte := t.getD b.toNat 0

/-- Words of the key schedule after the key's eight, by their number; `ws` holds the words so far, the last first. -/
def aesExpand (t : List Byte) : Nat → Nat → Nat → List (List Byte) → List (List Byte)
  | 0, _, _, ws => ws
  | n + 1, i, rcon, ws =>
    let prev := ws.getD 0 []
    let old := ws.getD 7 []
    let turned := if i % 8 = 0 then octXor ((prev.drop 1 ++ prev.take 1).map (aesLookup t)) [byteOf rcon, 0, 0, 0]
      else if i % 8 = 4 then prev.map (aesLookup t) else prev
    aesExpand t n (i + 1) (if i % 8 = 0 then gfMul rcon 2 else rcon) (octXor old turned :: ws)

/-- The words of a byte string, four bytes each. -/
def words4 : Nat → List Byte → List (List Byte)
  | 0, _ => []
  | n + 1, l => l.take 4 :: words4 n (l.drop 4)

/-- The round keys of a 256-bit key. -/
def aesKeys (key : List Byte) : List (List Byte) :=
  let ws := (aesExpand aesTable 52 8 1 (words4 8 (fit 32 key)).reverse).reverse
  (upTo 15).map (fun r => ((ws.drop (4 * r)).take 4).flatten)

/-- ShiftRows: row r of the four columns turns left by r. -/
def shiftRows (s : List Byte) : List Byte := (upTo 16).map (fun i => s.getD ((i + 4 * (i % 4)) % 16) 0)

/-- MixColumns. -/
def mixColumns (s : List Byte) : List Byte :=
  (upTo 16).map (fun i =>
    let c := fun k => (s.getD (i / 4 * 4 + (i + k) % 4) 0).toNat
    byteOf (Nat.xor (Nat.xor (gfMul (c 0) 2) (gfMul (c 1) 3)) (Nat.xor (c 2) (c 3))))

/-- The rounds after the first key, all but the last with MixColumns. -/
def aesRounds (t : List Byte) : List (List Byte) → List Byte → List Byte
  | [], s => s
  | [k], s => octXor (shiftRows (s.map (aesLookup t))) k
  | k :: ks, s => aesRounds t ks (octXor (mixColumns (shiftRows (s.map (aesLookup t)))) k)

/-- AES-256 of one block. -/
def aes256 (key blk : List Byte) : List Byte :=
  match aesKeys key with
  | [] => []
  | k :: ks => aesRounds aesTable ks (octXor (fit 16 blk) k)

/-! GCM and CMAC: SP 800-38D and SP 800-38B. -/

/-- Product in GF(2^128) as GCM orders its bits, for the bits of x from the first. -/
def ghashMul : Nat → Nat → Nat → Nat
  | 0, _, _ => 0
  | n + 1, x, v =>
    Nat.xor (if x.testBit n then v else 0) (ghashMul n x (if v % 2 = 1 then Nat.xor (v / 2) (0xE1 * 2 ^ 120) else v / 2))

/-- Blocks of 16 bytes, the last filled with zero. -/
def blocks16 : Nat → List Byte → List (List Byte)
  | 0, _ => []
  | n + 1, l => if l.isEmpty then [] else fit 16 l :: blocks16 n (l.drop 16)

/-- GHASH of some blocks under a hash key. -/
def ghash (h : List Byte) (bs : List (List Byte)) : List Byte :=
  (leBytes 16 (bs.foldl (fun y b => ghashMul 128 (Nat.xor y (beNat b)) (beNat h)) 0)).reverse

/-- The blocks that GCM hashes: additional data, ciphertext, and both lengths in bits. -/
def gcmBlocks (aad ct : List Byte) : List (List Byte) :=
  blocks16 (aad.length + 1) aad ++ blocks16 (ct.length + 1) ct ++ [(leBytes 8 (8 * ct.length) ++ leBytes 8 (8 * aad.length)).reverse]

/-- Counter block i of a 12-byte initialisation vector. -/
def gcmCounter (iv : List Byte) (i : Nat) : List Byte := fit 12 iv ++ (leBytes 4 i).reverse

/-- AES-256-GCM encryption, which is also decryption: the key stream starts at counter 2. -/
def gcmCrypt (key iv text : List Byte) : List Byte :=
  let bs := blocks16 (text.length + 1) text
  let ks := (upTo bs.length).flatMap (fun i => aes256 key (gcmCounter iv (i + 2)))
  octXor text ks

/-- The AES-256-GCM tag of additional data and ciphertext. -/
def gcmTag (key iv aad ct : List Byte) : List Byte := octXor (ghash (aes256 key (zeros 16)) (gcmBlocks aad ct)) (aes256 key (gcmCounter iv 1))

/-- The Fog counter block (R195), its most significant byte first (log entry 9). -/
def counterBlock (domain line major minor block : Nat) : List Byte :=
  (leBytes 16 (domain * 2 ^ 120 + line * 2 ^ 82 + major * 2 ^ 50 + minor * 2 ^ 42 + block * 2 ^ 32)).reverse

/-- Double in the field of CMAC. -/
def cmacDouble (b : List Byte) : List Byte :=
  let n := beNat b
  (leBytes 16 (if 2 ^ 127 ≤ n then Nat.xor (2 * n % 2 ^ 128) 0x87 else 2 * n)).reverse

/-- AES-256-CMAC. -/
def cmacAes256 (key msg : List Byte) : List Byte :=
  let k1 := cmacDouble (aes256 key (zeros 16))
  let whole := msg.length % 16 = 0 && !msg.isEmpty
  let n := if whole then msg.length - 16 else msg.length / 16 * 16
  let tail := if whole then octXor (msg.drop n) k1 else octXor (fit 16 (msg.drop n ++ [0x80])) (cmacDouble k1)
  aes256 key (octXor ((blocks16 n (msg.take n)).foldl (fun y b => aes256 key (octXor y b)) (zeros 16)) tail)

/-! The counter-mode KDF: SP 800-108. -/

/-- Block i of the derivation: counter and output length in bits as 4 bytes, most significant first (log entry 9). -/
def kdfInput (label context : List Byte) (bits i : Nat) : List Byte :=
  (leBytes 4 i).reverse ++ label ++ [0] ++ context ++ (leBytes 4 bits).reverse

/-- n bytes derived with a pseudorandom function of blocks of some bytes. -/
def kdf (prf : List Byte → List Byte) (blk n : Nat) (label context : List Byte) : List Byte :=
  ((upTo ((n + blk - 1) / blk)).flatMap (fun i => prf (kdfInput label context (8 * n) (i + 1)))).take n

/-- With AES-256-CMAC (R193). -/
def kdfCmac (key : List Byte) (n : Nat) (label context : List Byte) : List Byte := kdf (cmacAes256 key) 16 n label context

/-- With HMAC-SHA-256 (R202). -/
def kdfHmac (key : List Byte) (n : Nat) (label context : List Byte) : List Byte := kdf (hmacSha256 key) 32 n label context

/-! ECDSA over P-384: FIPS 186-5. -/

/-- The prime of P-384. -/
def p384 : Nat := 2 ^ 384 - 2 ^ 128 - 2 ^ 96 + 2 ^ 32 - 1

/-- The order of its group. -/
def p384Order : Nat := 2 ^ 384 - 1388124618062372383947042015309946732620727252194336364173

/-- The coefficient b of its curve. -/
def p384B : Nat := 0xb3312fa7e23ee7e4988e056be3f82d19181d9c6efe8141120314088f5013875ac656398d8a2ed19d2a85c8edd3ec2aef

/-- Its base point. -/
def p384Base : Nat × Nat :=
  (0xaa87ca22be8b05378eb1c71ef320ad746e1d3b628ba79b9859f741e082542a385502f25dbf55296c3a545e3872760ab7,
   0x3617de4a96262c6f5d9e98bf9292dc29f8f41dbd289a147ce9da3113b5f0b8c00a60b1ce1d7e819d7a431d7c90ea0e5f)

/-- A power modulo m, for k bits of the exponent. -/
def powMod (m : Nat) : Nat → Nat → Nat → Nat
  | 0, _, _ => 1 % m
  | k + 1, a, e => (if e % 2 = 1 then a else 1) * powMod m k (a * a % m) (e / 2) % m

/-- Inverse modulo a prime. -/
def invMod (m a : Nat) : Nat := powMod m 384 (a % m) (m - 2)

/-- Sum of two points of the curve; none is the point at infinity. -/
def p384Add (a b : Option (Nat × Nat)) : Option (Nat × Nat) :=
  match a, b with
  | none, y => y
  | x, none => x
  | some (x1, y1), some (x2, y2) =>
    if x1 = x2 && (y1 + y2) % p384 = 0 then none
    else
      let s := if x1 = x2 then (3 * x1 * x1 + (p384 - 3)) * invMod p384 (2 * y1) % p384
        else (y2 + (p384 - y1)) * invMod p384 (x2 + (p384 - x1)) % p384
      let x3 := (s * s + (p384 - x1) + (p384 - x2)) % p384
      some (x3, (s * (x1 + (p384 - x3)) + (p384 - y1)) % p384)

/-- A multiple of a point, for n bits of the factor. -/
def p384Mul : Nat → Nat → Option (Nat × Nat) → Option (Nat × Nat)
  | 0, _, _ => none
  | n + 1, k, a => p384Add (if k % 2 = 1 then a else none) (p384Mul n (k / 2) (p384Add a a))

/-- The point lies on the curve. -/
def p384On (x y : Nat) : Bool := x < p384 && y < p384 && y * y % p384 == (x * x * x + (p384 - 3) * x + p384B) % p384

/-- An ECDSA P-384 signature, r then s, of a SHA-384 digest verifies under a public key, x then y. -/
def ecdsaOk (pub sig digest : List Byte) : Bool :=
  let q := (beNat (pub.take 48), beNat ((pub.drop 48).take 48))
  let r := beNat (sig.take 48)
  let s := beNat ((sig.drop 48).take 48)
  let w := invMod p384Order s
  let at_ := p384Add (p384Mul 384 (beNat digest * w % p384Order) (some p384Base)) (p384Mul 384 (r * w % p384Order) (some q))
  p384On q.1 q.2 && 0 < r && r < p384Order && 0 < s && s < p384Order && (match at_ with
    | some (x, _) => x % p384Order == r
    | none => false)

end Sys2Proof.Machine
end

