-- ==== Sys2Proof/Machine/Objects.lean ====
section
/-! DEFINITION. The objects of the dictionary, as the object tables of the chapters print them (R247 to R254): one
definition for each row. The index of an occurrence is base + s1·a + s2·b and its sub-index is sub0 + c. -/

set_option Elab.async false

namespace Sys2Proof.Machine

/-- Type encodings (R249). -/
inductive ObjType
  | bool | u8 | u16 | u32 | u64 | i8 | i16 | i32 | i64 | tick64 | csa52 | octets | string | record
deriving DecidableEq, Repr

/-- Access codes (R250). -/
inductive Access
  | ro | rw | wo | rc
deriving DecidableEq, Repr

/-- Commit classes (R251). -/
inductive CommitClass
  | live | quiesce | config | reset
deriving DecidableEq, Repr

/-- What a committed write of the object does besides storing its value. -/
inductive Eff
  | plain | timeSet | discMode | layout | portMode | direction | laneEq | eyeStart
  | spapaxEnable | engControl | engFlush | capEnable | capSession | flowScan | flowClear | frontControl
  | retMode | retTrigger | txControl | txForceDown | lullControl | ringMove | stageMove | thaw
  | poisonClear | chkOp | chkLine | storeControl | storeUnpin | ctlReset | adminCmd | nsMap
  | nsInit | sessEnable | quota | unpinAll | release | queryControl | authKey | ckptInterval
  | logCheckpoint | streamSession | twinAlign | frontSide | twinLeave | twinTakeover | twinAdopt | coreControl
  | timeRef | xbEnable | clkRevert | fabEnable | clkGate | reconfigure | efuseKey | bbramKey
  | bbramErase | pubKeyHash | revoke | secVersion | policy | linkPairing | fwUpdate | domainControl
  | runNow | clearPermanent | clearSuspect | rawSelect
deriving DecidableEq, Repr

/-- Where a read of the object takes its value: the stored value, or a part of the machine's other state. -/
inductive RdKind
  | stored | now | eyeResult | ingestLevel | credit | nextSeq | settling | flowEntries
  | flowTable | routesActive | lag | queueLevel | oldestTick | stageLevel | snapshot | poison
  | overflowLog | reencryptActive | maxEpoch | freeExtents | extentEntry | nsFree | used | pinned
  | sessFirst | sessLast | vendor | part | openTxns | txns | logEntries | logNext
  | rawPage | rawStatus | localOnly | shadow | shadowTick | peerLog | niErrors | niOverflows
  | niQueue | measured | corePending | history | results | duaxisState | duaxisRepair | duaxisSuspect
  | duaxisCorrected | duaxisUncorrectable | duaxisReplays | tableBytes | spareBlocks
deriving DecidableEq, Repr

/-- A check of the object's own layout beside its range, mask and multiple (R249). -/
inductive Chk
  | none | portStd | dfe | ffe | keyWindow | branch | route | matchControl
  | lengths | oneTier | pow2 | adminCmd | duaxisSelect | sramNumber | testUnit
deriving DecidableEq, Repr

/-- Index arithmetic that leaves out some occurrences: memory channels, sensors of short dies, routers, origins. -/
inductive Hole
  | none | chan | sensor | router | origin
deriving DecidableEq, Repr

/-- One row of an object table. -/
structure ObjDef where
  name : String
  base : Nat
  s1 : Nat := 0
  n1 : Nat := 1
  s2 : Nat := 0
  n2 : Nat := 1
  sub0 : Nat
  subs : Nat := 1
  ty : ObjType
  acc : Access
  cls : CommitClass
  dflt : List Int := [0]
  lo : Int := 0
  hi : Int := 0
  mult : Nat := 1
  also : List Int := []
  mask : Option Nat := Option.none
  len : Nat := 0
  fixed : Bool := false
  entry : Nat := 0
  persist : Bool := false
  secret : Bool := false
  chk : Chk := .none
  eff : Eff := .plain
  rd : RdKind := .stored
  hole : Hole := .none
deriving DecidableEq, Repr

/-- The value of an object: a number, or a string of bytes. -/
inductive Val
  | num (n : Int)
  | oct (b : List Byte)
deriving DecidableEq, Repr

/-- The key of an occurrence: index·256 + sub-index. -/
def ObjDef.key (o : ObjDef) (a b c : Nat) : Nat := (o.base + o.s1 * a + o.s2 * b) * 256 + (o.sub0 + c)

/-- The default of an occurrence (R254). -/
def ObjDef.default (o : ObjDef) (a b c : Nat) : Val :=
  match o.ty with
  | .octets | .string | .record => .oct (if o.fixed then zeros o.len else [])
  | _ => .num (o.dflt.getD (((a * o.n2 + b) * o.subs + c) % o.dflt.length) 0)

/-! The objects of chapter 01 (R32). -/

/-- TimeBase.Now. -/
def O.timeBaseNow : ObjDef :=
  { name := "TimeBase.Now", base := 0x2200, sub0 := 0x1, ty := .tick64, acc := .ro, cls := .live, lo := 0, hi := 18446744073709551615, rd := .now }

/-- TimeBase.Scale. -/
def O.timeBaseScale : ObjDef :=
  { name := "TimeBase.Scale", base := 0x2200, sub0 := 0x2, ty := .u8, acc := .rw, cls := .quiesce, lo := 0, hi := 1 }

/-- TimeBase.Set. -/
def O.timeBaseSet : ObjDef :=
  { name := "TimeBase.Set", base := 0x2200, sub0 := 0x3, ty := .tick64, acc := .wo, cls := .quiesce, lo := 0, hi := 18446744073709551615, eff := .timeSet }

/-- TimeDiscipline.Mode. -/
def O.timeDisciplineMode : ObjDef :=
  { name := "TimeDiscipline.Mode", base := 0x2201, sub0 := 0x1, ty := .u8, acc := .rw, cls := .live, lo := 0, hi := 3, eff := .discMode }

/-- TimeDiscipline.State. -/
def O.timeDisciplineState : ObjDef :=
  { name := "TimeDiscipline.State", base := 0x2201, sub0 := 0x2, ty := .u8, acc := .ro, cls := .live, lo := 0, hi := 255 }

/-- TimeDiscipline.Offset. -/
def O.timeDisciplineOffset : ObjDef :=
  { name := "TimeDiscipline.Offset", base := 0x2201, sub0 := 0x3, ty := .i32, acc := .ro, cls := .live, lo := -2147483648, hi := 2147483647 }

/-- TimeDiscipline.FreqCorr. -/
def O.timeDisciplineFreqCorr : ObjDef :=
  { name := "TimeDiscipline.FreqCorr", base := 0x2201, sub0 := 0x4, ty := .i32, acc := .ro, cls := .live, lo := -2147483648, hi := 2147483647 }

/-- TimeDiscipline.HoldoverLimit. -/
def O.timeDisciplineHoldoverLimit : ObjDef :=
  { name := "TimeDiscipline.HoldoverLimit", base := 0x2201, sub0 := 0x5, ty := .u32, acc := .rw, cls := .live, dflt := [3600], lo := 1, hi := 604800 }

/-- TimeDiscipline.PpsDelay. -/
def O.timeDisciplinePpsDelay : ObjDef :=
  { name := "TimeDiscipline.PpsDelay", base := 0x2201, sub0 := 0x6, ty := .i32, acc := .rw, cls := .live, lo := -16777216, hi := 16777215 }

/-- TimeDiscipline.PpsFaults. -/
def O.timeDisciplinePpsFaults : ObjDef :=
  { name := "TimeDiscipline.PpsFaults", base := 0x2201, sub0 := 0x7, ty := .u32, acc := .rc, cls := .live, lo := 0, hi := 4294967295 }

/-- TimeDiscipline.PtpDomain. -/
def O.timeDisciplinePtpDomain : ObjDef :=
  { name := "TimeDiscipline.PtpDomain", base := 0x2202, sub0 := 0x1, ty := .u8, acc := .rw, cls := .live, lo := 0, hi := 127 }

/-- TimeDiscipline.PtpPort. -/
def O.timeDisciplinePtpPort : ObjDef :=
  { name := "TimeDiscipline.PtpPort", base := 0x2202, sub0 := 0x2, ty := .u8, acc := .rw, cls := .live, lo := 0, hi := 1 }

/-- TimeDiscipline.PtpCoarseOffset. -/
def O.timeDisciplinePtpCoarseOffset : ObjDef :=
  { name := "TimeDiscipline.PtpCoarseOffset", base := 0x2202, sub0 := 0x3, ty := .i64, acc := .ro, cls := .live, lo := -9223372036854775808, hi := 9223372036854775807 }

/-- TimeMarker.Interval. -/
def O.timeMarkerInterval : ObjDef :=
  { name := "TimeMarker.Interval", base := 0x2203, sub0 := 0x1, ty := .u32, acc := .rw, cls := .live, dflt := [1000], lo := 10, hi := 60000, also := [0] }

/-- TimeReplica.FaultCount. -/
def O.timeReplicaFaultCount : ObjDef :=
  { name := "TimeReplica.FaultCount", base := 0x2204, sub0 := 0x1, ty := .u32, acc := .rc, cls := .live, lo := 0, hi := 4294967295 }

/-- TimeBase.LaneOffset. -/
def O.timeBaseLaneOffset : ObjDef :=
  { name := "TimeBase.LaneOffset", base := 0x2210, sub0 := 0x1, subs := 144, ty := .i32, acc := .rw, cls := .live, lo := -16777216, hi := 16777215 }

/-- Rows of chapter 01. -/
def objRows01a : List ObjDef :=
  [O.timeBaseNow, O.timeBaseScale, O.timeBaseSet, O.timeDisciplineMode, O.timeDisciplineState,
   O.timeDisciplineOffset, O.timeDisciplineFreqCorr, O.timeDisciplineHoldoverLimit, O.timeDisciplinePpsDelay, O.timeDisciplinePpsFaults,
   O.timeDisciplinePtpDomain, O.timeDisciplinePtpPort, O.timeDisciplinePtpCoarseOffset, O.timeMarkerInterval, O.timeReplicaFaultCount,
   O.timeBaseLaneOffset]

/-! The objects of chapter 02 (R74 and R75). -/

/-- Vane.Mode. -/
def O.vaneMode : ObjDef :=
  { name := "Vane.Mode", base := 0x1800, s1 := 0x40, n1 := 2, sub0 := 0x1, ty := .u8, acc := .rw, cls := .reset, dflt := [1], lo := 0, hi := 2, persist := true }

/-- Vane.MacAddress. -/
def O.vaneMacAddress : ObjDef :=
  { name := "Vane.MacAddress", base := 0x1800, s1 := 0x40, n1 := 2, sub0 := 0x2, ty := .octets, acc := .rw, cls := .reset, len := 6, fixed := true, persist := true }

/-- Vane.LinkState. -/
def O.vaneLinkState : ObjDef :=
  { name := "Vane.LinkState", base := 0x1800, s1 := 0x40, n1 := 2, sub0 := 0x3, ty := .u8, acc := .ro, cls := .live, lo := 0, hi := 255 }

/-- Vane.Ipv4Address. -/
def O.vaneIpv4Address : ObjDef :=
  { name := "Vane.Ipv4Address", base := 0x1801, s1 := 0x40, n1 := 2, sub0 := 0x1, ty := .octets, acc := .rw, cls := .live, len := 4, fixed := true, persist := true }

/-- Vane.Ipv4Prefix. -/
def O.vaneIpv4Prefix : ObjDef :=
  { name := "Vane.Ipv4Prefix", base := 0x1801, s1 := 0x40, n1 := 2, sub0 := 0x2, ty := .u8, acc := .rw, cls := .live, dflt := [24], lo := 0, hi := 32, persist := true }

/-- Vane.Ipv4Gateway. -/
def O.vaneIpv4Gateway : ObjDef :=
  { name := "Vane.Ipv4Gateway", base := 0x1801, s1 := 0x40, n1 := 2, sub0 := 0x3, ty := .octets, acc := .rw, cls := .live, len := 4, fixed := true, persist := true }

/-- Vane.Ipv6Address. -/
def O.vaneIpv6Address : ObjDef :=
  { name := "Vane.Ipv6Address", base := 0x1802, s1 := 0x40, n1 := 2, sub0 := 0x1, ty := .octets, acc := .rw, cls := .live, len := 16, fixed := true, persist := true }

/-- Vane.Ipv6Prefix. -/
def O.vaneIpv6Prefix : ObjDef :=
  { name := "Vane.Ipv6Prefix", base := 0x1802, s1 := 0x40, n1 := 2, sub0 := 0x2, ty := .u8, acc := .rw, cls := .live, dflt := [64], lo := 0, hi := 128, persist := true }

/-- Vane.UdpPort. -/
def O.vaneUdpPort : ObjDef :=
  { name := "Vane.UdpPort", base := 0x1803, s1 := 0x40, n1 := 2, sub0 := 0x1, ty := .u16, acc := .rw, cls := .live, dflt := [47101], lo := 1024, hi := 65535, persist := true }

/-- Vane.VlanId. -/
def O.vaneVlanId : ObjDef :=
  { name := "Vane.VlanId", base := 0x1803, s1 := 0x40, n1 := 2, sub0 := 0x2, ty := .u16, acc := .rw, cls := .live, lo := 1, hi := 4094, also := [0], persist := true }

/-- Vane.EchoEnable. -/
def O.vaneEchoEnable : ObjDef :=
  { name := "Vane.EchoEnable", base := 0x1803, s1 := 0x40, n1 := 2, sub0 := 0x3, ty := .bool, acc := .rw, cls := .live, dflt := [1], lo := 0, hi := 1, persist := true }

/-- Vane.DroppedFrames. -/
def O.vaneDroppedFrames : ObjDef :=
  { name := "Vane.DroppedFrames", base := 0x1804, s1 := 0x40, n1 := 2, sub0 := 0x1, ty := .u64, acc := .rc, cls := .live, lo := 0, hi := 18446744073709551615 }

/-- Vane.AuthFailures. -/
def O.vaneAuthFailures : ObjDef :=
  { name := "Vane.AuthFailures", base := 0x1804, s1 := 0x40, n1 := 2, sub0 := 0x2, ty := .u32, acc := .rc, cls := .live, lo := 0, hi := 4294967295 }

/-- Vane.Lockouts. -/
def O.vaneLockouts : ObjDef :=
  { name := "Vane.Lockouts", base := 0x1804, s1 := 0x40, n1 := 2, sub0 := 0x3, ty := .u32, acc := .rc, cls := .live, lo := 0, hi := 4294967295 }

/-- Quad.Role. -/
def O.quadRole : ObjDef :=
  { name := "Quad.Role", base := 0x3000, s1 := 0x40, n1 := 36, sub0 := 0x1, ty := .u8, acc := .ro, cls := .config, lo := 0, hi := 255 }

/-- Quad.Layout. -/
def O.quadLayout : ObjDef :=
  { name := "Quad.Layout", base := 0x3000, s1 := 0x40, n1 := 36, sub0 := 0x2, ty := .u8, acc := .rw, cls := .quiesce, dflt := [2], lo := 0, hi := 4, eff := .layout }

/-- Quad.GroupBase. -/
def O.quadGroupBase : ObjDef :=
  { name := "Quad.GroupBase", base := 0x3000, s1 := 0x40, n1 := 36, sub0 := 0x3, ty := .u8, acc := .ro, cls := .live, dflt := [0, 1, 2, 3, 4, 5, 6, 7, 8, 9, 10, 11, 12, 13, 14, 15, 16, 17, 18, 19, 20, 21, 22, 23, 24, 25, 26, 27, 28, 29, 30, 31, 32, 33, 34, 35], lo := 0, hi := 255 }

/-- Quad.RefClkSelect. -/
def O.quadRefClkSelect : ObjDef :=
  { name := "Quad.RefClkSelect", base := 0x3000, s1 := 0x40, n1 := 36, sub0 := 0x4, ty := .u8, acc := .ro, cls := .config, lo := 0, hi := 255 }

/-- Quad.RefClkStatus. -/
def O.quadRefClkStatus : ObjDef :=
  { name := "Quad.RefClkStatus", base := 0x3000, s1 := 0x40, n1 := 36, sub0 := 0x5, ty := .u8, acc := .ro, cls := .live, lo := 0, hi := 255 }

/-- Port.Standard. -/
def O.portStandard : ObjDef :=
  { name := "Port.Standard", base := 0x3004, s1 := 0x40, n1 := 36, s2 := 1, n2 := 4, sub0 := 0x1, ty := .u8, acc := .rw, cls := .live, dflt := [64], lo := 16, hi := 96, chk := .portStd, eff := .portMode }

/-- Port.LaneRate. -/
def O.portLaneRate : ObjDef :=
  { name := "Port.LaneRate", base := 0x3004, s1 := 0x40, n1 := 36, s2 := 1, n2 := 4, sub0 := 0x2, ty := .u32, acc := .rw, cls := .live, dflt := [10312500], lo := 1250000, hi := 116000000, eff := .portMode }

/-- Port.Direction. -/
def O.portDirection : ObjDef :=
  { name := "Port.Direction", base := 0x3004, s1 := 0x40, n1 := 36, s2 := 1, n2 := 4, sub0 := 0x3, ty := .bool, acc := .rw, cls := .live, lo := 0, hi := 1, eff := .direction }

/-- Port.FecMode. -/
def O.portFecMode : ObjDef :=
  { name := "Port.FecMode", base := 0x3004, s1 := 0x40, n1 := 36, s2 := 1, n2 := 4, sub0 := 0x4, ty := .u8, acc := .rw, cls := .live, lo := 0, hi := 1 }

/-- Port.State. -/
def O.portState : ObjDef :=
  { name := "Port.State", base := 0x3004, s1 := 0x40, n1 := 36, s2 := 1, n2 := 4, sub0 := 0x5, ty := .u8, acc := .ro, cls := .live, lo := 0, hi := 255 }

/-- Port.DownReason. -/
def O.portDownReason : ObjDef :=
  { name := "Port.DownReason", base := 0x3004, s1 := 0x40, n1 := 36, s2 := 1, n2 := 4, sub0 := 0x6, ty := .u8, acc := .ro, cls := .live, lo := 0, hi := 255 }

/-- Port.LastChangeTick. -/
def O.portLastChangeTick : ObjDef :=
  { name := "Port.LastChangeTick", base := 0x3004, s1 := 0x40, n1 := 36, s2 := 1, n2 := 4, sub0 := 0x7, ty := .tick64, acc := .ro, cls := .live, lo := 0, hi := 18446744073709551615 }

/-- Port.DownCount. -/
def O.portDownCount : ObjDef :=
  { name := "Port.DownCount", base := 0x3004, s1 := 0x40, n1 := 36, s2 := 1, n2 := 4, sub0 := 0x8, ty := .u32, acc := .rc, cls := .live, lo := 0, hi := 4294967295 }

/-- Port.UpDebounce. -/
def O.portUpDebounce : ObjDef :=
  { name := "Port.UpDebounce", base := 0x3004, s1 := 0x40, n1 := 36, s2 := 1, n2 := 4, sub0 := 0x9, ty := .u32, acc := .rw, cls := .live, dflt := [100], lo := 10, hi := 100000 }

/-- Port.DownDebounce. -/
def O.portDownDebounce : ObjDef :=
  { name := "Port.DownDebounce", base := 0x3004, s1 := 0x40, n1 := 36, s2 := 1, n2 := 4, sub0 := 0xA, ty := .u32, acc := .rw, cls := .live, dflt := [10], lo := 1, hi := 10000 }

/-- Port.FlapLimit. -/
def O.portFlapLimit : ObjDef :=
  { name := "Port.FlapLimit", base := 0x3004, s1 := 0x40, n1 := 36, s2 := 1, n2 := 4, sub0 := 0xB, ty := .u16, acc := .rw, cls := .live, dflt := [64], lo := 2, hi := 10000, also := [0] }

/-- Port.PcieIdleLimit. -/
def O.portPcieIdleLimit : ObjDef :=
  { name := "Port.PcieIdleLimit", base := 0x3004, s1 := 0x40, n1 := 36, s2 := 1, n2 := 4, sub0 := 0xC, ty := .u32, acc := .rw, cls := .live, dflt := [100000], lo := 1000, hi := 10000000 }

/-- Port.FecCorrected. -/
def O.portFecCorrected : ObjDef :=
  { name := "Port.FecCorrected", base := 0x3004, s1 := 0x40, n1 := 36, s2 := 1, n2 := 4, sub0 := 0xD, ty := .u64, acc := .rc, cls := .live, lo := 0, hi := 18446744073709551615 }

/-- Port.FecUncorrected. -/
def O.portFecUncorrected : ObjDef :=
  { name := "Port.FecUncorrected", base := 0x3004, s1 := 0x40, n1 := 36, s2 := 1, n2 := 4, sub0 := 0xE, ty := .u64, acc := .rc, cls := .live, lo := 0, hi := 18446744073709551615 }

/-- Port.PcieSpeed. -/
def O.portPcieSpeed : ObjDef :=
  { name := "Port.PcieSpeed", base := 0x3004, s1 := 0x40, n1 := 36, s2 := 1, n2 := 4, sub0 := 0xF, ty := .u8, acc := .ro, cls := .live, lo := 0, hi := 255 }

/-- Port.PcieWidth. -/
def O.portPcieWidth : ObjDef :=
  { name := "Port.PcieWidth", base := 0x3004, s1 := 0x40, n1 := 36, s2 := 1, n2 := 4, sub0 := 0x10, ty := .u8, acc := .ro, cls := .live, lo := 0, hi := 255 }

/-- Port.RetuneLimit. -/
def O.portRetuneLimit : ObjDef :=
  { name := "Port.RetuneLimit", base := 0x3004, s1 := 0x40, n1 := 36, s2 := 1, n2 := 4, sub0 := 0x11, ty := .u32, acc := .rw, cls := .live, dflt := [2000], lo := 100, hi := 100000 }

/-- Port.TxPll. -/
def O.portTxPll : ObjDef :=
  { name := "Port.TxPll", base := 0x3004, s1 := 0x40, n1 := 36, s2 := 1, n2 := 4, sub0 := 0x12, ty := .u8, acc := .ro, cls := .live, dflt := [255], lo := 0, hi := 255 }

/-- Lane.RxEqMode. -/
def O.laneRxEqMode : ObjDef :=
  { name := "Lane.RxEqMode", base := 0x3010, s1 := 0x40, n1 := 36, s2 := 1, n2 := 4, sub0 := 0x1, ty := .u8, acc := .rw, cls := .live, lo := 0, hi := 2, eff := .laneEq }

/-- Lane.CtlePeak. -/
def O.laneCtlePeak : ObjDef :=
  { name := "Lane.CtlePeak", base := 0x3010, s1 := 0x40, n1 := 36, s2 := 1, n2 := 4, sub0 := 0x2, ty := .u8, acc := .rw, cls := .live, dflt := [12], lo := 0, hi := 31, eff := .laneEq }

/-- Lane.CtleGain. -/
def O.laneCtleGain : ObjDef :=
  { name := "Lane.CtleGain", base := 0x3010, s1 := 0x40, n1 := 36, s2 := 1, n2 := 4, sub0 := 0x3, ty := .u8, acc := .rw, cls := .live, dflt := [8], lo := 0, hi := 15, eff := .laneEq }

/-- Lane.DfeTap. -/
def O.laneDfeTap : ObjDef :=
  { name := "Lane.DfeTap", base := 0x3010, s1 := 0x40, n1 := 36, s2 := 1, n2 := 4, sub0 := 0x4, subs := 12, ty := .i8, acc := .rw, cls := .live, lo := -128, hi := 127, chk := .dfe, eff := .laneEq }

/-- Lane.Ffe. -/
def O.laneFfe : ObjDef :=
  { name := "Lane.Ffe", base := 0x3010, s1 := 0x40, n1 := 36, s2 := 1, n2 := 4, sub0 := 0x10, subs := 5, ty := .i8, acc := .rw, cls := .live, dflt := [0, (-4), 55, (-4), 0], lo := -128, hi := 127, chk := .ffe, eff := .laneEq }

/-- Lane.RxInvert. -/
def O.laneRxInvert : ObjDef :=
  { name := "Lane.RxInvert", base := 0x3010, s1 := 0x40, n1 := 36, s2 := 1, n2 := 4, sub0 := 0x15, ty := .bool, acc := .rw, cls := .live, lo := 0, hi := 1 }

/-- Lane.TxInvert. -/
def O.laneTxInvert : ObjDef :=
  { name := "Lane.TxInvert", base := 0x3010, s1 := 0x40, n1 := 36, s2 := 1, n2 := 4, sub0 := 0x16, ty := .bool, acc := .rw, cls := .live, lo := 0, hi := 1 }

/-- Lane.LosThreshold. -/
def O.laneLosThreshold : ObjDef :=
  { name := "Lane.LosThreshold", base := 0x3010, s1 := 0x40, n1 := 36, s2 := 1, n2 := 4, sub0 := 0x17, ty := .u16, acc := .rw, cls := .live, dflt := [80], lo := 30, hi := 240, mult := 10 }

/-- Lane.Status. -/
def O.laneStatus : ObjDef :=
  { name := "Lane.Status", base := 0x3010, s1 := 0x40, n1 := 36, s2 := 1, n2 := 4, sub0 := 0x18, ty := .u8, acc := .ro, cls := .live, lo := 0, hi := 255 }

/-- Lane.LosCount. -/
def O.laneLosCount : ObjDef :=
  { name := "Lane.LosCount", base := 0x3010, s1 := 0x40, n1 := 36, s2 := 1, n2 := 4, sub0 := 0x19, ty := .u32, acc := .rc, cls := .live, lo := 0, hi := 4294967295 }

/-- Lane.LolCount. -/
def O.laneLolCount : ObjDef :=
  { name := "Lane.LolCount", base := 0x3010, s1 := 0x40, n1 := 36, s2 := 1, n2 := 4, sub0 := 0x1A, ty := .u32, acc := .rc, cls := .live, lo := 0, hi := 4294967295 }

/-- Quad.EyeScan.Lane. -/
def O.quadEyeScanLane : ObjDef :=
  { name := "Quad.EyeScan.Lane", base := 0x3020, s1 := 0x40, n1 := 36, sub0 := 0x1, ty := .u8, acc := .rw, cls := .live, lo := 0, hi := 3 }

/-- Quad.EyeScan.Eye. -/
def O.quadEyeScanEye : ObjDef :=
  { name := "Quad.EyeScan.Eye", base := 0x3020, s1 := 0x40, n1 := 36, sub0 := 0x2, ty := .u8, acc := .rw, cls := .live, lo := 0, hi := 2 }

/-- Quad.EyeScan.DwellExp. -/
def O.quadEyeScanDwellExp : ObjDef :=
  { name := "Quad.EyeScan.DwellExp", base := 0x3020, s1 := 0x40, n1 := 36, sub0 := 0x3, ty := .u8, acc := .rw, cls := .live, dflt := [20], lo := 10, hi := 40 }

/-- Quad.EyeScan.HStride. -/
def O.quadEyeScanHStride : ObjDef :=
  { name := "Quad.EyeScan.HStride", base := 0x3020, s1 := 0x40, n1 := 36, sub0 := 0x4, ty := .u8, acc := .rw, cls := .live, dflt := [1], lo := 1, hi := 16 }

/-- Quad.EyeScan.VStride. -/
def O.quadEyeScanVStride : ObjDef :=
  { name := "Quad.EyeScan.VStride", base := 0x3020, s1 := 0x40, n1 := 36, sub0 := 0x5, ty := .u8, acc := .rw, cls := .live, dflt := [1], lo := 1, hi := 16 }

/-- Quad.EyeScan.Start. -/
def O.quadEyeScanStart : ObjDef :=
  { name := "Quad.EyeScan.Start", base := 0x3020, s1 := 0x40, n1 := 36, sub0 := 0x6, ty := .bool, acc := .wo, cls := .live, lo := 0, hi := 1, eff := .eyeStart }

/-- Quad.EyeScan.Status. -/
def O.quadEyeScanStatus : ObjDef :=
  { name := "Quad.EyeScan.Status", base := 0x3020, s1 := 0x40, n1 := 36, sub0 := 0x7, ty := .u8, acc := .ro, cls := .live, lo := 0, hi := 255 }

/-- Quad.EyeScan.Points. -/
def O.quadEyeScanPoints : ObjDef :=
  { name := "Quad.EyeScan.Points", base := 0x3020, s1 := 0x40, n1 := 36, sub0 := 0x8, ty := .u16, acc := .ro, cls := .live, lo := 0, hi := 65535 }

/-- Quad.EyeScan.Result. -/
def O.quadEyeScanResult : ObjDef :=
  { name := "Quad.EyeScan.Result", base := 0x3020, s1 := 0x40, n1 := 36, sub0 := 0x9, ty := .record, acc := .ro, cls := .live, entry := 8, rd := .eyeResult }

/-- Quad.Spapax.Enable. -/
def O.quadSpapaxEnable : ObjDef :=
  { name := "Quad.Spapax.Enable", base := 0x3028, s1 := 0x40, n1 := 36, sub0 := 0x1, ty := .bool, acc := .rw, cls := .live, lo := 0, hi := 1, eff := .spapaxEnable }

/-- Quad.Spapax.Use. -/
def O.quadSpapaxUse : ObjDef :=
  { name := "Quad.Spapax.Use", base := 0x3028, s1 := 0x40, n1 := 36, sub0 := 0x2, ty := .u8, acc := .ro, cls := .config, lo := 0, hi := 255 }

/-- Quad.Spapax.Stage. -/
def O.quadSpapaxStage : ObjDef :=
  { name := "Quad.Spapax.Stage", base := 0x3028, s1 := 0x40, n1 := 36, sub0 := 0x3, ty := .u8, acc := .ro, cls := .live, lo := 0, hi := 255 }

/-- Quad.Spapax.LastFailStage. -/
def O.quadSpapaxLastFailStage : ObjDef :=
  { name := "Quad.Spapax.LastFailStage", base := 0x3028, s1 := 0x40, n1 := 36, sub0 := 0x4, ty := .u8, acc := .ro, cls := .live, lo := 0, hi := 255 }

/-- Quad.Spapax.LastFailReason. -/
def O.quadSpapaxLastFailReason : ObjDef :=
  { name := "Quad.Spapax.LastFailReason", base := 0x3028, s1 := 0x40, n1 := 36, sub0 := 0x5, ty := .u8, acc := .ro, cls := .live, lo := 0, hi := 255 }

/-- Quad.Spapax.AuthFailures. -/
def O.quadSpapaxAuthFailures : ObjDef :=
  { name := "Quad.Spapax.AuthFailures", base := 0x3028, s1 := 0x40, n1 := 36, sub0 := 0x6, ty := .u32, acc := .rc, cls := .live, lo := 0, hi := 4294967295 }

/-- Quad.Spapax.Replays. -/
def O.quadSpapaxReplays : ObjDef :=
  { name := "Quad.Spapax.Replays", base := 0x3028, s1 := 0x40, n1 := 36, sub0 := 0x7, ty := .u64, acc := .rc, cls := .live, lo := 0, hi := 18446744073709551615 }

/-- Quad.Spapax.PeerIdentity. -/
def O.quadSpapaxPeerIdentity : ObjDef :=
  { name := "Quad.Spapax.PeerIdentity", base := 0x3028, s1 := 0x40, n1 := 36, sub0 := 0x8, ty := .octets, acc := .ro, cls := .live, len := 32 }

/-- Pcie.TargetSpeed. -/
def O.pcieTargetSpeed : ObjDef :=
  { name := "Pcie.TargetSpeed", base := 0x3030, s1 := 0x40, n1 := 36, sub0 := 0x1, ty := .u8, acc := .rw, cls := .quiesce, dflt := [6], lo := 1, hi := 6 }

/-- Pcie.CompletionTimeout. -/
def O.pcieCompletionTimeout : ObjDef :=
  { name := "Pcie.CompletionTimeout", base := 0x3030, s1 := 0x40, n1 := 36, sub0 := 0x2, ty := .u32, acc := .rw, cls := .live, dflt := [50000], lo := 50, hi := 64000000 }

/-- Pcie.LtssmState. -/
def O.pcieLtssmState : ObjDef :=
  { name := "Pcie.LtssmState", base := 0x3030, s1 := 0x40, n1 := 36, sub0 := 0x3, ty := .u8, acc := .ro, cls := .live, lo := 0, hi := 255 }

/-- Pcie.CurrentSpeed. -/
def O.pcieCurrentSpeed : ObjDef :=
  { name := "Pcie.CurrentSpeed", base := 0x3030, s1 := 0x40, n1 := 36, sub0 := 0x4, ty := .u8, acc := .ro, cls := .live, lo := 0, hi := 255 }

/-- Pcie.CurrentWidth. -/
def O.pcieCurrentWidth : ObjDef :=
  { name := "Pcie.CurrentWidth", base := 0x3030, s1 := 0x40, n1 := 36, sub0 := 0x5, ty := .u8, acc := .ro, cls := .live, lo := 0, hi := 255 }

/-- Pcie.SurpriseDownCount. -/
def O.pcieSurpriseDownCount : ObjDef :=
  { name := "Pcie.SurpriseDownCount", base := 0x3030, s1 := 0x40, n1 := 36, sub0 := 0x6, ty := .u32, acc := .rc, cls := .live, lo := 0, hi := 4294967295 }

/-- Pcie.CompletionTimeouts. -/
def O.pcieCompletionTimeouts : ObjDef :=
  { name := "Pcie.CompletionTimeouts", base := 0x3030, s1 := 0x40, n1 := 36, sub0 := 0x7, ty := .u32, acc := .rc, cls := .live, lo := 0, hi := 4294967295 }

/-- Pcie.RetrainInterval. -/
def O.pcieRetrainInterval : ObjDef :=
  { name := "Pcie.RetrainInterval", base := 0x3030, s1 := 0x40, n1 := 36, sub0 := 0x8, ty := .u32, acc := .rw, cls := .live, dflt := [100], lo := 10, hi := 10000 }

/-- Rows of chapter 02. -/
def objRows02a : List ObjDef :=
  [O.vaneMode, O.vaneMacAddress, O.vaneLinkState, O.vaneIpv4Address, O.vaneIpv4Prefix,
   O.vaneIpv4Gateway, O.vaneIpv6Address, O.vaneIpv6Prefix, O.vaneUdpPort, O.vaneVlanId,
   O.vaneEchoEnable, O.vaneDroppedFrames, O.vaneAuthFailures, O.vaneLockouts, O.quadRole,
   O.quadLayout, O.quadGroupBase, O.quadRefClkSelect, O.quadRefClkStatus, O.portStandard,
   O.portLaneRate, O.portDirection, O.portFecMode, O.portState, O.portDownReason,
   O.portLastChangeTick, O.portDownCount, O.portUpDebounce, O.portDownDebounce, O.portFlapLimit,
   O.portPcieIdleLimit, O.portFecCorrected, O.portFecUncorrected, O.portPcieSpeed, O.portPcieWidth,
   O.portRetuneLimit, O.portTxPll, O.laneRxEqMode, O.laneCtlePeak, O.laneCtleGain]

/-- Rows of chapter 02. -/
def objRows02b : List ObjDef :=
  [O.laneDfeTap, O.laneFfe, O.laneRxInvert, O.laneTxInvert, O.laneLosThreshold,
   O.laneStatus, O.laneLosCount, O.laneLolCount, O.quadEyeScanLane, O.quadEyeScanEye,
   O.quadEyeScanDwellExp, O.quadEyeScanHStride, O.quadEyeScanVStride, O.quadEyeScanStart, O.quadEyeScanStatus,
   O.quadEyeScanPoints, O.quadEyeScanResult, O.quadSpapaxEnable, O.quadSpapaxUse, O.quadSpapaxStage,
   O.quadSpapaxLastFailStage, O.quadSpapaxLastFailReason, O.quadSpapaxAuthFailures, O.quadSpapaxReplays, O.quadSpapaxPeerIdentity,
   O.pcieTargetSpeed, O.pcieCompletionTimeout, O.pcieLtssmState, O.pcieCurrentSpeed, O.pcieCurrentWidth,
   O.pcieSurpriseDownCount, O.pcieCompletionTimeouts, O.pcieRetrainInterval]

/-! The objects of chapter 03 (R112). -/

/-- CaptureEngine.Control. -/
def O.captureEngineControl : ObjDef :=
  { name := "CaptureEngine.Control", base := 0x4000, s1 := 0x1, n1 := 2, sub0 := 0x1, ty := .u8, acc := .rw, cls := .live, lo := 0, hi := 1, eff := .engControl }

/-- CaptureEngine.State. -/
def O.captureEngineState : ObjDef :=
  { name := "CaptureEngine.State", base := 0x4000, s1 := 0x1, n1 := 2, sub0 := 0x2, ty := .u8, acc := .ro, cls := .live, lo := 0, hi := 255 }

/-- CaptureEngine.SettleWindow. -/
def O.captureEngineSettleWindow : ObjDef :=
  { name := "CaptureEngine.SettleWindow", base := 0x4000, s1 := 0x1, n1 := 2, sub0 := 0x3, ty := .u32, acc := .rw, cls := .live, dflt := [200], lo := 0, hi := 100000 }

/-- CaptureEngine.FoldMin. -/
def O.captureEngineFoldMin : ObjDef :=
  { name := "CaptureEngine.FoldMin", base := 0x4000, s1 := 0x1, n1 := 2, sub0 := 0x4, ty := .u32, acc := .rw, cls := .live, dflt := [256], lo := 2, hi := 65536 }

/-- CaptureEngine.FoldMaxSpan. -/
def O.captureEngineFoldMaxSpan : ObjDef :=
  { name := "CaptureEngine.FoldMaxSpan", base := 0x4000, s1 := 0x1, n1 := 2, sub0 := 0x5, ty := .u32, acc := .rw, cls := .live, dflt := [1000], lo := 10, hi := 1000000 }

/-- CaptureEngine.FoldSkip. -/
def O.captureEngineFoldSkip : ObjDef :=
  { name := "CaptureEngine.FoldSkip", base := 0x4000, s1 := 0x1, n1 := 2, sub0 := 0x6, ty := .bool, acc := .rw, cls := .live, dflt := [1], lo := 0, hi := 1 }

/-- CaptureEngine.PcieRecords. -/
def O.captureEnginePcieRecords : ObjDef :=
  { name := "CaptureEngine.PcieRecords", base := 0x4000, s1 := 0x1, n1 := 2, sub0 := 0x7, ty := .u8, acc := .rw, cls := .quiesce, lo := 0, hi := 2 }

/-- CaptureEngine.EthMaxFrame. -/
def O.captureEngineEthMaxFrame : ObjDef :=
  { name := "CaptureEngine.EthMaxFrame", base := 0x4000, s1 := 0x1, n1 := 2, sub0 := 0x8, ty := .u16, acc := .rw, cls := .live, dflt := [9216], lo := 64, hi := 16384 }

/-- CaptureEngine.RawBatch. -/
def O.captureEngineRawBatch : ObjDef :=
  { name := "CaptureEngine.RawBatch", base := 0x4000, s1 := 0x1, n1 := 2, sub0 := 0x9, ty := .u16, acc := .rw, cls := .quiesce, dflt := [64], lo := 1, hi := 512 }

/-- CaptureEngine.PacketSize. -/
def O.captureEnginePacketSize : ObjDef :=
  { name := "CaptureEngine.PacketSize", base := 0x4000, s1 := 0x1, n1 := 2, sub0 := 0xA, ty := .u32, acc := .rw, cls := .quiesce, dflt := [65536], lo := 4096, hi := 262144, mult := 4096 }

/-- CaptureEngine.FlushAge. -/
def O.captureEngineFlushAge : ObjDef :=
  { name := "CaptureEngine.FlushAge", base := 0x4000, s1 := 0x1, n1 := 2, sub0 := 0xB, ty := .u32, acc := .rw, cls := .live, dflt := [100], lo := 1, hi := 10000 }

/-- CaptureEngine.Flush. -/
def O.captureEngineFlush : ObjDef :=
  { name := "CaptureEngine.Flush", base := 0x4000, s1 := 0x1, n1 := 2, sub0 := 0xC, ty := .bool, acc := .wo, cls := .live, lo := 0, hi := 1, eff := .engFlush }

/-- CaptureEngine.DefaultAction. -/
def O.captureEngineDefaultAction : ObjDef :=
  { name := "CaptureEngine.DefaultAction", base := 0x4000, s1 := 0x1, n1 := 2, sub0 := 0xD, ty := .u8, acc := .rw, cls := .live, lo := 0, hi := 1 }

/-- CaptureEngine.Records. -/
def O.captureEngineRecords : ObjDef :=
  { name := "CaptureEngine.Records", base := 0x4000, s1 := 0x1, n1 := 2, sub0 := 0xE, ty := .u64, acc := .rc, cls := .live, lo := 0, hi := 18446744073709551615 }

/-- CaptureAdmission.Guarantee. -/
def O.captureAdmissionGuarantee : ObjDef :=
  { name := "CaptureAdmission.Guarantee", base := 0x4020, s1 := 0x1, n1 := 36, sub0 := 0x1, ty := .u32, acc := .rw, cls := .live, lo := 0, hi := 6000000 }

/-- CaptureAdmission.Burst. -/
def O.captureAdmissionBurst : ObjDef :=
  { name := "CaptureAdmission.Burst", base := 0x4020, s1 := 0x1, n1 := 36, sub0 := 0x2, ty := .u32, acc := .rw, cls := .live, dflt := [65536], lo := 32768, hi := 262144 }

/-- CaptureAdmission.ShareWeight. -/
def O.captureAdmissionShareWeight : ObjDef :=
  { name := "CaptureAdmission.ShareWeight", base := 0x4020, s1 := 0x1, n1 := 36, sub0 := 0x3, ty := .u8, acc := .rw, cls := .live, dflt := [1], lo := 0, hi := 255 }

/-- CaptureAdmission.IngestLevel. -/
def O.captureAdmissionIngestLevel : ObjDef :=
  { name := "CaptureAdmission.IngestLevel", base := 0x4020, s1 := 0x1, n1 := 36, sub0 := 0x4, ty := .u32, acc := .ro, cls := .live, lo := 0, hi := 4294967295, rd := .ingestLevel }

/-- CaptureAdmission.IngestPeak. -/
def O.captureAdmissionIngestPeak : ObjDef :=
  { name := "CaptureAdmission.IngestPeak", base := 0x4020, s1 := 0x1, n1 := 36, sub0 := 0x5, ty := .u32, acc := .rc, cls := .live, lo := 0, hi := 4294967295 }

/-- CaptureAdmission.Credit. -/
def O.captureAdmissionCredit : ObjDef :=
  { name := "CaptureAdmission.Credit", base := 0x4020, s1 := 0x1, n1 := 36, sub0 := 0x6, ty := .i32, acc := .ro, cls := .live, lo := -2147483648, hi := 2147483647, rd := .credit }

/-- CapturePort.Enable. -/
def O.capturePortEnable : ObjDef :=
  { name := "CapturePort.Enable", base := 0x4100, s1 := 0x4, n1 := 36, s2 := 1, n2 := 4, sub0 := 0x1, ty := .bool, acc := .rw, cls := .live, lo := 0, hi := 1, eff := .capEnable }

/-- CapturePort.Session. -/
def O.capturePortSession : ObjDef :=
  { name := "CapturePort.Session", base := 0x4100, s1 := 0x4, n1 := 36, s2 := 1, n2 := 4, sub0 := 0x2, ty := .u16, acc := .rw, cls := .live, lo := 0, hi := 255, eff := .capSession }

/-- CapturePort.RawFill. -/
def O.capturePortRawFill : ObjDef :=
  { name := "CapturePort.RawFill", base := 0x4100, s1 := 0x4, n1 := 36, s2 := 1, n2 := 4, sub0 := 0x3, ty := .u64, acc := .rw, cls := .live, lo := 0, hi := 18446744073709551615 }

/-- CapturePort.NextSeq. -/
def O.capturePortNextSeq : ObjDef :=
  { name := "CapturePort.NextSeq", base := 0x4100, s1 := 0x4, n1 := 36, s2 := 1, n2 := 4, sub0 := 0x4, ty := .u32, acc := .ro, cls := .live, lo := 0, hi := 4294967295, rd := .nextSeq }

/-- CapturePort.Records. -/
def O.capturePortRecords : ObjDef :=
  { name := "CapturePort.Records", base := 0x4100, s1 := 0x4, n1 := 36, s2 := 1, n2 := 4, sub0 := 0x5, ty := .u64, acc := .rc, cls := .live, lo := 0, hi := 18446744073709551615 }

/-- CapturePort.LostRecords. -/
def O.capturePortLostRecords : ObjDef :=
  { name := "CapturePort.LostRecords", base := 0x4100, s1 := 0x4, n1 := 36, s2 := 1, n2 := 4, sub0 := 0x6, ty := .u64, acc := .rc, cls := .live, lo := 0, hi := 18446744073709551615 }

/-- CapturePort.LostBytes. -/
def O.capturePortLostBytes : ObjDef :=
  { name := "CapturePort.LostBytes", base := 0x4100, s1 := 0x4, n1 := 36, s2 := 1, n2 := 4, sub0 := 0x7, ty := .u64, acc := .rc, cls := .live, lo := 0, hi := 18446744073709551615 }

/-- CapturePort.GapRecords. -/
def O.capturePortGapRecords : ObjDef :=
  { name := "CapturePort.GapRecords", base := 0x4100, s1 := 0x4, n1 := 36, s2 := 1, n2 := 4, sub0 := 0x8, ty := .u64, acc := .rc, cls := .live, lo := 0, hi := 18446744073709551615 }

/-- CapturePort.FoldRecords. -/
def O.capturePortFoldRecords : ObjDef :=
  { name := "CapturePort.FoldRecords", base := 0x4100, s1 := 0x4, n1 := 36, s2 := 1, n2 := 4, sub0 := 0x9, ty := .u64, acc := .rc, cls := .live, lo := 0, hi := 18446744073709551615 }

/-- CapturePort.Settling. -/
def O.capturePortSettling : ObjDef :=
  { name := "CapturePort.Settling", base := 0x4100, s1 := 0x4, n1 := 36, s2 := 1, n2 := 4, sub0 := 0xA, ty := .bool, acc := .ro, cls := .live, lo := 0, hi := 1, rd := .settling }

/-- CaptureFilter.Enable. -/
def O.captureFilterEnable : ObjDef :=
  { name := "CaptureFilter.Enable", base := 0x4200, s1 := 0x40, n1 := 2, s2 := 1, n2 := 64, sub0 := 0x1, ty := .bool, acc := .rw, cls := .live, lo := 0, hi := 1 }

/-- CaptureFilter.SourceValue. -/
def O.captureFilterSourceValue : ObjDef :=
  { name := "CaptureFilter.SourceValue", base := 0x4200, s1 := 0x40, n1 := 2, s2 := 1, n2 := 64, sub0 := 0x2, ty := .u16, acc := .rw, cls := .live, lo := 0, hi := 65535 }

/-- CaptureFilter.SourceMask. -/
def O.captureFilterSourceMask : ObjDef :=
  { name := "CaptureFilter.SourceMask", base := 0x4200, s1 := 0x40, n1 := 2, s2 := 1, n2 := 64, sub0 := 0x3, ty := .u16, acc := .rw, cls := .live, lo := 0, hi := 65535, mask := some 0xFFC0 }

/-- CaptureFilter.TypeMask. -/
def O.captureFilterTypeMask : ObjDef :=
  { name := "CaptureFilter.TypeMask", base := 0x4200, s1 := 0x40, n1 := 2, s2 := 1, n2 := 64, sub0 := 0x4, ty := .u8, acc := .rw, cls := .live, dflt := [254], lo := 0, hi := 255, mask := some 0xFE }

/-- CaptureFilter.Offset. -/
def O.captureFilterOffset : ObjDef :=
  { name := "CaptureFilter.Offset", base := 0x4200, s1 := 0x40, n1 := 2, s2 := 1, n2 := 64, sub0 := 0x5, ty := .u16, acc := .rw, cls := .live, lo := 0, hi := 16368 }

/-- CaptureFilter.Pattern. -/
def O.captureFilterPattern : ObjDef :=
  { name := "CaptureFilter.Pattern", base := 0x4200, s1 := 0x40, n1 := 2, s2 := 1, n2 := 64, sub0 := 0x6, ty := .octets, acc := .rw, cls := .live, len := 16, fixed := true }

/-- CaptureFilter.Mask. -/
def O.captureFilterMask : ObjDef :=
  { name := "CaptureFilter.Mask", base := 0x4200, s1 := 0x40, n1 := 2, s2 := 1, n2 := 64, sub0 := 0x7, ty := .octets, acc := .rw, cls := .live, len := 16, fixed := true }

/-- CaptureFilter.Action. -/
def O.captureFilterAction : ObjDef :=
  { name := "CaptureFilter.Action", base := 0x4200, s1 := 0x40, n1 := 2, s2 := 1, n2 := 64, sub0 := 0x8, ty := .u8, acc := .rw, cls := .live, lo := 0, hi := 3 }

/-- CaptureFilter.Tag. -/
def O.captureFilterTag : ObjDef :=
  { name := "CaptureFilter.Tag", base := 0x4200, s1 := 0x40, n1 := 2, s2 := 1, n2 := 64, sub0 := 0x9, ty := .u16, acc := .rw, cls := .live, lo := 0, hi := 65535 }

/-- CaptureFilter.SnapLength. -/
def O.captureFilterSnapLength : ObjDef :=
  { name := "CaptureFilter.SnapLength", base := 0x4200, s1 := 0x40, n1 := 2, s2 := 1, n2 := 64, sub0 := 0xA, ty := .u16, acc := .rw, cls := .live, dflt := [128], lo := 64, hi := 16384, mult := 8 }

/-- CaptureFilter.Hits. -/
def O.captureFilterHits : ObjDef :=
  { name := "CaptureFilter.Hits", base := 0x4200, s1 := 0x40, n1 := 2, s2 := 1, n2 := 64, sub0 := 0xB, ty := .u64, acc := .rc, cls := .live, lo := 0, hi := 18446744073709551615 }

/-- CaptureFlow.KeyWindow. -/
def O.captureFlowKeyWindow : ObjDef :=
  { name := "CaptureFlow.KeyWindow", base := 0x4300, s1 := 0x1, n1 := 2, sub0 := 0x1, subs := 4, ty := .u32, acc := .rw, cls := .quiesce, lo := 0, hi := 4294967295, mask := some 0xFFF001F, chk := .keyWindow }

/-- CaptureFlow.Learn. -/
def O.captureFlowLearn : ObjDef :=
  { name := "CaptureFlow.Learn", base := 0x4300, s1 := 0x1, n1 := 2, sub0 := 0x5, ty := .bool, acc := .rw, cls := .live, dflt := [1], lo := 0, hi := 1 }

/-- CaptureFlow.AgeLimit. -/
def O.captureFlowAgeLimit : ObjDef :=
  { name := "CaptureFlow.AgeLimit", base := 0x4300, s1 := 0x1, n1 := 2, sub0 := 0x6, ty := .u32, acc := .rw, cls := .live, dflt := [60000], lo := 1, hi := 86400000 }

/-- CaptureFlow.ScanPeriod. -/
def O.captureFlowScanPeriod : ObjDef :=
  { name := "CaptureFlow.ScanPeriod", base := 0x4300, s1 := 0x1, n1 := 2, sub0 := 0x7, ty := .u32, acc := .rw, cls := .live, dflt := [1000], lo := 100, hi := 60000, eff := .flowScan }

/-- CaptureFlow.Entries. -/
def O.captureFlowEntries : ObjDef :=
  { name := "CaptureFlow.Entries", base := 0x4300, s1 := 0x1, n1 := 2, sub0 := 0x8, ty := .u32, acc := .ro, cls := .live, lo := 0, hi := 4294967295, rd := .flowEntries }

/-- CaptureFlow.InsertFails. -/
def O.captureFlowInsertFails : ObjDef :=
  { name := "CaptureFlow.InsertFails", base := 0x4300, s1 := 0x1, n1 := 2, sub0 := 0x9, ty := .u64, acc := .rc, cls := .live, lo := 0, hi := 18446744073709551615 }

/-- CaptureFlow.Aged. -/
def O.captureFlowAged : ObjDef :=
  { name := "CaptureFlow.Aged", base := 0x4300, s1 := 0x1, n1 := 2, sub0 := 0xA, ty := .u64, acc := .rc, cls := .live, lo := 0, hi := 18446744073709551615 }

/-- CaptureFlow.Clear. -/
def O.captureFlowClear : ObjDef :=
  { name := "CaptureFlow.Clear", base := 0x4300, s1 := 0x1, n1 := 2, sub0 := 0xB, ty := .bool, acc := .wo, cls := .live, lo := 0, hi := 1, eff := .flowClear }

/-- CaptureFlow.Table. -/
def O.captureFlowTable : ObjDef :=
  { name := "CaptureFlow.Table", base := 0x4300, s1 := 0x1, n1 := 2, sub0 := 0xC, ty := .record, acc := .ro, cls := .live, entry := 64, rd := .flowTable }

/-- CaptureFlow.NextTag. -/
def O.captureFlowNextTag : ObjDef :=
  { name := "CaptureFlow.NextTag", base := 0x4300, s1 := 0x1, n1 := 2, sub0 := 0xD, ty := .u16, acc := .ro, cls := .live, dflt := [1], lo := 0, hi := 65535 }

/-- Rows of chapter 03. -/
def objRows03a : List ObjDef :=
  [O.captureEngineControl, O.captureEngineState, O.captureEngineSettleWindow, O.captureEngineFoldMin, O.captureEngineFoldMaxSpan,
   O.captureEngineFoldSkip, O.captureEnginePcieRecords, O.captureEngineEthMaxFrame, O.captureEngineRawBatch, O.captureEnginePacketSize,
   O.captureEngineFlushAge, O.captureEngineFlush, O.captureEngineDefaultAction, O.captureEngineRecords, O.captureAdmissionGuarantee,
   O.captureAdmissionBurst, O.captureAdmissionShareWeight, O.captureAdmissionIngestLevel, O.captureAdmissionIngestPeak, O.captureAdmissionCredit,
   O.capturePortEnable, O.capturePortSession, O.capturePortRawFill, O.capturePortNextSeq, O.capturePortRecords,
   O.capturePortLostRecords, O.capturePortLostBytes, O.capturePortGapRecords, O.capturePortFoldRecords, O.capturePortSettling,
   O.captureFilterEnable, O.captureFilterSourceValue, O.captureFilterSourceMask, O.captureFilterTypeMask, O.captureFilterOffset,
   O.captureFilterPattern, O.captureFilterMask, O.captureFilterAction, O.captureFilterTag, O.captureFilterSnapLength]

/-- Rows of chapter 03. -/
def objRows03b : List ObjDef :=
  [O.captureFilterHits, O.captureFlowKeyWindow, O.captureFlowLearn, O.captureFlowAgeLimit, O.captureFlowScanPeriod,
   O.captureFlowEntries, O.captureFlowInsertFails, O.captureFlowAged, O.captureFlowClear, O.captureFlowTable,
   O.captureFlowNextTag]

/-! The objects of chapter 04 (R139). -/

/-- EventRouter.Latched. -/
def O.eventRouterLatched : ObjDef :=
  { name := "EventRouter.Latched", base := 0x5000, sub0 := 0x1, ty := .octets, acc := .rc, cls := .live, len := 192, fixed := true }

/-- EventRouter.RoutesActive. -/
def O.eventRouterRoutesActive : ObjDef :=
  { name := "EventRouter.RoutesActive", base := 0x5000, sub0 := 0x2, ty := .u16, acc := .ro, cls := .live, lo := 0, hi := 65535, rd := .routesActive }

/-- Twin.PeerEventsLost. -/
def O.twinPeerEventsLost : ObjDef :=
  { name := "Twin.PeerEventsLost", base := 0x5000, sub0 := 0x3, ty := .u64, acc := .rc, cls := .live, lo := 0, hi := 18446744073709551615 }

/-- Notify.TargetA. -/
def O.notifyTargetA : ObjDef :=
  { name := "Notify.TargetA", base := 0x5001, sub0 := 0x1, ty := .octets, acc := .rw, cls := .live, len := 18, fixed := true }

/-- Notify.TargetB. -/
def O.notifyTargetB : ObjDef :=
  { name := "Notify.TargetB", base := 0x5001, sub0 := 0x2, ty := .octets, acc := .rw, cls := .live, len := 18, fixed := true }

/-- Notify.Holdoff. -/
def O.notifyHoldoff : ObjDef :=
  { name := "Notify.Holdoff", base := 0x5001, sub0 := 0x3, ty := .u32, acc := .rw, cls := .live, dflt := [100], lo := 1, hi := 60000 }

/-- Notify.MaxRate. -/
def O.notifyMaxRate : ObjDef :=
  { name := "Notify.MaxRate", base := 0x5001, sub0 := 0x4, ty := .u16, acc := .rw, cls := .live, dflt := [100], lo := 1, hi := 10000 }

/-- Notify.Sent. -/
def O.notifySent : ObjDef :=
  { name := "Notify.Sent", base := 0x5001, sub0 := 0x5, ty := .u64, acc := .rc, cls := .live, lo := 0, hi := 18446744073709551615 }

/-- Promoter.Lag. -/
def O.promoterLag : ObjDef :=
  { name := "Promoter.Lag", base := 0x5002, s1 := 0x1, n1 := 2, sub0 := 0x1, ty := .u64, acc := .ro, cls := .live, lo := 0, hi := 18446744073709551615, rd := .lag }

/-- Promoter.Overruns. -/
def O.promoterOverruns : ObjDef :=
  { name := "Promoter.Overruns", base := 0x5002, s1 := 0x1, n1 := 2, sub0 := 0x2, ty := .u64, acc := .rc, cls := .live, lo := 0, hi := 18446744073709551615 }

/-- Promoter.Bytes. -/
def O.promoterBytes : ObjDef :=
  { name := "Promoter.Bytes", base := 0x5002, s1 := 0x1, n1 := 2, sub0 := 0x3, ty := .u64, acc := .rc, cls := .live, lo := 0, hi := 18446744073709551615 }

/-- Mark.Ports. -/
def O.markPorts : ObjDef :=
  { name := "Mark.Ports", base := 0x5010, s1 := 0x1, n1 := 16, sub0 := 0x1, ty := .octets, acc := .rw, cls := .live, len := 18, fixed := true }

/-- Mark.Record. -/
def O.markRecord : ObjDef :=
  { name := "Mark.Record", base := 0x5010, s1 := 0x1, n1 := 16, sub0 := 0x2, ty := .bool, acc := .rw, cls := .live, lo := 0, hi := 1 }

/-- Mark.Lapsed. -/
def O.markLapsed : ObjDef :=
  { name := "Mark.Lapsed", base := 0x5010, s1 := 0x1, n1 := 16, sub0 := 0x3, ty := .u64, acc := .rc, cls := .live, lo := 0, hi := 18446744073709551615 }

/-- Front.Control. -/
def O.frontControl : ObjDef :=
  { name := "Front.Control", base := 0x5020, s1 := 0x1, n1 := 16, sub0 := 0x1, ty := .u8, acc := .rw, cls := .live, lo := 0, hi := 1, eff := .frontControl }

/-- Front.State. -/
def O.frontState : ObjDef :=
  { name := "Front.State", base := 0x5020, s1 := 0x1, n1 := 16, sub0 := 0x2, ty := .u8, acc := .ro, cls := .live, lo := 0, hi := 255 }

/-- Front.Sessions. -/
def O.frontSessions : ObjDef :=
  { name := "Front.Sessions", base := 0x5020, s1 := 0x1, n1 := 16, sub0 := 0x3, ty := .octets, acc := .rw, cls := .live, len := 32, fixed := true }

/-- Front.MarkSet. -/
def O.frontMarkSet : ObjDef :=
  { name := "Front.MarkSet", base := 0x5020, s1 := 0x1, n1 := 16, sub0 := 0x4, ty := .u8, acc := .rw, cls := .live, lo := 0, hi := 15 }

/-- Front.PeerSlot. -/
def O.frontPeerSlot : ObjDef :=
  { name := "Front.PeerSlot", base := 0x5020, s1 := 0x1, n1 := 16, sub0 := 0x5, ty := .u8, acc := .rw, cls := .live, lo := 0, hi := 15 }

/-- Front.TimerLoad. -/
def O.frontTimerLoad : ObjDef :=
  { name := "Front.TimerLoad", base := 0x5020, s1 := 0x1, n1 := 16, sub0 := 0x6, subs := 2, ty := .u64, acc := .rw, cls := .live, dflt := [1000], lo := 1, hi := 3600000000000 }

/-- Front.CounterLimit. -/
def O.frontCounterLimit : ObjDef :=
  { name := "Front.CounterLimit", base := 0x5020, s1 := 0x1, n1 := 16, sub0 := 0x8, subs := 2, ty := .u32, acc := .rw, cls := .live, dflt := [1], lo := 1, hi := 4294967295 }

/-- Front.Counter. -/
def O.frontCounter : ObjDef :=
  { name := "Front.Counter", base := 0x5020, s1 := 0x1, n1 := 16, sub0 := 0xA, subs := 2, ty := .u32, acc := .ro, cls := .live, lo := 0, hi := 4294967295 }

/-- Front.Triggers. -/
def O.frontTriggers : ObjDef :=
  { name := "Front.Triggers", base := 0x5020, s1 := 0x1, n1 := 16, sub0 := 0xC, ty := .u64, acc := .rc, cls := .live, lo := 0, hi := 18446744073709551615 }

/-- Front.LastTriggerTick. -/
def O.frontLastTriggerTick : ObjDef :=
  { name := "Front.LastTriggerTick", base := 0x5020, s1 := 0x1, n1 := 16, sub0 := 0xD, ty := .tick64, acc := .ro, cls := .live, lo := 0, hi := 18446744073709551615 }

/-- Front.Branch. -/
def O.frontBranch : ObjDef :=
  { name := "Front.Branch", base := 0x5020, s1 := 0x1, n1 := 16, sub0 := 0x40, subs := 64, ty := .u64, acc := .rw, cls := .live, lo := 0, hi := 18446744073709551615, mask := some 0x800000FFFEFF01FF, chk := .branch }

/-- Msix.Interval. -/
def O.msixInterval : ObjDef :=
  { name := "Msix.Interval", base := 0x5040, s1 := 0x1, n1 := 16, sub0 := 0x1, subs := 128, ty := .u16, acc := .rw, cls := .live, lo := 0, hi := 65535 }

/-- Route. -/
def O.route : ObjDef :=
  { name := "Route", base := 0x5060, s1 := 0x1, n1 := 32, sub0 := 0x1, subs := 128, ty := .u32, acc := .rw, cls := .live, lo := 0, hi := 4294967295, chk := .route }

/-- Counter.Value. -/
def O.counterValue : ObjDef :=
  { name := "Counter.Value", base := 0x5080, s1 := 0x1, n1 := 2, sub0 := 0x1, subs := 128, ty := .u64, acc := .rw, cls := .live, lo := 0, hi := 18446744073709551615 }

/-- Counter.Threshold. -/
def O.counterThreshold : ObjDef :=
  { name := "Counter.Threshold", base := 0x5082, sub0 := 0x1, subs := 16, ty := .u64, acc := .rw, cls := .live, lo := 0, hi := 18446744073709551615 }

/-- Retention.Mode. -/
def O.retentionMode : ObjDef :=
  { name := "Retention.Mode", base := 0x5100, s1 := 0x1, n1 := 256, sub0 := 0x1, ty := .u8, acc := .rw, cls := .live, dflt := [1], lo := 0, hi := 2, eff := .retMode }

/-- Retention.Pre. -/
def O.retentionPre : ObjDef :=
  { name := "Retention.Pre", base := 0x5100, s1 := 0x1, n1 := 256, sub0 := 0x2, ty := .u64, acc := .rw, cls := .live, dflt := [1000000], lo := 0, hi := 3600000000000 }

/-- Retention.Post. -/
def O.retentionPost : ObjDef :=
  { name := "Retention.Post", base := 0x5100, s1 := 0x1, n1 := 256, sub0 := 0x3, ty := .u64, acc := .rw, cls := .live, dflt := [1000000], lo := 0, hi := 3600000000000 }

/-- Retention.MaxSpan. -/
def O.retentionMaxSpan : ObjDef :=
  { name := "Retention.MaxSpan", base := 0x5100, s1 := 0x1, n1 := 256, sub0 := 0x4, ty := .u64, acc := .rw, cls := .live, dflt := [3600000000000], lo := 1000, hi := 86400000000000 }

/-- Retention.Holdoff. -/
def O.retentionHoldoff : ObjDef :=
  { name := "Retention.Holdoff", base := 0x5100, s1 := 0x1, n1 := 256, sub0 := 0x5, ty := .u64, acc := .rw, cls := .live, lo := 0, hi := 3600000000000 }

/-- Retention.CloseLimit. -/
def O.retentionCloseLimit : ObjDef :=
  { name := "Retention.CloseLimit", base := 0x5100, s1 := 0x1, n1 := 256, sub0 := 0x6, ty := .u32, acc := .rw, cls := .live, dflt := [20000], lo := 1000, hi := 1000000 }

/-- Retention.Trigger. -/
def O.retentionTrigger : ObjDef :=
  { name := "Retention.Trigger", base := 0x5100, s1 := 0x1, n1 := 256, sub0 := 0x7, ty := .bool, acc := .wo, cls := .live, lo := 0, hi := 1, eff := .retTrigger }

/-- Retention.State. -/
def O.retentionState : ObjDef :=
  { name := "Retention.State", base := 0x5100, s1 := 0x1, n1 := 256, sub0 := 0x8, ty := .u8, acc := .ro, cls := .live, lo := 0, hi := 255 }

/-- Retention.WindowStart. -/
def O.retentionWindowStart : ObjDef :=
  { name := "Retention.WindowStart", base := 0x5100, s1 := 0x1, n1 := 256, sub0 := 0x9, ty := .tick64, acc := .ro, cls := .live, lo := 0, hi := 18446744073709551615 }

/-- Retention.WindowEnd. -/
def O.retentionWindowEnd : ObjDef :=
  { name := "Retention.WindowEnd", base := 0x5100, s1 := 0x1, n1 := 256, sub0 := 0xA, ty := .tick64, acc := .ro, cls := .live, lo := 0, hi := 18446744073709551615 }

/-- Retention.Triggers. -/
def O.retentionTriggers : ObjDef :=
  { name := "Retention.Triggers", base := 0x5100, s1 := 0x1, n1 := 256, sub0 := 0xB, ty := .u64, acc := .rc, cls := .live, lo := 0, hi := 18446744073709551615 }

/-- Retention.Windows. -/
def O.retentionWindows : ObjDef :=
  { name := "Retention.Windows", base := 0x5100, s1 := 0x1, n1 := 256, sub0 := 0xC, ty := .u64, acc := .rc, cls := .live, lo := 0, hi := 18446744073709551615 }

/-- Retention.Suppressed. -/
def O.retentionSuppressed : ObjDef :=
  { name := "Retention.Suppressed", base := 0x5100, s1 := 0x1, n1 := 256, sub0 := 0xD, ty := .u64, acc := .rc, cls := .live, lo := 0, hi := 18446744073709551615 }

/-- Retention.OverrunGaps. -/
def O.retentionOverrunGaps : ObjDef :=
  { name := "Retention.OverrunGaps", base := 0x5100, s1 := 0x1, n1 := 256, sub0 := 0xE, ty := .u64, acc := .rc, cls := .live, lo := 0, hi := 18446744073709551615 }

/-- Retention.LateRecords. -/
def O.retentionLateRecords : ObjDef :=
  { name := "Retention.LateRecords", base := 0x5100, s1 := 0x1, n1 := 256, sub0 := 0xF, ty := .u64, acc := .rc, cls := .live, lo := 0, hi := 18446744073709551615 }

/-- Matcher.Control. -/
def O.matcherControl : ObjDef :=
  { name := "Matcher.Control", base := 0x5200, s1 := 0x20, n1 := 36, s2 := 1, n2 := 32, sub0 := 0x1, ty := .u32, acc := .rw, cls := .live, lo := 0, hi := 4294967295, mask := some 0xFFFF00F1, chk := .matchControl }

/-- Matcher.TypeMask. -/
def O.matcherTypeMask : ObjDef :=
  { name := "Matcher.TypeMask", base := 0x5200, s1 := 0x20, n1 := 36, s2 := 1, n2 := 32, sub0 := 0x2, ty := .u32, acc := .rw, cls := .live, lo := 0, hi := 4294967295, mask := some 0x4F00FE }

/-- Matcher.Flags. -/
def O.matcherFlags : ObjDef :=
  { name := "Matcher.Flags", base := 0x5200, s1 := 0x20, n1 := 36, s2 := 1, n2 := 32, sub0 := 0x3, ty := .u32, acc := .rw, cls := .live, lo := 0, hi := 4294967295, mask := some 0x73F07FF }

/-- Matcher.Match. -/
def O.matcherMatch : ObjDef :=
  { name := "Matcher.Match", base := 0x5200, s1 := 0x20, n1 := 36, s2 := 1, n2 := 32, sub0 := 0x4, ty := .u32, acc := .rw, cls := .live, lo := 0, hi := 4294967295 }

/-- Matcher.Lengths. -/
def O.matcherLengths : ObjDef :=
  { name := "Matcher.Lengths", base := 0x5200, s1 := 0x20, n1 := 36, s2 := 1, n2 := 32, sub0 := 0x5, ty := .u32, acc := .rw, cls := .live, dflt := [2147418112], lo := 0, hi := 4294967295, mask := some 0x7FFF7FFF, chk := .lengths }

/-- Matcher.Pattern. -/
def O.matcherPattern : ObjDef :=
  { name := "Matcher.Pattern", base := 0x5200, s1 := 0x20, n1 := 36, s2 := 1, n2 := 32, sub0 := 0x6, ty := .octets, acc := .rw, cls := .live, len := 16, fixed := true }

/-- Matcher.Mask. -/
def O.matcherMask : ObjDef :=
  { name := "Matcher.Mask", base := 0x5200, s1 := 0x20, n1 := 36, s2 := 1, n2 := 32, sub0 := 0x7, ty := .octets, acc := .rw, cls := .live, len := 16, fixed := true }

/-- Rows of chapter 04. -/
def objRows04a : List ObjDef :=
  [O.eventRouterLatched, O.eventRouterRoutesActive, O.twinPeerEventsLost, O.notifyTargetA, O.notifyTargetB,
   O.notifyHoldoff, O.notifyMaxRate, O.notifySent, O.promoterLag, O.promoterOverruns,
   O.promoterBytes, O.markPorts, O.markRecord, O.markLapsed, O.frontControl,
   O.frontState, O.frontSessions, O.frontMarkSet, O.frontPeerSlot, O.frontTimerLoad,
   O.frontCounterLimit, O.frontCounter, O.frontTriggers, O.frontLastTriggerTick, O.frontBranch,
   O.msixInterval, O.route, O.counterValue, O.counterThreshold, O.retentionMode,
   O.retentionPre, O.retentionPost, O.retentionMaxSpan, O.retentionHoldoff, O.retentionCloseLimit,
   O.retentionTrigger, O.retentionState, O.retentionWindowStart, O.retentionWindowEnd, O.retentionTriggers]

/-- Rows of chapter 04. -/
def objRows04b : List ObjDef :=
  [O.retentionWindows, O.retentionSuppressed, O.retentionOverrunGaps, O.retentionLateRecords, O.matcherControl,
   O.matcherTypeMask, O.matcherFlags, O.matcherMatch, O.matcherLengths, O.matcherPattern,
   O.matcherMask]

/-! The objects of chapter 05 (R159). -/

/-- Tx.Control. -/
def O.txControl : ObjDef :=
  { name := "Tx.Control", base := 0x5800, s1 := 0x4, n1 := 36, s2 := 1, n2 := 4, sub0 := 0x1, ty := .u8, acc := .rw, cls := .live, lo := 0, hi := 2, eff := .txControl }

/-- Tx.Source. -/
def O.txSource : ObjDef :=
  { name := "Tx.Source", base := 0x5800, s1 := 0x4, n1 := 36, s2 := 1, n2 := 4, sub0 := 0x2, ty := .u8, acc := .rw, cls := .live, lo := 0, hi := 1 }

/-- Tx.State. -/
def O.txState : ObjDef :=
  { name := "Tx.State", base := 0x5800, s1 := 0x4, n1 := 36, s2 := 1, n2 := 4, sub0 := 0x3, ty := .u8, acc := .ro, cls := .live, lo := 0, hi := 255 }

/-- Tx.StartTick. -/
def O.txStartTick : ObjDef :=
  { name := "Tx.StartTick", base := 0x5800, s1 := 0x4, n1 := 36, s2 := 1, n2 := 4, sub0 := 0x4, ty := .tick64, acc := .rw, cls := .live, lo := 0, hi := 18446744073709551615 }

/-- Tx.Lead. -/
def O.txLead : ObjDef :=
  { name := "Tx.Lead", base := 0x5800, s1 := 0x4, n1 := 36, s2 := 1, n2 := 4, sub0 := 0x5, ty := .u32, acc := .rw, cls := .live, dflt := [100], lo := 10, hi := 100000 }

/-- Tx.AnchorTick. -/
def O.txAnchorTick : ObjDef :=
  { name := "Tx.AnchorTick", base := 0x5800, s1 := 0x4, n1 := 36, s2 := 1, n2 := 4, sub0 := 0x6, ty := .tick64, acc := .ro, cls := .live, lo := 0, hi := 18446744073709551615 }

/-- Tx.LatePolicy. -/
def O.txLatePolicy : ObjDef :=
  { name := "Tx.LatePolicy", base := 0x5800, s1 := 0x4, n1 := 36, s2 := 1, n2 := 4, sub0 := 0x7, ty := .u8, acc := .rw, cls := .live, lo := 0, hi := 1 }

/-- Tx.MinIfg. -/
def O.txMinIfg : ObjDef :=
  { name := "Tx.MinIfg", base := 0x5800, s1 := 0x4, n1 := 36, s2 := 1, n2 := 4, sub0 := 0x8, ty := .u16, acc := .rw, cls := .live, dflt := [12], lo := 1, hi := 65535 }

/-- Tx.HoldWindow. -/
def O.txHoldWindow : ObjDef :=
  { name := "Tx.HoldWindow", base := 0x5800, s1 := 0x4, n1 := 36, s2 := 1, n2 := 4, sub0 := 0x9, ty := .u32, acc := .rw, cls := .live, dflt := [10000], lo := 0, hi := 10000000 }

/-- Tx.ForceDown. -/
def O.txForceDown : ObjDef :=
  { name := "Tx.ForceDown", base := 0x5800, s1 := 0x4, n1 := 36, s2 := 1, n2 := 4, sub0 := 0xA, ty := .bool, acc := .rw, cls := .live, lo := 0, hi := 1, eff := .txForceDown }

/-- Tx.Hook. -/
def O.txHook : ObjDef :=
  { name := "Tx.Hook", base := 0x5800, s1 := 0x4, n1 := 36, s2 := 1, n2 := 4, sub0 := 0xB, ty := .bool, acc := .rw, cls := .live, lo := 0, hi := 1 }

/-- Tx.HookBudget. -/
def O.txHookBudget : ObjDef :=
  { name := "Tx.HookBudget", base := 0x5800, s1 := 0x4, n1 := 36, s2 := 1, n2 := 4, sub0 := 0xC, ty := .u32, acc := .rw, cls := .live, dflt := [2000], lo := 200, hi := 100000 }

/-- Tx.Offset. -/
def O.txOffset : ObjDef :=
  { name := "Tx.Offset", base := 0x5800, s1 := 0x4, n1 := 36, s2 := 1, n2 := 4, sub0 := 0xD, ty := .i32, acc := .rw, cls := .live, lo := -4000000, hi := 4000000 }

/-- Tx.Position. -/
def O.txPosition : ObjDef :=
  { name := "Tx.Position", base := 0x5800, s1 := 0x4, n1 := 36, s2 := 1, n2 := 4, sub0 := 0xE, ty := .u64, acc := .ro, cls := .live, lo := 0, hi := 18446744073709551615 }

/-- Tx.Shift. -/
def O.txShift : ObjDef :=
  { name := "Tx.Shift", base := 0x5800, s1 := 0x4, n1 := 36, s2 := 1, n2 := 4, sub0 := 0xF, ty := .u64, acc := .ro, cls := .live, lo := 0, hi := 18446744073709551615 }

/-- Tx.Fault. -/
def O.txFault : ObjDef :=
  { name := "Tx.Fault", base := 0x5800, s1 := 0x4, n1 := 36, s2 := 1, n2 := 4, sub0 := 0x10, ty := .u8, acc := .ro, cls := .live, lo := 0, hi := 255 }

/-- Tx.UnitsSent. -/
def O.txUnitsSent : ObjDef :=
  { name := "Tx.UnitsSent", base := 0x5800, s1 := 0x4, n1 := 36, s2 := 1, n2 := 4, sub0 := 0x11, ty := .u64, acc := .rc, cls := .live, lo := 0, hi := 18446744073709551615 }

/-- Tx.BytesSent. -/
def O.txBytesSent : ObjDef :=
  { name := "Tx.BytesSent", base := 0x5800, s1 := 0x4, n1 := 36, s2 := 1, n2 := 4, sub0 := 0x12, ty := .u64, acc := .rc, cls := .live, lo := 0, hi := 18446744073709551615 }

/-- Tx.LateUnits. -/
def O.txLateUnits : ObjDef :=
  { name := "Tx.LateUnits", base := 0x5800, s1 := 0x4, n1 := 36, s2 := 1, n2 := 4, sub0 := 0x13, ty := .u64, acc := .rc, cls := .live, lo := 0, hi := 18446744073709551615 }

/-- Tx.MaxLate. -/
def O.txMaxLate : ObjDef :=
  { name := "Tx.MaxLate", base := 0x5800, s1 := 0x4, n1 := 36, s2 := 1, n2 := 4, sub0 := 0x14, ty := .u64, acc := .rc, cls := .live, lo := 0, hi := 18446744073709551615 }

/-- Tx.Discarded. -/
def O.txDiscarded : ObjDef :=
  { name := "Tx.Discarded", base := 0x5800, s1 := 0x4, n1 := 36, s2 := 1, n2 := 4, sub0 := 0x15, ty := .u64, acc := .rc, cls := .live, lo := 0, hi := 18446744073709551615 }

/-- Tx.Flushed. -/
def O.txFlushed : ObjDef :=
  { name := "Tx.Flushed", base := 0x5800, s1 := 0x4, n1 := 36, s2 := 1, n2 := 4, sub0 := 0x16, ty := .u64, acc := .rc, cls := .live, lo := 0, hi := 18446744073709551615 }

/-- Tx.Holds. -/
def O.txHolds : ObjDef :=
  { name := "Tx.Holds", base := 0x5800, s1 := 0x4, n1 := 36, s2 := 1, n2 := 4, sub0 := 0x17, ty := .u32, acc := .rc, cls := .live, lo := 0, hi := 4294967295 }

/-- Tx.Skipped. -/
def O.txSkipped : ObjDef :=
  { name := "Tx.Skipped", base := 0x5800, s1 := 0x4, n1 := 36, s2 := 1, n2 := 4, sub0 := 0x18, ty := .u64, acc := .rc, cls := .live, lo := 0, hi := 18446744073709551615 }

/-- Tx.HookDrops. -/
def O.txHookDrops : ObjDef :=
  { name := "Tx.HookDrops", base := 0x5800, s1 := 0x4, n1 := 36, s2 := 1, n2 := 4, sub0 := 0x19, ty := .u64, acc := .rc, cls := .live, lo := 0, hi := 18446744073709551615 }

/-- Tx.HookTimeouts. -/
def O.txHookTimeouts : ObjDef :=
  { name := "Tx.HookTimeouts", base := 0x5800, s1 := 0x4, n1 := 36, s2 := 1, n2 := 4, sub0 := 0x1A, ty := .u64, acc := .rc, cls := .live, lo := 0, hi := 18446744073709551615 }

/-- Tx.QueueLevel. -/
def O.txQueueLevel : ObjDef :=
  { name := "Tx.QueueLevel", base := 0x5800, s1 := 0x4, n1 := 36, s2 := 1, n2 := 4, sub0 := 0x1B, ty := .u32, acc := .ro, cls := .live, lo := 0, hi := 4294967295, rd := .queueLevel }

/-- Pattern.ListAddr. -/
def O.patternListAddr : ObjDef :=
  { name := "Pattern.ListAddr", base := 0x5800, s1 := 0x4, n1 := 36, s2 := 1, n2 := 4, sub0 := 0x20, ty := .u64, acc := .rw, cls := .live, lo := 0, hi := 18446744073709551615, mult := 32 }

/-- Pattern.ListCount. -/
def O.patternListCount : ObjDef :=
  { name := "Pattern.ListCount", base := 0x5800, s1 := 0x4, n1 := 36, s2 := 1, n2 := 4, sub0 := 0x21, ty := .u32, acc := .rw, cls := .live, dflt := [1], lo := 1, hi := 16777216 }

/-- Pattern.Loops. -/
def O.patternLoops : ObjDef :=
  { name := "Pattern.Loops", base := 0x5800, s1 := 0x4, n1 := 36, s2 := 1, n2 := 4, sub0 := 0x22, ty := .u32, acc := .rw, cls := .live, dflt := [1], lo := 0, hi := 4294967295 }

/-- Pattern.LoopPeriod. -/
def O.patternLoopPeriod : ObjDef :=
  { name := "Pattern.LoopPeriod", base := 0x5800, s1 := 0x4, n1 := 36, s2 := 1, n2 := 4, sub0 := 0x23, ty := .u64, acc := .rw, cls := .live, dflt := [4000000], lo := 4, hi := 4611686018427387903 }

/-- Pattern.RawFill. -/
def O.patternRawFill : ObjDef :=
  { name := "Pattern.RawFill", base := 0x5800, s1 := 0x4, n1 := 36, s2 := 1, n2 := 4, sub0 := 0x24, ty := .u64, acc := .rw, cls := .live, lo := 0, hi := 18446744073709551615 }

/-- Replay.BufferAddr. -/
def O.replayBufferAddr : ObjDef :=
  { name := "Replay.BufferAddr", base := 0x5900, s1 := 0x4, n1 := 36, s2 := 1, n2 := 4, sub0 := 0x1, ty := .u64, acc := .rw, cls := .live, lo := 0, hi := 18446744073709551615, mult := 8 }

/-- Replay.BufferBytes. -/
def O.replayBufferBytes : ObjDef :=
  { name := "Replay.BufferBytes", base := 0x5900, s1 := 0x4, n1 := 36, s2 := 1, n2 := 4, sub0 := 0x2, ty := .u64, acc := .rw, cls := .live, lo := 0, hi := 18446744073709551615, mult := 8, chk := .oneTier }

/-- Replay.SourceValue. -/
def O.replaySourceValue : ObjDef :=
  { name := "Replay.SourceValue", base := 0x5900, s1 := 0x4, n1 := 36, s2 := 1, n2 := 4, sub0 := 0x3, ty := .u16, acc := .rw, cls := .live, lo := 0, hi := 65535 }

/-- Replay.SourceMask. -/
def O.replaySourceMask : ObjDef :=
  { name := "Replay.SourceMask", base := 0x5900, s1 := 0x4, n1 := 36, s2 := 1, n2 := 4, sub0 := 0x4, ty := .u16, acc := .rw, cls := .live, dflt := [65472], lo := 0, hi := 65535, mask := some 0xFFC0 }

/-- Replay.TypeMask. -/
def O.replayTypeMask : ObjDef :=
  { name := "Replay.TypeMask", base := 0x5900, s1 := 0x4, n1 := 36, s2 := 1, n2 := 4, sub0 := 0x5, ty := .u8, acc := .rw, cls := .live, dflt := [66], lo := 0, hi := 255, mask := some 0x42 }

/-- Replay.FromTick. -/
def O.replayFromTick : ObjDef :=
  { name := "Replay.FromTick", base := 0x5900, s1 := 0x4, n1 := 36, s2 := 1, n2 := 4, sub0 := 0x6, ty := .tick64, acc := .rw, cls := .live, lo := 0, hi := 18446744073709551615 }

/-- Replay.ToTick. -/
def O.replayToTick : ObjDef :=
  { name := "Replay.ToTick", base := 0x5900, s1 := 0x4, n1 := 36, s2 := 1, n2 := 4, sub0 := 0x7, ty := .tick64, acc := .rw, cls := .live, lo := 0, hi := 18446744073709551615 }

/-- Replay.TruncPolicy. -/
def O.replayTruncPolicy : ObjDef :=
  { name := "Replay.TruncPolicy", base := 0x5900, s1 := 0x4, n1 := 36, s2 := 1, n2 := 4, sub0 := 0x8, ty := .u8, acc := .rw, cls := .live, lo := 0, hi := 1 }

/-- Replay.FcsRegen. -/
def O.replayFcsRegen : ObjDef :=
  { name := "Replay.FcsRegen", base := 0x5900, s1 := 0x4, n1 := 36, s2 := 1, n2 := 4, sub0 := 0x9, ty := .bool, acc := .rw, cls := .live, lo := 0, hi := 1 }

/-- Replay.GapPolicy. -/
def O.replayGapPolicy : ObjDef :=
  { name := "Replay.GapPolicy", base := 0x5900, s1 := 0x4, n1 := 36, s2 := 1, n2 := 4, sub0 := 0xA, ty := .u8, acc := .rw, cls := .live, lo := 0, hi := 1 }

/-- Replay.FirstTick. -/
def O.replayFirstTick : ObjDef :=
  { name := "Replay.FirstTick", base := 0x5900, s1 := 0x4, n1 := 36, s2 := 1, n2 := 4, sub0 := 0xB, ty := .tick64, acc := .ro, cls := .live, lo := 0, hi := 18446744073709551615 }

/-- Rows of chapter 05. -/
def objRows05a : List ObjDef :=
  [O.txControl, O.txSource, O.txState, O.txStartTick, O.txLead,
   O.txAnchorTick, O.txLatePolicy, O.txMinIfg, O.txHoldWindow, O.txForceDown,
   O.txHook, O.txHookBudget, O.txOffset, O.txPosition, O.txShift,
   O.txFault, O.txUnitsSent, O.txBytesSent, O.txLateUnits, O.txMaxLate,
   O.txDiscarded, O.txFlushed, O.txHolds, O.txSkipped, O.txHookDrops,
   O.txHookTimeouts, O.txQueueLevel, O.patternListAddr, O.patternListCount, O.patternLoops,
   O.patternLoopPeriod, O.patternRawFill, O.replayBufferAddr, O.replayBufferBytes, O.replaySourceValue,
   O.replaySourceMask, O.replayTypeMask, O.replayFromTick, O.replayToTick, O.replayTruncPolicy]

/-- Rows of chapter 05. -/
def objRows05b : List ObjDef :=
  [O.replayFcsRegen, O.replayGapPolicy, O.replayFirstTick]

/-! The objects of chapter 06 (R181). -/

/-- Mem.HbmBytes. -/
def O.memHbmBytes : ObjDef :=
  { name := "Mem.HbmBytes", base := 0x6000, sub0 := 0x1, ty := .u64, acc := .ro, cls := .live, dflt := [309237645312], lo := 0, hi := 18446744073709551615 }

/-- Mem.DdrBytesNorth. -/
def O.memDdrBytesNorth : ObjDef :=
  { name := "Mem.DdrBytesNorth", base := 0x6000, sub0 := 0x2, ty := .u64, acc := .ro, cls := .live, lo := 0, hi := 18446744073709551615 }

/-- Mem.DdrBytesSouth. -/
def O.memDdrBytesSouth : ObjDef :=
  { name := "Mem.DdrBytesSouth", base := 0x6000, sub0 := 0x3, ty := .u64, acc := .ro, cls := .live, lo := 0, hi := 18446744073709551615 }

/-- Mem.DdrChannels. -/
def O.memDdrChannels : ObjDef :=
  { name := "Mem.DdrChannels", base := 0x6000, sub0 := 0x4, ty := .u8, acc := .ro, cls := .live, lo := 0, hi := 255 }

/-- MemLull.Control. -/
def O.memLullControl : ObjDef :=
  { name := "MemLull.Control", base := 0x6001, sub0 := 0x1, ty := .u8, acc := .rw, cls := .live, lo := 0, hi := 1, eff := .lullControl }

/-- MemLull.State. -/
def O.memLullState : ObjDef :=
  { name := "MemLull.State", base := 0x6001, sub0 := 0x2, ty := .u8, acc := .ro, cls := .live, lo := 0, hi := 255 }

/-- MemLull.RetainHbm. -/
def O.memLullRetainHbm : ObjDef :=
  { name := "MemLull.RetainHbm", base := 0x6001, sub0 := 0x3, ty := .u8, acc := .rw, cls := .live, dflt := [255], lo := 0, hi := 255 }

/-- MemLull.RetainDdr. -/
def O.memLullRetainDdr : ObjDef :=
  { name := "MemLull.RetainDdr", base := 0x6001, sub0 := 0x4, ty := .u32, acc := .rw, cls := .live, dflt := [4294967295], lo := 0, hi := 4294967295 }

/-- MemLull.Refused. -/
def O.memLullRefused : ObjDef :=
  { name := "MemLull.Refused", base := 0x6001, sub0 := 0x5, ty := .u64, acc := .rc, cls := .live, lo := 0, hi := 18446744073709551615 }

/-- MemRing.Base. -/
def O.memRingBase : ObjDef :=
  { name := "MemRing.Base", base := 0x6010, s1 := 0x1, n1 := 2, sub0 := 0x1, ty := .u64, acc := .rw, cls := .quiesce, dflt := [0, 154618822656], lo := 0, hi := 18446744073709551615, mult := 1073741824, eff := .ringMove }

/-- MemRing.Size. -/
def O.memRingSize : ObjDef :=
  { name := "MemRing.Size", base := 0x6010, s1 := 0x1, n1 := 2, sub0 := 0x2, ty := .u64, acc := .rw, cls := .quiesce, dflt := [68719476736], lo := 1073741824, hi := 154618822656, mult := 1073741824, eff := .ringMove }

/-- MemRing.WriteOffset. -/
def O.memRingWriteOffset : ObjDef :=
  { name := "MemRing.WriteOffset", base := 0x6010, s1 := 0x1, n1 := 2, sub0 := 0x3, ty := .u64, acc := .ro, cls := .live, lo := 0, hi := 18446744073709551615 }

/-- MemRing.Wraps. -/
def O.memRingWraps : ObjDef :=
  { name := "MemRing.Wraps", base := 0x6010, s1 := 0x1, n1 := 2, sub0 := 0x4, ty := .u64, acc := .ro, cls := .live, lo := 0, hi := 18446744073709551615 }

/-- MemRing.Stalls. -/
def O.memRingStalls : ObjDef :=
  { name := "MemRing.Stalls", base := 0x6010, s1 := 0x1, n1 := 2, sub0 := 0x5, ty := .u64, acc := .rc, cls := .live, lo := 0, hi := 18446744073709551615 }

/-- MemRing.OldestTick. -/
def O.memRingOldestTick : ObjDef :=
  { name := "MemRing.OldestTick", base := 0x6010, s1 := 0x1, n1 := 2, sub0 := 0x6, ty := .tick64, acc := .ro, cls := .live, lo := 0, hi := 18446744073709551615, rd := .oldestTick }

/-- MemStage.Base. -/
def O.memStageBase : ObjDef :=
  { name := "MemStage.Base", base := 0x6012, s1 := 0x1, n1 := 2, sub0 := 0x1, ty := .u64, acc := .rw, cls := .quiesce, dflt := [4398046511104, 6597069766656], lo := 0, hi := 18446744073709551615, mult := 1073741824, eff := .stageMove }

/-- MemStage.Size. -/
def O.memStageSize : ObjDef :=
  { name := "MemStage.Size", base := 0x6012, s1 := 0x1, n1 := 2, sub0 := 0x2, ty := .u64, acc := .rw, cls := .quiesce, lo := 0, hi := 2199023255552, mult := 1073741824, eff := .stageMove }

/-- MemStage.Level. -/
def O.memStageLevel : ObjDef :=
  { name := "MemStage.Level", base := 0x6012, s1 := 0x1, n1 := 2, sub0 := 0x3, ty := .u64, acc := .ro, cls := .live, lo := 0, hi := 18446744073709551615, rd := .stageLevel }

/-- MemStage.Waits. -/
def O.memStageWaits : ObjDef :=
  { name := "MemStage.Waits", base := 0x6012, s1 := 0x1, n1 := 2, sub0 := 0x4, ty := .u64, acc := .rc, cls := .live, lo := 0, hi := 18446744073709551615 }

/-- MemChannel.State. -/
def O.memChannelState : ObjDef :=
  { name := "MemChannel.State", base := 0x6040, s1 := 0x40, n1 := 2, s2 := 1, n2 := 128, sub0 := 0x1, ty := .u8, acc := .ro, cls := .live, dflt := [1], lo := 0, hi := 255, hole := .chan }

/-- MemChannel.Thaw. -/
def O.memChannelThaw : ObjDef :=
  { name := "MemChannel.Thaw", base := 0x6040, s1 := 0x40, n1 := 2, s2 := 1, n2 := 128, sub0 := 0x2, ty := .bool, acc := .wo, cls := .live, lo := 0, hi := 1, eff := .thaw, hole := .chan }

/-- MemChannel.PagePolicy. -/
def O.memChannelPagePolicy : ObjDef :=
  { name := "MemChannel.PagePolicy", base := 0x6040, s1 := 0x40, n1 := 2, s2 := 1, n2 := 128, sub0 := 0x3, ty := .u8, acc := .rw, cls := .live, lo := 0, hi := 2, hole := .chan }

/-- MemChannel.NeighbourProb. -/
def O.memChannelNeighbourProb : ObjDef :=
  { name := "MemChannel.NeighbourProb", base := 0x6040, s1 := 0x40, n1 := 2, s2 := 1, n2 := 128, sub0 := 0x4, ty := .u16, acc := .rw, cls := .live, dflt := [16], lo := 0, hi := 4096, hole := .chan }

/-- MemChannel.RefreshThreshold. -/
def O.memChannelRefreshThreshold : ObjDef :=
  { name := "MemChannel.RefreshThreshold", base := 0x6040, s1 := 0x40, n1 := 2, s2 := 1, n2 := 128, sub0 := 0x5, ty := .u8, acc := .rw, cls := .live, dflt := [85], lo := 70, hi := 95, hole := .chan }

/-- MemChannel.Temperature. -/
def O.memChannelTemperature : ObjDef :=
  { name := "MemChannel.Temperature", base := 0x6040, s1 := 0x40, n1 := 2, s2 := 1, n2 := 128, sub0 := 0x6, ty := .i8, acc := .ro, cls := .live, lo := -128, hi := 127, hole := .chan }

/-- MemChannel.RefreshDoubled. -/
def O.memChannelRefreshDoubled : ObjDef :=
  { name := "MemChannel.RefreshDoubled", base := 0x6040, s1 := 0x40, n1 := 2, s2 := 1, n2 := 128, sub0 := 0x7, ty := .bool, acc := .ro, cls := .live, lo := 0, hi := 1, hole := .chan }

/-- MemChannel.Snapshot. -/
def O.memChannelSnapshot : ObjDef :=
  { name := "MemChannel.Snapshot", base := 0x6040, s1 := 0x40, n1 := 2, s2 := 1, n2 := 128, sub0 := 0x8, ty := .record, acc := .ro, cls := .live, entry := 64, rd := .snapshot, hole := .chan }

/-- MemChannel.Poison. -/
def O.memChannelPoison : ObjDef :=
  { name := "MemChannel.Poison", base := 0x6040, s1 := 0x40, n1 := 2, s2 := 1, n2 := 128, sub0 := 0x9, ty := .record, acc := .ro, cls := .live, entry := 16, rd := .poison, hole := .chan }

/-- MemChannel.PoisonClear. -/
def O.memChannelPoisonClear : ObjDef :=
  { name := "MemChannel.PoisonClear", base := 0x6040, s1 := 0x40, n1 := 2, s2 := 1, n2 := 128, sub0 := 0xA, ty := .u8, acc := .wo, cls := .live, lo := 0, hi := 15, eff := .poisonClear, hole := .chan }

/-- MemChannel.FrostCount. -/
def O.memChannelFrostCount : ObjDef :=
  { name := "MemChannel.FrostCount", base := 0x6040, s1 := 0x40, n1 := 2, s2 := 1, n2 := 128, sub0 := 0xB, ty := .u32, acc := .rc, cls := .live, lo := 0, hi := 4294967295, hole := .chan }

/-- MemChannel.ThawFailures. -/
def O.memChannelThawFailures : ObjDef :=
  { name := "MemChannel.ThawFailures", base := 0x6040, s1 := 0x40, n1 := 2, s2 := 1, n2 := 128, sub0 := 0xC, ty := .u32, acc := .rc, cls := .live, lo := 0, hi := 4294967295, hole := .chan }

/-- MemChannel.Activates. -/
def O.memChannelActivates : ObjDef :=
  { name := "MemChannel.Activates", base := 0x6040, s1 := 0x40, n1 := 2, s2 := 1, n2 := 128, sub0 := 0xD, ty := .u64, acc := .rc, cls := .live, lo := 0, hi := 18446744073709551615, hole := .chan }

/-- MemChannel.NeighbourRefreshes. -/
def O.memChannelNeighbourRefreshes : ObjDef :=
  { name := "MemChannel.NeighbourRefreshes", base := 0x6040, s1 := 0x40, n1 := 2, s2 := 1, n2 := 128, sub0 := 0xE, ty := .u64, acc := .rc, cls := .live, lo := 0, hi := 18446744073709551615, hole := .chan }

/-- MemChannel.RawWaits. -/
def O.memChannelRawWaits : ObjDef :=
  { name := "MemChannel.RawWaits", base := 0x6040, s1 := 0x40, n1 := 2, s2 := 1, n2 := 128, sub0 := 0xF, ty := .u64, acc := .rc, cls := .live, lo := 0, hi := 18446744073709551615, hole := .chan }

/-- MemChannel.SensorFaults. -/
def O.memChannelSensorFaults : ObjDef :=
  { name := "MemChannel.SensorFaults", base := 0x6040, s1 := 0x40, n1 := 2, s2 := 1, n2 := 128, sub0 := 0x10, ty := .u32, acc := .rc, cls := .live, lo := 0, hi := 4294967295, hole := .chan }

/-- MemChannel.Bytes. -/
def O.memChannelBytes : ObjDef :=
  { name := "MemChannel.Bytes", base := 0x6040, s1 := 0x40, n1 := 2, s2 := 1, n2 := 128, sub0 := 0x11, ty := .u64, acc := .ro, cls := .live, lo := 0, hi := 18446744073709551615, hole := .chan }

/-- Rows of chapter 06. -/
def objRows06a : List ObjDef :=
  [O.memHbmBytes, O.memDdrBytesNorth, O.memDdrBytesSouth, O.memDdrChannels, O.memLullControl,
   O.memLullState, O.memLullRetainHbm, O.memLullRetainDdr, O.memLullRefused, O.memRingBase,
   O.memRingSize, O.memRingWriteOffset, O.memRingWraps, O.memRingStalls, O.memRingOldestTick,
   O.memStageBase, O.memStageSize, O.memStageLevel, O.memStageWaits, O.memChannelState,
   O.memChannelThaw, O.memChannelPagePolicy, O.memChannelNeighbourProb, O.memChannelRefreshThreshold, O.memChannelTemperature,
   O.memChannelRefreshDoubled, O.memChannelSnapshot, O.memChannelPoison, O.memChannelPoisonClear, O.memChannelFrostCount,
   O.memChannelThawFailures, O.memChannelActivates, O.memChannelNeighbourRefreshes, O.memChannelRawWaits, O.memChannelSensorFaults,
   O.memChannelBytes]

/-! The objects of chapter 07 (R210). -/

/-- Integrity.HaltState. -/
def O.integrityHaltState : ObjDef :=
  { name := "Integrity.HaltState", base := 0x6100, sub0 := 0x1, ty := .bool, acc := .ro, cls := .live, lo := 0, hi := 1 }

/-- Integrity.HaltCause. -/
def O.integrityHaltCause : ObjDef :=
  { name := "Integrity.HaltCause", base := 0x6100, sub0 := 0x2, ty := .u8, acc := .ro, cls := .live, lo := 0, hi := 255 }

/-- Integrity.HaltTick. -/
def O.integrityHaltTick : ObjDef :=
  { name := "Integrity.HaltTick", base := 0x6100, sub0 := 0x3, ty := .tick64, acc := .ro, cls := .live, lo := 0, hi := 18446744073709551615 }

/-- Integrity.HaltAddress. -/
def O.integrityHaltAddress : ObjDef :=
  { name := "Integrity.HaltAddress", base := 0x6100, sub0 := 0x4, ty := .u64, acc := .ro, cls := .live, lo := 0, hi := 18446744073709551615 }

/-- Integrity.HaltInitiator. -/
def O.integrityHaltInitiator : ObjDef :=
  { name := "Integrity.HaltInitiator", base := 0x6100, sub0 := 0x5, ty := .u16, acc := .ro, cls := .live, lo := 0, hi := 65535 }

/-- Integrity.LeakPeriod. -/
def O.integrityLeakPeriod : ObjDef :=
  { name := "Integrity.LeakPeriod", base := 0x6101, sub0 := 0x1, ty := .u32, acc := .rw, cls := .live, dflt := [1000], lo := 1, hi := 3600000 }

/-- Integrity.LeakCapacity. -/
def O.integrityLeakCapacity : ObjDef :=
  { name := "Integrity.LeakCapacity", base := 0x6101, sub0 := 0x2, ty := .u16, acc := .rw, cls := .live, dflt := [16], lo := 1, hi := 65535 }

/-- Integrity.OverflowLog. -/
def O.integrityOverflowLog : ObjDef :=
  { name := "Integrity.OverflowLog", base := 0x6101, sub0 := 0x3, ty := .record, acc := .ro, cls := .live, entry := 16, rd := .overflowLog }

/-- Integrity.Overflows. -/
def O.integrityOverflows : ObjDef :=
  { name := "Integrity.Overflows", base := 0x6101, sub0 := 0x4, ty := .u32, acc := .rc, cls := .live, lo := 0, hi := 4294967295 }

/-- Integrity.SramCorrected. -/
def O.integritySramCorrected : ObjDef :=
  { name := "Integrity.SramCorrected", base := 0x6101, sub0 := 0x5, ty := .u64, acc := .rc, cls := .live, lo := 0, hi := 18446744073709551615 }

/-- Integrity.SramUncorrected. -/
def O.integritySramUncorrected : ObjDef :=
  { name := "Integrity.SramUncorrected", base := 0x6101, sub0 := 0x6, ty := .u64, acc := .rc, cls := .live, lo := 0, hi := 18446744073709551615 }

/-- Integrity.DramCorrected. -/
def O.integrityDramCorrected : ObjDef :=
  { name := "Integrity.DramCorrected", base := 0x6102, sub0 := 0x1, ty := .u64, acc := .rc, cls := .live, lo := 0, hi := 18446744073709551615 }

/-- Integrity.DramUncorrected. -/
def O.integrityDramUncorrected : ObjDef :=
  { name := "Integrity.DramUncorrected", base := 0x6102, sub0 := 0x2, ty := .u64, acc := .rc, cls := .live, lo := 0, hi := 18446744073709551615 }

/-- Integrity.ZeroFills. -/
def O.integrityZeroFills : ObjDef :=
  { name := "Integrity.ZeroFills", base := 0x6102, sub0 := 0x3, ty := .u64, acc := .rc, cls := .live, lo := 0, hi := 18446744073709551615 }

/-- Integrity.ForcedCloses. -/
def O.integrityForcedCloses : ObjDef :=
  { name := "Integrity.ForcedCloses", base := 0x6102, sub0 := 0x4, ty := .u64, acc := .rc, cls := .live, lo := 0, hi := 18446744073709551615 }

/-- Integrity.CounterFetches. -/
def O.integrityCounterFetches : ObjDef :=
  { name := "Integrity.CounterFetches", base := 0x6102, sub0 := 0x5, ty := .u64, acc := .rc, cls := .live, lo := 0, hi := 18446744073709551615 }

/-- Drizzle.Enable. -/
def O.drizzleEnable : ObjDef :=
  { name := "Drizzle.Enable", base := 0x6103, sub0 := 0x1, ty := .bool, acc := .rw, cls := .live, dflt := [1], lo := 0, hi := 1 }

/-- Drizzle.SramPeriod. -/
def O.drizzleSramPeriod : ObjDef :=
  { name := "Drizzle.SramPeriod", base := 0x6103, sub0 := 0x2, ty := .u32, acc := .rw, cls := .live, dflt := [10000], lo := 100, hi := 86400000 }

/-- Drizzle.DramPeriod. -/
def O.drizzleDramPeriod : ObjDef :=
  { name := "Drizzle.DramPeriod", base := 0x6103, sub0 := 0x3, ty := .u32, acc := .rw, cls := .live, dflt := [86400], lo := 3600, hi := 2592000 }

/-- Drizzle.Sweeps. -/
def O.drizzleSweeps : ObjDef :=
  { name := "Drizzle.Sweeps", base := 0x6103, sub0 := 0x4, ty := .u64, acc := .rc, cls := .live, lo := 0, hi := 18446744073709551615 }

/-- Drizzle.Corrected. -/
def O.drizzleCorrected : ObjDef :=
  { name := "Drizzle.Corrected", base := 0x6103, sub0 := 0x5, ty := .u64, acc := .rc, cls := .live, lo := 0, hi := 18446744073709551615 }

/-- Fog.Reencryptions. -/
def O.fogReencryptions : ObjDef :=
  { name := "Fog.Reencryptions", base := 0x6104, sub0 := 0x1, ty := .u64, acc := .rc, cls := .live, lo := 0, hi := 18446744073709551615 }

/-- Fog.EpochChanges. -/
def O.fogEpochChanges : ObjDef :=
  { name := "Fog.EpochChanges", base := 0x6104, sub0 := 0x2, ty := .u64, acc := .rc, cls := .live, lo := 0, hi := 18446744073709551615 }

/-- Fog.ReencryptActive. -/
def O.fogReencryptActive : ObjDef :=
  { name := "Fog.ReencryptActive", base := 0x6104, sub0 := 0x3, ty := .u16, acc := .ro, cls := .live, lo := 0, hi := 65535, rd := .reencryptActive }

/-- Fog.Mispredicts. -/
def O.fogMispredicts : ObjDef :=
  { name := "Fog.Mispredicts", base := 0x6104, sub0 := 0x4, ty := .u64, acc := .rc, cls := .live, lo := 0, hi := 18446744073709551615 }

/-- Fog.MaxEpoch. -/
def O.fogMaxEpoch : ObjDef :=
  { name := "Fog.MaxEpoch", base := 0x6104, sub0 := 0x5, ty := .u32, acc := .ro, cls := .live, lo := 0, hi := 4294967295, rd := .maxEpoch }

/-- Fog.LinkTagFailures. -/
def O.fogLinkTagFailures : ObjDef :=
  { name := "Fog.LinkTagFailures", base := 0x6104, sub0 := 0x6, ty := .u64, acc := .rc, cls := .live, lo := 0, hi := 18446744073709551615 }

/-- ChkTest.Instance. -/
def O.chkTestInstance : ObjDef :=
  { name := "ChkTest.Instance", base := 0x6105, sub0 := 0x1, ty := .u32, acc := .rw, cls := .live, lo := 0, hi := 4294967295, chk := .sramNumber }

/-- ChkTest.Word. -/
def O.chkTestWord : ObjDef :=
  { name := "ChkTest.Word", base := 0x6105, sub0 := 0x2, ty := .u32, acc := .rw, cls := .live, lo := 0, hi := 4294967295 }

/-- ChkTest.Data. -/
def O.chkTestData : ObjDef :=
  { name := "ChkTest.Data", base := 0x6105, sub0 := 0x3, ty := .u64, acc := .rw, cls := .live, lo := 0, hi := 18446744073709551615 }

/-- ChkTest.Check. -/
def O.chkTestCheck : ObjDef :=
  { name := "ChkTest.Check", base := 0x6105, sub0 := 0x4, ty := .u8, acc := .rw, cls := .live, lo := 0, hi := 255 }

/-- ChkTest.Op. -/
def O.chkTestOp : ObjDef :=
  { name := "ChkTest.Op", base := 0x6105, sub0 := 0x5, ty := .u8, acc := .wo, cls := .live, lo := 1, hi := 5, eff := .chkOp }

/-- ChkTest.Status. -/
def O.chkTestStatus : ObjDef :=
  { name := "ChkTest.Status", base := 0x6105, sub0 := 0x6, ty := .u8, acc := .ro, cls := .live, lo := 0, hi := 255 }

/-- ChkTest.DramLine. -/
def O.chkTestDramLine : ObjDef :=
  { name := "ChkTest.DramLine", base := 0x6105, sub0 := 0x7, ty := .u64, acc := .rw, cls := .live, lo := 0, hi := 18446744073709551615, mask := some 0xFFFFFFFFFC0, eff := .chkLine }

/-- ChkTest.DramData. -/
def O.chkTestDramData : ObjDef :=
  { name := "ChkTest.DramData", base := 0x6105, sub0 := 0x8, ty := .octets, acc := .rw, cls := .live, len := 64, fixed := true }

/-- ChkTest.DramSpare. -/
def O.chkTestDramSpare : ObjDef :=
  { name := "ChkTest.DramSpare", base := 0x6105, sub0 := 0x9, ty := .u64, acc := .rw, cls := .live, lo := 0, hi := 18446744073709551615 }

/-- Rows of chapter 07. -/
def objRows07a : List ObjDef :=
  [O.integrityHaltState, O.integrityHaltCause, O.integrityHaltTick, O.integrityHaltAddress, O.integrityHaltInitiator,
   O.integrityLeakPeriod, O.integrityLeakCapacity, O.integrityOverflowLog, O.integrityOverflows, O.integritySramCorrected,
   O.integritySramUncorrected, O.integrityDramCorrected, O.integrityDramUncorrected, O.integrityZeroFills, O.integrityForcedCloses,
   O.integrityCounterFetches, O.drizzleEnable, O.drizzleSramPeriod, O.drizzleDramPeriod, O.drizzleSweeps,
   O.drizzleCorrected, O.fogReencryptions, O.fogEpochChanges, O.fogReencryptActive, O.fogMispredicts,
   O.fogMaxEpoch, O.fogLinkTagFailures, O.chkTestInstance, O.chkTestWord, O.chkTestData,
   O.chkTestCheck, O.chkTestOp, O.chkTestStatus, O.chkTestDramLine, O.chkTestDramData,
   O.chkTestDramSpare]

/-! The objects of chapter 08 (R244 to R246). -/

/-- Store.Control. -/
def O.storeControl : ObjDef :=
  { name := "Store.Control", base := 0x7000, sub0 := 0x1, ty := .u8, acc := .rw, cls := .live, lo := 0, hi := 1, eff := .storeControl }

/-- Store.State. -/
def O.storeState : ObjDef :=
  { name := "Store.State", base := 0x7000, sub0 := 0x2, ty := .u8, acc := .ro, cls := .live, lo := 0, hi := 255 }

/-- Store.TableBase. -/
def O.storeTableBase : ObjDef :=
  { name := "Store.TableBase", base := 0x7000, sub0 := 0x3, ty := .u64, acc := .rw, cls := .quiesce, dflt := [6665789243392], lo := 0, hi := 18446744073709551615, mult := 1073741824 }

/-- Store.TableBytes. -/
def O.storeTableBytes : ObjDef :=
  { name := "Store.TableBytes", base := 0x7000, sub0 := 0x4, ty := .u64, acc := .ro, cls := .live, lo := 0, hi := 18446744073709551615, rd := .tableBytes }

/-- Store.AdminTimeout. -/
def O.storeAdminTimeout : ObjDef :=
  { name := "Store.AdminTimeout", base := 0x7000, sub0 := 0x5, ty := .u32, acc := .rw, cls := .live, dflt := [5000], lo := 100, hi := 60000 }

/-- Store.IoTimeout. -/
def O.storeIoTimeout : ObjDef :=
  { name := "Store.IoTimeout", base := 0x7000, sub0 := 0x6, ty := .u32, acc := .rw, cls := .live, dflt := [2000], lo := 10, hi := 60000 }

/-- Store.FlushInterval. -/
def O.storeFlushInterval : ObjDef :=
  { name := "Store.FlushInterval", base := 0x7000, sub0 := 0x7, ty := .u32, acc := .rw, cls := .live, dflt := [100], lo := 1, hi := 10000 }

/-- Store.WriteSize. -/
def O.storeWriteSize : ObjDef :=
  { name := "Store.WriteSize", base := 0x7000, sub0 := 0x8, ty := .u32, acc := .rw, cls := .quiesce, dflt := [262144], lo := 4096, hi := 1048576, chk := .pow2 }

/-- Store.DrainAge. -/
def O.storeDrainAge : ObjDef :=
  { name := "Store.DrainAge", base := 0x7000, sub0 := 0x9, ty := .u32, acc := .rw, cls := .live, dflt := [10], lo := 1, hi := 10000 }

/-- Store.Trim. -/
def O.storeTrim : ObjDef :=
  { name := "Store.Trim", base := 0x7000, sub0 := 0xA, ty := .bool, acc := .rw, cls := .live, dflt := [1], lo := 0, hi := 1 }

/-- Store.FreeExtents. -/
def O.storeFreeExtents : ObjDef :=
  { name := "Store.FreeExtents", base := 0x7000, sub0 := 0xB, ty := .u32, acc := .ro, cls := .live, lo := 0, hi := 4294967295, rd := .freeExtents }

/-- Store.DrainBytes. -/
def O.storeDrainBytes : ObjDef :=
  { name := "Store.DrainBytes", base := 0x7000, sub0 := 0xC, ty := .u64, acc := .rc, cls := .live, lo := 0, hi := 18446744073709551615 }

/-- Store.LostExtents. -/
def O.storeLostExtents : ObjDef :=
  { name := "Store.LostExtents", base := 0x7000, sub0 := 0xD, ty := .u64, acc := .rc, cls := .live, lo := 0, hi := 18446744073709551615 }

/-- Store.Remaps. -/
def O.storeRemaps : ObjDef :=
  { name := "Store.Remaps", base := 0x7000, sub0 := 0xE, ty := .u64, acc := .rc, cls := .live, lo := 0, hi := 18446744073709551615 }

/-- Store.Recovered. -/
def O.storeRecovered : ObjDef :=
  { name := "Store.Recovered", base := 0x7000, sub0 := 0xF, ty := .u32, acc := .rc, cls := .live, lo := 0, hi := 4294967295 }

/-- Store.Unpin. -/
def O.storeUnpin : ObjDef :=
  { name := "Store.Unpin", base := 0x7000, sub0 := 0x10, ty := .u32, acc := .wo, cls := .live, lo := 0, hi := 268435455, eff := .storeUnpin }

/-- Store.ExtentSelect. -/
def O.storeExtentSelect : ObjDef :=
  { name := "Store.ExtentSelect", base := 0x7000, sub0 := 0x11, ty := .u32, acc := .rw, cls := .live, lo := 0, hi := 268435455 }

/-- Store.ExtentEntry. -/
def O.storeExtentEntry : ObjDef :=
  { name := "Store.ExtentEntry", base := 0x7000, sub0 := 0x12, ty := .record, acc := .ro, cls := .live, entry := 32, rd := .extentEntry }

/-- StoreCtl.State. -/
def O.storeCtlState : ObjDef :=
  { name := "StoreCtl.State", base := 0x7010, s1 := 0x1, n1 := 64, sub0 := 0x1, ty := .u8, acc := .ro, cls := .live, lo := 0, hi := 255 }

/-- StoreCtl.Quad. -/
def O.storeCtlQuad : ObjDef :=
  { name := "StoreCtl.Quad", base := 0x7010, s1 := 0x1, n1 := 64, sub0 := 0x2, ty := .u8, acc := .ro, cls := .live, lo := 0, hi := 255 }

/-- StoreCtl.Bdf. -/
def O.storeCtlBdf : ObjDef :=
  { name := "StoreCtl.Bdf", base := 0x7010, s1 := 0x1, n1 := 64, sub0 := 0x3, ty := .u16, acc := .ro, cls := .live, lo := 0, hi := 65535 }

/-- StoreCtl.Identity. -/
def O.storeCtlIdentity : ObjDef :=
  { name := "StoreCtl.Identity", base := 0x7010, s1 := 0x1, n1 := 64, sub0 := 0x4, ty := .octets, acc := .ro, cls := .live, len := 60 }

/-- StoreCtl.Namespaces. -/
def O.storeCtlNamespaces : ObjDef :=
  { name := "StoreCtl.Namespaces", base := 0x7010, s1 := 0x1, n1 := 64, sub0 := 0x5, ty := .u16, acc := .ro, cls := .live, lo := 0, hi := 65535 }

/-- StoreCtl.Resets. -/
def O.storeCtlResets : ObjDef :=
  { name := "StoreCtl.Resets", base := 0x7010, s1 := 0x1, n1 := 64, sub0 := 0x6, ty := .u32, acc := .rc, cls := .live, lo := 0, hi := 4294967295 }

/-- StoreCtl.Timeouts. -/
def O.storeCtlTimeouts : ObjDef :=
  { name := "StoreCtl.Timeouts", base := 0x7010, s1 := 0x1, n1 := 64, sub0 := 0x7, ty := .u32, acc := .rc, cls := .live, lo := 0, hi := 4294967295 }

/-- StoreCtl.UnknownCompletions. -/
def O.storeCtlUnknownCompletions : ObjDef :=
  { name := "StoreCtl.UnknownCompletions", base := 0x7010, s1 := 0x1, n1 := 64, sub0 := 0x8, ty := .u32, acc := .rc, cls := .live, lo := 0, hi := 4294967295 }

/-- StoreCtl.MediaErrors. -/
def O.storeCtlMediaErrors : ObjDef :=
  { name := "StoreCtl.MediaErrors", base := 0x7010, s1 := 0x1, n1 := 64, sub0 := 0x9, ty := .u64, acc := .rc, cls := .live, lo := 0, hi := 18446744073709551615 }

/-- StoreCtl.Reset. -/
def O.storeCtlReset : ObjDef :=
  { name := "StoreCtl.Reset", base := 0x7010, s1 := 0x1, n1 := 64, sub0 := 0xA, ty := .bool, acc := .wo, cls := .live, lo := 0, hi := 1, eff := .ctlReset }

/-- StoreCtl.AdminCmd. -/
def O.storeCtlAdminCmd : ObjDef :=
  { name := "StoreCtl.AdminCmd", base := 0x7010, s1 := 0x1, n1 := 64, sub0 := 0xB, ty := .octets, acc := .wo, cls := .live, len := 64, fixed := true, chk := .adminCmd, eff := .adminCmd }

/-- StoreCtl.AdminData. -/
def O.storeCtlAdminData : ObjDef :=
  { name := "StoreCtl.AdminData", base := 0x7010, s1 := 0x1, n1 := 64, sub0 := 0xC, ty := .octets, acc := .rw, cls := .live, len := 4096, fixed := true }

/-- StoreCtl.AdminStatus. -/
def O.storeCtlAdminStatus : ObjDef :=
  { name := "StoreCtl.AdminStatus", base := 0x7010, s1 := 0x1, n1 := 64, sub0 := 0xD, ty := .u32, acc := .ro, cls := .live, lo := 0, hi := 4294967295 }

/-- StoreNs.Controller. -/
def O.storeNsController : ObjDef :=
  { name := "StoreNs.Controller", base := 0x7100, s1 := 0x1, n1 := 1024, sub0 := 0x1, ty := .u8, acc := .rw, cls := .quiesce, lo := 0, hi := 63 }

/-- StoreNs.Nsid. -/
def O.storeNsNsid : ObjDef :=
  { name := "StoreNs.Nsid", base := 0x7100, s1 := 0x1, n1 := 1024, sub0 := 0x2, ty := .u32, acc := .rw, cls := .quiesce, lo := 0, hi := 4294967295, eff := .nsMap }

/-- StoreNs.BaseExtent. -/
def O.storeNsBaseExtent : ObjDef :=
  { name := "StoreNs.BaseExtent", base := 0x7100, s1 := 0x1, n1 := 1024, sub0 := 0x3, ty := .u32, acc := .rw, cls := .quiesce, lo := 0, hi := 4294967295 }

/-- StoreNs.Extents. -/
def O.storeNsExtents : ObjDef :=
  { name := "StoreNs.Extents", base := 0x7100, s1 := 0x1, n1 := 1024, sub0 := 0x4, ty := .u32, acc := .rw, cls := .quiesce, lo := 0, hi := 33554304 }

/-- StoreNs.State. -/
def O.storeNsState : ObjDef :=
  { name := "StoreNs.State", base := 0x7100, s1 := 0x1, n1 := 1024, sub0 := 0x5, ty := .u8, acc := .ro, cls := .live, lo := 0, hi := 255 }

/-- StoreNs.FreeExtents. -/
def O.storeNsFreeExtents : ObjDef :=
  { name := "StoreNs.FreeExtents", base := 0x7100, s1 := 0x1, n1 := 1024, sub0 := 0x6, ty := .u32, acc := .ro, cls := .live, lo := 0, hi := 4294967295, rd := .nsFree }

/-- StoreNs.Initialise. -/
def O.storeNsInitialise : ObjDef :=
  { name := "StoreNs.Initialise", base := 0x7100, s1 := 0x1, n1 := 1024, sub0 := 0x7, ty := .bool, acc := .wo, cls := .quiesce, lo := 0, hi := 1, eff := .nsInit }

/-- StoreSession.Enable. -/
def O.storeSessionEnable : ObjDef :=
  { name := "StoreSession.Enable", base := 0x7600, s1 := 0x1, n1 := 256, sub0 := 0x1, ty := .bool, acc := .rw, cls := .live, lo := 0, hi := 1, eff := .sessEnable }

/-- StoreSession.Quota. -/
def O.storeSessionQuota : ObjDef :=
  { name := "StoreSession.Quota", base := 0x7600, s1 := 0x1, n1 := 256, sub0 := 0x2, ty := .u32, acc := .rw, cls := .live, lo := 0, hi := 268435456, eff := .quota }

/-- StoreSession.Policy. -/
def O.storeSessionPolicy : ObjDef :=
  { name := "StoreSession.Policy", base := 0x7600, s1 := 0x1, n1 := 256, sub0 := 0x3, ty := .u8, acc := .rw, cls := .live, lo := 0, hi := 1 }

/-- StoreSession.PinSpan. -/
def O.storeSessionPinSpan : ObjDef :=
  { name := "StoreSession.PinSpan", base := 0x7600, s1 := 0x1, n1 := 256, sub0 := 0x4, ty := .u64, acc := .rw, cls := .live, lo := 0, hi := 86400000000000 }

/-- StoreSession.Used. -/
def O.storeSessionUsed : ObjDef :=
  { name := "StoreSession.Used", base := 0x7600, s1 := 0x1, n1 := 256, sub0 := 0x5, ty := .u32, acc := .ro, cls := .live, lo := 0, hi := 4294967295, rd := .used }

/-- StoreSession.Pinned. -/
def O.storeSessionPinned : ObjDef :=
  { name := "StoreSession.Pinned", base := 0x7600, s1 := 0x1, n1 := 256, sub0 := 0x6, ty := .u32, acc := .ro, cls := .live, lo := 0, hi := 4294967295, rd := .pinned }

/-- StoreSession.FirstTick. -/
def O.storeSessionFirstTick : ObjDef :=
  { name := "StoreSession.FirstTick", base := 0x7600, s1 := 0x1, n1 := 256, sub0 := 0x7, ty := .tick64, acc := .ro, cls := .live, lo := 0, hi := 18446744073709551615, rd := .sessFirst }

/-- StoreSession.LastTick. -/
def O.storeSessionLastTick : ObjDef :=
  { name := "StoreSession.LastTick", base := 0x7600, s1 := 0x1, n1 := 256, sub0 := 0x8, ty := .tick64, acc := .ro, cls := .live, lo := 0, hi := 18446744073709551615, rd := .sessLast }

/-- StoreSession.Stalled. -/
def O.storeSessionStalled : ObjDef :=
  { name := "StoreSession.Stalled", base := 0x7600, s1 := 0x1, n1 := 256, sub0 := 0x9, ty := .bool, acc := .ro, cls := .live, lo := 0, hi := 1 }

/-- StoreSession.Stalls. -/
def O.storeSessionStalls : ObjDef :=
  { name := "StoreSession.Stalls", base := 0x7600, s1 := 0x1, n1 := 256, sub0 := 0xA, ty := .u64, acc := .rc, cls := .live, lo := 0, hi := 18446744073709551615 }

/-- StoreSession.Discarded. -/
def O.storeSessionDiscarded : ObjDef :=
  { name := "StoreSession.Discarded", base := 0x7600, s1 := 0x1, n1 := 256, sub0 := 0xB, ty := .u64, acc := .rc, cls := .live, lo := 0, hi := 18446744073709551615 }

/-- StoreSession.Reclaimed. -/
def O.storeSessionReclaimed : ObjDef :=
  { name := "StoreSession.Reclaimed", base := 0x7600, s1 := 0x1, n1 := 256, sub0 := 0xC, ty := .u64, acc := .rc, cls := .live, lo := 0, hi := 18446744073709551615 }

/-- StoreSession.Sources. -/
def O.storeSessionSources : ObjDef :=
  { name := "StoreSession.Sources", base := 0x7600, s1 := 0x1, n1 := 256, sub0 := 0xD, ty := .octets, acc := .ro, cls := .live, len := 36, fixed := true }

/-- StoreSession.UnpinAll. -/
def O.storeSessionUnpinAll : ObjDef :=
  { name := "StoreSession.UnpinAll", base := 0x7600, s1 := 0x1, n1 := 256, sub0 := 0xE, ty := .bool, acc := .wo, cls := .live, lo := 0, hi := 1, eff := .unpinAll }

/-- StoreSession.Release. -/
def O.storeSessionRelease : ObjDef :=
  { name := "StoreSession.Release", base := 0x7600, s1 := 0x1, n1 := 256, sub0 := 0xF, ty := .bool, acc := .wo, cls := .live, lo := 0, hi := 1, eff := .release }

/-- Query.Control. -/
def O.queryControl : ObjDef :=
  { name := "Query.Control", base := 0x7800, s1 := 0x1, n1 := 8, sub0 := 0x1, ty := .u8, acc := .rw, cls := .live, lo := 0, hi := 2, eff := .queryControl }

/-- Query.State. -/
def O.queryState : ObjDef :=
  { name := "Query.State", base := 0x7800, s1 := 0x1, n1 := 8, sub0 := 0x2, ty := .u8, acc := .ro, cls := .live, lo := 0, hi := 255 }

/-- Query.Session. -/
def O.querySession : ObjDef :=
  { name := "Query.Session", base := 0x7800, s1 := 0x1, n1 := 8, sub0 := 0x3, ty := .u8, acc := .rw, cls := .live, lo := 0, hi := 255 }

/-- Query.Stream. -/
def O.queryStream : ObjDef :=
  { name := "Query.Stream", base := 0x7800, s1 := 0x1, n1 := 8, sub0 := 0x4, ty := .u8, acc := .rw, cls := .live, dflt := [2], lo := 0, hi := 2 }

/-- Query.FromTick. -/
def O.queryFromTick : ObjDef :=
  { name := "Query.FromTick", base := 0x7800, s1 := 0x1, n1 := 8, sub0 := 0x5, ty := .tick64, acc := .rw, cls := .live, lo := 0, hi := 18446744073709551615 }

/-- Query.ToTick. -/
def O.queryToTick : ObjDef :=
  { name := "Query.ToTick", base := 0x7800, s1 := 0x1, n1 := 8, sub0 := 0x6, ty := .tick64, acc := .rw, cls := .live, lo := 0, hi := 18446744073709551615 }

/-- Query.Alternatives. -/
def O.queryAlternatives : ObjDef :=
  { name := "Query.Alternatives", base := 0x7800, s1 := 0x1, n1 := 8, sub0 := 0x7, ty := .u8, acc := .rw, cls := .live, lo := 0, hi := 4 }

/-- Query.SkipMatches. -/
def O.querySkipMatches : ObjDef :=
  { name := "Query.SkipMatches", base := 0x7800, s1 := 0x1, n1 := 8, sub0 := 0x8, ty := .u32, acc := .rw, cls := .live, lo := 0, hi := 4294967295 }

/-- Query.MaxMatches. -/
def O.queryMaxMatches : ObjDef :=
  { name := "Query.MaxMatches", base := 0x7800, s1 := 0x1, n1 := 8, sub0 := 0x9, ty := .u32, acc := .rw, cls := .live, lo := 0, hi := 4294967295 }

/-- Query.Before. -/
def O.queryBefore : ObjDef :=
  { name := "Query.Before", base := 0x7800, s1 := 0x1, n1 := 8, sub0 := 0xA, ty := .u64, acc := .rw, cls := .live, lo := 0, hi := 10000000000 }

/-- Query.After. -/
def O.queryAfter : ObjDef :=
  { name := "Query.After", base := 0x7800, s1 := 0x1, n1 := 8, sub0 := 0xB, ty := .u64, acc := .rw, cls := .live, lo := 0, hi := 10000000000 }

/-- Query.WidenScope. -/
def O.queryWidenScope : ObjDef :=
  { name := "Query.WidenScope", base := 0x7800, s1 := 0x1, n1 := 8, sub0 := 0xC, ty := .u8, acc := .rw, cls := .live, lo := 0, hi := 1 }

/-- Query.ResultAddr. -/
def O.queryResultAddr : ObjDef :=
  { name := "Query.ResultAddr", base := 0x7800, s1 := 0x1, n1 := 8, sub0 := 0xD, ty := .u64, acc := .rw, cls := .live, lo := 0, hi := 18446744073709551615, mult := 8 }

/-- Query.ResultBytes. -/
def O.queryResultBytes : ObjDef :=
  { name := "Query.ResultBytes", base := 0x7800, s1 := 0x1, n1 := 8, sub0 := 0xE, ty := .u64, acc := .rw, cls := .live, lo := 0, hi := 18446744073709551615, mult := 8, chk := .oneTier }

/-- Query.ResultHost. -/
def O.queryResultHost : ObjDef :=
  { name := "Query.ResultHost", base := 0x7800, s1 := 0x1, n1 := 8, sub0 := 0xF, ty := .bool, acc := .rw, cls := .live, lo := 0, hi := 1 }

/-- Query.Written. -/
def O.queryWritten : ObjDef :=
  { name := "Query.Written", base := 0x7800, s1 := 0x1, n1 := 8, sub0 := 0x10, ty := .u64, acc := .ro, cls := .live, lo := 0, hi := 18446744073709551615 }

/-- Query.Matches. -/
def O.queryMatches : ObjDef :=
  { name := "Query.Matches", base := 0x7800, s1 := 0x1, n1 := 8, sub0 := 0x11, ty := .u64, acc := .ro, cls := .live, lo := 0, hi := 18446744073709551615 }

/-- Query.BytesRead. -/
def O.queryBytesRead : ObjDef :=
  { name := "Query.BytesRead", base := 0x7800, s1 := 0x1, n1 := 8, sub0 := 0x12, ty := .u64, acc := .ro, cls := .live, lo := 0, hi := 18446744073709551615 }

/-- Query.Reclaimed. -/
def O.queryReclaimed : ObjDef :=
  { name := "Query.Reclaimed", base := 0x7800, s1 := 0x1, n1 := 8, sub0 := 0x13, ty := .u32, acc := .ro, cls := .live, lo := 0, hi := 4294967295 }

/-- QueryAlt.SourceValue. -/
def O.queryAltSourceValue : ObjDef :=
  { name := "QueryAlt.SourceValue", base := 0x7880, s1 := 0x4, n1 := 8, s2 := 1, n2 := 4, sub0 := 0x1, ty := .u16, acc := .rw, cls := .live, lo := 0, hi := 65535 }

/-- QueryAlt.SourceMask. -/
def O.queryAltSourceMask : ObjDef :=
  { name := "QueryAlt.SourceMask", base := 0x7880, s1 := 0x4, n1 := 8, s2 := 1, n2 := 4, sub0 := 0x2, ty := .u16, acc := .rw, cls := .live, lo := 0, hi := 65535, mask := some 0xFFC0 }

/-- QueryAlt.TypeMask. -/
def O.queryAltTypeMask : ObjDef :=
  { name := "QueryAlt.TypeMask", base := 0x7880, s1 := 0x4, n1 := 8, s2 := 1, n2 := 4, sub0 := 0x3, ty := .u32, acc := .rw, cls := .live, lo := 0, hi := 4294967295, mask := some 0xFF00FE }

/-- QueryAlt.Flags. -/
def O.queryAltFlags : ObjDef :=
  { name := "QueryAlt.Flags", base := 0x7880, s1 := 0x4, n1 := 8, s2 := 1, n2 := 4, sub0 := 0x4, ty := .u32, acc := .rw, cls := .live, lo := 0, hi := 4294967295, mask := some 0x7FF07FF }

/-- QueryAlt.Match. -/
def O.queryAltMatch : ObjDef :=
  { name := "QueryAlt.Match", base := 0x7880, s1 := 0x4, n1 := 8, s2 := 1, n2 := 4, sub0 := 0x5, ty := .u32, acc := .rw, cls := .live, lo := 0, hi := 4294967295 }

/-- QueryAlt.Lengths. -/
def O.queryAltLengths : ObjDef :=
  { name := "QueryAlt.Lengths", base := 0x7880, s1 := 0x4, n1 := 8, s2 := 1, n2 := 4, sub0 := 0x6, ty := .u32, acc := .rw, cls := .live, dflt := [2147418112], lo := 0, hi := 4294967295, mask := some 0x7FFF7FFF, chk := .lengths }

/-- QueryAlt.Offset. -/
def O.queryAltOffset : ObjDef :=
  { name := "QueryAlt.Offset", base := 0x7880, s1 := 0x4, n1 := 8, s2 := 1, n2 := 4, sub0 := 0x7, ty := .u16, acc := .rw, cls := .live, lo := 0, hi := 16328 }

/-- QueryAlt.Pattern. -/
def O.queryAltPattern : ObjDef :=
  { name := "QueryAlt.Pattern", base := 0x7880, s1 := 0x4, n1 := 8, s2 := 1, n2 := 4, sub0 := 0x8, ty := .octets, acc := .rw, cls := .live, len := 64, fixed := true }

/-- QueryAlt.Mask. -/
def O.queryAltMask : ObjDef :=
  { name := "QueryAlt.Mask", base := 0x7880, s1 := 0x4, n1 := 8, s2 := 1, n2 := 4, sub0 := 0x9, ty := .octets, acc := .rw, cls := .live, len := 64, fixed := true }

/-- Rows of chapter 08. -/
def objRows08a : List ObjDef :=
  [O.storeControl, O.storeState, O.storeTableBase, O.storeTableBytes, O.storeAdminTimeout,
   O.storeIoTimeout, O.storeFlushInterval, O.storeWriteSize, O.storeDrainAge, O.storeTrim,
   O.storeFreeExtents, O.storeDrainBytes, O.storeLostExtents, O.storeRemaps, O.storeRecovered,
   O.storeUnpin, O.storeExtentSelect, O.storeExtentEntry, O.storeCtlState, O.storeCtlQuad,
   O.storeCtlBdf, O.storeCtlIdentity, O.storeCtlNamespaces, O.storeCtlResets, O.storeCtlTimeouts,
   O.storeCtlUnknownCompletions, O.storeCtlMediaErrors, O.storeCtlReset, O.storeCtlAdminCmd, O.storeCtlAdminData,
   O.storeCtlAdminStatus, O.storeNsController, O.storeNsNsid, O.storeNsBaseExtent, O.storeNsExtents,
   O.storeNsState, O.storeNsFreeExtents, O.storeNsInitialise, O.storeSessionEnable, O.storeSessionQuota]

/-- Rows of chapter 08. -/
def objRows08b : List ObjDef :=
  [O.storeSessionPolicy, O.storeSessionPinSpan, O.storeSessionUsed, O.storeSessionPinned, O.storeSessionFirstTick,
   O.storeSessionLastTick, O.storeSessionStalled, O.storeSessionStalls, O.storeSessionDiscarded, O.storeSessionReclaimed,
   O.storeSessionSources, O.storeSessionUnpinAll, O.storeSessionRelease, O.queryControl, O.queryState,
   O.querySession, O.queryStream, O.queryFromTick, O.queryToTick, O.queryAlternatives,
   O.querySkipMatches, O.queryMaxMatches, O.queryBefore, O.queryAfter, O.queryWidenScope,
   O.queryResultAddr, O.queryResultBytes, O.queryResultHost, O.queryWritten, O.queryMatches,
   O.queryBytesRead, O.queryReclaimed, O.queryAltSourceValue, O.queryAltSourceMask, O.queryAltTypeMask,
   O.queryAltFlags, O.queryAltMatch, O.queryAltLengths, O.queryAltOffset, O.queryAltPattern]

/-- Rows of chapter 08. -/
def objRows08c : List ObjDef :=
  [O.queryAltMask]

/-! The objects of chapter 09 (R267, R269, R285 and R286). -/

/-- Rights.Read. -/
def O.rightsRead : ObjDef :=
  { name := "Rights.Read", base := 0x1200, s1 := 0x1, n1 := 16, sub0 := 0x1, ty := .u32, acc := .rw, cls := .live, dflt := [0, 131071, 131071, 131071, 131071, 131071, 131071, 32769, 131071, 131071, 0, 0, 0, 0, 0, 0], lo := 0, hi := 131071, persist := true, hole := .origin }

/-- Rights.Write. -/
def O.rightsWrite : ObjDef :=
  { name := "Rights.Write", base := 0x1200, s1 := 0x1, n1 := 16, sub0 := 0x2, ty := .u32, acc := .rw, cls := .live, dflt := [0, 131071, 131071, 131071, 131071, 131071, 35712, 32768, 131071, 131071, 0, 0, 0, 0, 0, 0], lo := 0, hi := 131071, persist := true, hole := .origin }

/-- Auth.Key. -/
def O.authKey : ObjDef :=
  { name := "Auth.Key", base := 0x1210, s1 := 0x1, n1 := 2, sub0 := 0x1, subs := 4, ty := .octets, acc := .wo, cls := .live, len := 32, fixed := true, persist := true, secret := true, eff := .authKey }

/-- Auth.KeyValid. -/
def O.authKeyValid : ObjDef :=
  { name := "Auth.KeyValid", base := 0x1210, s1 := 0x1, n1 := 2, sub0 := 0x5, subs := 4, ty := .bool, acc := .ro, cls := .live, lo := 0, hi := 1 }

/-- Identity.Vendor. -/
def O.identityVendor : ObjDef :=
  { name := "Identity.Vendor", base := 0x1000, sub0 := 0x1, ty := .string, acc := .ro, cls := .config, len := 14, fixed := true, rd := .vendor }

/-- Identity.Part. -/
def O.identityPart : ObjDef :=
  { name := "Identity.Part", base := 0x1000, sub0 := 0x2, ty := .string, acc := .ro, cls := .config, len := 6, fixed := true, rd := .part }

/-- Identity.OrderingCode. -/
def O.identityOrderingCode : ObjDef :=
  { name := "Identity.OrderingCode", base := 0x1000, sub0 := 0x3, ty := .string, acc := .ro, cls := .config, len := 13, fixed := true }

/-- Identity.DeviceId. -/
def O.identityDeviceId : ObjDef :=
  { name := "Identity.DeviceId", base := 0x1000, sub0 := 0x4, ty := .octets, acc := .ro, cls := .config, len := 32, fixed := true }

/-- Identity.SpeedGrade. -/
def O.identitySpeedGrade : ObjDef :=
  { name := "Identity.SpeedGrade", base := 0x1000, sub0 := 0x5, ty := .u8, acc := .ro, cls := .config, lo := 0, hi := 255 }

/-- Identity.TempGrade. -/
def O.identityTempGrade : ObjDef :=
  { name := "Identity.TempGrade", base := 0x1000, sub0 := 0x6, ty := .u8, acc := .ro, cls := .config, lo := 0, hi := 255 }

/-- Identity.FirmwareVersion. -/
def O.identityFirmwareVersion : ObjDef :=
  { name := "Identity.FirmwareVersion", base := 0x1000, sub0 := 0x7, ty := .u32, acc := .ro, cls := .live, lo := 0, hi := 4294967295 }

/-- Identity.SchemaVersion. -/
def O.identitySchemaVersion : ObjDef :=
  { name := "Identity.SchemaVersion", base := 0x1000, sub0 := 0x8, ty := .u32, acc := .ro, cls := .live, lo := 0, hi := 4294967295 }

/-- Identity.BootCount. -/
def O.identityBootCount : ObjDef :=
  { name := "Identity.BootCount", base := 0x1000, sub0 := 0x9, ty := .u32, acc := .ro, cls := .live, lo := 0, hi := 4294967295 }

/-- Dictionary.OpenTxns. -/
def O.dictionaryOpenTxns : ObjDef :=
  { name := "Dictionary.OpenTxns", base := 0x1100, sub0 := 0x1, ty := .u8, acc := .ro, cls := .live, lo := 0, hi := 255, rd := .openTxns }

/-- Dictionary.Txns. -/
def O.dictionaryTxns : ObjDef :=
  { name := "Dictionary.Txns", base := 0x1100, sub0 := 0x2, ty := .record, acc := .ro, cls := .live, entry := 16, rd := .txns }

/-- Dictionary.Commits. -/
def O.dictionaryCommits : ObjDef :=
  { name := "Dictionary.Commits", base := 0x1100, sub0 := 0x3, ty := .u64, acc := .rc, cls := .live, lo := 0, hi := 18446744073709551615 }

/-- Dictionary.LastCommitTick. -/
def O.dictionaryLastCommitTick : ObjDef :=
  { name := "Dictionary.LastCommitTick", base := 0x1100, sub0 := 0x4, ty := .tick64, acc := .ro, cls := .live, lo := 0, hi := 18446744073709551615 }

/-- Dictionary.LastCommitFail. -/
def O.dictionaryLastCommitFail : ObjDef :=
  { name := "Dictionary.LastCommitFail", base := 0x1100, sub0 := 0x5, ty := .u32, acc := .ro, cls := .live, lo := 0, hi := 4294967295 }

/-- Dictionary.MailboxVector. -/
def O.dictionaryMailboxVector : ObjDef :=
  { name := "Dictionary.MailboxVector", base := 0x1100, sub0 := 0x6, ty := .u16, acc := .rw, cls := .live, lo := 0, hi := 2047 }

/-- Dictionary.WindowEnable. -/
def O.dictionaryWindowEnable : ObjDef :=
  { name := "Dictionary.WindowEnable", base := 0x1100, sub0 := 0x7, ty := .bool, acc := .rw, cls := .live, lo := 0, hi := 1 }

/-- Dictionary.WindowBase. -/
def O.dictionaryWindowBase : ObjDef :=
  { name := "Dictionary.WindowBase", base := 0x1100, sub0 := 0x8, ty := .u64, acc := .rw, cls := .live, lo := 0, hi := 17592186044415 }

/-- Dictionary.WindowSize. -/
def O.dictionaryWindowSize : ObjDef :=
  { name := "Dictionary.WindowSize", base := 0x1100, sub0 := 0x9, ty := .u64, acc := .rw, cls := .reset, dflt := [68719476736], lo := 1073741824, hi := 68719476736, persist := true, chk := .pow2 }

/-- Dictionary.WindowErrors. -/
def O.dictionaryWindowErrors : ObjDef :=
  { name := "Dictionary.WindowErrors", base := 0x1100, sub0 := 0xA, ty := .u64, acc := .rc, cls := .live, lo := 0, hi := 18446744073709551615 }

/-- Logbook.Entries. -/
def O.logbookEntries : ObjDef :=
  { name := "Logbook.Entries", base := 0x1120, sub0 := 0x1, ty := .record, acc := .ro, cls := .live, entry := 64, rd := .logEntries }

/-- Logbook.NextSeq. -/
def O.logbookNextSeq : ObjDef :=
  { name := "Logbook.NextSeq", base := 0x1120, sub0 := 0x2, ty := .u32, acc := .ro, cls := .live, lo := 0, hi := 4294967295, rd := .logNext }

/-- Logbook.CheckpointInterval. -/
def O.logbookCheckpointInterval : ObjDef :=
  { name := "Logbook.CheckpointInterval", base := 0x1120, sub0 := 0x3, ty := .u32, acc := .rw, cls := .live, dflt := [10000], lo := 1000, hi := 3600000, persist := true, eff := .ckptInterval }

/-- Logbook.Checkpoint. -/
def O.logbookCheckpoint : ObjDef :=
  { name := "Logbook.Checkpoint", base := 0x1120, sub0 := 0x4, ty := .bool, acc := .wo, cls := .live, lo := 0, hi := 1, eff := .logCheckpoint }

/-- Logbook.LastCheckpointSeq. -/
def O.logbookLastCheckpointSeq : ObjDef :=
  { name := "Logbook.LastCheckpointSeq", base := 0x1120, sub0 := 0x5, ty := .u32, acc := .ro, cls := .live, lo := 0, hi := 4294967295 }

/-- Logbook.StreamSession. -/
def O.logbookStreamSession : ObjDef :=
  { name := "Logbook.StreamSession", base := 0x1120, sub0 := 0x6, ty := .u16, acc := .rw, cls := .live, dflt := [65535], lo := 0, hi := 255, also := [65535], persist := true, eff := .streamSession }

/-- Keep.State. -/
def O.keepState : ObjDef :=
  { name := "Keep.State", base := 0x1140, sub0 := 0x1, ty := .u8, acc := .ro, cls := .live, lo := 0, hi := 255 }

/-- Keep.PageWrites. -/
def O.keepPageWrites : ObjDef :=
  { name := "Keep.PageWrites", base := 0x1140, sub0 := 0x2, ty := .u64, acc := .ro, cls := .live, lo := 0, hi := 18446744073709551615 }

/-- Keep.MaxErase. -/
def O.keepMaxErase : ObjDef :=
  { name := "Keep.MaxErase", base := 0x1140, sub0 := 0x3, ty := .u32, acc := .ro, cls := .live, lo := 0, hi := 4294967295 }

/-- Keep.SpareBlocks. -/
def O.keepSpareBlocks : ObjDef :=
  { name := "Keep.SpareBlocks", base := 0x1140, sub0 := 0x4, ty := .u32, acc := .ro, cls := .live, lo := 0, hi := 4294967295, rd := .spareBlocks }

/-- Keep.TornPages. -/
def O.keepTornPages : ObjDef :=
  { name := "Keep.TornPages", base := 0x1140, sub0 := 0x5, ty := .u32, acc := .rc, cls := .live, lo := 0, hi := 4294967295 }

/-- Keep.RawSelect. -/
def O.keepRawSelect : ObjDef :=
  { name := "Keep.RawSelect", base := 0x1140, sub0 := 0x6, ty := .u32, acc := .rw, cls := .live, lo := 0, hi := 131071, eff := .rawSelect }

/-- Keep.RawPage. -/
def O.keepRawPage : ObjDef :=
  { name := "Keep.RawPage", base := 0x1140, sub0 := 0x7, ty := .octets, acc := .ro, cls := .live, len := 4160, fixed := true, rd := .rawPage }

/-- Keep.RawStatus. -/
def O.keepRawStatus : ObjDef :=
  { name := "Keep.RawStatus", base := 0x1140, sub0 := 0x8, ty := .u8, acc := .ro, cls := .live, lo := 0, hi := 255, rd := .rawStatus }

/-- Rows of chapter 09. -/
def objRows09a : List ObjDef :=
  [O.rightsRead, O.rightsWrite, O.authKey, O.authKeyValid, O.identityVendor,
   O.identityPart, O.identityOrderingCode, O.identityDeviceId, O.identitySpeedGrade, O.identityTempGrade,
   O.identityFirmwareVersion, O.identitySchemaVersion, O.identityBootCount, O.dictionaryOpenTxns, O.dictionaryTxns,
   O.dictionaryCommits, O.dictionaryLastCommitTick, O.dictionaryLastCommitFail, O.dictionaryMailboxVector, O.dictionaryWindowEnable,
   O.dictionaryWindowBase, O.dictionaryWindowSize, O.dictionaryWindowErrors, O.logbookEntries, O.logbookNextSeq,
   O.logbookCheckpointInterval, O.logbookCheckpoint, O.logbookLastCheckpointSeq, O.logbookStreamSession, O.keepState,
   O.keepPageWrites, O.keepMaxErase, O.keepSpareBlocks, O.keepTornPages, O.keepRawSelect,
   O.keepRawPage, O.keepRawStatus]

/-! The objects of chapter 10 (R310). -/

/-- Twin.Side. -/
def O.twinSide : ObjDef :=
  { name := "Twin.Side", base := 0x9800, sub0 := 0x1, ty := .u8, acc := .ro, cls := .config, lo := 0, hi := 255 }

/-- Twin.State. -/
def O.twinState : ObjDef :=
  { name := "Twin.State", base := 0x9800, sub0 := 0x2, ty := .u8, acc := .ro, cls := .live, lo := 0, hi := 255 }

/-- Twin.Role. -/
def O.twinRole : ObjDef :=
  { name := "Twin.Role", base := 0x9800, sub0 := 0x3, ty := .u8, acc := .ro, cls := .live, lo := 0, hi := 255 }

/-- Twin.RoleEpoch. -/
def O.twinRoleEpoch : ObjDef :=
  { name := "Twin.RoleEpoch", base := 0x9800, sub0 := 0x4, ty := .u32, acc := .ro, cls := .live, lo := 0, hi := 4294967295, persist := true }

/-- Twin.Compat. -/
def O.twinCompat : ObjDef :=
  { name := "Twin.Compat", base := 0x9800, sub0 := 0x5, ty := .bool, acc := .ro, cls := .live, lo := 0, hi := 1 }

/-- Twin.PeerSchema. -/
def O.twinPeerSchema : ObjDef :=
  { name := "Twin.PeerSchema", base := 0x9800, sub0 := 0x6, ty := .u32, acc := .ro, cls := .live, lo := 0, hi := 4294967295 }

/-- Twin.CommonObjects. -/
def O.twinCommonObjects : ObjDef :=
  { name := "Twin.CommonObjects", base := 0x9800, sub0 := 0x7, ty := .u32, acc := .ro, cls := .live, lo := 0, hi := 4294967295 }

/-- Twin.LocalOnly. -/
def O.twinLocalOnly : ObjDef :=
  { name := "Twin.LocalOnly", base := 0x9800, sub0 := 0x8, ty := .record, acc := .ro, cls := .live, entry := 4, rd := .localOnly }

/-- Twin.BeatsMissed. -/
def O.twinBeatsMissed : ObjDef :=
  { name := "Twin.BeatsMissed", base := 0x9801, sub0 := 0x1, ty := .u32, acc := .rc, cls := .live, lo := 0, hi := 4294967295 }

/-- Twin.LastBeatTick. -/
def O.twinLastBeatTick : ObjDef :=
  { name := "Twin.LastBeatTick", base := 0x9801, sub0 := 0x2, ty := .tick64, acc := .ro, cls := .live, lo := 0, hi := 18446744073709551615 }

/-- Twin.TimeOffset. -/
def O.twinTimeOffset : ObjDef :=
  { name := "Twin.TimeOffset", base := 0x9801, sub0 := 0x3, ty := .i32, acc := .ro, cls := .live, lo := -2147483648, hi := 2147483647 }

/-- Twin.Aligned. -/
def O.twinAligned : ObjDef :=
  { name := "Twin.Aligned", base := 0x9801, sub0 := 0x4, ty := .bool, acc := .ro, cls := .live, lo := 0, hi := 1 }

/-- Twin.PathAsymmetry. -/
def O.twinPathAsymmetry : ObjDef :=
  { name := "Twin.PathAsymmetry", base := 0x9801, sub0 := 0x5, ty := .i32, acc := .rw, cls := .live, lo := -16777216, hi := 16777215 }

/-- Twin.Align. -/
def O.twinAlign : ObjDef :=
  { name := "Twin.Align", base := 0x9801, sub0 := 0x6, ty := .bool, acc := .wo, cls := .quiesce, lo := 0, hi := 1, eff := .twinAlign }

/-- Twin.Failovers. -/
def O.twinFailovers : ObjDef :=
  { name := "Twin.Failovers", base := 0x9801, sub0 := 0x7, ty := .u32, acc := .rc, cls := .live, lo := 0, hi := 4294967295 }

/-- Twin.MirrorLag. -/
def O.twinMirrorLag : ObjDef :=
  { name := "Twin.MirrorLag", base := 0x9801, sub0 := 0x8, ty := .u32, acc := .rc, cls := .live, lo := 0, hi := 4294967295 }

/-- Twin.PeerFailTick. -/
def O.twinPeerFailTick : ObjDef :=
  { name := "Twin.PeerFailTick", base := 0x9801, sub0 := 0x9, ty := .tick64, acc := .ro, cls := .live, lo := 0, hi := 18446744073709551615 }

/-- Twin.FrontSide. -/
def O.twinFrontSide : ObjDef :=
  { name := "Twin.FrontSide", base := 0x9802, sub0 := 0x1, ty := .u16, acc := .rw, cls := .live, lo := 0, hi := 65535, persist := true, eff := .frontSide }

/-- Twin.FallbackMode. -/
def O.twinFallbackMode : ObjDef :=
  { name := "Twin.FallbackMode", base := 0x9802, sub0 := 0x2, ty := .u8, acc := .rw, cls := .live, lo := 0, hi := 2, persist := true }

/-- Twin.TakeoverStorage. -/
def O.twinTakeoverStorage : ObjDef :=
  { name := "Twin.TakeoverStorage", base := 0x9802, sub0 := 0x3, ty := .bool, acc := .rw, cls := .live, dflt := [1], lo := 0, hi := 1, persist := true }

/-- Twin.Leave. -/
def O.twinLeave : ObjDef :=
  { name := "Twin.Leave", base := 0x9802, sub0 := 0x4, ty := .bool, acc := .wo, cls := .live, lo := 0, hi := 1, eff := .twinLeave }

/-- Twin.Takeover. -/
def O.twinTakeover : ObjDef :=
  { name := "Twin.Takeover", base := 0x9802, sub0 := 0x5, ty := .bool, acc := .wo, cls := .live, lo := 0, hi := 1, eff := .twinTakeover }

/-- Twin.AdoptStorage. -/
def O.twinAdoptStorage : ObjDef :=
  { name := "Twin.AdoptStorage", base := 0x9802, sub0 := 0x6, ty := .bool, acc := .wo, cls := .quiesce, lo := 0, hi := 1, eff := .twinAdopt }

/-- Twin.ShadowSelect. -/
def O.twinShadowSelect : ObjDef :=
  { name := "Twin.ShadowSelect", base := 0x9803, sub0 := 0x1, ty := .u32, acc := .rw, cls := .live, lo := 0, hi := 4294967295, mask := some 0xFFFFFF00 }

/-- Twin.Shadow. -/
def O.twinShadow : ObjDef :=
  { name := "Twin.Shadow", base := 0x9803, sub0 := 0x2, ty := .octets, acc := .ro, cls := .live, len := 65536, rd := .shadow }

/-- Twin.ShadowTick. -/
def O.twinShadowTick : ObjDef :=
  { name := "Twin.ShadowTick", base := 0x9803, sub0 := 0x3, ty := .tick64, acc := .ro, cls := .live, lo := 0, hi := 18446744073709551615, rd := .shadowTick }

/-- Twin.PeerLogbook. -/
def O.twinPeerLogbook : ObjDef :=
  { name := "Twin.PeerLogbook", base := 0x9804, sub0 := 0x1, ty := .record, acc := .ro, cls := .live, entry := 64, rd := .peerLog }

/-- Twin.PeerLogbookNext. -/
def O.twinPeerLogbookNext : ObjDef :=
  { name := "Twin.PeerLogbookNext", base := 0x9804, sub0 := 0x2, ty := .u32, acc := .ro, cls := .live, lo := 0, hi := 4294967295 }

/-- Twin.QueryPeer. -/
def O.twinQueryPeer : ObjDef :=
  { name := "Twin.QueryPeer", base := 0x9805, sub0 := 0x1, subs := 8, ty := .bool, acc := .rw, cls := .live, lo := 0, hi := 1 }

/-- Rows of chapter 10. -/
def objRows10a : List ObjDef :=
  [O.twinSide, O.twinState, O.twinRole, O.twinRoleEpoch, O.twinCompat,
   O.twinPeerSchema, O.twinCommonObjects, O.twinLocalOnly, O.twinBeatsMissed, O.twinLastBeatTick,
   O.twinTimeOffset, O.twinAligned, O.twinPathAsymmetry, O.twinAlign, O.twinFailovers,
   O.twinMirrorLag, O.twinPeerFailTick, O.twinFrontSide, O.twinFallbackMode, O.twinTakeoverStorage,
   O.twinLeave, O.twinTakeover, O.twinAdoptStorage, O.twinShadowSelect, O.twinShadow,
   O.twinShadowTick, O.twinPeerLogbook, O.twinPeerLogbookNext, O.twinQueryPeer]

/-! The objects of chapter 11 (R332). -/

/-- NoC.Timeout. -/
def O.noCTimeout : ObjDef :=
  { name := "NoC.Timeout", base := 0x8000, sub0 := 0x1, ty := .u32, acc := .rw, cls := .live, dflt := [1000], lo := 10, hi := 1000000 }

/-- NoC.LateResponses. -/
def O.noCLateResponses : ObjDef :=
  { name := "NoC.LateResponses", base := 0x8000, sub0 := 0x2, ty := .u64, acc := .rc, cls := .live, lo := 0, hi := 18446744073709551615 }

/-- NoC.Timeouts. -/
def O.noCTimeouts : ObjDef :=
  { name := "NoC.Timeouts", base := 0x8000, sub0 := 0x3, ty := .u64, acc := .rc, cls := .live, lo := 0, hi := 18446744073709551615 }

/-- NoC.NiSelect. -/
def O.noCNiSelect : ObjDef :=
  { name := "NoC.NiSelect", base := 0x8000, sub0 := 0x4, ty := .u16, acc := .rw, cls := .live, lo := 0, hi := 639 }

/-- NoC.NiErrors. -/
def O.noCNiErrors : ObjDef :=
  { name := "NoC.NiErrors", base := 0x8000, sub0 := 0x5, ty := .u64, acc := .rc, cls := .live, lo := 0, hi := 18446744073709551615, rd := .niErrors }

/-- NoC.NiOverflows. -/
def O.noCNiOverflows : ObjDef :=
  { name := "NoC.NiOverflows", base := 0x8000, sub0 := 0x6, ty := .u64, acc := .rc, cls := .live, lo := 0, hi := 18446744073709551615, rd := .niOverflows }

/-- NoC.NiQueue. -/
def O.noCNiQueue : ObjDef :=
  { name := "NoC.NiQueue", base := 0x8000, sub0 := 0x7, ty := .record, acc := .ro, cls := .live, entry := 32, rd := .niQueue }

/-- NoC.MaxWait. -/
def O.noCMaxWait : ObjDef :=
  { name := "NoC.MaxWait", base := 0x8000, sub0 := 0x8, ty := .u32, acc := .rc, cls := .live, lo := 0, hi := 4294967295, rd := .measured }

/-- NoC.ClassBase. -/
def O.noCClassBase : ObjDef :=
  { name := "NoC.ClassBase", base := 0x8001, sub0 := 0x1, subs := 8, ty := .u8, acc := .rw, cls := .live, dflt := [12, 10, 10, 6, 4, 4, 3, 1], lo := 0, hi := 15 }

/-- NoC.AgeStep. -/
def O.noCAgeStep : ObjDef :=
  { name := "NoC.AgeStep", base := 0x8002, sub0 := 0x1, subs := 8, ty := .u16, acc := .rw, cls := .live, dflt := [4, 4, 4, 8, 16, 16, 16, 32], lo := 1, hi := 256 }

/-- NoC.RouteOrder. -/
def O.noCRouteOrder : ObjDef :=
  { name := "NoC.RouteOrder", base := 0x8010, s1 := 0x1, n1 := 2, sub0 := 0x1, subs := 128, ty := .u8, acc := .rw, cls := .reset, lo := 0, hi := 1, persist := true, hole := .router }

/-- Core.State. -/
def O.coreState : ObjDef :=
  { name := "Core.State", base := 0x8800, s1 := 0x1, n1 := 16, sub0 := 0x1, ty := .u8, acc := .ro, cls := .live, dflt := [1], lo := 0, hi := 255 }

/-- Core.Control. -/
def O.coreControl : ObjDef :=
  { name := "Core.Control", base := 0x8800, s1 := 0x1, n1 := 16, sub0 := 0x2, ty := .u8, acc := .rw, cls := .live, lo := 0, hi := 1, eff := .coreControl }

/-- Core.ResetVector. -/
def O.coreResetVector : ObjDef :=
  { name := "Core.ResetVector", base := 0x8800, s1 := 0x1, n1 := 16, sub0 := 0x3, ty := .u64, acc := .rw, cls := .live, lo := 0, hi := 17592186044415 }

/-- Core.Pending. -/
def O.corePending : ObjDef :=
  { name := "Core.Pending", base := 0x8800, s1 := 0x1, n1 := 16, sub0 := 0x4, ty := .u64, acc := .ro, cls := .live, lo := 0, hi := 18446744073709551615, rd := .corePending }

/-- Core.Retired. -/
def O.coreRetired : ObjDef :=
  { name := "Core.Retired", base := 0x8800, s1 := 0x1, n1 := 16, sub0 := 0x5, ty := .u64, acc := .rc, cls := .live, lo := 0, hi := 18446744073709551615, rd := .measured }

/-- Core.PostedErrors. -/
def O.corePostedErrors : ObjDef :=
  { name := "Core.PostedErrors", base := 0x8800, s1 := 0x1, n1 := 16, sub0 := 0x6, ty := .u64, acc := .rc, cls := .live, lo := 0, hi := 18446744073709551615 }

/-- Core.Overflows. -/
def O.coreOverflows : ObjDef :=
  { name := "Core.Overflows", base := 0x8800, s1 := 0x1, n1 := 16, sub0 := 0x7, ty := .u32, acc := .rc, cls := .live, lo := 0, hi := 4294967295 }

/-- Rows of chapter 11. -/
def objRows11a : List ObjDef :=
  [O.noCTimeout, O.noCLateResponses, O.noCTimeouts, O.noCNiSelect, O.noCNiErrors,
   O.noCNiOverflows, O.noCNiQueue, O.noCMaxWait, O.noCClassBase, O.noCAgeStep,
   O.noCRouteOrder, O.coreState, O.coreControl, O.coreResetVector, O.corePending,
   O.coreRetired, O.corePostedErrors, O.coreOverflows]

/-! The objects of chapter 12 (R351). -/

/-- Fabric.QuadrantUsed. -/
def O.fabricQuadrantUsed : ObjDef :=
  { name := "Fabric.QuadrantUsed", base := 0xA000, sub0 := 0x1, ty := .u32, acc := .ro, cls := .config, lo := 0, hi := 4294967295 }

/-- Fabric.BankStandard. -/
def O.fabricBankStandard : ObjDef :=
  { name := "Fabric.BankStandard", base := 0xA001, sub0 := 0x1, subs := 8, ty := .u8, acc := .ro, cls := .config, lo := 0, hi := 255 }

/-- Fabric.BankVoltage. -/
def O.fabricBankVoltage : ObjDef :=
  { name := "Fabric.BankVoltage", base := 0xA002, sub0 := 0x1, subs := 8, ty := .u16, acc := .ro, cls := .live, lo := 0, hi := 65535 }

/-- Fabric.BankStatus. -/
def O.fabricBankStatus : ObjDef :=
  { name := "Fabric.BankStatus", base := 0xA003, sub0 := 0x1, subs := 8, ty := .u8, acc := .ro, cls := .live, lo := 0, hi := 255 }

/-- Fabric.ObjectTimeouts. -/
def O.fabricObjectTimeouts : ObjDef :=
  { name := "Fabric.ObjectTimeouts", base := 0xA004, sub0 := 0x1, ty := .u64, acc := .rc, cls := .live, lo := 0, hi := 18446744073709551615 }

/-- Fabric.MarkRequests. -/
def O.fabricMarkRequests : ObjDef :=
  { name := "Fabric.MarkRequests", base := 0xA004, sub0 := 0x2, ty := .u64, acc := .rc, cls := .live, lo := 0, hi := 18446744073709551615 }

/-- Fabric.ObjectCount. -/
def O.fabricObjectCount : ObjDef :=
  { name := "Fabric.ObjectCount", base := 0xA004, sub0 := 0x3, ty := .u16, acc := .ro, cls := .config, lo := 0, hi := 65535 }

/-- Rows of chapter 12. -/
def objRows12a : List ObjDef :=
  [O.fabricQuadrantUsed, O.fabricBankStandard, O.fabricBankVoltage, O.fabricBankStatus, O.fabricObjectTimeouts,
   O.fabricMarkRequests, O.fabricObjectCount]

/-! The objects of chapter 13 (R365). -/

/-- Clock.SysRef. -/
def O.clockSysRef : ObjDef :=
  { name := "Clock.SysRef", base := 0x2000, sub0 := 0x1, ty := .u8, acc := .rw, cls := .reset, lo := 0, hi := 1, persist := true }

/-- Clock.SysRefInUse. -/
def O.clockSysRefInUse : ObjDef :=
  { name := "Clock.SysRefInUse", base := 0x2000, sub0 := 0x2, ty := .u8, acc := .ro, cls := .live, lo := 0, hi := 255 }

/-- Clock.TimeRef. -/
def O.clockTimeRef : ObjDef :=
  { name := "Clock.TimeRef", base := 0x2000, sub0 := 0x3, ty := .u8, acc := .rw, cls := .live, lo := 0, hi := 2, persist := true, eff := .timeRef }

/-- Clock.TimeRefInUse. -/
def O.clockTimeRefInUse : ObjDef :=
  { name := "Clock.TimeRefInUse", base := 0x2000, sub0 := 0x4, ty := .u8, acc := .ro, cls := .live, lo := 0, hi := 255 }

/-- Clock.XaFreq. -/
def O.clockXaFreq : ObjDef :=
  { name := "Clock.XaFreq", base := 0x2000, sub0 := 0x5, ty := .u32, acc := .rw, cls := .reset, dflt := [25000], lo := 25000, hi := 50000, persist := true }

/-- Clock.XbFreq. -/
def O.clockXbFreq : ObjDef :=
  { name := "Clock.XbFreq", base := 0x2000, sub0 := 0x6, ty := .u32, acc := .rw, cls := .reset, dflt := [25000], lo := 25000, hi := 50000, persist := true }

/-- Clock.XbEnable. -/
def O.clockXbEnable : ObjDef :=
  { name := "Clock.XbEnable", base := 0x2000, sub0 := 0x7, ty := .bool, acc := .rw, cls := .live, lo := 0, hi := 1, persist := true, eff := .xbEnable }

/-- Clock.Revert. -/
def O.clockRevert : ObjDef :=
  { name := "Clock.Revert", base := 0x2000, sub0 := 0x8, ty := .bool, acc := .wo, cls := .live, lo := 0, hi := 1, eff := .clkRevert }

/-- Clock.SourceStatus. -/
def O.clockSourceStatus : ObjDef :=
  { name := "Clock.SourceStatus", base := 0x2001, sub0 := 0x1, subs := 5, ty := .u8, acc := .ro, cls := .live, lo := 0, hi := 255 }

/-- Clock.MissingCount. -/
def O.clockMissingCount : ObjDef :=
  { name := "Clock.MissingCount", base := 0x2001, sub0 := 0x6, ty := .u32, acc := .rc, cls := .live, lo := 0, hi := 4294967295 }

/-- Clock.PllStatus. -/
def O.clockPllStatus : ObjDef :=
  { name := "Clock.PllStatus", base := 0x2002, sub0 := 0x1, subs := 11, ty := .u8, acc := .ro, cls := .live, lo := 0, hi := 255 }

/-- Clock.FabPll.Status. -/
def O.clockFabPllStatus : ObjDef :=
  { name := "Clock.FabPll.Status", base := 0x2010, s1 := 0x1, n1 := 8, sub0 := 0x1, subs := 16, ty := .u8, acc := .ro, cls := .live, lo := 0, hi := 255 }

/-- Clock.FabPll.Enable. -/
def O.clockFabPllEnable : ObjDef :=
  { name := "Clock.FabPll.Enable", base := 0x2018, s1 := 0x1, n1 := 8, sub0 := 0x1, subs := 16, ty := .bool, acc := .rw, cls := .live, lo := 0, hi := 1, eff := .fabEnable }

/-- Clock.FabPll.Config. -/
def O.clockFabPllConfig : ObjDef :=
  { name := "Clock.FabPll.Config", base := 0x2020, s1 := 0x1, n1 := 8, sub0 := 0x1, subs := 16, ty := .u64, acc := .ro, cls := .config, lo := 0, hi := 18446744073709551615 }

/-- Clock.Gate. -/
def O.clockGate : ObjDef :=
  { name := "Clock.Gate", base := 0x2030, sub0 := 0x1, subs := 37, ty := .bool, acc := .rw, cls := .live, dflt := [1], lo := 0, hi := 1, eff := .clkGate }

/-- Rows of chapter 13. -/
def objRows13a : List ObjDef :=
  [O.clockSysRef, O.clockSysRefInUse, O.clockTimeRef, O.clockTimeRefInUse, O.clockXaFreq,
   O.clockXbFreq, O.clockXbEnable, O.clockRevert, O.clockSourceStatus, O.clockMissingCount,
   O.clockPllStatus, O.clockFabPllStatus, O.clockFabPllEnable, O.clockFabPllConfig, O.clockGate]

/-! The objects of chapter 14 (R385). -/

/-- Config.State. -/
def O.configState : ObjDef :=
  { name := "Config.State", base := 0x9000, sub0 := 0x1, ty := .u8, acc := .ro, cls := .live, lo := 0, hi := 255 }

/-- Config.Fault. -/
def O.configFault : ObjDef :=
  { name := "Config.Fault", base := 0x9000, sub0 := 0x2, ty := .u8, acc := .ro, cls := .live, lo := 0, hi := 255 }

/-- Config.ResetCause. -/
def O.configResetCause : ObjDef :=
  { name := "Config.ResetCause", base := 0x9000, sub0 := 0x3, ty := .u8, acc := .ro, cls := .live, lo := 0, hi := 255 }

/-- Config.Mode. -/
def O.configMode : ObjDef :=
  { name := "Config.Mode", base := 0x9000, sub0 := 0x4, ty := .u8, acc := .ro, cls := .live, lo := 0, hi := 255 }

/-- Config.Source. -/
def O.configSource : ObjDef :=
  { name := "Config.Source", base := 0x9000, sub0 := 0x5, ty := .u8, acc := .ro, cls := .live, dflt := [255], lo := 0, hi := 255 }

/-- Config.BootOverride. -/
def O.configBootOverride : ObjDef :=
  { name := "Config.BootOverride", base := 0x9000, sub0 := 0x6, ty := .u8, acc := .rw, cls := .reset, lo := 0, hi := 5, persist := true }

/-- Config.Reconfigure. -/
def O.configReconfigure : ObjDef :=
  { name := "Config.Reconfigure", base := 0x9000, sub0 := 0x7, ty := .bool, acc := .wo, cls := .quiesce, lo := 0, hi := 1, eff := .reconfigure }

/-- Config.LoadTime. -/
def O.configLoadTime : ObjDef :=
  { name := "Config.LoadTime", base := 0x9000, sub0 := 0x8, ty := .u32, acc := .ro, cls := .live, lo := 0, hi := 4294967295 }

/-- Config.StreamDigest. -/
def O.configStreamDigest : ObjDef :=
  { name := "Config.StreamDigest", base := 0x9000, sub0 := 0x9, ty := .octets, acc := .ro, cls := .live, len := 48, fixed := true }

/-- Config.StreamVersion. -/
def O.configStreamVersion : ObjDef :=
  { name := "Config.StreamVersion", base := 0x9000, sub0 := 0xA, ty := .u32, acc := .ro, cls := .live, lo := 0, hi := 4294967295 }

/-- Config.StartupOrder. -/
def O.configStartupOrder : ObjDef :=
  { name := "Config.StartupOrder", base := 0x9000, sub0 := 0xB, ty := .u8, acc := .ro, cls := .config, dflt := [228], lo := 0, hi := 255 }

/-- Config.AuthFailures. -/
def O.configAuthFailures : ObjDef :=
  { name := "Config.AuthFailures", base := 0x9000, sub0 := 0xC, ty := .u32, acc := .rc, cls := .live, lo := 0, hi := 4294967295 }

/-- Config.Fallbacks. -/
def O.configFallbacks : ObjDef :=
  { name := "Config.Fallbacks", base := 0x9000, sub0 := 0xD, ty := .u32, acc := .rc, cls := .live, lo := 0, hi := 4294967295 }

/-- Readback.Enable. -/
def O.readbackEnable : ObjDef :=
  { name := "Readback.Enable", base := 0x9010, sub0 := 0x1, ty := .bool, acc := .rw, cls := .live, dflt := [1], lo := 0, hi := 1 }

/-- Readback.Action. -/
def O.readbackAction : ObjDef :=
  { name := "Readback.Action", base := 0x9010, sub0 := 0x2, ty := .u8, acc := .rw, cls := .live, lo := 0, hi := 1, persist := true }

/-- Readback.Sweeps. -/
def O.readbackSweeps : ObjDef :=
  { name := "Readback.Sweeps", base := 0x9010, sub0 := 0x3, ty := .u64, acc := .rc, cls := .live, lo := 0, hi := 18446744073709551615 }

/-- Readback.Corrected. -/
def O.readbackCorrected : ObjDef :=
  { name := "Readback.Corrected", base := 0x9010, sub0 := 0x4, ty := .u64, acc := .rc, cls := .live, lo := 0, hi := 18446744073709551615 }

/-- Readback.Uncorrectable. -/
def O.readbackUncorrectable : ObjDef :=
  { name := "Readback.Uncorrectable", base := 0x9010, sub0 := 0x5, ty := .u64, acc := .rc, cls := .live, lo := 0, hi := 18446744073709551615 }

/-- Readback.LastFrame. -/
def O.readbackLastFrame : ObjDef :=
  { name := "Readback.LastFrame", base := 0x9010, sub0 := 0x6, ty := .u32, acc := .ro, cls := .live, lo := 0, hi := 4294967295 }

/-- Readback.LastTick. -/
def O.readbackLastTick : ObjDef :=
  { name := "Readback.LastTick", base := 0x9010, sub0 := 0x7, ty := .tick64, acc := .ro, cls := .live, lo := 0, hi := 18446744073709551615 }

/-- KeyStore.EfuseKey. -/
def O.keyStoreEfuseKey : ObjDef :=
  { name := "KeyStore.EfuseKey", base := 0x9020, sub0 := 0x1, ty := .octets, acc := .wo, cls := .live, len := 32, fixed := true, secret := true, eff := .efuseKey }

/-- KeyStore.BbramKey. -/
def O.keyStoreBbramKey : ObjDef :=
  { name := "KeyStore.BbramKey", base := 0x9020, sub0 := 0x2, ty := .octets, acc := .wo, cls := .live, len := 32, fixed := true, secret := true, eff := .bbramKey }

/-- KeyStore.BbramErase. -/
def O.keyStoreBbramErase : ObjDef :=
  { name := "KeyStore.BbramErase", base := 0x9020, sub0 := 0x3, ty := .bool, acc := .wo, cls := .live, lo := 0, hi := 1, eff := .bbramErase }

/-- KeyStore.EfuseKeyState. -/
def O.keyStoreEfuseKeyState : ObjDef :=
  { name := "KeyStore.EfuseKeyState", base := 0x9020, sub0 := 0x4, ty := .u8, acc := .ro, cls := .live, lo := 0, hi := 255 }

/-- KeyStore.BbramState. -/
def O.keyStoreBbramState : ObjDef :=
  { name := "KeyStore.BbramState", base := 0x9020, sub0 := 0x5, ty := .u8, acc := .ro, cls := .live, lo := 0, hi := 255 }

/-- KeyStore.KeyCheck. -/
def O.keyStoreKeyCheck : ObjDef :=
  { name := "KeyStore.KeyCheck", base := 0x9020, sub0 := 0x6, ty := .octets, acc := .ro, cls := .live, len := 16, fixed := true }

/-- KeyStore.PubKeyHash. -/
def O.keyStorePubKeyHash : ObjDef :=
  { name := "KeyStore.PubKeyHash", base := 0x9021, sub0 := 0x1, subs := 4, ty := .octets, acc := .rw, cls := .live, len := 48, fixed := true, eff := .pubKeyHash }

/-- KeyStore.Revoke. -/
def O.keyStoreRevoke : ObjDef :=
  { name := "KeyStore.Revoke", base := 0x9021, sub0 := 0x5, ty := .u8, acc := .wo, cls := .live, lo := 0, hi := 255, mask := some 0xF, eff := .revoke }

/-- KeyStore.Revoked. -/
def O.keyStoreRevoked : ObjDef :=
  { name := "KeyStore.Revoked", base := 0x9021, sub0 := 0x6, ty := .u8, acc := .ro, cls := .live, lo := 0, hi := 255 }

/-- KeyStore.SecurityVersion. -/
def O.keyStoreSecurityVersion : ObjDef :=
  { name := "KeyStore.SecurityVersion", base := 0x9022, sub0 := 0x1, ty := .u8, acc := .rw, cls := .live, lo := 0, hi := 64, eff := .secVersion }

/-- KeyStore.Policy. -/
def O.keyStorePolicy : ObjDef :=
  { name := "KeyStore.Policy", base := 0x9022, sub0 := 0x2, ty := .u8, acc := .rw, cls := .live, lo := 0, hi := 255, mask := some 0x1F, eff := .policy }

/-- KeyStore.FuseStatus. -/
def O.keyStoreFuseStatus : ObjDef :=
  { name := "KeyStore.FuseStatus", base := 0x9022, sub0 := 0x3, ty := .u8, acc := .ro, cls := .live, lo := 0, hi := 255 }

/-- Key.LinkPairing. -/
def O.keyLinkPairing : ObjDef :=
  { name := "Key.LinkPairing", base := 0x9030, sub0 := 0x1, subs := 2, ty := .octets, acc := .wo, cls := .live, len := 32, fixed := true, persist := true, secret := true, eff := .linkPairing }

/-- Key.LinkPairingValid. -/
def O.keyLinkPairingValid : ObjDef :=
  { name := "Key.LinkPairingValid", base := 0x9030, sub0 := 0x3, ty := .u8, acc := .ro, cls := .live, lo := 0, hi := 255 }

/-- Entropy.State. -/
def O.entropyState : ObjDef :=
  { name := "Entropy.State", base := 0x9040, sub0 := 0x1, ty := .u8, acc := .ro, cls := .live, lo := 0, hi := 255 }

/-- Entropy.Failures. -/
def O.entropyFailures : ObjDef :=
  { name := "Entropy.Failures", base := 0x9040, sub0 := 0x2, ty := .u32, acc := .rc, cls := .live, lo := 0, hi := 4294967295 }

/-- Fw.ActiveSlot. -/
def O.fwActiveSlot : ObjDef :=
  { name := "Fw.ActiveSlot", base := 0x9050, sub0 := 0x1, ty := .u8, acc := .ro, cls := .live, lo := 0, hi := 255 }

/-- Fw.SlotVersion. -/
def O.fwSlotVersion : ObjDef :=
  { name := "Fw.SlotVersion", base := 0x9050, sub0 := 0x2, subs := 2, ty := .u32, acc := .ro, cls := .live, lo := 0, hi := 4294967295 }

/-- Fw.UpdateAddr. -/
def O.fwUpdateAddr : ObjDef :=
  { name := "Fw.UpdateAddr", base := 0x9050, sub0 := 0x4, ty := .u64, acc := .rw, cls := .live, lo := 0, hi := 18446744073709551615, mult := 8 }

/-- Fw.UpdateBytes. -/
def O.fwUpdateBytes : ObjDef :=
  { name := "Fw.UpdateBytes", base := 0x9050, sub0 := 0x5, ty := .u32, acc := .rw, cls := .live, lo := 1, hi := 33554432 }

/-- Fw.Update. -/
def O.fwUpdate : ObjDef :=
  { name := "Fw.Update", base := 0x9050, sub0 := 0x6, ty := .bool, acc := .wo, cls := .live, lo := 0, hi := 1, eff := .fwUpdate }

/-- Fw.UpdateStatus. -/
def O.fwUpdateStatus : ObjDef :=
  { name := "Fw.UpdateStatus", base := 0x9050, sub0 := 0x7, ty := .u8, acc := .ro, cls := .live, lo := 0, hi := 255 }

/-- Rows of chapter 14. -/
def objRows14a : List ObjDef :=
  [O.configState, O.configFault, O.configResetCause, O.configMode, O.configSource,
   O.configBootOverride, O.configReconfigure, O.configLoadTime, O.configStreamDigest, O.configStreamVersion,
   O.configStartupOrder, O.configAuthFailures, O.configFallbacks, O.readbackEnable, O.readbackAction,
   O.readbackSweeps, O.readbackCorrected, O.readbackUncorrectable, O.readbackLastFrame, O.readbackLastTick,
   O.keyStoreEfuseKey, O.keyStoreBbramKey, O.keyStoreBbramErase, O.keyStoreEfuseKeyState, O.keyStoreBbramState,
   O.keyStoreKeyCheck, O.keyStorePubKeyHash, O.keyStoreRevoke, O.keyStoreRevoked, O.keyStoreSecurityVersion,
   O.keyStorePolicy, O.keyStoreFuseStatus, O.keyLinkPairing, O.keyLinkPairingValid, O.entropyState,
   O.entropyFailures, O.fwActiveSlot, O.fwSlotVersion, O.fwUpdateAddr, O.fwUpdateBytes]

/-- Rows of chapter 14. -/
def objRows14b : List ObjDef :=
  [O.fwUpdate, O.fwUpdateStatus]

/-! The objects of chapter 16 (R428). -/

/-- Power.DomainControl. -/
def O.powerDomainControl : ObjDef :=
  { name := "Power.DomainControl", base := 0x2400, sub0 := 0x1, subs := 60, ty := .bool, acc := .rw, cls := .live, lo := 0, hi := 1, eff := .domainControl }

/-- Power.DomainState. -/
def O.powerDomainState : ObjDef :=
  { name := "Power.DomainState", base := 0x2401, sub0 := 0x1, subs := 64, ty := .u8, acc := .ro, cls := .live, lo := 0, hi := 255 }

/-- Power.DomainFaults. -/
def O.powerDomainFaults : ObjDef :=
  { name := "Power.DomainFaults", base := 0x2402, sub0 := 0x1, ty := .u32, acc := .rc, cls := .live, lo := 0, hi := 4294967295 }

/-- Power.RailVoltage. -/
def O.powerRailVoltage : ObjDef :=
  { name := "Power.RailVoltage", base := 0x2410, sub0 := 0x1, subs := 10, ty := .u16, acc := .ro, cls := .live, lo := 0, hi := 65535, rd := .measured }

/-- Power.RailCurrent. -/
def O.powerRailCurrent : ObjDef :=
  { name := "Power.RailCurrent", base := 0x2411, sub0 := 0x1, subs := 10, ty := .u32, acc := .ro, cls := .live, lo := 0, hi := 4294967295, rd := .measured }

/-- Power.DiePower. -/
def O.powerDiePower : ObjDef :=
  { name := "Power.DiePower", base := 0x2412, sub0 := 0x1, subs := 10, ty := .u32, acc := .ro, cls := .live, lo := 0, hi := 4294967295 }

/-- Power.DieLimit. -/
def O.powerDieLimit : ObjDef :=
  { name := "Power.DieLimit", base := 0x2413, sub0 := 0x1, subs := 8, ty := .u32, acc := .rw, cls := .live, dflt := [140000], lo := 20000, hi := 140000, persist := true }

/-- Power.AvsSetpoint. -/
def O.powerAvsSetpoint : ObjDef :=
  { name := "Power.AvsSetpoint", base := 0x2420, sub0 := 0x1, ty := .u16, acc := .ro, cls := .live, dflt := [720], lo := 0, hi := 65535 }

/-- Power.AvsMode. -/
def O.powerAvsMode : ObjDef :=
  { name := "Power.AvsMode", base := 0x2420, sub0 := 0x2, ty := .u8, acc := .rw, cls := .live, lo := 0, hi := 1, persist := true }

/-- Power.AvsFixed. -/
def O.powerAvsFixed : ObjDef :=
  { name := "Power.AvsFixed", base := 0x2420, sub0 := 0x3, ty := .u16, acc := .rw, cls := .live, dflt := [800], lo := 650, hi := 800, mult := 5, persist := true }

/-- Power.AvsFaults. -/
def O.powerAvsFaults : ObjDef :=
  { name := "Power.AvsFaults", base := 0x2420, sub0 := 0x4, ty := .u32, acc := .rc, cls := .live, lo := 0, hi := 4294967295 }

/-- Power.FailWarn. -/
def O.powerFailWarn : ObjDef :=
  { name := "Power.FailWarn", base := 0x2430, sub0 := 0x1, ty := .bool, acc := .ro, cls := .live, lo := 0, hi := 1 }

/-- Power.FailWarnings. -/
def O.powerFailWarnings : ObjDef :=
  { name := "Power.FailWarnings", base := 0x2430, sub0 := 0x2, ty := .u32, acc := .rc, cls := .live, lo := 0, hi := 4294967295 }

/-- Power.SupplyFaultRail. -/
def O.powerSupplyFaultRail : ObjDef :=
  { name := "Power.SupplyFaultRail", base := 0x2430, sub0 := 0x3, ty := .u8, acc := .ro, cls := .live, lo := 0, hi := 255 }

/-- Thermal.Sensor. -/
def O.thermalSensor : ObjDef :=
  { name := "Thermal.Sensor", base := 0x2800, s1 := 0x1, n1 := 10, sub0 := 0x1, subs := 9, ty := .i16, acc := .ro, cls := .live, lo := -32768, hi := 32767, hole := .sensor }

/-- Thermal.DieMax. -/
def O.thermalDieMax : ObjDef :=
  { name := "Thermal.DieMax", base := 0x2810, sub0 := 0x1, subs := 10, ty := .i16, acc := .ro, cls := .live, lo := -32768, hi := 32767 }

/-- Thermal.WarnLimit. -/
def O.thermalWarnLimit : ObjDef :=
  { name := "Thermal.WarnLimit", base := 0x2811, sub0 := 0x1, ty := .u8, acc := .rw, cls := .live, dflt := [95], lo := 70, hi := 105, persist := true }

/-- Thermal.ThrottleLimit. -/
def O.thermalThrottleLimit : ObjDef :=
  { name := "Thermal.ThrottleLimit", base := 0x2811, sub0 := 0x2, ty := .u8, acc := .rw, cls := .live, dflt := [100], lo := 75, hi := 110, persist := true }

/-- Thermal.TripLimit. -/
def O.thermalTripLimit : ObjDef :=
  { name := "Thermal.TripLimit", base := 0x2811, sub0 := 0x3, ty := .u8, acc := .rw, cls := .live, dflt := [110], lo := 105, hi := 115, persist := true }

/-- Thermal.HbmLimit. -/
def O.thermalHbmLimit : ObjDef :=
  { name := "Thermal.HbmLimit", base := 0x2811, sub0 := 0x4, ty := .u8, acc := .rw, cls := .live, dflt := [95], lo := 85, hi := 100, persist := true }

/-- Thermal.DdrLimit. -/
def O.thermalDdrLimit : ObjDef :=
  { name := "Thermal.DdrLimit", base := 0x2811, sub0 := 0x5, ty := .u8, acc := .rw, cls := .live, dflt := [95], lo := 70, hi := 100, persist := true }

/-- Thermal.Throttling. -/
def O.thermalThrottling : ObjDef :=
  { name := "Thermal.Throttling", base := 0x2812, sub0 := 0x1, ty := .u8, acc := .ro, cls := .live, lo := 0, hi := 255 }

/-- Thermal.Warnings. -/
def O.thermalWarnings : ObjDef :=
  { name := "Thermal.Warnings", base := 0x2812, sub0 := 0x2, ty := .u32, acc := .rc, cls := .live, lo := 0, hi := 4294967295 }

/-- Thermal.TripRecord. -/
def O.thermalTripRecord : ObjDef :=
  { name := "Thermal.TripRecord", base := 0x2812, sub0 := 0x3, ty := .octets, acc := .ro, cls := .live, len := 16, fixed := true }

/-- Thermal.Trips. -/
def O.thermalTrips : ObjDef :=
  { name := "Thermal.Trips", base := 0x2812, sub0 := 0x4, ty := .u32, acc := .ro, cls := .live, lo := 0, hi := 4294967295 }

/-- Ageing.PoweredSeconds. -/
def O.ageingPoweredSeconds : ObjDef :=
  { name := "Ageing.PoweredSeconds", base := 0x2840, sub0 := 0x1, ty := .u64, acc := .ro, cls := .live, lo := 0, hi := 18446744073709551615 }

/-- Ageing.AvgJunction. -/
def O.ageingAvgJunction : ObjDef :=
  { name := "Ageing.AvgJunction", base := 0x2841, sub0 := 0x1, subs := 10, ty := .i16, acc := .ro, cls := .live, lo := -32768, hi := 32767 }

/-- Ageing.RequiredVoltage. -/
def O.ageingRequiredVoltage : ObjDef :=
  { name := "Ageing.RequiredVoltage", base := 0x2842, sub0 := 0x1, subs := 10, ty := .u16, acc := .ro, cls := .live, lo := 0, hi := 65535 }

/-- Ageing.BaseVoltage. -/
def O.ageingBaseVoltage : ObjDef :=
  { name := "Ageing.BaseVoltage", base := 0x2843, sub0 := 0x1, subs := 10, ty := .u16, acc := .ro, cls := .config, lo := 0, hi := 65535 }

/-- Ageing.ProjectedLife. -/
def O.ageingProjectedLife : ObjDef :=
  { name := "Ageing.ProjectedLife", base := 0x2844, sub0 := 0x1, subs := 10, ty := .u32, acc := .ro, cls := .live, dflt := [4294967295], lo := 0, hi := 4294967295 }

/-- Ageing.State. -/
def O.ageingState : ObjDef :=
  { name := "Ageing.State", base := 0x2845, sub0 := 0x1, ty := .u8, acc := .ro, cls := .live, lo := 0, hi := 255 }

/-- Ageing.DieState. -/
def O.ageingDieState : ObjDef :=
  { name := "Ageing.DieState", base := 0x2845, sub0 := 0x2, subs := 10, ty := .u8, acc := .ro, cls := .live, lo := 0, hi := 255 }

/-- Ageing.PlanHorizon. -/
def O.ageingPlanHorizon : ObjDef :=
  { name := "Ageing.PlanHorizon", base := 0x2846, sub0 := 0x1, ty := .u32, acc := .rw, cls := .live, dflt := [43830], lo := 8766, hi := 175320, persist := true }

/-- Ageing.History. -/
def O.ageingHistory : ObjDef :=
  { name := "Ageing.History", base := 0x2847, sub0 := 0x1, ty := .record, acc := .ro, cls := .live, entry := 16, rd := .history }

/-- Rows of chapter 16. -/
def objRows16a : List ObjDef :=
  [O.powerDomainControl, O.powerDomainState, O.powerDomainFaults, O.powerRailVoltage, O.powerRailCurrent,
   O.powerDiePower, O.powerDieLimit, O.powerAvsSetpoint, O.powerAvsMode, O.powerAvsFixed,
   O.powerAvsFaults, O.powerFailWarn, O.powerFailWarnings, O.powerSupplyFaultRail, O.thermalSensor,
   O.thermalDieMax, O.thermalWarnLimit, O.thermalThrottleLimit, O.thermalTripLimit, O.thermalHbmLimit,
   O.thermalDdrLimit, O.thermalThrottling, O.thermalWarnings, O.thermalTripRecord, O.thermalTrips,
   O.ageingPoweredSeconds, O.ageingAvgJunction, O.ageingRequiredVoltage, O.ageingBaseVoltage, O.ageingProjectedLife,
   O.ageingState, O.ageingDieState, O.ageingPlanHorizon, O.ageingHistory]

/-! The objects of chapter 17 (R439). -/

/-- SelfTest.Enable. -/
def O.selfTestEnable : ObjDef :=
  { name := "SelfTest.Enable", base := 0x2C00, sub0 := 0x1, ty := .bool, acc := .rw, cls := .live, dflt := [1], lo := 0, hi := 1, persist := true }

/-- SelfTest.PassPeriod. -/
def O.selfTestPassPeriod : ObjDef :=
  { name := "SelfTest.PassPeriod", base := 0x2C00, sub0 := 0x2, ty := .u32, acc := .rw, cls := .live, dflt := [86400], lo := 3600, hi := 2592000, persist := true }

/-- SelfTest.Slices. -/
def O.selfTestSlices : ObjDef :=
  { name := "SelfTest.Slices", base := 0x2C00, sub0 := 0x3, ty := .u64, acc := .rc, cls := .live, lo := 0, hi := 18446744073709551615 }

/-- SelfTest.Transients. -/
def O.selfTestTransients : ObjDef :=
  { name := "SelfTest.Transients", base := 0x2C00, sub0 := 0x4, ty := .u32, acc := .rc, cls := .live, lo := 0, hi := 4294967295 }

/-- SelfTest.Failures. -/
def O.selfTestFailures : ObjDef :=
  { name := "SelfTest.Failures", base := 0x2C00, sub0 := 0x5, ty := .u32, acc := .rc, cls := .live, lo := 0, hi := 4294967295 }

/-- SelfTest.Deferred. -/
def O.selfTestDeferred : ObjDef :=
  { name := "SelfTest.Deferred", base := 0x2C00, sub0 := 0x6, ty := .u64, acc := .rc, cls := .live, lo := 0, hi := 18446744073709551615 }

/-- SelfTest.Results. -/
def O.selfTestResults : ObjDef :=
  { name := "SelfTest.Results", base := 0x2C00, sub0 := 0x7, ty := .record, acc := .ro, cls := .live, entry := 32, rd := .results }

/-- SelfTest.UnitSelect. -/
def O.selfTestUnitSelect : ObjDef :=
  { name := "SelfTest.UnitSelect", base := 0x2C01, sub0 := 0x1, ty := .u32, acc := .rw, cls := .live, lo := 0, hi := 4294967295, mask := some 0xFFFFFF00, chk := .testUnit }

/-- SelfTest.RunNow. -/
def O.selfTestRunNow : ObjDef :=
  { name := "SelfTest.RunNow", base := 0x2C01, sub0 := 0x2, ty := .bool, acc := .wo, cls := .live, lo := 0, hi := 1, eff := .runNow }

/-- SelfTest.RunState. -/
def O.selfTestRunState : ObjDef :=
  { name := "SelfTest.RunState", base := 0x2C01, sub0 := 0x3, ty := .u8, acc := .ro, cls := .live, lo := 0, hi := 255 }

/-- SelfTest.PermanentDies. -/
def O.selfTestPermanentDies : ObjDef :=
  { name := "SelfTest.PermanentDies", base := 0x2C02, sub0 := 0x1, ty := .u16, acc := .ro, cls := .live, lo := 0, hi := 65535 }

/-- SelfTest.ClearPermanent. -/
def O.selfTestClearPermanent : ObjDef :=
  { name := "SelfTest.ClearPermanent", base := 0x2C02, sub0 := 0x2, ty := .u16, acc := .wo, cls := .live, lo := 0, hi := 65535, mask := some 0x3FF, eff := .clearPermanent }

/-- Diag.DuaxisSelect. -/
def O.diagDuaxisSelect : ObjDef :=
  { name := "Diag.DuaxisSelect", base := 0xF000, sub0 := 0x1, ty := .u16, acc := .rw, cls := .live, lo := 0, hi := 65535, mask := some 0x1F7F, chk := .duaxisSelect }

/-- Diag.DuaxisState. -/
def O.diagDuaxisState : ObjDef :=
  { name := "Diag.DuaxisState", base := 0xF000, sub0 := 0x2, ty := .u8, acc := .ro, cls := .live, lo := 0, hi := 255, rd := .duaxisState }

/-- Diag.DuaxisRepair. -/
def O.diagDuaxisRepair : ObjDef :=
  { name := "Diag.DuaxisRepair", base := 0xF000, sub0 := 0x3, ty := .u8, acc := .ro, cls := .live, lo := 0, hi := 255, rd := .duaxisRepair }

/-- Diag.DuaxisSuspect. -/
def O.diagDuaxisSuspect : ObjDef :=
  { name := "Diag.DuaxisSuspect", base := 0xF000, sub0 := 0x4, ty := .u64, acc := .ro, cls := .live, lo := 0, hi := 18446744073709551615, rd := .duaxisSuspect }

/-- Diag.DuaxisCorrected. -/
def O.diagDuaxisCorrected : ObjDef :=
  { name := "Diag.DuaxisCorrected", base := 0xF000, sub0 := 0x5, ty := .u64, acc := .rc, cls := .live, lo := 0, hi := 18446744073709551615, rd := .duaxisCorrected }

/-- Diag.DuaxisUncorrectable. -/
def O.diagDuaxisUncorrectable : ObjDef :=
  { name := "Diag.DuaxisUncorrectable", base := 0xF000, sub0 := 0x6, ty := .u64, acc := .rc, cls := .live, lo := 0, hi := 18446744073709551615, rd := .duaxisUncorrectable }

/-- Diag.DuaxisReplays. -/
def O.diagDuaxisReplays : ObjDef :=
  { name := "Diag.DuaxisReplays", base := 0xF000, sub0 := 0x7, ty := .u64, acc := .rc, cls := .live, lo := 0, hi := 18446744073709551615, rd := .duaxisReplays }

/-- Diag.DuaxisClearSuspect. -/
def O.diagDuaxisClearSuspect : ObjDef :=
  { name := "Diag.DuaxisClearSuspect", base := 0xF000, sub0 := 0x8, ty := .bool, acc := .wo, cls := .live, lo := 0, hi := 1, eff := .clearSuspect }

/-- Diag.DieIdentity. -/
def O.diagDieIdentity : ObjDef :=
  { name := "Diag.DieIdentity", base := 0xF010, sub0 := 0x1, subs := 10, ty := .octets, acc := .ro, cls := .config, len := 16, fixed := true }

/-- Diag.JtagIdcode. -/
def O.diagJtagIdcode : ObjDef :=
  { name := "Diag.JtagIdcode", base := 0xF020, sub0 := 0x1, ty := .u32, acc := .ro, cls := .config, lo := 0, hi := 4294967295 }

/-- Rows of chapter 17. -/
def objRows17a : List ObjDef :=
  [O.selfTestEnable, O.selfTestPassPeriod, O.selfTestSlices, O.selfTestTransients, O.selfTestFailures,
   O.selfTestDeferred, O.selfTestResults, O.selfTestUnitSelect, O.selfTestRunNow, O.selfTestRunState,
   O.selfTestPermanentDies, O.selfTestClearPermanent, O.diagDuaxisSelect, O.diagDuaxisState, O.diagDuaxisRepair,
   O.diagDuaxisSuspect, O.diagDuaxisCorrected, O.diagDuaxisUncorrectable, O.diagDuaxisReplays, O.diagDuaxisClearSuspect,
   O.diagDieIdentity, O.diagJtagIdcode]

/-- Every object of the dictionary that the spec prints in a table (R247). -/
def objTable : List ObjDef :=
  objRows01a ++ objRows02a ++ objRows02b ++ objRows03a ++ objRows03b ++ objRows04a ++ objRows04b ++ objRows05a ++
  objRows05b ++ objRows06a ++ objRows07a ++ objRows08a ++ objRows08b ++ objRows08c ++ objRows09a ++ objRows10a ++
  objRows11a ++ objRows12a ++ objRows13a ++ objRows14a ++ objRows14b ++ objRows16a ++ objRows17a

end Sys2Proof.Machine
end

