-- ==== Sys2Proof/Machine/State.lean ====
section
/-! DEFINITION. The state of the block, as plain data: the dictionary's objects, what each chapter's hardware holds
beside them, and the queue of waiting commands. Times in nanoseconds count from reset (`ns`); ticks are readings of
the count. Maps list only what differs from an absent key's value. -/

set_option Elab.async false

namespace Sys2Proof.Machine

/-! Time base. -/

/-- One replica of the count (R16): its deviation from the count of its source as last compared, whether it has yet
to realign, and the tick at which its fault was detected. Replica 0 is that of IOS, 1 + q that of quad q. -/
structure Replica where
  dev : Int := 0
  faulty : Bool := false
  faultTick : Nat := 0
deriving DecidableEq, Repr

/-- The PTP ordinary clock (R28), with times in fine steps since the PTP epoch: the last Sync's number, arrival and correction while its
Follow_Up is awaited, its origin and arrival once both are known, the numbers and departures of the last Delay_Req and Pdelay_Req, the
stamps of a peer's two-step answer while its Follow_Up is awaited, and the mean path delay as last measured. -/
structure PtpSt where
  seq : Nat := 0
  wait : Option (Int × Int) := none
  sync : Option (Int × Int) := none
  reqSeq : Nat := 0
  sent : Option Int := none
  peerSent : Option Int := none
  peer : Option (Int × Int) := none
  delay : Int := 0
deriving DecidableEq, Repr

/-- What discipline holds beside its objects (R24 to R30, R455). `era` rises by 3 at a step of the count: what follows a step stands in the new
era, the step markers two before it and the gap record of a quiesce that the step fell into one before it; `stepped` is the new count and STEP of
the last step. -/
structure TimeSt where
  consec : Nat := 0
  lastMeas : Option Nat := none
  entryNs : Nat := 0
  refNs : Option Nat := none
  holdNs : Option Nat := none
  byLimit : Bool := false
  interval : Int := 0
  ppsNs : Option Nat := none
  sample : Option Int := none
  stepped : Nat × Int := (0, 0)
  sampleTick : Nat := 0
  ptp : PtpSt := {}
  markerNs : Nat := 0
  era : Nat := 0
  replicas : SMap Replica := []
deriving DecidableEq, Repr

/-! Capture. -/

/-- A record (R77): every header field but LENGTH, PAD and HCRC, which its payload and fields determine, and the
port (4q + p) that made it. -/
structure Rec where
  type : Nat
  fine : Nat := 0
  tick : Nat := 0
  session : Nat := 0
  source : Nat := 0
  seq : Nat := 0
  flags : Nat := 0
  mtag : Nat := 0
  payload : List Byte := []
  port : Nat := 0
deriving DecidableEq, Repr

/-- An open idle run (R89). -/
structure FoldRun where
  kind : Nat
  lane : Nat := 0
  count : Nat := 1
  tick : Nat
  fine : Nat := 0
  startNs : Nat
  endTick : Nat
  contd : Bool := false
deriving DecidableEq, Repr

/-- An open batch of raw blocks of one lane (R88). -/
structure RawBatch where
  lane : Nat
  tick : Nat
  fine : Nat := 0
  blocks : List (List Byte)
  session : Nat
  flags : Nat := 0
deriving DecidableEq, Repr

/-- An open settle interval (R95): the cause of its BEGIN record, its first tick, the union of the lanes touched, the
last lock that followed the latest cause, and when the interval ends; it has no end while a lane of the port is not locked. -/
structure Settle where
  cause : Nat
  mask : Nat
  start : Nat
  lock : Option Nat := none
  endNs : Option Nat := none
deriving DecidableEq, Repr

/-- A run of lost records, or what a discarded packet held of one source (R101, R102, R109); `settle` and `gap` are SETTLE and GAP of the first, `down`
says that the port was DOWN among them, `due` that the run closes as soon as the reserve has room. -/
structure LossRun where
  reason : Nat
  first : Nat
  tick : Nat
  fine : Nat
  lastTick : Nat
  bytes : Nat
  count : Nat
  bp : Bool := false
  settle : Bool := false
  gap : Bool := false
  down : Bool := false
  due : Bool := false
  openNs : Nat := 0
deriving DecidableEq, Repr

/-- A record of a source that has its place but not yet its SEQ (R20, R83, R97, R127): it leaves settle marking at `due`, in ns, at the
earliest, once no open run or batch of its source may still come before it. `era` counts the steps of the count before it. -/
structure Staging where
  r : Rec
  due : Nat
  era : Nat := 0
deriving DecidableEq, Repr

/-- What a port holds beside its objects: debounces, holds and limits of its state, then its source's records on their way to the ingest
buffer. `stage` holds the records without SEQ in their order, `held` those with one; `downs` counts entries to DOWN since reset; `settled` lists the ended
settle intervals that a waiting record may lie in; `stepEra` is the era whose step it has marked; `flushOwed` says that capture has stopped and its flush awaits the port's last records; `reversed` and `inverted` are what a PCIe Tap port has detected of its lanes (R41). -/
structure PortAux where
  upNs : Option Nat := none
  downNs : Option Nat := none
  downTimes : List Nat := []
  flapNs : Option Nat := none
  retuneNs : Option Nat := none
  idleNs : Option Nat := none
  eios : Bool := false
  reversed : Bool := false
  inverted : Nat := 0
  seq : Nat := 0
  downs : Nat := 0
  flit : Bool := false
  stage : List Staging := []
  folds : List FoldRun := []
  raws : List RawBatch := []
  settle : Option Settle := none
  settled : List (Nat × Nat) := []
  unobs : Option Nat := none
  loss : Option LossRun := none
  owed : List LossRun := []
  had : Bool := false
  downSeen : Bool := false
  upOwed : Bool := false
  gapPrev : Bool := false
  foldPrev : Bool := false
  gapNext : Bool := false
  held : List Rec := []
  marks : List (Nat × Nat) := []
  unitEnd : Nat := 0
  stepEra : Nat := 0
  flushOwed : Bool := false
deriving DecidableEq, Repr

/-- The ingest buffer and the credit of a quad, or of a group at its base quad (R100, R103). -/
structure Ingest where
  q : List Rec := []
  credit : Int := 0
deriving DecidableEq, Repr

/-- A packet (R107). `close` is meaningful once it has closed. -/
structure Packet where
  session : Nat
  recs : List Rec
  close : Nat := 0
  openNs : Nat := 0
  closeNs : Nat := 0
deriving DecidableEq, Repr

/-- A record FIFO (R106): the open packet and whether it lies in the draining bank (the banks may exchange roles while it is open), the
closed packets of the filling bank and of the draining bank, the number of that bank's packets whose writes are not yet
acknowledged (R167), and the bytes of that bank that closed packets have taken since it began to fill. -/
structure Fifo where
  cur : Option Packet := none
  curDrains : Bool := false
  filling : List Packet := []
  draining : List Packet := []
  flying : Nat := 0
  drainUsed : Nat := 0
deriving DecidableEq, Repr

/-- One entry of a flow table (R93). -/
structure FlowEntry where
  source : Nat
  key : List Byte
  tag : Nat
  lastHit : Nat
deriving DecidableEq, Repr

/-- A packet that the ring writer has placed and that is not below WriteOffset yet: its FIFO (the quad, or 36 for the link FIFO), its absolute
position, that of a zero word written ahead of it (R166), whether its writes met no bus error, and how it stands: 0 its writes are
awaited, 1 it is to be written again, 2 they are acknowledged (R167). -/
structure Flight where
  fifo : Nat
  abs : Nat
  zero : Option Nat := none
  pkt : Packet
  ok : Bool
  state : Nat := 0
deriving DecidableEq, Repr

/-- What the promoter knows of a record in the ring: its type, port, TICK and SEQ, and whether it has been promoted. -/
structure RingIx where
  type : Nat
  port : Nat
  tick : Nat
  seq : Nat
  taken : Bool := false
deriving DecidableEq, Repr

/-- A whole packet in the ring: its absolute position (bytes passed over since reset), its bytes, its session, the
previous packet of its session, and its records. -/
structure RingPkt where
  abs : Nat
  bytes : Nat
  session : Nat
  prev : Nat
  ix : List RingIx
deriving DecidableEq, Repr

/-- A stage packet (R168): its records, the ring packets that were promoted whole into it (each with its predecessor,
R231), and whether it holds a RING_OVERRUN gap or a record whose GAP the promoter set. -/
structure StagePkt where
  pkt : Packet
  src : List (Nat × Nat) := []
  gapSet : Bool := false
deriving DecidableEq, Repr

/-- A packet that lies in the stage: its absolute position there, its bytes, its session, and as for `StagePkt`. -/
structure StageIx where
  abs : Nat
  bytes : Nat
  session : Nat
  src : List (Nat × Nat) := []
  gapSet : Bool := false
deriving DecidableEq, Repr

/-- What a Capture Engine, its ring writer and its promoter hold beside their objects. Absolute positions count every
byte of the ring or stage passed over since reset, or since it was moved; `atEnd` says that the write position is the ring's end. `overw` gives the newest TICK overwritten of each
port, `lastOf` the newest ring packet of each session. -/
structure EngAux where
  quiesceTick : Nat := 0
  quiesceEra : Nat := 0
  quiesceNs : Nat := 0
  resume : Bool := false
  link : Ingest := {}
  linkFifo : Fifo := {}
  flow : SMap FlowEntry := []
  scanSet : Nat := 0
  scanNs : Nat := 0
  writeAbs : Nat := 0
  ackAbs : Nat := 0
  flights : List Flight := []
  atEnd : Bool := false
  held : Bool := false
  pkts : List RingPkt := []
  overw : SMap Nat := []
  lastOf : SMap Nat := []
  stage : Option StagePkt := none
  stageOut : List StagePkt := []
  stageAbs : Nat := 0
  drainAbs : Nat := 0
  staged : List StageIx := []
  waiting : Bool := false
deriving DecidableEq, Repr

/-! Events. -/

/-- A unit that caused a matcher event (R114). -/
structure Subject where
  source : Nat
  seq : Nat
  tick : Nat
deriving DecidableEq, Repr

/-- An occurrence of an event (R114). `origin` is the origin tick that a twin inbound event carries. -/
structure Occ where
  ev : Nat
  tick : Nat
  mult : Nat := 1
  origin : Option Nat := none
  subjects : List Subject := []
deriving DecidableEq, Repr

/-- An occurrence at input i of Front n, and the nanosecond of time in which the Front may use it (R122). -/
structure FrontIn where
  n : Nat
  i : Nat
  occ : Occ
  ns : Nat := 0
deriving DecidableEq, Repr

/-- A branch that Front n takes in the present nanosecond; its actions take effect at the end of it (R122). -/
structure Taken where
  n : Nat
  b : Nat
  word : Nat
  sel : List Occ
deriving DecidableEq, Repr

/-- A report slot of a Vane notification destination (R136). -/
structure Slot where
  count : Nat := 0
  first : Nat := 0
  last : Nat := 0
  sentNs : Option Nat := none
deriving DecidableEq, Repr

/-- A span of ticks whose records the promoter copies, with the ring position of each engine at its closing, beyond which
its records come too late. -/
structure Span where
  lo : Nat
  hi : Nat
  cut0 : Nat
  cut1 : Nat
deriving DecidableEq, Repr

/-- The retention of a session (R131 to R133): triggers since reset, whether a window has ever opened, the nanosecond of the last trigger
that opened or extended one, the Pre, MaxSpan and Holdoff of the window's opening trigger, the end of the last window, closed spans that the
promoter may still be copying, the tick from which mode ALL copies, the last promoted TICK and SEQ of each port, and the ports whose run
has broken. -/
structure Win where
  triggers : Nat := 0
  opened : Bool := false
  trigNs : Option Nat := none
  pre : Nat := 0
  maxSpan : Nat := 0
  holdoff : Nat := 0
  lastEnd : Nat := 0
  spans : List Span := []
  allFrom : Option Nat := none
  promoted : SMap (Nat × Nat) := []
  broken : List Nat := []
deriving DecidableEq, Repr

/-- How many occurrences of an event there have been with one tick, in all or at a mark set, as found at time `ns` (R114, log entry 94). -/
structure Pulse where
  ev : Nat
  set : Option Nat := none
  tick : Nat
  ns : Nat
  n : Nat
deriving DecidableEq, Repr

/-- What the event router and the Fronts hold beside their objects: occurrences at Front inputs, the expiry of each running timer and the
nanosecond in which a stopped one expired (key 2n + t), the nanosecond of each Front's last evaluation and of the last commit of its
Control, the branches taken in the present nanosecond, pending MSI-X vectors (the PBA), the MSI-X table, 16 bytes for each vector, and the bits of
Message Control, the time of each vector's last message, report slots, times of notifications, retention, and the occurrences of the present
nanosecond; those beyond 15 of one nanosecond wait in `carry` for the next, with its time. -/
structure EventSt where
  inputs : List FrontIn := []
  timers : SMap Nat := []
  expired : SMap Nat := []
  evals : SMap Nat := []
  controls : SMap Nat := []
  taken : List Taken := []
  carry : List (Nat × Occ) := []
  msixControl : Nat := 0
  msixTable : SMap (List Byte) := []
  msix : SMap Nat := []
  msixSent : SMap Nat := []
  slots : SMap Slot := []
  notified : SMap (List Nat) := []
  wins : SMap Win := []
  pulses : List Pulse := []
deriving DecidableEq, Repr

/-! Lanes, Spapax and link partners. -/

/-- Identical levels in a row on a lane, and the last level (R60). -/
structure LevelRun where
  run : Nat := 0
  last : Option Nat := none
deriving DecidableEq, Repr

/-- A Spapax lane as it receives (R58 to R61, R65): its levels in a row, valid headers in a row, the outcomes of the last 64 blocks while locked
(true: a block error), the scrambler state, blocks since ALIGN, the IDLE payloads matched in a row, READY and PEER_READY of the peer, and
blocks that wait for those of the other lanes (whether of control, and their bytes). -/
structure SpxLane where
  levels : LevelRun := {}
  good : Nat := 0
  locked : Bool := false
  recent : List Bool := []
  scr : Nat := 0x7FFFFFF0
  loaded : Bool := false
  alignNs : Option Nat := none
  match_ : Nat := 0
  ready : Bool := false
  peerReady : Bool := false
  fifo : List (Bool × List Byte) := []
deriving DecidableEq, Repr

/-- A Spapax lane as it sends: its scrambler state and its levels in a row (R59, R60). -/
structure SpxTx where
  scr : Nat := 0x7FFFFFF0
  levels : LevelRun := {}
deriving DecidableEq, Repr

/-- A frame that waits for its SEQ (R63). -/
structure SpxWait where
  cls : Nat
  payload : List Byte
deriving DecidableEq, Repr

/-- A frame kept for replay (R63): its bytes as first sent but for the CRC, and the times it has been sent. -/
structure SpxKept where
  seq : Nat
  bytes : List Byte
  sends : Nat := 1
  sentNs : Nat := 0
deriving DecidableEq, Repr

/-- What Native port 4q + p holds beside its objects (R58 to R67, R202). Bring-up is that of its quad: `stageNs` to `lockout` are used in
port 0 only. `ready` and `peerReady` are what this side says in TRAIN, `tx` its sending lanes and `rows` the blocks sent on each since ALIGN,
`frame` the bytes of a frame that is arriving, `errors` the frames discarded before ACTIVE (R67), `txWrap` and `rxWrap` the wraps of SEQ in
each direction, `keyOut` and `keyIn` the direction keys. -/
structure SpxAux where
  stageNs : Nat := 0
  fails : Nat := 0
  authRun : Nat := 0
  backoffNs : Option Nat := none
  lockout : Bool := false
  lanes : SMap SpxLane := []
  ready : Bool := false
  peerReady : Bool := false
  tx : SMap SpxTx := []
  rows : Nat := 0
  frame : Option (List Byte) := none
  errors : Nat := 0
  capsSeen : Bool := false
  authed : Bool := false
  key : List Byte := []
  nonce : List Byte := []
  peerNonce : List Byte := []
  peerIdentity : List Byte := []
  peerSchema : Nat := 0
  keyed : Bool := false
  keyOut : List Byte := []
  keyIn : List Byte := []
  txSeq : Nat := 0
  txWrap : Nat := 0
  rxSeq : Nat := 0
  rxWrap : Nat := 0
  replay : List SpxKept := []
  waiting : List SpxWait := []
  nak : Bool := false
deriving DecidableEq, Repr

/-- An eye scan in progress or ended (R54, R55): the lane scanned, the settings it began with, and its entries. -/
structure EyeAux where
  lane : Nat := 0
  eye : Nat := 0
  dwell : Nat := 0
  h : Int := 0
  v : Int := 0
  hStride : Nat := 1
  vStride : Nat := 1
  entries : List (List Byte) := []
deriving DecidableEq, Repr

/-- A source address that has sent failing PDUs to a Vane port, and its lockout (R73). -/
structure VaneSource where
  vane : Nat
  source : List Byte
  fails : List Nat := []
  untilNs : Option Nat := none
deriving DecidableEq, Repr

/-- What the ports and links hold beside their objects; `frozen` holds the equaliser values that FREEZE holds (R43), `aer` the Uncorrectable Error
Status of the Host endpoint's AER (R69). -/
structure LinkSt where
  frozen : SMap Val := []
  ports : SMap PortAux := []
  spx : SMap SpxAux := []
  eyes : SMap EyeAux := []
  sources : List VaneSource := []
  retrainNs : SMap Nat := []
  retried : SMap Nat := []
  aer : Nat := 0
  assigned : SMap (Nat × Nat) := []
  refused : SMap Nat := []
deriving DecidableEq, Repr

/-- What the Capture Engines hold beside their objects. -/
structure CaptureSt where
  ingest : SMap Ingest := []
  fifos : SMap Fifo := []
  engines : SMap EngAux := []
deriving DecidableEq, Repr

/-! Transmit. -/

/-- Where a channel fetches (R150, R152, R158): iteration, descriptor and repeat, or byte offset, with the S of the previous
unit and of the descriptor's first send, and the TICK of the previous selected record. -/
structure TxCursor where
  iter : Nat := 0
  desc : Nat := 0
  rep : Nat := 0
  off : Nat := 0
  prevS : Int := 0
  unitS : Int := 0
  prevTick : Nat := 0
deriving DecidableEq, Repr

/-- A unit of a transmit channel: its S, its bytes without preamble, its lane for raw blocks, its Position (R158), its
descriptor or record header, and the cursor it was fetched at. -/
structure TxUnit where
  s : Int
  bytes : List Byte
  lane : Nat := 0
  pos : Nat := 0
  header : List Byte := []
  cur : TxCursor := {}
deriving DecidableEq, Repr

/-- A unit offered to the fabric hook, its number among the channel's offers, and when (R155). -/
structure TxOffer where
  no : Nat := 0
  unit : TxUnit
  ns : Nat
deriving DecidableEq, Repr

/-- What a transmit channel holds beside its objects: the anchor awaited, the queue, the unit on the wire, the fetch cursor,
the S of iteration 0's start (or of the first record), the S that the next unit fetched takes (RESUME), T_0,
whether fetch has stopped, with what fault and at which Position, the hook's units and how many there have been, the instant the line is free,
the hold window, and whether a STOP waits for the unit on the wire (R145). -/
structure TxCh where
  anchor : Nat := 0
  waitUp : Bool := false
  queue : List TxUnit := []
  wire : Option TxUnit := none
  cur : TxCursor := {}
  base : Int := 0
  rebase : Option Int := none
  t0 : Option Nat := none
  ended : Bool := false
  fault : Nat := 0
  endPos : Option Nat := none
  hook : List TxOffer := []
  offers : Nat := 0
  stopping : Bool := false
  freeFine : Nat := 0
  holdNs : Option Nat := none
  downTick : Nat := 0
deriving DecidableEq, Repr

/-! Memory. -/

/-- A slice of a granule that is not WRITTEN whole (R190): the granule's part in one channel, its fill pointer in bytes, its
place in the order of opening, the stream that opened it, and whether it has closed. -/
structure Slice where
  ptr : Nat
  order : Nat
  who : Nat := 0
  closed : Bool := false
deriving DecidableEq, Repr

/-- A region's counters (R194). -/
structure Region where
  epoch : Nat := 0
  major : Nat := 0
deriving DecidableEq, Repr

/-- A re-encryption of a region (R199): the new pair and the lines already done. -/
structure Reenc where
  region : Nat
  epoch : Nat
  major : Nat
  done : List Nat := []
deriving DecidableEq, Repr

/-- A line of a poison list and the tick at which it was entered (R179). -/
structure PoisonLine where
  line : Nat
  tick : Nat
deriving DecidableEq, Repr

/-- A Frost snapshot (R177). -/
structure Snapshot where
  tick : Nat := 0
  address : Nat := 0
  thawTick : Nat := 0
  cause : Nat := 0
  command : Nat := 0
  rank : Nat := 0
  bank : Nat := 0
  row : Nat := 0
  column : Nat := 0
  initiator : Nat := 0
  queued : Nat := 0
  further : Nat := 0
  syndrome : Nat := 0
deriving DecidableEq, Repr

/-- What a memory channel holds beside its objects: its snapshot and poison list, its minor cache of lines with their counters (R197), the
epochs whose keys it caches (R193), the minor counter last seen in each region (R198), the page policy's predictor, last row and open row of
each bank (R171), the time of its last valid temperature (R173), and where Drizzle's sweep stands and whether one has ended (R207). -/
structure ChanAux where
  snap : Snapshot := {}
  poison : SMap PoisonLine := []
  cache : List (Nat × Nat) := []
  epochs : List Nat := []
  lastMinor : SMap Nat := []
  predictor : SMap Nat := []
  lastRow : SMap Nat := []
  openRow : SMap Nat := []
  sensorNs : Option Nat := none
  sensorDown : Bool := false
  sweep : Nat := 0
  swept : Bool := false
deriving DecidableEq, Repr

/-- An SRAM word as it is stored (R182, R183): its data, its check bits where they were written raw, and its three valid cells. -/
structure SramWord where
  data : Nat := 0
  check : Option Nat := none
  cells : Nat := 0
deriving DecidableEq, Repr

/-- A leaky bucket (R185) and the corrected errors since its last overflow (R186). -/
structure Bucket where
  level : Nat := 0
  since : Nat := 0
deriving DecidableEq, Repr

/-- Who is told how a request that has waited ends: nobody, as of a posted write of an engine; its interface; or the host, through the memory
window. -/
inductive Waiter
  | nobody | requester | window
deriving DecidableEq, Repr

/-- A request to the memory that waits: a write, or what of it is still to be done, for a re-encryption (R200) or behind a request to the same line;
a read behind such a write (R174). `fresh` names the slices that the write has itself found NEVER (R191), `ok` says that what has been done of it
was. -/
structure Deferred where
  addr : Nat
  write : Bool
  len : Nat := 0
  data : List Byte := []
  req : MemReq := {}
  fresh : List Nat := []
  ok : Bool := true
  reply : Waiter := .nobody
deriving DecidableEq, Repr

/-- A line written raw by the checker test (R209). -/
structure RawLine where
  data : List Byte
  spare : Nat
deriving DecidableEq, Repr

/-- A line in a cache (R328): its number, its MESI state (1 SHARED, 2 EXCLUSIVE, 3 MODIFIED; no entry is INVALID), its 64 bytes. -/
structure CacheLine where
  line : Nat
  st : Nat
  data : List Byte
deriving DecidableEq, Repr

/-- The DRAM and what protects it. `cells` holds plain contents of WRITTEN and FILLING memory; an unlisted byte reads
zero, as memory never written does (R189). Lines are numbered by address div 64, granules by address div 65,536.
`key` is the session key (R192), `ranks` gives the DIMMs of a DDR channel, the ranks of each and its bytes (R163), `raw` the lines that lie as
the checker test wrote them, `upset` what disturbances have changed in stored lines since they were written, `held` that the command under way has
met a request that waits, `sramSwept` that Drizzle has swept every SRAM instance, `lullKeep` what Lull retains (R175), `shared` the shared cache of each I/O die (R328). -/
structure MemSt where
  ranks : SMap (Nat × Nat × Nat) := []
  deferred : List Deferred := []
  leakNs : Nat := 0
  cells : List Host.Cell := []
  granules : SMap Nat := []
  slices : SMap Slice := []
  opened : Nat := 0
  minors : SMap Nat := []
  regions : SMap Region := []
  jobs : List Reenc := []
  chans : SMap ChanAux := []
  raw : SMap RawLine := []
  upset : SMap (List Byte) := []
  held : Bool := false
  sramSwept : Bool := false
  lullKeep : Nat × Nat := (0, 0)
  testLine : Option Nat := none
  sram : SMap SramWord := []
  shared : SMap (List CacheLine) := []
  buckets : SMap Bucket := []
  overflows : SMap (List Byte) := []
  overflowNo : Nat := 0
  key : List Byte := []
deriving DecidableEq, Repr

/-! Dictionary service, Logbook and Keep. -/

/-- What a Vane port sends from: its MAC address, IPv4 and IPv6 addresses, link-local address, UDP port and VLAN, and the prefix lengths and gateway
that say where a packet goes next (R72 to R74). -/
structure VaneAddr where
  mac : List Byte := []
  ip4 : List Byte := []
  ip6 : List Byte := []
  local_ : List Byte := []
  udp : Nat := 0
  vlan : Nat := 0
  prefix4 : Nat := 24
  gateway : List Byte := []
  prefix6 : Nat := 64
deriving DecidableEq, Repr

/-- Where the answer to a request goes (R256), on a Vane port from the addresses at the time of the request (R73). -/
inductive Path
  | direct | vane (v : Nat) (source : List Byte) (own : VaneAddr) | mailbox (slot : Nat) | core (c : Nat) | jtag | fabric (d : Nat)
deriving DecidableEq, Repr

/-- One item of a response (R259): `wait` is 1 while it waits for the outcome of its implicit transaction or commit, 2 while it
waits for a sample of a user object. -/
structure RItem where
  op : Nat
  status : Nat := 0
  index : Nat := 0
  sub : Nat := 0
  type : Nat := 0
  off : Nat := 0
  value : List Byte := []
  wait : Nat := 0
deriving DecidableEq, Repr

/-- A response under way (R257, R262). -/
structure Reply where
  path : Path := .direct
  origin : Nat := 0
  status : Nat := 0
  reqId : Nat := 0
  seq : Nat := 0
  keyId : Nat := 0
  txn : Nat := 0
  items : List RItem := []
deriving DecidableEq, Repr

/-- A staged value under its key, index·256 + sub-index. -/
structure Staged where
  key : Nat
  val : Val
deriving DecidableEq, Repr

/-- States of a transaction (R286). -/
inductive TxnState
  | open_ | queued | validating | scheduled
deriving DecidableEq, Repr

/-- A transaction (R270 to R275); `slot` is none for an implicit one. Staged values lie in rising order of key; `reply` names the
response that waits for it, 0 for none. `mirror` is some 0 for a commit that the peer has proposed and that is still to be judged, some 1
once its VERDICT has gone, some 2 for a pair commit of this side that waits for the peer's VERDICT (R291). `era` tells the steps of the count
from before it was SCHEDULED from later ones (R274). -/
structure Txn where
  slot : Option Nat
  txn : Nat
  origin : Nat
  keyId : Nat := 0
  state : TxnState := .open_
  items : List Staged := []
  sinceNs : Nat := 0
  want : Option Nat := none
  tc : Nat := 0
  reply : Nat := 0
  mirror : Option Nat := none
  era : Nat := 0
deriving DecidableEq, Repr

/-- A Logbook entry (R277). -/
structure LogEntry where
  tick : Nat
  seq : Nat
  boot : Nat
  kind : Nat
  origin : Nat := 9
  keyId : Nat := 0
  flags : Nat := 0
  code : Nat := 0
  txn : Nat := 0
  index : Nat := 0xFFFF
  sub : Nat := 0
  type : Nat := 0
  old : List Byte := []
  new_ : List Byte := []
deriving DecidableEq, Repr

/-- The SEQ history of a Vane key slot (R258). -/
structure SeqHist where
  hi : Nat := 0
  seen : List Nat := []
deriving DecidableEq, Repr

/-- A mailbox slot (R264, R265): 0 IDLE, 1 POSTED, 2 BUSY, 3 DONE. -/
structure Mailbox where
  state : Nat := 0
  reqLen : Nat := 0
  request : List Byte := []
  respLen : Nat := 0
  response : List Byte := []
deriving DecidableEq, Repr

/-- A datagram that is not complete (R257). -/
structure Reassembly where
  vane : Nat
  id : Nat
  ns : Nat
deriving DecidableEq, Repr

/-- A group of Keep pages that a commit writes (R282): the values it carries, its logical pages, Logbook entries that it checkpoints, and when it
came about. -/
structure KeepGroup where
  vals : SMap Val := []
  pages : List Nat := []
  log : List LogEntry := []
  ns : Nat := 0
deriving DecidableEq, Repr

/-- A physical page of the Keep that is not erased (R282, R283): its logical page, WRITE_SEQ, powered seconds at the
write, its group's number and size, whether its group is complete, and whether the pointer names it. -/
structure KeepPage where
  logical : Nat
  wseq : Nat
  secs : Nat
  group : Nat := 0
  size : Nat := 1
  whole : Bool := true
  current : Bool := true
deriving DecidableEq, Repr

/-- The Keep (R281 to R284): durable values of PERSIST objects, groups waiting to be written, physical pages, the erase counts of its blocks, the
number of its groups, and whether a raw page has been selected since reset. -/
structure KeepSt where
  vals : SMap Val := []
  groups : List KeepGroup := []
  pages : SMap KeepPage := []
  wseq : Nat := 0
  log : List LogEntry := []
  erases : SMap Nat := []
  groupNo : Nat := 0
  rawOn : Bool := false
deriving DecidableEq, Repr

/-- What the dictionary service holds; `tcs` holds the commit tick of the last commit of each object since reset. -/
structure DictSt where
  txns : List Txn := []
  replies : SMap Reply := []
  replyNo : Nat := 0
  counts : SMap Nat := []
  tcs : SMap Nat := []
  log : List LogEntry := []
  logSeq : Nat := 0
  ckptNs : Nat := 0
  ckptSeq : Nat := 0
  toStream : List LogEntry := []
  streamLost : Bool := false
  streamTick : Nat := 0
  streamSeq : Nat := 0
  seqs : SMap SeqHist := []
  portSeq : SMap Nat := []
  boxes : SMap Mailbox := []
  cores : SMap Mailbox := []
  reass : List Reassembly := []
deriving DecidableEq, Repr

/-! Network and cores. -/

/-- What a core holds (R324, R325, R328, R331): pending and enabled interrupt bits and those routed to the supervisor, its machine timer
compare, the targets that it has written since its last fence, and its two caches. -/
structure CoreAux where
  ekip : Nat := 0
  ekie : Nat := 0
  eksel : Nat := 0
  timecmp : Nat := 0
  written : List Nat := []
  inst : List CacheLine := []
  data : List CacheLine := []
deriving DecidableEq, Repr

/-! Clocks. -/

/-- What the clocks hold beside their objects: status of the transmit PLLs (2q + i; 0 OFF, 1 LOCKING, 2 LOCKED,
3 HOLDOVER, 4 FAILED, as Clock.PllStatus codes them), and when each PLL entered HOLDOVER (0 to 10 system PLLs in the
order of Clock.PllStatus, 16 + 2q + i transmit PLLs). -/
structure ClockSt where
  txPll : SMap Nat := []
  holdNs : SMap Nat := []
deriving DecidableEq, Repr

/-! Twin. -/

/-- The peer's value of an object and its tc (R293). -/
structure ShadowVal where
  bytes : List Byte
  tick : Nat
deriving DecidableEq, Repr

/-- What the twin port holds beside its objects: messages sent and applied since the last join (R297), the time base of
the miss count, the last beat's two stamps, misses and small measurements in a row, whether the peer is known since reset,
the peer's side, epoch and catalogue, the ends of resynchronisation, the peer's values and Logbook, the last FRONT entry
of each shadow Front, whether a large offset has stopped steering, the state before the join under way,
the last offset measured, and whether this side owns every Front, now and before the join under way. -/
structure TwinSt where
  before : Nat := 1
  offset : Int := 0
  txMsg : Nat := 0
  rxMsg : Nat := 0
  watchNs : Option Nat := none
  misses : Nat := 0
  peerTx : Nat := 0
  peerRx : Nat := 0
  peerFine : Nat := 0
  good : Nat := 0
  known : Bool := false
  leaving : Bool := false
  peerSide : Nat := 0
  peerEpoch : Nat := 0
  catalogue : List Nat := []
  common : Bool := false
  sentEnd : Bool := false
  gotEnd : Bool := false
  holdSteer : Bool := false
  ownAll : Bool := true
  ownWas : Bool := true
  shadows : SMap ShadowVal := []
  log : List (List Byte) := []
  fronts : SMap (List Byte) := []
deriving DecidableEq, Repr

/-! Far-tier store. -/

/-- An Isobar sub-entry (R224). -/
structure SubEnt where
  lo : Nat
  hi : Nat
  trig : Bool
  gap : Bool
  off : Nat
  bytes : Nat
  records : Nat
  openTick : Nat
deriving DecidableEq, Repr

/-- An extent (R218, R219, R222, R231): its entry, its sub-entries (the last may be open), its run list, the bytes of the unit that is
filling and when its first byte came, the bytes already handed to the drive, and whether it is closing; the place of its run list in the
area of R231 (4096: none), the ring packet that lies partly in the extent before it, the packets appended while it is OPEN (R222), and
the spans whose writes have completed. -/
structure Ext where
  first : Nat := 0
  last : Nat := 0
  next : Nat := 0xFFFFFFFF
  used : Nat := 0
  session : Nat := 0
  die : Nat := 0
  pin : Bool := false
  overrun : Bool := false
  recovered : Bool := false
  remapped : Bool := false
  state : Nat := 0
  gen : Nat := 0
  subs : List SubEnt := []
  sub : Option SubEnt := none
  runs : List (Nat × Nat) := []
  buf : List Byte := []
  bufNs : Nat := 0
  issued : Nat := 0
  closing : Bool := false
  slot : Nat := 4096
  before : Option Nat := none
  pkts : List (StageIx × List Byte) := []
  oks : List (Nat × Nat) := []
deriving DecidableEq, Repr

/-- What an NVMe command does: a data unit, index block or metadata copy of an extent, a Flush over extents, a deallocation, a label,
an admin command, a Read of an extent for a query slot (8: a query that has been aborted), or the abort of a command. -/
inductive NvmeUse
  | data (ext lo hi : Nat) | index (ext : Nat) | meta_ (ext : Nat) | flush (ns : Nat) (exts : List Nat) | trim (ext : Nat)
  | label (ns : Nat) | admin | read (slot ext : Nat) | abort (cid : Nat)
deriving DecidableEq, Repr

/-- An NVMe command that has not ended (R212, R214), with its namespace identifier, its first LBA and the bytes it moves. -/
structure NvmeCmd where
  ctl : Nat
  cid : Nat
  nsid : Nat
  use : NvmeUse
  lba : Nat
  len : Nat
  data : List Byte
  startNs : Nat
  retried : Bool := false
  unsent : Bool := false
  abortNs : Option Nat := none
deriving DecidableEq, Repr

/-- What a controller holds beside its objects: the next command identifier, the times of its resets, of its last unknown
completion, the value of CSTS.RDY awaited (1 clear, 2 set), whether its drives have no volatile write cache, and whether its
link went down. -/
structure CtlAux where
  cid : Nat := 0
  resets : List Nat := []
  unknownNs : Option Nat := none
  phase : Nat := 0
  cacheless : Bool := false
  downed : Bool := false
deriving DecidableEq, Repr

/-- A stream (s, e), under key 2s + e (R220): its extents from oldest to newest, whether it is stalled, the TICK of the last record
of each port written, and the last ring packet that was promoted whole into it (R231). -/
structure Stream where
  chain : List Nat := []
  stalled : Bool := false
  written : SMap Nat := []
  lastSrc : Option Nat := none
deriving DecidableEq, Repr

/-- One thing a query has met (R236, R238): a record of a stream with its stored bytes, or a LOST extent's tick range. -/
inductive QItem
  | record (e : Nat) (r : Rec) (bytes : List Byte) | lost (e : Nat) (lo hi : Nat)
deriving DecidableEq, Repr

/-- A window that a counted match opens (R236). -/
structure QWin where
  e : Nat
  lo : Int
  hi : Nat
  source : Nat
deriving DecidableEq, Repr

/-- A query in progress: the streams still to scan, the extents of the first that the scan has reached or passed over, with their GEN, the
one that follows as the scan saw it on reaching its predecessor, the one being read with the bytes of it that are read and the spans left
out, and what the drive returned of it; what has been met and not yet decided on, matches passed over and counted, windows, LOST spans that
wait for their source's next result record, the last result record of each source, and the results still to write. -/
structure QueryAux where
  es : List Nat := []
  seen : List (Nat × Nat) := []
  next : Option (Nat × Nat) := none
  cur : Option (Nat × Nat) := none
  spans : List (Nat × Nat) := []
  got : Option (List Byte) := none
  items : List QItem := []
  skipped : Nat := 0
  counted : Nat := 0
  wins : List QWin := []
  lost : List (Nat × Nat × Nat) := []
  lastOf : SMap (Nat × Nat) := []
  out : List (List Byte) := []
deriving DecidableEq, Repr

/-- What the Storage and Query Engines hold beside their objects. Positions in `take` are those of the next stage packet of each die;
`held` those of packets drained and not yet released, with their extent and range; `relocs` names the extents whose writing has failed and
that wait for a FREE extent (R222). -/
structure StoreSt where
  cmds : List NvmeCmd := []
  ctls : SMap CtlAux := []
  lbas : SMap Nat := []
  exts : SMap Ext := []
  streams : SMap Stream := []
  robin : SMap Nat := []
  take : SMap Nat := []
  held : SMap (List (StageIx × Nat × Nat)) := []
  pins : List (Nat × Nat × Nat) := []
  toFree : List Nat := []
  remaps : List Nat := []
  relocs : List Nat := []
  peerNs : List Nat := []
  flushNs : Nat := 0
  stopFlush : Bool := false
  queries : SMap QueryAux := []
deriving DecidableEq, Repr

/-! Network, fabric, boot, dies, power, self-test and JTAG. -/

/-- A network interface (R322 to R324): its posted-error queue of 64 slots with HEAD and TAIL modulo 128, records queued and discarded,
and the tags whose requests have timed out and may still be answered. -/
structure NiAux where
  head : Nat := 0
  tail : Nat := 0
  slots : SMap (List Byte) := []
  queued : Nat := 0
  overflows : Nat := 0
  late : List Nat := []
deriving DecidableEq, Repr

/-- A RAM block's ports as last answered: data, ERR and the cycles READY stays low (R339 to R341). -/
structure RamOut where
  dataA : List Byte := []
  errA : Bool := false
  waitA : Nat := 0
  dataB : List Byte := []
  errB : Bool := false
  waitB : Nat := 0
deriving DecidableEq, Repr

/-- A sample that the dictionary service awaits of a user object: which, since when, and the reply and item it answers. -/
structure Sample where
  key : Nat
  ns : Nat
  reply : Nat
  item : Nat
  len : Nat := 0
deriving DecidableEq, Repr

/-- A multiply-accumulate block (R343): its three pipeline registers (operands; sum of the pre-adder and multiplier; product), the 58-bit
accumulator, OVF. -/
structure MacSt where
  a : Nat := 0
  pre : Nat := 0
  b : Nat := 0
  sum : Nat := 0
  mul : Nat := 0
  prod : Int := 0
  acc : Nat := 0
  ovf : Bool := false
deriving DecidableEq, Repr

/-- A user crossing port (R395, R396): words sampled and the time of each, the word it presents, XERR. -/
structure CrossSt where
  sent : List (Nat × Nat) := []
  word : Nat := 0
  xerr : Bool := false
deriving DecidableEq, Repr

/-- What the fabric holds beside its objects (flip-flops are listed where they differ from their initial value): the exported objects, the stream's PLLs, shadows (R349) acknowledged or not, samples awaited, when each
bank's supply left and re-entered its window, the last outputs of RAM blocks, the last user mark request of each die, and
whether a dictionary request of each die is outstanding. -/
structure FabSt where
  user : List UserObj := []
  plls : List FabPll := []
  values : SMap Val := []
  shadows : SMap Bool := []
  samples : List Sample := []
  bankOut : SMap Nat := []
  bankIn : SMap Nat := []
  rams : SMap RamOut := []
  markNs : SMap Nat := []
  busy : List Nat := []
  ffs : List Nat := []
  macs : SMap MacSt := []
  crossings : SMap CrossSt := []
deriving DecidableEq, Repr

/-- A section of the stream as written into frames (R374). -/
structure Section where
  address : Nat
  count : Nat
  kind : Nat
  frames : List (List Byte)
deriving DecidableEq, Repr

/-- Boot, the stream and what a load leaves (R366 to R384): PROGRAM_N held low, a trip's heat, the boot steps done, the attempt under way, the
start-up steps still to do, what start-up has released, DONE, the reset awaited after Config.Reconfigure, the recovery
monitor and its image, the fuses that are burning, and the device-level values that boot step 2 has sensed. -/
structure BootSt where
  pinLow : Bool := false
  fuses : Bool := false
  drawn : Bool := false
  firmware : Bool := false
  restored : Bool := false
  plls : Bool := false
  links : Bool := false
  hot : Bool := false
  trained : Bool := false
  fallback : Bool := false
  hdr : Option (List Byte) := none
  stored : List Byte := []
  plain : List Byte := []
  blocks : Nat := 0
  chainKey : List Byte := []
  chainIv : List Byte := []
  received : Nat := 0
  nextFrame : Nat := 0
  ended : Bool := false
  sections : List Section := []
  cfg : Option StreamCfg := none
  loadNs : Option Nat := none
  lastNs : Nat := 0
  credit : Nat := 65536
  loaded : Nat := 0
  steps : List Nat := []
  stepNs : Nat := 0
  pllWait : Nat := 10
  pllContinue : Bool := false
  outputs : Bool := false
  gsr : Bool := false
  writes : Bool := false
  done : Bool := false
  reconfNs : Option Nat := none
  monitor : Bool := false
  image : List Byte := []
  burning : List Staged := []
  burnNs : Nat := 0
  fused : List (Nat × Nat × List Byte) := []
deriving DecidableEq, Repr

/-- One direction of a Duaxis bundle (R396 to R400): counts, repair in effect, its state, XERR cycles raised, and the times of the
corrections of each wire. -/
structure Bundle where
  corrected : Nat := 0
  uncorrectable : Nat := 0
  replays : Nat := 0
  repair : Nat := 0
  state : Nat := 0
  xerr : Nat := 0
  times : List (Nat × Nat) := []
deriving DecidableEq, Repr

/-- What a die has gathered towards its averages and its weekly history (R424, R425). -/
structure DieAge where
  tempSum : Int := 0
  temps : Nat := 0
  reqSum : Nat := 0
  reqs : Nat := 0
  hottest : Int := -32768
  fails : Nat := 0
  weeks : List Nat := []
deriving DecidableEq, Repr

/-- A sensor's or die's threshold: consecutive samples at or above it, consecutive samples 3 degrees below it, and whether it is
asserted (R421). -/
structure Thresh where
  above : Nat := 0
  below : Nat := 0
  on : Bool := false
deriving DecidableEq, Repr

/-- A domain that is switching (R417): on or off, and since when; a domain waiting for its turn has none. -/
structure Switching where
  on : Bool
  since : Option Nat := none
deriving DecidableEq, Repr

/-- Power, thermal and ageing (R410 to R427): the regulator's silence, the pending AVS step's time, the power-fail warning, power above
and below the limit, THROTTLE from power and from temperature, thresholds under key 64·die + kind, a thermal trip and
THERM_TRIP_N, domains that are switching and the uses that wait for them, and what ages. -/
structure PowerSt where
  silent : Nat := 0
  noLower : Bool := false
  avsNs : Nat := 0
  warnNs : Option Nat := none
  overNs : SMap Nat := []
  underNs : SMap Nat := []
  powerThrottle : Nat := 0
  thresholds : SMap Thresh := []
  tripped : Bool := false
  tripPin : Bool := false
  switching : SMap Switching := []
  waiting : List (Nat × Nat × Val) := []
  ages : SMap DieAge := []
  history : List (List Byte) := []
deriving DecidableEq, Repr

/-- A self-test slice under way (R431 to R435): the state is 0 handshake, 1 running, 2 waiting for its repeat, 3 deferred. -/
structure Slice_ where
  unit : Nat
  inst : Nat
  slice : Nat
  state : Nat := 0
  repeat_ : Bool := false
  cond : Bool := false
  ns : Nat := 0
deriving DecidableEq, Repr

/-- Self-test (R433 to R437): slices under way, the next slice of each instance, results, FAIL times of each slice in powered
seconds, and a RunNow with the slices left. -/
structure TestSt where
  running : List Slice_ := []
  next : SMap Nat := []
  lastNs : SMap Nat := []
  results : List (List Byte) := []
  fails : SMap (List Nat) := []
  now : Option (Nat × Nat × Nat) := none
deriving DecidableEq, Repr

/-- What the Keep holds of the diagnostics and ageing areas (R281): wires marked SUSPECT under key edge·128 + direction·64 + bundle,
FAIL and PERMANENT entries, objects that the device itself keeps there, and what its dies have gathered. -/
structure DiagSt where
  suspect : SMap Nat := []
  entries : List (List Byte) := []
  vals : SMap Val := []
  ages : SMap DieAge := []
deriving DecidableEq, Repr

/-- JTAG (R438): the instruction, IDCODE at reset (PRESUMED, log entry 109), the boundary cells, whether the balls follow them or are at high
impedance, the DICT port, and the response it holds. -/
structure JtagSt where
  ir : Nat := 1
  cells : List Bool := []
  drive : Nat := 0
  outstanding : Bool := false
  ready : Bool := false
  response : List Byte := []
deriving DecidableEq, Repr

/-- PERST_N (R444): the Storage quads whose pin has been released, when their references came, and PERST_N[0] low on a Host. -/
structure PinSt where
  released : List Nat := []
  refNs : SMap Nat := []
  hostReset : Bool := false
deriving DecidableEq, Repr

/-- What the block sends on one of its interfaces. A `line` carries its fill from here to its next output, with alignment markers and FEC where
`fec` says so (R143). `train` says that from here to its next output a Native port sends TRAIN with these flags as every
32nd block of each lane, and IDLE between (R65); a `pdu` leaves with the next hop on its way (R74). -/
inductive Out
  | answer (origin status : Nat) (value : List Byte)
  | pdu (vane : Nat) (own : VaneAddr) (dest hop : List Byte) (bytes : List Byte) (cuts : List (Nat × Nat))
  | frame (vane : Nat) (own : VaneAddr) (kind : VaneKind)
  | msix (vector addr data : Nat)
  | window (ok unsupported : Bool) (data : List Byte)
  | unit (port lane : Nat) (tick : Nat) (bytes : List Byte)
  | line (port : Nat) (fill : Option (List Byte)) (fec : Bool)
  | train (port : Nat) (ready peerReady : Bool)
  | spapax (port : Nat) (frame : List Byte) (levels : List (List Nat))
  | parallel (quad lane width : Nat) (words : List (List Byte))
  | pulse (quad : Nat)
  | perst (quad : Nat) (low : Bool)
  | refuse (quad : Nat) (addr : Nat)
  | peer (slot tick : Nat)
  | nvme (ctl nsid : Nat) (op : Nat) (lba len : Nat) (data : List Byte)
  | dma (addr : Nat) (bytes : List Byte)
  | noc (ni : Nat) (ok : Bool) (data : List Byte)
  | ptp (vane domain : Nat) (m : PtpMsg)
  | fabric (die : Nat) (bytes : List Byte)
  | jtag (bits : List Bool)
deriving DecidableEq, Repr

/-- Everything the block holds but the queue of commands. `objs` lists the objects whose value is not their default;
`inForce` the RESET-class values in force (R251); `free` counts the open values drawn so far (the model's own field,
log entry 3); `sent` is what has left the block. -/
structure Dev where
  count : Nat := 0
  ns : Nat := 0
  free : Nat := 0
  objs : SMap Val := []
  inForce : SMap Val := []
  time : TimeSt := {}
  links : LinkSt := {}
  capture : CaptureSt := {}
  events : EventSt := {}
  tx : SMap TxCh := []
  mem : MemSt := {}
  dict : DictSt := {}
  keep : KeepSt := {}
  cores : SMap CoreAux := []
  clock : ClockSt := {}
  twin : TwinSt := {}
  store : StoreSt := {}
  nis : SMap NiAux := []
  fab : FabSt := {}
  boot : BootSt := {}
  bundles : SMap Bundle := []
  power : PowerSt := {}
  test : TestSt := {}
  diag : DiagSt := {}
  jtag : JtagSt := {}
  pins : PinSt := {}
  sent : List Out := []
deriving DecidableEq, Repr

/-- The state: the block and the commands that wait, first in, first out. -/
structure State where
  dev : Dev := {}
  pending : List Instr := []
deriving DecidableEq, Repr


/-- Every reason the machine can stop with a fault: there is none. No command of this block ends in a fault; what a command asks for and
the block does not do is answered, counted or dropped as the spec says, and the state after it is a next state. -/
inductive Fault
deriving DecidableEq, Repr

/-- Every reason for which a command has no meaning. -/
inductive Refusal
  /-- Raised by the dispatcher for a command that has not been given its meaning: safe, nothing can be proved of it. -/
  | notModelled (mnemonic : String)
deriving DecidableEq, Repr

/-- The block right after a device reset at power-on (R254, log entry 2): every object at its default, nothing held. -/
def State.reset : State := {}

end Sys2Proof.Machine
end

