-- ==== Sys2Proof/Machine/Flags.lean ====
section
/-! DEFINITION. Record flags (R80), the record's own bytes (R77, R78), and the fields of the words that commands and
objects carry. -/

set_option Elab.async false

namespace Sys2Proof.Machine

/-- Bit numbers of the record flags (R80). -/
def flagFcsErr : Nat := 0
def flagSymErr : Nat := 1
def flagTrunc : Nat := 2
def flagSettle : Nat := 3
def flagFolded : Nat := 4
def flagGap : Nat := 5
def flagTrig : Nat := 6
def flagMark : Nat := 7
def flagLinkDown : Nat := 8
def flagOversize : Nat := 9
def flagDecodeErr : Nat := 10

/-- A flag bit as a number, when it holds. -/
def flagIf (b : Bool) (i : Nat) : Nat := if b then 2 ^ i else 0

/-- Set a flag of a record. -/
def Rec.setFlag (r : Rec) (i : Nat) : Rec := { r with flags := Nat.lor r.flags (2 ^ i) }

/-- PAD of a record: it makes 32 + LENGTH + PAD a multiple of 8 (R77). -/
def Rec.pad (r : Rec) : Nat := (8 - r.payload.length % 8) % 8

/-- The bytes a record takes: 32 + LENGTH + PAD (R77). -/
def Rec.size (r : Rec) : Nat := 32 + r.payload.length + r.pad

/-- Bytes 0 to 27 of a record's header (R77). -/
def Rec.head (r : Rec) : List Byte :=
  leBytes 8 r.tick ++ leBytes 1 r.fine ++ leBytes 1 r.type ++ leBytes 2 r.source ++ leBytes 3 r.payload.length ++
  leBytes 1 r.pad ++ leBytes 4 r.flags ++ leBytes 4 r.seq ++ leBytes 2 r.session ++ leBytes 2 r.mtag

/-- The whole record as bytes: header with HCRC, payload, pad (R77, R78). -/
def Rec.bytes (r : Rec) : List Byte :=
  r.head ++ leBytes 4 (crc32c r.head) ++ r.payload ++ zeros r.pad

/-- The fields of a record that lies at the front of some bytes; the port is the one its SOURCE names. -/
def Rec.parse (l : List Byte) : Rec :=
  let src := fieldAt l 10 2
  { tick := fieldAt l 0 8, fine := fieldAt l 8 1, type := fieldAt l 9 1, source := src,
    flags := fieldAt l 16 4, seq := fieldAt l 20 4, session := fieldAt l 24 2, mtag := fieldAt l 26 2,
    payload := (l.drop 32).take (fieldAt l 12 3), port := 4 * bitsOf src 13 8 + bitsOf src 7 6 }

/-- The HCRC of the record at the front of some bytes holds (R78, R153). -/
def hcrcOk (l : List Byte) : Bool := crc32c (slice l 0 28) == fieldAt l 28 4

/-- A unit record: TYPE 0x01 to 0x07 (R82). -/
def Rec.isUnit (r : Rec) : Bool := 1 ≤ r.type && r.type ≤ 7

/-- A record the matchers never see: gap records made at a buffer, trigger and user marks, Logbook entries (R115). -/
def Rec.unmatched (r : Rec) : Bool :=
  r.type == 0x14 || r.type == 0x15 || r.type == 0x17 ||
  (r.type == 0x11 && (fieldAt r.payload 32 1 == 1 || fieldAt r.payload 32 1 == 4))

/-- A packet's bytes: the length word, then its records (R107). -/
def Packet.size (p : Packet) : Nat := 8 + sumBy Rec.size p.recs

/-- The packet length word (R107). -/
def Packet.word (p : Packet) : Nat :=
  p.session * 2 ^ 48 + p.recs.length % 2 ^ 16 * 2 ^ 32 + p.close % 16 * 2 ^ 28 + p.size

/-- The packet as bytes. -/
def Packet.bytes (p : Packet) : List Byte := leBytes 8 p.word ++ p.recs.flatMap Rec.bytes

/-- Truncate a unit's bytes to at most n stored bytes, with the trailer that gives the full length (R81, R92). -/
def truncateTo (n : Nat) (l : List Byte) : List Byte × Bool :=
  if l.length ≤ n then (l, false) else (l.take n ++ leBytes 4 l.length ++ zeros 4, true)

/-- Payload of a gap record (R98). -/
def gapPayload (first last bytes seq count reason : Nat) (bp : Bool) : List Byte :=
  leBytes 8 first ++ leBytes 8 last ++ leBytes 8 bytes ++ leBytes 4 seq ++ leBytes 4 count ++ leBytes 1 reason ++
  leBytes 1 (b2n bp) ++ zeros 6

/-- Payload of a fold record (R90). -/
def foldPayload (f : FoldRun) : List Byte :=
  leBytes 8 f.count ++ leBytes 8 f.endTick ++ leBytes 1 f.kind ++ leBytes 1 f.lane ++ zeros 6

/-- Payload of a settle record (R95). -/
def settlePayload (phase cause outcome mask lock : Nat) : List Byte :=
  leBytes 1 phase ++ leBytes 1 cause ++ leBytes 1 outcome ++ zeros 1 ++ leBytes 2 mask ++ zeros 2 ++ leBytes 8 lock

/-- Payload of a link event record (R96). -/
def linkPayload (lanes state reason downs : Nat) : List Byte :=
  leBytes 8 lanes ++ leBytes 1 state ++ leBytes 1 reason ++ zeros 2 ++ leBytes 4 downs

/-- Payload of a time-sync marker (R30). -/
def markerPayload (ref reason mode st : Nat) (off freq step : Int) : List Byte :=
  leBytes 8 ref ++ leBytes 1 reason ++ leBytes 1 (mode % 16 * 16 + st % 16) ++ zeros 2 ++
  leBytes 4 (unsigned 32 off) ++ leBytes 4 (unsigned 32 freq) ++ leBytes 8 (unsigned 64 step) ++ zeros 4

/-- Payload of a user mark (R128). -/
def userMarkPayload (value ev origin : Nat) : List Byte :=
  leBytes 8 value ++ leBytes 2 ev ++ leBytes 1 origin ++ zeros 5

/-- Fields of a route word (R118). -/
def routeEnable (w : Nat) : Bool := bitOf w 31
def routeKind (w : Nat) : Nat := bitsOf w 30 28
def routeDest (w : Nat) : Nat := bitsOf w 27 16
def routeEvent (w : Nat) : Nat := bitsOf w 10 0

/-- A route word that a commit may hold (R11, R118): bits [15:11] are zero, EVENT and DEST are in range, and ENABLE does not stand with
KIND 7 (log entry 92). -/
def routeOk (w : Nat) : Bool :=
  bitsOf w 15 11 == 0 && routeEvent w < 1536 && (match routeKind w with
    | 0 => decide (routeDest w < 128)
    | 1 => decide (routeDest w < 256)
    | 2 => decide (routeDest w < 2048)
    | 3 | 6 => decide (routeDest w < 3)
    | 4 => decide (routeDest w < 512)
    | 5 => decide (routeDest w < 16)
    | _ => !routeEnable w)

end Sys2Proof.Machine
end

