-- ==== Sys2Proof/Machine/Ops.lean ====
section
/-! DEFINITION. The shared operations: time, objects, open values, the Logbook, event occurrences and their
destinations, and records on their way to the ingest buffers. -/

set_option Elab.async false

namespace Sys2Proof.Machine

/-! Time. -/

/-- `dt` cycles of the time base pass: the count advances by exactly 4 ticks in each, modulo 2^64 (R13, R14). -/
def Dev.tick (d : Dev) (dt : Nat) : Dev :=
  { d with ns := d.ns + dt, count := (d.count + 4 * dt) % 2 ^ 64 }

/-- The count as it is, was or will be at a time in ns. -/
def Dev.tickAt (d : Dev) (ns : Nat) : Nat := (((d.count : Int) + 4 * ((ns : Int) - d.ns)) % 2 ^ 64).toNat

/-- An effect that happens only where its condition holds; elsewhere the event has not occurred (log entry 4). -/
def Dev.when (d : Dev) (c : Bool) (f : Dev → Dev) : Dev := if c then f d else d

/-! Objects. -/

/-- A value as a number. -/
def Val.int : Val → Int
  | .num n => n
  | .oct b => leNat b

/-- A value as a natural number. -/
def Val.nat (v : Val) : Nat := v.int.toNat

/-- A value as bytes. -/
def Val.bytes : Val → List Byte
  | .num _ => []
  | .oct b => b

/-- The value of an occurrence of an object. -/
def Dev.val (d : Dev) (o : ObjDef) (a : Nat := 0) (b : Nat := 0) (c : Nat := 0) : Val :=
  (SMap.find d.objs (o.key a b c)).getD (o.default a b c)

/-- As a natural number. -/
def Dev.nat (d : Dev) (o : ObjDef) (a : Nat := 0) (b : Nat := 0) (c : Nat := 0) : Nat := (d.val o a b c).nat

/-- As an integer. -/
def Dev.int (d : Dev) (o : ObjDef) (a : Nat := 0) (b : Nat := 0) (c : Nat := 0) : Int := (d.val o a b c).int

/-- As bytes. -/
def Dev.octs (d : Dev) (o : ObjDef) (a : Nat := 0) (b : Nat := 0) (c : Nat := 0) : List Byte :=
  (d.val o a b c).bytes

/-- Not zero. -/
def Dev.on (d : Dev) (o : ObjDef) (a : Nat := 0) (b : Nat := 0) (c : Nat := 0) : Bool := d.nat o a b c != 0

/-- Set the value of an occurrence; a value equal to the default is not listed. -/
def Dev.put (d : Dev) (o : ObjDef) (v : Val) (a : Nat := 0) (b : Nat := 0) (c : Nat := 0) : Dev :=
  { d with objs := SMap.setD d.objs (o.key a b c) (o.default a b c) v }

/-- Set a number. -/
def Dev.setNat (d : Dev) (o : ObjDef) (n : Nat) (a : Nat := 0) (b : Nat := 0) (c : Nat := 0) : Dev :=
  d.put o (.num n) a b c

/-- Set an integer. -/
def Dev.setInt (d : Dev) (o : ObjDef) (n : Int) (a : Nat := 0) (b : Nat := 0) (c : Nat := 0) : Dev :=
  d.put o (.num n) a b c

/-- Set bytes. -/
def Dev.setOct (d : Dev) (o : ObjDef) (l : List Byte) (a : Nat := 0) (b : Nat := 0) (c : Nat := 0) : Dev :=
  d.put o (.oct l) a b c

/-- The next open value (log entry 3). -/
def Dev.draw (d : Dev) : Nat := Config.freeNat d.free

/-- One open value has been used. -/
def Dev.drawn (d : Dev) : Dev := { d with free := d.free + 1 }

/-- Add to a counter. The spec does not say what a counter shows past its type's range: an open value (log entry 5). -/
def Dev.add (d : Dev) (o : ObjDef) (n : Nat) (a : Nat := 0) (b : Nat := 0) (c : Nat := 0) : Dev :=
  if ((d.nat o a b c + n : Nat) : Int) ≤ o.hi then d.setNat o (d.nat o a b c + n) a b c
  else (d.setNat o (d.draw % (o.hi.toNat + 1)) a b c).drawn

/-- Add one to a counter. -/
def Dev.inc (d : Dev) (o : ObjDef) (a : Nat := 0) (b : Nat := 0) (c : Nat := 0) : Dev := d.add o 1 a b c

/-- Raise a "highest since last read" object to at least n. -/
def Dev.peak (d : Dev) (o : ObjDef) (n : Nat) (a : Nat := 0) (b : Nat := 0) (c : Nat := 0) : Dev :=
  if d.nat o a b c < n then d.setNat o n a b c else d

/-- A commit's PERSIST and RESET-class values wait for the Keep as one group (R251, R254, R282). -/
def Dev.keepVals (d : Dev) (vals : SMap Val) : Dev :=
  if vals.isEmpty then d
  else
    let pages := (vals.map (fun e => Config.keepPage e.1 % 4096)).eraseDups
    { d with keep := { d.keep with groups := d.keep.groups ++ [{ vals := vals, pages := pages, ns := d.ns }] } }

/-- The device is in Integrity Halt (R206). -/
def Dev.halted (d : Dev) : Bool := d.on O.integrityHaltState

/-- Integrity Halt or a thermal trip has stopped lanes, memory and fabric clocks (R206, R422). -/
def Dev.stopped (d : Dev) : Bool := d.halted || d.power.tripped

/-- What leaves by the lanes, of the device's own ports or of a link on them. -/
def Out.onLanes : Out → Bool
  | .unit .. | .train .. | .spapax .. | .parallel .. | .pulse .. | .peer .. | .msix .. | .window .. | .dma .. | .nvme .. => true
  | .line _ fill _ => fill.isSome
  | _ => false

/-- Send on an interface. A stopped device keeps its lanes electrically idle (R206, R422). -/
def Dev.send (d : Dev) (o : Out) : Dev := if o.onLanes && d.stopped then d else { d with sent := d.sent ++ [o] }

/-- The device's side in a twin pair, as SOURCE bit 15 carries it (R78, R287). -/
def Dev.side (d : Dev) : Nat := d.nat O.twinSide

/-- Keep the newest n elements. -/
def newest {α : Type} (n : Nat) (l : List α) : List α := l.drop (l.length - n)

/-! Ports. -/

/-- What port i (4q + p) holds. -/
def Dev.port (d : Dev) (i : Nat) : PortAux := SMap.getD d.links.ports i {}

/-- Set what a port holds. -/
def Dev.setPort (d : Dev) (i : Nat) (p : PortAux) : Dev :=
  { d with links := { d.links with ports := SMap.setD d.links.ports i {} p } }

/-- Change what a port holds. -/
def Dev.updPort (d : Dev) (i : Nat) (f : PortAux → PortAux) : Dev := d.setPort i (f (d.port i))

/-- Ports of a quad for its layout (R34). -/
def layoutPorts (layout : Nat) : Nat :=
  match layout with
  | 0 => 4 | 1 => 2 | _ => 1

/-- Lanes per port (R34). -/
def layoutWidth (layout : Nat) : Nat :=
  match layout with
  | 0 => 1 | 1 => 2 | 2 => 4 | 3 => 8 | _ => 16

/-- Quads of a group (R34). -/
def layoutQuads (layout : Nat) : Nat :=
  match layout with
  | 3 => 2 | 4 => 4 | _ => 1

/-- The base quad of a quad's group: 2m or 4m (R34). -/
def layoutBase (layout q : Nat) : Nat := q - q % layoutQuads layout

/-- Base quad of the group of quad q. -/
def Dev.base (d : Dev) (q : Nat) : Nat := layoutBase (d.nat O.quadLayout q) q

/-- Port p exists on quad q: within its layout, and on the base quad of a group (R34, R76). -/
def Dev.hasPort (d : Dev) (q p : Nat) : Bool := p < layoutPorts (d.nat O.quadLayout q) && d.base q == q

/-- Lanes (numbered 0 to 143) of port p of quad q (R34). -/
def Dev.lanesOf (d : Dev) (q p : Nat) : List Nat :=
  let w := layoutWidth (d.nat O.quadLayout q)
  (upTo w).map (fun i => 4 * d.base q + p * w + i)

/-- The port, as 4q + p, that lane k of quad q belongs to. -/
def Dev.portOfLane (d : Dev) (q k : Nat) : Nat :=
  match d.nat O.quadLayout q with
  | 0 => 4 * q + k
  | 1 => 4 * q + k / 2
  | _ => 4 * d.base q

/-- The place of lane k of quad q within its port. -/
def Dev.laneWithin (d : Dev) (q k : Nat) : Nat :=
  (4 * q + k) - ((d.lanesOf (d.portOfLane q k / 4) (d.portOfLane q k % 4)).getD 0 0)

/-- I/O die of a quad: 0 ION, 1 IOS (R7). -/
def dieOf (q : Nat) : Nat := if q < 18 then 0 else 1

/-- Role of a quad (R33). -/
def Dev.role (d : Dev) (q : Nat) : Nat := d.nat O.quadRole q

/-- A power domain that the stream uses, which boot step 8 switches on (R416). -/
def Dev.domainUsed (d : Dev) (i : Nat) : Bool :=
  if i < 32 then bitOf (d.nat O.fabricQuadrantUsed) i
  else if i < 44 then (upTo 3).any (fun k => d.role (3 * (i - 32) + k) != 0)
  else if i < 52 then true
  else if i < 56 then bitOf (d.nat O.memDdrChannels) (2 * (i - 52)) || bitOf (d.nat O.memDdrChannels) (2 * (i - 52) + 1)
  else true

/-- The port is UP (R49). -/
def Dev.portUp (d : Dev) (q p : Nat) : Bool := d.nat O.portState q p == 2

/-- Every port of the device, as 4q + p, that exists in the layout. -/
def Dev.allPorts (d : Dev) : List Nat := (upTo 144).filter (fun i => d.hasPort (i / 4) (i % 4))

/-- The port makes records: its quad's role is Tap, or Pattern or Raw for link event records, and CapturePort.Enable
is 1 (R110, R454). -/
def Dev.capturing (d : Dev) (q p : Nat) : Bool :=
  d.hasPort q p && (d.role q == 1 || d.role q == 2 || d.role q == 6) && d.on O.capturePortEnable q p

/-- As `capturing`, and a Tap quad: the port makes records of every type (R110). -/
def Dev.tapping (d : Dev) (q p : Nat) : Bool := d.role q == 1 && d.capturing q p

/-- SOURCE of a port (R78, R79). -/
def Dev.source (d : Dev) (q p : Nat) : Nat :=
  2 ^ 15 * d.side + 2 ^ 14 * d.nat O.portDirection q p + 2 ^ 8 * q + 2 ^ 6 * p

/-! Engines. -/

/-- What engine e holds. -/
def Dev.eng (d : Dev) (e : Nat) : EngAux := SMap.getD d.capture.engines e {}

/-- Set what an engine holds. -/
def Dev.setEng (d : Dev) (e : Nat) (x : EngAux) : Dev :=
  { d with capture := { d.capture with engines := SMap.setD d.capture.engines e {} x } }

/-- The ingest buffer of a quad. -/
def Dev.ingest (d : Dev) (q : Nat) : Ingest := SMap.getD d.capture.ingest q {}

/-- Set the ingest buffer of a quad. -/
def Dev.setIngest (d : Dev) (q : Nat) (x : Ingest) : Dev :=
  { d with capture := { d.capture with ingest := SMap.setD d.capture.ingest q {} x } }

/-- The record FIFO of a quad. -/
def Dev.fifo (d : Dev) (q : Nat) : Fifo := SMap.getD d.capture.fifos q {}

/-- Set the record FIFO of a quad. -/
def Dev.setFifo (d : Dev) (q : Nat) (x : Fifo) : Dev :=
  { d with capture := { d.capture with fifos := SMap.setD d.capture.fifos q {} x } }

/-- Close the open packet of a FIFO with a CLOSE value, in the bank where it lies; an empty one makes no packet (R108). -/
def Fifo.closeCur (f : Fifo) (close ns : Nat) : Fifo :=
  match f.cur with
  | none => f
  | some p =>
    let f' := { f with cur := none, curDrains := false }
    let p' := { p with close := close, closeNs := ns }
    if p.recs.isEmpty then f'
    else if f.curDrains then { f' with draining := f.draining ++ [p'], drainUsed := f.drainUsed + p.size }
    else { f' with filling := f.filling ++ [p'] }

/-- Close the open packet of the stage of engine e with a CLOSE value (R168). -/
def Dev.closeStage (d : Dev) (e close : Nat) : Dev :=
  let x := d.eng e
  match x.stage with
  | none => d
  | some p =>
    d.setEng e { x with stage := none,
                        stageOut := x.stageOut ++ [{ p with pkt := { p.pkt with close := close, closeNs := d.ns } }] }

/-- A flush request to engine e takes effect: every open packet of its record FIFOs, of its link FIFO and of its stage
closes with CLOSE 1 (R108, R168). -/
def Dev.flushEngine (d : Dev) (e : Nat) : Dev :=
  let d := (upTo 18).foldl (fun d i => d.setFifo (18 * e + i) ((d.fifo (18 * e + i)).closeCur 1 d.ns)) d
  let x := d.eng e
  (d.setEng e { x with linkFifo := x.linkFifo.closeCur 1 d.ns }).closeStage e 1

/-! Records entering the hold for late flags. -/

/-- Place of a record among those of its source that carry equal TICK and FINE (R83, R125, R127). -/
def Rec.rank (r : Rec) : Nat :=
  match r.type with
  | 0x16 => 0
  | 0x12 => 1
  | 0x13 => 2
  | 0x11 => 3
  | 0x10 => 4
  | 0x15 => 6
  | 0x14 => 7 + fieldAt r.payload 22 1
  | _ => 5

/-- What a record is ordered by within its source: TICK and FINE; a trigger or user mark follows every record of its TICK (R127). -/
def Rec.stamp (r : Rec) : Nat := 256 * r.tick + (if r.type = 0x14 ∨ r.type = 0x15 then 255 else r.fine)

/-- One record stands before another of its source: by stamp, as readings of a count that wraps, then by kind (R14, R20, R83, R127). -/
def Rec.before (a b : Rec) : Bool :=
  let ahead := (b.stamp + 2 ^ 72 - a.stamp % 2 ^ 72) % 2 ^ 72
  if ahead = 0 then decide (a.rank < b.rank) else decide (ahead < 2 ^ 71)

/-- One record stands before another, where the count may have been stepped between them (R26). -/
def beforeIn (eraA : Nat) (a : Rec) (eraB : Nat) (b : Rec) : Bool := decide (eraA < eraB) || (eraA == eraB && a.before b)

/-- A record takes its place among those of its source that wait for their SEQ. TimeBase.LaneOffset moves the stamp of a unit and of nothing else: a
unit is held no longer for it, so that a marker or a unit of another lane that comes later can carry an equal or a lower stamp (DESIGN CHOICE,
log entry 110). It may leave settle marking in the next nanosecond, a unit's
record once its last symbol has come (R117). -/
def Dev.enterIn (d : Dev) (era q p : Nat) (r : Rec) : Dev :=
  let i := 4 * q + p
  let a := d.port i
  let last := (a.unitEnd + 3) / 4
  let x : Staging := { r := { r with source := d.source q p, port := i }, era := era,
                       due := if r.isUnit then max (d.ns + 1) last else d.ns + 1 }
  d.setPort i { a with stage := insertBy (fun (u v : Staging) => beforeIn u.era u.r v.era v.r) x a.stage }

/-- A record takes its place now. -/
def Dev.enter (d : Dev) (q p : Nat) (r : Rec) : Dev := d.enterIn d.time.era q p r

/-- A tick lies in a settle interval of a port: the open one, or an ended one (R80, R95). -/
def Dev.settleAt (d : Dev) (i tick : Nat) : Bool :=
  (match (d.port i).settle with
   | some s => decide (s.start ≤ tick) && (match s.endNs with
     | some e => decide (tick < d.tickAt e)
     | none => true)
   | none => false) ||
  (d.port i).settled.any (fun x => decide (x.1 ≤ tick ∧ tick < x.2))

/-- A record of a port leaves settle marking: it takes the next SEQ of its source and joins the held records, with the flags that depend
on its place (R80, R96, R97): SETTLE by its TICK, GAP after a gap record, FOLDED only right behind a fold record, LINK_DOWN where the port was DOWN since the previous record (log
entry 20). A span gap's FIRST_SEQ is its own SEQ (R98). Bit 31 of `flags` asks that SETTLE be left clear (R95 steps 5 and 6). -/
def Dev.place (d : Dev) (i : Nat) (r : Rec) : Rec × Dev :=
  let a := d.port i
  let fl := Nat.lor r.flags (Nat.lor (flagIf (a.downSeen || (a.upOwed && r.isUnit)) flagLinkDown)
    (Nat.lor (flagIf (d.settleAt i r.tick && r.flags.testBit 31 == false) flagSettle) (flagIf a.gapPrev flagGap)))
  let fl := if a.foldPrev then fl else Nat.land fl (2 ^ 11 - 1 - 2 ^ flagFolded)
  let r' : Rec := { r with seq := a.seq, flags := fl % 2 ^ 11,
                           payload := if r.type = 0x11 then r.payload.take 24 ++ leBytes 4 a.seq ++ r.payload.drop 28 else r.payload }
  let link := r.type == 0x12
  let up := link && fieldAt r.payload 8 1 == 2
  (r', d.setPort i { a with
    seq := (a.seq + 1) % 2 ^ 32, held := a.held ++ [r'], gapPrev := r.type == 0x11, foldPrev := r.type == 0x10, had := true,
    downSeen := if link then !up else a.downSeen && d.nat O.portState (i / 4) (i % 4) == 0,
    upOwed := up || (a.upOwed && !r.isUnit) })

/-- Insert a user mark record (R128). -/
def Dev.userMark (d : Dev) (q p tick value ev origin : Nat) : Dev :=
  d.enter q p { type := 0x15, tick := tick, session := d.nat O.capturePortSession q p,
                payload := userMarkPayload value ev origin }

/-- A capture mark at tick tM through mark set m (R128): MARK on the first unit record of each selected port with TICK
at or after tM, held already or still to come; a user mark record where Mark.Record is 1, or where fabric
logic asks for one (`record`, R347). A selected port without a
session lapses its mark at once (log entry 21). -/
def Dev.captureMark (d : Dev) (m tM value ev origin : Nat) (record : Bool := false) : Dev :=
  let ports := d.octs O.markPorts m
  (upTo 144).foldl (fun d i =>
    if !octBit ports i then d
    else if !d.tapping (i / 4) (i % 4) then d.inc O.markLapsed m
    else
      let a := d.port i
      let hit := fun (r : Rec) => r.isUnit && tM ≤ r.tick
      let d := if a.held.any hit then d.setPort i { a with held := updateFirst hit (fun r => r.setFlag flagMark) a.held }
        else if a.stage.any (fun x => hit x.r) then
          d.setPort i { a with stage := updateFirst (fun x => hit x.r) (fun x => { x with r := x.r.setFlag flagMark }) a.stage }
        else d.setPort i { a with marks := a.marks ++ [(m, tM)] }
      if record || d.on O.markRecord m then d.userMark (i / 4) (i % 4) tM value ev origin else d) d

/-- The pending marks of a port lapse (R128). -/
def Dev.lapseMarks (d : Dev) (i : Nat) : Dev :=
  let ms := (d.port i).marks
  ms.foldl (fun d e => d.inc O.markLapsed e.1) (d.updPort i (fun a => { a with marks := [] }))

/-! Spapax frames and the messages of a twin (R62, R297, R299). -/

/-- What Native port i (4q + p) holds. -/
def Dev.spx (d : Dev) (i : Nat) : SpxAux := SMap.getD d.links.spx i {}

/-- Set it. -/
def Dev.setSpx (d : Dev) (i : Nat) (x : SpxAux) : Dev :=
  { d with links := { d.links with spx := SMap.setD d.links.spx i {} x } }

/-- Quad.Spapax.Stage. -/
def Dev.stage (d : Dev) (q : Nat) : Nat := d.nat O.quadSpapaxStage q

/-- Queue a frame for sending. -/
def Dev.queueFrame (d : Dev) (i cls : Nat) (payload : List Byte) : Dev :=
  let x := d.spx i
  d.setSpx i { x with waiting := x.waiting ++ [{ cls := cls, payload := payload }] }

/-- The twin port: port 0 of Q34 (R35). -/
def twinPort : Nat := 136

/-- The device has a twin port: the group of Q34 and Q35 in layout 3 carries Native for a twin (R35, R287). -/
def Dev.hasTwin (d : Dev) : Bool := d.role 34 == 5 && d.nat O.quadSpapaxUse 34 == 0 && d.nat O.quadLayout 34 == 3

/-- The twin port is ACTIVE. -/
def Dev.twinActive (d : Dev) : Bool := d.hasTwin && d.stage 34 == 5

/-- Bytes in frames of at most 4,088, which is what a keyed frame carries (R202). -/
def framesOf : Nat → List Byte → List (List Byte)
  | 0, _ => []
  | k + 1, l => if l.length ≤ 4088 then [l] else l.take 4088 :: framesOf k (l.drop 4088)

/-- Send a mirror message of one kind: the header of R297 and its entries. One longer than a frame goes on in the next (log entry 57). -/
def Dev.mirror (d : Dev) (kind status count txn : Nat) (entries : List Byte) : Dev :=
  if d.twinActive then
    let n := d.twin.txMsg + 1
    let h := leBytes 1 kind ++ leBytes 1 status ++ leBytes 2 count ++ leBytes 4 n ++ leBytes 4 entries.length ++ leBytes 4 txn
    let l := h ++ entries
    (framesOf (l.length / 4088 + 1) l).foldl (fun d b => d.queueFrame twinPort 1 b) { d with twin := { d.twin with txMsg := n } }
  else d

/-- An entry of an event frame (R299). -/
def twinEntry (origin number kind input mult : Nat) : List Byte :=
  leBytes 8 origin ++ leBytes 2 number ++ leBytes 1 kind ++ leBytes 1 input ++ leBytes 1 mult ++ zeros 3

/-- This device owns Front n: its side is the one that Twin.FrontSide names; every Front until a peer is met, and again once it has taken over
(R296, R303 step 2, log entry 55). -/
def Dev.ownsFront (d : Dev) (n : Nat) : Bool :=
  d.twin.ownAll || b2n (bitOf (d.nat O.twinFrontSide) n) == d.side

/-- An occurrence reaches input i of Front n, here or, for a shadow Front, at its owner (R296, log entry 32). -/
def Dev.frontInput (d : Dev) (n i : Nat) (o : Occ) : Dev :=
  if d.ownsFront n then { d with events := { d.events with inputs := d.events.inputs ++ [{ n := n, i := i, occ := o, ns := d.ns }] } }
  else if d.twinActive then d.queueFrame twinPort 2 (twinEntry o.tick o.ev 1 (8 * n + i) o.mult)
  else d.inc O.twinPeerEventsLost

/-! Logbook (R276 to R280, R294). -/

/-- The 64 bytes of an entry (R277). -/
def LogEntry.bytes (e : LogEntry) : List Byte :=
  let b := leBytes 8 e.tick ++ leBytes 4 e.seq ++ leBytes 4 e.boot ++ leBytes 1 e.kind ++ leBytes 1 (e.origin % 16 + 64 * (e.keyId % 4)) ++
    leBytes 1 e.flags ++ leBytes 1 e.code ++ leBytes 4 e.txn ++ leBytes 2 e.index ++ leBytes 1 e.sub ++ leBytes 1 e.type ++
    fit 16 e.old ++ fit 16 e.new_
  b ++ leBytes 4 (crc32c b)

/-- While a pair mirrors (R302: JOINED, SUSPECT or SPLIT). -/
def Dev.paired (d : Dev) : Bool := 3 ≤ d.nat O.twinState && d.nat O.twinState ≤ 5

/-- Changes go to the peer: while a pair mirrors, and in a join once this side has sent what it held (R308). -/
def Dev.mirrors (d : Dev) : Bool := d.paired || (d.nat O.twinState == 2 && d.twin.sentEnd)

/-- Make an entry: it takes the next ENTRY_SEQ and the entry 65,536 before it is overwritten (R277); it waits for streaming
(R280) and is sent to the twin peer (R294). -/
def Dev.logEntry (d : Dev) (e : LogEntry) : Dev :=
  let e := { e with seq := d.dict.logSeq, boot := d.nat O.identityBootCount, flags := Nat.lor e.flags (if d.side = 1 then 8 else 0) }
  let on := d.nat O.logbookStreamSession < 256
  let q := if on then d.dict.toStream ++ [e] else []
  let d := { d with dict := { d.dict with
      log := newest 65536 (d.dict.log ++ [e]), logSeq := (d.dict.logSeq + 1) % 2 ^ 32,
      toStream := newest 65536 q, streamLost := d.dict.streamLost || decide (65536 < q.length) } }
  if d.mirrors then d.mirror 5 0 1 0 e.bytes else d

/-- An entry of origin 0x9 and KEY_ID 0 (R278). -/
def Dev.logNote (d : Dev) (kind code : Nat) (old new : List Byte) (index : Nat := 0) : Dev :=
  d.logEntry { tick := d.count, seq := 0, boot := 0, kind := kind, code := code, index := index, old := old, new_ := new }

/-! Event occurrences. -/

/-- Add an occurrence to a Vane notification slot (R136). -/
def Dev.report (d : Dev) (v : Nat) (o : Occ) : Dev :=
  let k := v * 2048 + o.ev
  let s := SMap.getD d.events.slots k {}
  let s' : Slot := { s with count := min (s.count + o.mult) (2 ^ 32 - 1), last := o.tick,
                            first := if s.count = 0 then o.tick else s.first }
  { d with events := { d.events with slots := SMap.setD d.events.slots k {} s' } }

/-- What a core holds. -/
def Dev.core (d : Dev) (c : Nat) : CoreAux := SMap.getD d.cores c {}

/-- Set what a core holds. -/
def Dev.setCore (d : Dev) (c : Nat) (x : CoreAux) : Dev := { d with cores := SMap.setD d.cores c {} x }

/-- Set a pending interrupt bit of a core (R331). -/
def Dev.raiseLine (d : Dev) (c line : Nat) : Dev :=
  d.setCore c { d.core c with ekip := Nat.lor (d.core c).ekip (2 ^ line) }

/-- The user marks that an event's pulse at a tick has made carry its multiplicity (R114, R128). -/
def Dev.remark (d : Dev) (ev tick value : Nat) : Dev :=
  let f := fun (r : Rec) =>
    if r.type == 0x15 && r.tick == tick && (r.payload.drop 8).take 3 == leBytes 2 ev ++ leBytes 1 9 then
      { r with payload := userMarkPayload value ev 9 } else r
  (upTo 144).foldl (fun d i => d.updPort i (fun a => { a with stage := a.stage.map (fun x => { x with r := f x.r }) })) d

/-- Occurrences of an event at a tick, in all or at a mark set. -/
def Dev.pulseOf (d : Dev) (ev : Nat) (set : Option Nat) (tick : Nat) : Nat :=
  sumBy (fun x => if x.ev = ev ∧ x.set = set ∧ x.tick = tick ∧ x.ns = d.ns then x.n else 0) d.events.pulses

/-- Count occurrences of an event at a tick. -/
def Dev.pulse (d : Dev) (ev : Nat) (set : Option Nat) (tick n : Nat) : Dev :=
  { d with events := { d.events with
    pulses := { ev := ev, set := set, tick := tick, ns := d.ns, n := n } :: d.events.pulses.filter (fun x => x.ns == d.ns) } }

/-- An occurrence reaches a mark set. The occurrences of one event in one nanosecond are one pulse, with their number as its
multiplicity (R114, R128, log entry 94). -/
def Dev.markPulse (d : Dev) (o : Occ) (m : Nat) : Dev :=
  let n := d.pulseOf o.ev (some m) o.tick
  let d := d.pulse o.ev (some m) o.tick o.mult
  if n = 0 then d.captureMark m o.tick o.mult o.ev 9 else d.remark o.ev o.tick (n + o.mult)

/-- Deliver an occurrence to the destination of one route (R118, R120, R128, R136 to R138). The answer lists the
threshold events that its counter raises. -/
def Dev.deliver (d : Dev) (o : Occ) (w : Nat) : Dev × List Nat :=
  let t := routeDest w
  match routeKind w with
  | 0 => (d.frontInput (t / 8) (t % 8) o, [])
  | 1 =>
    let v := d.nat O.counterValue (t / 128) 0 (t % 128)
    let v' := (v + o.mult) % 2 ^ 64
    let th := d.nat O.counterThreshold 0 0 t
    (d.setNat O.counterValue v' (t / 128) 0 (t % 128), if t < 16 && th != 0 && v < th && th ≤ v' then [1520 + t] else [])
  | 2 => ({ d with events := { d.events with msix := SMap.ins d.events.msix t 1 } }, [])
  | 3 => (if t = 2 then (d.report 0 o).report 1 o else d.report t o, [])
  | 4 => (d.raiseLine (t / 32) (t % 32), [])
  | 5 => (d.markPulse o t, [])
  | _ => (if t = 2 then (d.flushEngine 0).flushEngine 1 else d.flushEngine t, [])

/-- The words of the enabled routes of an event, by route number. -/
def Dev.routesOf (d : Dev) (ev : Nat) : List Nat :=
  (d.objs.filter (fun e => 0x506001 ≤ e.1 && e.1 < 0x508000)).filterMap (fun e =>
    if routeEnable e.2.nat && routeEvent e.2.nat == ev then some e.2.nat else none)

/-- An occurrence sets its bit of EventRouter.Latched and reaches every destination routed from it; a counter that
passes its threshold raises its own event in the same nanosecond (R119, R120). -/
def Dev.occurN : Nat → Dev → Occ → Dev
  | 0, d, _ => d
  | n + 1, d, o =>
    let d := d.setOct O.eventRouterLatched (octSet (d.octs O.eventRouterLatched) o.ev)
    (d.routesOf o.ev).foldl (fun d w =>
      let r := d.deliver o w
      r.2.foldl (fun d ev => Dev.occurN n d { ev := ev, tick := o.tick }) r.1) d

/-- The time in ns of a tick that lies at or before the present. -/
def Dev.nsAt (d : Dev) (tick : Nat) : Nat := d.ns - (d.count + 2 ^ 64 - tick % 2 ^ 64) % 2 ^ 64 / 4

/-- An event occurs: up to 15 occurrences in one nanosecond, those beyond carried into the next (R114). Seventeen levels are enough: each
threshold event passes a threshold of its own. -/
def Dev.occurAs (d : Dev) (o : Occ) : Dev :=
  let room := 15 - d.pulseOf o.ev none o.tick
  let d := d.pulse o.ev none o.tick (min o.mult room)
  let d := if o.mult ≤ room then d
    else { d with events := { d.events with carry := d.events.carry ++ [(d.nsAt o.tick + 1, { o with mult := o.mult - room, tick := (o.tick + 4) % 2 ^ 64 })] } }
  if room = 0 then d else Dev.occurN 17 d { o with mult := min o.mult room }

/-- An event occurs once, now. -/
def Dev.occur (d : Dev) (ev : Nat) : Dev := d.occurAs { ev := ev, tick := d.count }

/-- A corrected error of an instance: the bucket, and its overflow, whose entry takes the place of the oldest of 64 (R185, R186). -/
def Dev.corrected (d : Dev) (inst : Nat) : Dev :=
  let b := SMap.getD d.mem.buckets inst {}
  let since := min (b.since + 1) (2 ^ 32 - 1)
  if d.nat O.integrityLeakCapacity < b.level + 1 then
    let e := leBytes 8 d.count ++ leBytes 4 inst ++ leBytes 4 since
    let d := { d with mem := { d.mem with buckets := SMap.setD d.mem.buckets inst {} {}, overflowNo := (d.mem.overflowNo + 1) % 64,
                                          overflows := SMap.ins d.mem.overflows d.mem.overflowNo e } }
    (d.inc O.integrityOverflows).occur 1496
  else { d with mem := { d.mem with buckets := SMap.setD d.mem.buckets inst {} { level := b.level + 1, since := since } } }

/-- A corrected read of an SRAM instance is counted, and its bucket takes it (R182, R185). -/
def Dev.sramFixed (d : Dev) (inst : Nat) : Dev := (d.inc O.integritySramCorrected).corrected inst

/-- Instance number of a capture buffer, or with `fifo` of a record FIFO, of a quad, or of the link FIFO of die e under number 36 (R185). Which ordinals
they have is not in the spec: open values (log entry 38). -/
def captureInstance (e k : Nat) (fifo : Bool) : Nat := (8 + e) * 2 ^ 28 + 2 ^ 24 + Config.captureOrdinal e k fifo % 2 ^ 24

/-! Datagrams (R257, R258). -/

/-- The header of a PDU and its items, with a TICK; LENGTH counts a tag of the given size (R257, R264). -/
def Dev.pduBody (d : Dev) (kind status key reqId seq txn nItems : Nat) (items : List Byte) (tick tag : Nat) : List Byte :=
  [0x45, 0x44, 1] ++ leBytes 1 kind ++ leBytes 2 (40 + tag + items.length) ++ leBytes 1 key ++ zeros 1 ++
    leBytes 4 (d.nat O.identityBootCount) ++ leBytes 4 reqId ++ leBytes 8 seq ++ leBytes 4 txn ++ leBytes 2 nItems ++
    leBytes 1 status ++ zeros 1 ++ leBytes 8 tick ++ items

/-- A datagram of a Vane port: body and tag under a key slot of the port (R258). -/
def Dev.pdu (d : Dev) (v kind status key reqId seq txn nItems : Nat) (items : List Byte) (tick : Nat) : List Byte :=
  let body := d.pduBody kind status key reqId seq txn nItems items tick 32
  body ++ hmacSha256 (d.octs O.authKey v 0 key) body

/-- A destination is an IPv4 address, by itself or IPv4-mapped. -/
def destV4 (l : List Byte) : Bool := l.length == 4 || l.take 12 == zeros 10 ++ [0xFF, 0xFF]

/-- Offset and length of the fragments of a datagram of n bytes, none longer than `room` (a multiple of 8). -/
def cutsFrom (room : Nat) : Nat → Nat → Nat → List (Nat × Nat)
  | 0, _, _ => []
  | k + 1, off, n => if n ≤ off + room then [(off, n - off)] else (off, room) :: cutsFrom room k (off + room) n

/-- The fragments of a UDP datagram that fills 1,500-byte frames (R257): 20 bytes of IPv4 header, or 40 of IPv6 and 8 of its
fragment header (log entry 102). -/
def datagramCuts (v4 : Bool) (n : Nat) : List (Nat × Nat) :=
  if n ≤ (if v4 then 1480 else 1460) then [(0, n)] else cutsFrom (if v4 then 1480 else 1448) n 0 n

/-- The port has an IPv4 address; all zero disables IPv4 (R74). -/
def VaneAddr.v4On (a : VaneAddr) : Bool := a.ip4.any (fun b => b != 0)

/-- Two addresses agree in their first n bits. -/
def samePrefix (n : Nat) (a b : List Byte) : Bool :=
  beNat a / 2 ^ (8 * a.length - n) == beNat b / 2 ^ (8 * a.length - n)

/-- Where a packet goes next (R74): to its destination where the prefix holds it or it is link-local, an IPv4 one otherwise to the gateway. The spec
gives no next hop of another IPv6 destination: none is named (log entry 98). -/
def VaneAddr.hop (a : VaneAddr) (dest : List Byte) : List Byte :=
  if destV4 dest then
    let v4 := dest.drop (dest.length - 4)
    if samePrefix a.prefix4 a.ip4 v4 then v4 else a.gateway
  else if samePrefix 64 a.local_ dest || (a.ip6.any (fun b => b != 0) && samePrefix a.prefix6 a.ip6 dest) then dest
  else []

/-- A PDU leaves a Vane port in a UDP datagram, whose header is 8 bytes, in as many fragments as it needs (R257); over IPv4 only where the
port has an address (R74). -/
def Dev.sendPdu (d : Dev) (v : Nat) (own : VaneAddr) (dest l : List Byte) : Dev :=
  d.when (!destV4 dest || own.v4On) (fun d => d.send (.pdu v own dest (own.hop dest) l (datagramCuts (destV4 dest) (8 + l.length))))

/-- An item: its header, its value, and zeros up to a multiple of 4 (R259). -/
def itemBytes (op status index sub type off : Nat) (value : List Byte) : List Byte :=
  leBytes 1 op ++ leBytes 1 status ++ leBytes 2 index ++ leBytes 1 sub ++ leBytes 1 type ++ leBytes 2 value.length ++
  leBytes 4 off ++ value ++ zeros ((4 - value.length % 4) % 4)

/-! Matchers (R115 to R117). -/

/-- The 16-byte window of a payload at an offset, masked, equals the masked pattern; a payload too short fails. -/
def windowMatch (payload : List Byte) (off : Nat) (pattern mask : List Byte) : Bool :=
  off + 16 ≤ payload.length && octAnd (slice payload off 16) mask == octAnd pattern mask

/-- A record satisfies matcher k of quad q (R116). -/
def Dev.matches_ (d : Dev) (q k p : Nat) (r : Rec) : Bool :=
  let c := d.nat O.matcherControl q k
  let f := d.nat O.matcherFlags q k
  let m := d.nat O.matcherMatch q k
  let l := d.nat O.matcherLengths q k
  bitOf c 0 && bitOf c (4 + p) && bitOf (d.nat O.matcherTypeMask q k) r.type &&
  Nat.land r.flags (bitsOf f 26 16) == bitsOf f 10 0 && Nat.land r.mtag (bitsOf m 31 16) == bitsOf m 15 0 &&
  bitsOf l 14 0 ≤ r.payload.length && r.payload.length ≤ bitsOf l 30 16 &&
  (windowMatch r.payload (bitsOf c 31 16) (d.octs O.matcherPattern q k) (d.octs O.matcherMask q k))

/-- The matchers that see a port's records: those of every quad it spans (R115). -/
def Dev.matcherQuads (d : Dev) (q : Nat) : List Nat :=
  (upTo (layoutQuads (d.nat O.quadLayout q))).map (fun i => q + i)

/-- Every matcher that a record satisfies raises its event at the tick of its decision, with the record as its subject (R114, R117). -/
def Dev.runMatchers (d : Dev) (q p tick : Nat) (r : Rec) : Dev :=
  if r.unmatched then d
  else
    (d.matcherQuads q).foldl (fun d mq =>
      (upTo 32).foldl (fun d k =>
        if d.matches_ mq k p r then
          d.occurAs { ev := 32 * mq + k, tick := tick, subjects := [{ source := r.source, seq := r.seq, tick := r.tick }] }
        else d) d) d

/-- A record is made: it takes its place with the session and source of its port. A pending mark whose tick a unit's record reaches marks
it (R110, R128). -/
def Dev.emitIn (d : Dev) (era q p : Nat) (r : Rec) : Dev :=
  let a := d.port (4 * q + p)
  let mine := if r.isUnit then a.marks.filter (fun e => e.2 ≤ r.tick) else []
  let d := if mine.isEmpty then d
    else d.updPort (4 * q + p) (fun a => { a with marks := a.marks.filter (fun e => !decide (e.2 ≤ r.tick)) })
  d.enterIn era q p { r with session := d.nat O.capturePortSession q p, flags := Nat.lor r.flags (flagIf (!mine.isEmpty) flagMark) }

/-- A record is made now. -/
def Dev.emit (d : Dev) (q p : Nat) (r : Rec) : Dev := d.emitIn d.time.era q p r

/-- The era in which the gap record of engine e's quiesce stands: behind the marker of a step that fell into the quiesce (R26, log entry 93). -/
def Dev.quiescePlace (d : Dev) (e : Nat) : Nat :=
  if (d.eng e).quiesceEra < d.time.era then d.time.era - 1 else (d.eng e).quiesceEra

/-- Records that a port may still make with an earlier place: that of an open fold run, of an open raw batch, the gap records of an open
unobserved span and of the quiesce of its engine. -/
def Dev.pendingRecs (d : Dev) (i : Nat) : List (Nat × Rec) :=
  let a := d.port i
  let e := dieOf (i / 4)
  a.folds.map (fun f => (d.time.era, ({ type := 0x10, tick := f.tick, fine := f.fine } : Rec))) ++
  a.raws.map (fun b => (d.time.era, ({ type := 6, tick := b.tick, fine := b.fine } : Rec))) ++
  a.unobs.toList.map (fun t => (d.time.era, ({ type := 0x11, tick := t } : Rec))) ++
  (if d.tapping (i / 4) (i % 4) && d.nat O.captureEngineState e != 0 then
    [(d.quiescePlace e, ({ type := 0x11, tick := (d.eng e).quiesceTick } : Rec))] else [])

/-- A record that waits for its SEQ must wait longer: for its due time, or for a record that may come before it (R20, R83). -/
def Dev.mustStay (d : Dev) (i : Nat) (x : Staging) : Bool :=
  decide (d.ns < x.due) || (d.pendingRecs i).any (fun y => beforeIn y.1 y.2 x.era x.r)

/-- The records of a port that may leave settle marking do, in their order: each takes its SEQ and is seen by the matchers (R97, R115), no earlier
than the one before it. Records that are held longer are due in the nanosecond after the hold ends. -/
def Dev.releaseRecs (i : Nat) : Nat → Nat → Dev → Dev
  | 0, _, d => d
  | n + 1, from_, d =>
    match (d.port i).stage with
    | [] => d
    | x :: xs =>
      if d.mustStay i x then
        d.updPort i (fun a => { a with stage := a.stage.map (fun y => { y with due := if y.due ≤ d.ns then d.ns + 1 else y.due }) })
      else
        let due := max x.due from_
        let y := (d.updPort i (fun a => { a with stage := xs })).place i x.r
        Dev.releaseRecs i n due (y.2.runMatchers (i / 4) (i % 4) (d.tickAt due) y.1)

/-- The records of every port that may leave settle marking do. -/
def Dev.releaseAll (d : Dev) : Dev :=
  d.links.ports.foldl (fun d e => Dev.releaseRecs e.1 (d.port e.1).stage.length 0 d) d

/-- A time-sync marker of a port, generated at a tick, in an era (R19, R30). -/
def Dev.markerIn (d : Dev) (era q p reason ref : Nat) (step : Int) (tick : Nat) : Dev :=
  let pl := markerPayload ref reason (d.nat O.timeDisciplineMode) (d.nat O.timeDisciplineState)
    (d.int O.timeDisciplineOffset) (d.int O.timeDisciplineFreqCorr) step
  d.emitIn era q p { type := 0x16, tick := tick, payload := pl }

/-- In the present era. -/
def Dev.markerAt (d : Dev) (q p reason ref : Nat) (step : Int) (tick : Nat) : Dev := d.markerIn d.time.era q p reason ref step tick

/-- The marker of the last step of the count, ahead of what a port records after it (R26). -/
def Dev.stepMarker (d : Dev) (q p : Nat) : Dev :=
  (d.updPort (4 * q + p) (fun a => { a with stepEra := d.time.era })).markerIn (d.time.era - 2) q p 3 d.time.stepped.1 d.time.stepped.2 d.count

/-- A time-sync marker of a port, generated now. -/
def Dev.marker (d : Dev) (q p reason ref : Nat) (step : Int) : Dev := d.markerAt q p reason ref step d.count

/-- Every capturing port of a list of quads makes a marker. -/
def Dev.markers (d : Dev) (quads : Nat → Bool) (reason ref : Nat) (step : Int := 0) : Dev :=
  (upTo 144).foldl (fun d i =>
    if quads (i / 4) && d.tapping (i / 4) (i % 4) then d.marker (i / 4) (i % 4) reason ref step else d) d

/-- REF_TICK of a marker of REASON 0x01, 0x02 and 0x06: the last reference measurement (R30). -/
def Dev.refTick (d : Dev) : Nat := d.time.lastMeas.getD 0

end Sys2Proof.Machine
end

