-- ==== Sys2Proof/Machine/Cells.lean ====
section
/-! DEFINITION. User logic of the fabric: cells, carry chains, multiply-accumulate blocks, clock spines and user crossing ports (R4, R335 to R337,
R343, R395), run on the edges of the spine lines whose clock the device itself makes. -/

set_option Elab.async false

namespace Sys2Proof.Machine

/-- Fabric logic runs: start-up has released it, and nothing has stopped its clocks (R206, R382, R422). -/
def Dev.fabricRuns (d : Dev) : Bool := d.boot.writes && !d.stopped

/-- Width of a Raw lane's parallel data in bits: the smallest whose clock is at most 500 MHz, for a rate in kb/s (R42). -/
def parallelWidth (rate : Nat) : Nat := (([32, 64, 128, 256] : List Nat).find? (fun w => decide (rate ≤ 500000 * w))).getD 256

/-- Key of one direction of a bundle. -/
def bundleKey (edge dir b : Nat) : Nat := edge * 128 + dir * 64 + b

/-- The two dies of an edge (R386, R439). -/
def edgeDies (edge : Nat) : Nat × Nat :=
  if edge < 8 then (edge, if edge < 4 then 8 else 9)
  else if edge < 11 then (edge - 8, edge - 7)
  else if edge < 14 then (edge - 7, edge - 6)
  else (edge - 14, edge - 10)

/-- First user bundle of an edge between fabric dies (table "Duaxis edge budget"). -/
def firstUser (edge : Nat) : Nat := if edge < 14 then 12 else 14

/-! Places (R4, R6, R336). -/

/-- Region of a cell: 2,048 clusters of 16 cells. -/
def cellRegion (c : Nat) : Nat := c / 32768

/-- Index of the cluster at column u and row v (R336). -/
def clusterIndex (u v : Nat) : Nat := 64 * u + v

/-- The bit of a carry chain before a cell (R336): the cell before it in its cluster, or for cell 0 the last cell of the cluster one row further
north in its column; none at the region's edge. Rows are taken to be numbered from north to south, as Y is (DESIGN CHOICE, log entry 13). -/
def chainBefore (c : Nat) : Option Nat :=
  let i := c % 16
  let cluster := c / 16 % 2048
  let u := cluster / 64
  let v := cluster % 64
  if i != 0 then some (c - 1)
  else if v = 0 then none
  else some ((cellRegion c * 2048 + clusterIndex u (v - 1)) * 16 + 15)

/-- Quadrant of a region of a die (R6): regions are taken in the order 12Y + X (log entry 103). -/
def regionQuadrant (r : Nat) : Nat := (if 6 ≤ r % 12 then 1 else 0) + (if 72 ≤ r % 144 then 2 else 0)

/-- The bit of Fabric.QuadrantUsed of a region of the package. -/
def usedBit (region : Nat) : Nat := 4 * (region / 144) + regionQuadrant (region % 144)

/-- Quadrants that hold a configured cell, RAM block, multiply-accumulate block or spine load (R338). -/
def cfgHolds (c : StreamCfg) (n : Nat) : Bool :=
  c.cells.any (fun x => usedBit (cellRegion x.num) == n) || c.macs.any (fun x => usedBit (x.num / 48) == n) ||
  c.rams.any (fun x => usedBit (x.1 / 32) == n) || c.spines.any (fun x => usedBit x.region == n) ||
  c.crossings.any (fun x => usedBit x.src.1 == n || usedBit x.dst.1 == n)

/-- Fabric.QuadrantUsed: the quadrants that the stream marks USED, and any that holds something, which is not EMPTY (R338). -/
def cfgUsed (c : StreamCfg) : Nat := (upTo 32).foldl (fun w n => if cfgHolds c n then Nat.lor w (2 ^ n) else w) c.used

/-! Values on the wires. -/

/-- The configured cell of a number. -/
def cellOf (c : StreamCfg) (n : Nat) : Option CellCfg := c.cells.find? (fun x => x.num == n)

/-- What a flip-flop holds: its initial value, or the other one where it is listed. -/
def Dev.ffHeld (d : Dev) (x : CellCfg) : Bool := x.init != d.fab.ffs.contains x.num

/-- The quadrant of a region has power: what lies in one that is off is lost, and nothing is clocked there (R418, R419). -/
def Dev.regionOn (d : Dev) (region : Nat) : Bool := d.nat O.powerDomainState 0 0 (usedBit region) == 1

/-- A net is driven from a region without power. -/
def Dev.dark (d : Dev) (i : Net) : Bool :=
  match i with
  | .cell k | .carry k | .ff k => !d.regionOn (cellRegion k)
  | .acc m _ | .ovf m => !d.regionOn (m / 48)
  | _ => false

/-- A number for a net. -/
def Net.code (i : Net) : Nat :=
  match i with
  | .cell k => 8 * k
  | .carry k => 8 * k + 1
  | .ff k => 8 * k + 2
  | .acc m b => 8 * (64 * m + b) + 3
  | .ovf m => 8 * m + 4
  | _ => 5

/-- A multiply-accumulate block. -/
def Dev.mac (d : Dev) (m : Nat) : MacSt := SMap.getD d.fab.macs m {}

/-- A user crossing port. -/
def Dev.crossing (d : Dev) (x : Nat) : CrossSt := SMap.getD d.fab.crossings x {}

/-- What a wire carries. A table reads its entry of the index its inputs form, input 0 lowest. A bit of a carry chain adds its first two inputs
and the carry before it, which is 0 at the start of a chain. What a quadrant without power should drive is an open value. An asynchronous local reset holds its flip-flop at the initial value. The
fuel bounds the cells a path runs through; a path that runs longer is a loop of tables, and reads 0 (log entry 13). -/
def Dev.wire (d : Dev) (c : StreamCfg) (t : Nat) : Nat → Net → Bool
  | 0, _ => false
  | _, .const b => b
  | n + 1, .cell k =>
    if d.dark (.cell k) then Config.darkNet (Net.code (.cell k)) t else
    match cellOf c k with
    | none => false
    | some x =>
      let ins := x.ins.map (fun (i : Net) => d.wire c t n i)
      if x.carry then
        let cin := match chainBefore k with
          | some j => d.wire c t n (.carry j)
          | none => false
        (ins.getD 0 false).xor ((ins.getD 1 false).xor cin)
      else bitOf x.table (sumBy (fun (i : Nat) => if ins.getD i false then 2 ^ i else 0) (upTo 4))
  | n + 1, .carry k =>
    if d.dark (.carry k) then Config.darkNet (Net.code (.carry k)) t else
    match cellOf c k with
    | none => false
    | some x =>
      if x.carry then
        let a := d.wire c t n (x.ins.getD 0 (.const false))
        let b := d.wire c t n (x.ins.getD 1 (.const false))
        let cin := match chainBefore k with
          | some j => d.wire c t n (.carry j)
          | none => false
        (a && b) || (a && cin) || (b && cin)
      else false
  | n + 1, .ff k =>
    if d.dark (.ff k) then Config.darkNet (Net.code (.ff k)) t else
    match cellOf c k with
    | none => false
    | some x => if x.async && d.wire c t n x.reset then x.init else d.ffHeld x
  | _, .acc m b => if d.dark (.acc m b) then Config.darkNet (Net.code (.acc m b)) t else bitOf (d.mac m).acc b
  | _, .ovf m => if d.dark (.ovf m) then Config.darkNet (Net.code (.ovf m)) t else (d.mac m).ovf
  | _, .cross x b => bitOf (d.crossing x).word b
  | _, .xerr x => (d.crossing x).xerr
  | _, .outer k => Config.fabricNet k t

/-- Fuel that every path without a loop has enough of: each step goes through a table, a carry or a reset of a cell. -/
def wireDepth (c : StreamCfg) : Nat := 3 * c.cells.length + 2

/-- A wire's value at a nanosecond. -/
def Dev.net (d : Dev) (c : StreamCfg) (t : Nat) (i : Net) : Bool := d.wire c t (wireDepth c) i

/-- The number that wires spell, the first the lowest bit. -/
def Dev.nets (d : Dev) (c : StreamCfg) (t : Nat) (l : List Net) : Nat :=
  l.foldr (fun (i : Net) n => b2n (d.net c t i) + 2 * n) 0

/-! Clock edges (R335, R343, R395). -/

/-- What a flip-flop holds after an edge of its clock (R335). -/
def Dev.ffNext (d : Dev) (c : StreamCfg) (t : Nat) (x : CellCfg) : Bool :=
  if d.net c t x.reset then x.init
  else if d.net c t x.enable then d.net c t (x.direct.getD (.cell x.num))
  else d.ffHeld x

/-- A number of n bits read as two's complement, or unsigned. -/
def asSigned (n v : Nat) (signed : Bool) : Int := if signed && bitOf v (n - 1) then (v : Int) - 2 ^ n else v

/-- What a multiply-accumulate block holds after an edge of its clock (R343). The three registers are taken to hold the operands, the
pre-adder's sum with the multiplier, and the product; the accumulator adds to, subtracts from or loads over its own value, or that of the
cascade of the block north of it in its region (log entry 13). -/
def Dev.macNext (d : Dev) (c : StreamCfg) (t : Nat) (x : MacCfg) : MacSt :=
  let m := d.mac x.num
  let base := match x.north with
    | some k => if k / 48 = x.num / 48 then (d.mac k).acc else m.acc
    | none => m.acc
  let exact : Int := if d.net c t x.load then m.prod
    else if d.net c t x.sub then asSigned 58 base true - m.prod
    else asSigned 58 base true + m.prod
  { a := d.nets c t x.a % 2 ^ 27, pre := d.nets c t x.pre % 2 ^ 27, b := d.nets c t x.b % 2 ^ 24,
    sum := (m.a + m.pre) % 2 ^ 27, mul := m.b,
    prod := asSigned 27 m.sum x.signedA * asSigned 24 m.mul x.signedB,
    acc := (exact % 2 ^ 58).toNat,
    ovf := decide (exact < -(2 ^ 57) ∨ 2 ^ 57 ≤ exact) }

/-- Frequency of a source or PLL output in thousandths of a hertz, as numerator and denominator. -/
abbrev Freq := Nat × Nat

/-- Nominal frequency of the reference of a fabric PLL (R352, R355, Quad.RefClkSelect), from its Config word the oscillator's. A clock ball's
frequency is the board's. The fuel runs through lower-numbered PLLs. -/
def Dev.refFreq (d : Dev) (f : Nat) : Nat → FabRef → Option Freq
  | _, .sys => match d.nat O.clockSysRefInUse with
    | 0 => some (1000000 * ((SMap.find d.inForce (O.clockXaFreq.key 0 0 0)).getD (.num 25000)).nat, 1)
    | 1 => some (1000000 * ((SMap.find d.inForce (O.clockXbFreq.key 0 0 0)).getD (.num 25000)).nat, 1)
    | _ => some (200000000000, 1)
  | _, .quad q => some (([100000000000, 156250000000, 161132812500, 312500000000] : List Nat).getD (d.nat O.quadRefClkSelect q) 0, 1)
  | _, .ball _ => none
  | 0, .pll _ => none
  | n + 1, .pll k =>
    match d.fab.plls.find? (fun (p : FabPll) => p.die.val == f && p.pll == k) with
    | none => none
    | some p => (d.refFreq f n p.ref).map (fun (r : Freq) =>
        (r.1 * (bitsOf p.config 23 16 * 2 ^ 24 + bitsOf p.config 47 24), r.2 * 2 ^ 24 * max 2 ((p.outs.getD 0 (2, 0)).1)))

/-- Frequency of an output of a fabric PLL (R355), while it is enabled and has locked once. -/
def Dev.pllFreq (d : Dev) (f : Nat) (k : Fin 16) (out : Nat) : Option Freq :=
  match d.fab.plls.find? (fun (p : FabPll) => p.die.val == f && p.pll == k) with
  | none => none
  | some p =>
    if d.on O.clockFabPllEnable f 0 k && 2 ≤ d.nat O.clockFabPllStatus f 0 k then
      (d.refFreq f 16 p.ref).map (fun (r : Freq) =>
        (r.1 * (bitsOf p.config 23 16 * 2 ^ 24 + bitsOf p.config 47 24), r.2 * 2 ^ 24 * max 2 ((p.outs.getD out (2, 0)).1)))
    else none

/-- Frequency of a spine line whose clock has a rate the model knows: an output of a fabric PLL, or the parallel clock of a Raw quad (R42). -/
def Dev.lineFreq (d : Dev) (s : Spine) : Option Freq :=
  match s.src with
  | .pll k out => d.pllFreq (s.region.val / 144) k out
  | .quad q =>
    let rate := d.nat O.portLaneRate q
    if d.role q = 6 then some (1000000 * rate, parallelWidth rate) else none
  | .io _ => none

/-- Edges of a clock up to a nanosecond; the phase is taken to be 0 at reset. -/
def edgesBy (f : Freq) (ns : Nat) : Nat := ns * f.1 / (f.2 * 1000000000000)

/-- A number for the clock of a spine line. -/
def Spine.code (s : Spine) : Nat :=
  match s.src with
  | .pll k out => 3 * (64 * (s.region.val / 144) + 4 * k.val + out.val)
  | .quad q => 3 * q.val + 1
  | .io i => 3 * (24 * (s.region.val / 144) + i.val) + 2

/-- The clock of a spine line runs at a rate that the model is not told (R337): that of a PLL whose reference is a clock ball, the recovered clock
of a quad that is not Raw, a clock of a general-purpose I/O. Its edges are open values (log entry 13). -/
def Dev.outerClock (d : Dev) (s : Spine) : Bool :=
  match s.src with
  | .pll k _ => d.on O.clockFabPllEnable (s.region.val / 144) 0 k && 2 ≤ d.nat O.clockFabPllStatus (s.region.val / 144) 0 k
  | .quad q => d.role q != 0 && d.nat O.powerDomainState 0 0 (32 + q / 3) == 1
  | .io _ => true

/-- The spine line of a region that has power. -/
def Dev.lineAt (d : Dev) (c : StreamCfg) (region line : Nat) : Option Spine :=
  if d.regionOn region then c.spines.find? (fun s => s.region.val == region && s.line.val == line) else none

/-- A spine line has an edge in the nanosecond that ends at `ns`. -/
def Dev.spineEdge (d : Dev) (s : Spine) (ns : Nat) : Bool :=
  match d.lineFreq s with
  | some f => edgesBy f (ns - 1) != edgesBy f ns
  | none => d.outerClock s && Config.clockEdge (Spine.code s) ns

/-- A line has an edge in the nanosecond that ends at `ns`. -/
def Dev.lineEdge (d : Dev) (c : StreamCfg) (region line ns : Nat) : Bool :=
  match d.lineAt c region line with
  | some s => d.spineEdge s ns
  | none => false

/-- Some periods of a line's clock have passed since an instant: by its rate, or, where that is not known, by the edges since. -/
def Dev.periodsSince (d : Dev) (s : Spine) (periods from_ ns : Nat) : Bool :=
  match d.lineFreq s with
  | some f => decide (periods * f.2 * 1000000000000 ≤ (ns - from_) * f.1)
  | none => decide (periods ≤ ((upTo (ns - from_)).filter (fun i => d.spineEdge s (from_ + i))).length)

/-- Two lines are related (R395): both are outputs of fabric PLLs that have the same reference and the same configuration. -/
def Dev.related (d : Dev) (c : StreamCfg) (x : CrossCfg) : Bool :=
  let pllOf := fun (e : Fin 1152 × Fin 16) => match c.spines.find? (fun s => s.region == e.1 && s.line == e.2) with
    | some s => (match s.src with
      | .pll k _ => d.fab.plls.find? (fun (p : FabPll) => p.die.val == e.1.val / 144 && p.pll == k)
      | _ => none)
    | none => none
  match pllOf x.src, pllOf x.dst with
  | some p, some q => p.ref == q.ref && p.config == q.config && p.outs == q.outs
  | _, _ => false

/-- Both ends of a port lie on the two dies of its edge, in the order of its direction, and its bundle is one for users (R392, R395). -/
def crossPlaced (x : CrossCfg) : Bool :=
  let e := edgeDies x.edge
  let ends := if x.dir = 0 then e else (e.2, e.1)
  8 ≤ x.edge && x.edge < 18 && firstUser x.edge ≤ x.bundle && x.src.1.val / 144 == ends.1 && x.dst.1.val / 144 == ends.2

/-- A destination edge (R393, R395): the port presents the newest word sampled at least 12 ns and one period of its clock before; between
unrelated clocks a period more may pass. A word whose frame was uncorrectable is not presented: XERR is high instead (R396). -/
def Dev.crossEdge (d : Dev) (c : StreamCfg) (n : Nat) (x : CrossCfg) (ns : Nat) (l : Spine) : CrossSt :=
  let s := d.crossing n
  let due := fun (e : Nat × Nat) =>
    let periods := if !d.related c x && Config.crossSlip n e.1 then 2 else 1
    decide (e.1 + 12 ≤ ns) && d.periodsSince l periods (e.1 + 12) ns
  match (s.sent.filter due).getLast? with
  | none => s
  | some e =>
    let rest := s.sent.filter (fun y => decide (e.1 ≤ y.1))
    if e.2 < 2 ^ 64 then { sent := rest, word := e.2, xerr := false } else { s with sent := rest, xerr := true }

/-- What a user crossing port holds after a nanosecond: at an edge of its source clock it samples its 64 signals. -/
def Dev.crossNext (d : Dev) (c : StreamCfg) (n : Nat) (x : CrossCfg) (ns : Nat) : CrossSt :=
  let s := match d.lineAt c x.dst.1 x.dst.2 with
    | some l => if d.spineEdge l ns then d.crossEdge c n x ns l else d.crossing n
    | none => d.crossing n
  if crossPlaced x && d.lineEdge c x.src.1 x.src.2 ns then { s with sent := s.sent ++ [(ns, d.nets c ns (x.nets.take 64))] } else s

/-- The edges of one nanosecond: every load takes what the wires carried before it. Asynchronous resets that are on keep their flip-flops. -/
def Dev.fabricNs (d : Dev) (c : StreamCfg) (ns : Nat) : Dev :=
  let ffs := (c.cells.filter (fun x => (if d.lineEdge c (cellRegion x.num) x.line ns then d.ffNext c ns x else d.ffHeld x) != x.init)).map (fun x => x.num)
  let macs := c.macs.foldl (fun m x =>
    if d.lineEdge c (x.num / 48) x.line ns then SMap.setD m x.num {} (d.macNext c ns x) else m) d.fab.macs
  let crossings := (upTo c.crossings.length).foldl (fun m i =>
    match c.crossings[i]? with
    | some x => SMap.setD m i {} (d.crossNext c i x ns)
    | none => m) d.fab.crossings
  let d : Dev := { d with fab := { d.fab with ffs := ffs, macs := macs, crossings := crossings } }
  let kept := (c.cells.filter (fun x => d.fab.ffs.contains x.num && !(x.async && d.net c ns x.reset))).map (fun x => x.num)
  { d with fab := { d.fab with ffs := kept } }

/-- Fabric logic runs on through the nanoseconds that pass, from WRITES and GSR on (R382). -/
def Dev.fabricPass (d : Dev) (start dt : Nat) : Dev :=
  match d.boot.cfg with
  | none => d
  | some c =>
    if d.fabricRuns && d.boot.gsr && !(c.cells.isEmpty && c.macs.isEmpty && c.crossings.isEmpty) then
      (upTo dt).foldl (fun (d : Dev) i => d.fabricNs c (start + i + 1)) d
    else d

/-- Global set/reset: every flip-flop holds its initial value (R335, R382); multiply-accumulate blocks hold zero (log entry 13). -/
def Dev.setReset (d : Dev) : Dev := { d with fab := { d.fab with ffs := [], macs := [], crossings := [] } }

/-- A quadrant loses what its cells and blocks hold (R338). -/
def Dev.logicLost (d : Dev) (n : Nat) : Dev :=
  { d with fab := { d.fab with ffs := d.fab.ffs.filter (fun x => usedBit (cellRegion x) != n),
                               macs := d.fab.macs.filter (fun e => usedBit (e.1 / 48) != n) } }

/-- State of a direction of a bundle: 3 FAILED. -/
def Dev.bundleFailed (d : Dev) (edge dir b : Nat) : Bool := (SMap.getD d.bundles (bundleKey edge dir b) {}).state == 3

/-- A crossing port of the stream lies on the bundle (R394). -/
def portOn (c : StreamCfg) (edge dir b : Nat) : Bool := c.crossings.any (fun x => x.edge == edge && x.dir.val == dir && x.bundle == b)

/-- Failed user bundles of a link that carry ports of the stream, in order (R394, R399). -/
def Dev.failedInUse (d : Dev) (c : StreamCfg) (edge dir : Nat) : List Nat :=
  (upTo 64).filter (fun i => decide (firstUser edge ≤ i) && d.bundleFailed edge dir i && portOn c edge dir i)

/-- The bundle that carries the ports of a user bundle (R394): itself, or where it has failed one of the two spares, which are the
highest-numbered working user bundles of the link. -/
def Dev.carrier (d : Dev) (c : StreamCfg) (edge dir b : Nat) : Nat :=
  if d.bundleFailed edge dir b then
    let spares := newest 2 ((upTo 64).filter (fun i => decide (firstUser edge ≤ i) && !d.bundleFailed edge dir i))
    (spares.reverse).getD (((d.failedInUse c edge dir).takeWhile (fun i => i != b)).length) b
  else b

/-- A frame of a user bundle is lost (R396): words sampled in its 8 ns are not delivered. -/
def Dev.crossError (d : Dev) (edge dir b : Nat) : Dev :=
  match d.boot.cfg with
  | none => d
  | some c =>
    let m := (upTo c.crossings.length).foldl (fun m i =>
      match c.crossings[i]? with
      | some x =>
        let s : CrossSt := SMap.getD m i {}
        if x.edge == edge && x.dir.val == dir && d.carrier c edge dir x.bundle == b then
          SMap.setD m i {} { s with sent := s.sent.map (fun e => if d.ns < e.1 + 8 then (e.1, 2 ^ 64) else e) }
        else m
      | none => m) d.fab.crossings
    { d with fab := { d.fab with crossings := m } }

end Sys2Proof.Machine
end

