-- ==== Sys2Proof/Machine/Triggers.lean ====
section
/-! DEFINITION. Triggers, retention windows and the actions of Fronts (R121 to R134), and what the passing of time brings about: the end of
a nanosecond and the records that leave settle marking. -/

set_option Elab.async false

namespace Sys2Proof.Machine

/-! Sessions and windows (R131, R132). -/

/-- The retention of a session. -/
def Dev.win (d : Dev) (s : Nat) : Win := SMap.getD d.events.wins s {}

/-- Set it. -/
def Dev.setWin (d : Dev) (s : Nat) (w : Win) : Dev :=
  { d with events := { d.events with wins := SMap.setD d.events.wins s {} w } }

/-- Ports that capture into a session. -/
def Dev.sessionPorts (d : Dev) (s : Nat) : List Nat :=
  (upTo 144).filter (fun i => d.tapping (i / 4) (i % 4) && d.nat O.capturePortSession (i / 4) (i % 4) == s)

/-- A port has had a record in the ring with TICK at or after a tick. -/
def Dev.ringPast (d : Dev) (i tick : Nat) : Bool :=
  let x := d.eng (dieOf (i / 4))
  x.pkts.any (fun p => p.ix.any (fun r => r.port == i && decide (tick ≤ r.tick))) ||
  (match SMap.find x.overw i with
   | some t => decide (tick ≤ t)
   | none => false)

/-- The window of a session closes (R132 step 7): its end is E, its records in the ring may still be copied, and a stage
packet of the session closes (R168). -/
def Dev.closeWindow (d : Dev) (s : Nat) : Dev :=
  let w := d.win s
  let sp : Span := { lo := d.nat O.retentionWindowStart s, hi := d.nat O.retentionWindowEnd s,
                     cut0 := (d.eng 0).ackAbs, cut1 := (d.eng 1).ackAbs }
  let d := d.setWin s { w with lastEnd := sp.hi, spans := w.spans ++ [sp] }
  let d := (d.setNat O.retentionState 0 s).inc O.retentionWindows s
  [0, 1].foldl (fun d e => match (d.eng e).stage with
    | some p => if p.pkt.session = s then d.closeStage e 1 else d
    | none => d) d

/-- Step 7 of the table "Retention timing", when its condition holds. -/
def Dev.tryClose (d : Dev) (s : Nat) : Dev :=
  let hi := d.nat O.retentionWindowEnd s
  d.when (d.nat O.retentionState s == 2 &&
      ((d.sessionPorts s).all (fun i => d.ringPast i hi) || hi + 4000 * d.nat O.retentionCloseLimit s ≤ d.count))
    (fun d => d.closeWindow s)

/-- The oldest TICK of a port's records in the ring. -/
def Dev.ringOldest (d : Dev) (i : Nat) : Option Nat :=
  (d.eng (dieOf (i / 4))).pkts.findSome? (fun p => (p.ix.find? (fun r => r.port == i)).map (fun r => r.tick))

/-- Each source that the ring has overwritten records of, and whose oldest record still there is younger than the window's start, is
treated as overrun (R133, log entry 33). -/
def Dev.startOverrun (d : Dev) (s start : Nat) : Dev :=
  (d.sessionPorts s).foldl (fun d i =>
    let e := dieOf (i / 4)
    let gone := (SMap.find (d.eng e).overw i).isSome && (match d.ringOldest i with
      | some t => decide (start < t)
      | none => true)
    if gone then
      let w := d.win s
      ((d.setWin s { w with broken := if w.broken.contains i then w.broken else w.broken ++ [i] }).inc O.promoterOverruns e).occur (1510 + e)
    else d) d

/-- Steps 1 and 2: a trigger with no window open. The answer says whether it is suppressed. A trigger before E is
suppressed; the Holdoff is that of the last window, before the first the one in force (log entry 33). -/
def Dev.openWindow (d : Dev) (s tT : Nat) : Bool × Dev :=
  let w := d.win s
  let hold := if w.opened then w.holdoff else d.nat O.retentionHoldoff s
  if tT < w.lastEnd + 4 * hold then (true, d.inc O.retentionSuppressed s)
  else
    let pre := d.nat O.retentionPre s
    let start := max (tT - 4 * pre) w.lastEnd
    let d := d.setWin s { w with opened := true, trigNs := some d.ns, pre := pre, maxSpan := d.nat O.retentionMaxSpan s, holdoff := d.nat O.retentionHoldoff s }
    let d := (d.setNat O.retentionWindowStart start s).setNat O.retentionWindowEnd ((tT + 4 * d.nat O.retentionPost s) % 2 ^ 64) s
    (false, (d.setNat O.retentionState 1 s).startOverrun s start)

/-- The retention rules of a trigger (R132): whether it is suppressed, whether it extends. Triggers of one nanosecond open or extend one
window (R125). A trigger at or after the end of a window that has not closed closes it at once: step 4 has the bound of step 1, which the
condition of step 7 need not keep (log entry 33). -/
def Dev.retain (d : Dev) (s tT : Nat) : Bool × Bool × Dev :=
  if d.nat O.retentionMode s != 1 then (false, false, d)
  else if d.nat O.retentionState s = 0 then
    let r := d.openWindow s tT
    (r.1, false, r.2)
  else if tT < d.nat O.retentionWindowEnd s || (d.win s).trigNs == some d.ns then
    let w := d.win s
    let d := d.setWin s { w with trigNs := some d.ns }
    let hi := min (tT + 4 * d.nat O.retentionPost s) (d.nat O.retentionWindowStart s + 4 * w.maxSpan)
    let d := d.setNat O.retentionWindowEnd (hi % 2 ^ 64) s
    (false, true, if d.count < hi then d.setNat O.retentionState 1 s else d)
  else
    let r := (d.closeWindow s).openWindow s tT
    (r.1, false, r.2)

/-! Triggers (R125 to R127). -/

/-- What a trigger mark says beside its session's part. -/
structure TrigInfo where
  tT : Nat
  ev : Nat := 0xFFFF
  remote : Bool := false
  subj : Option Subject := none
  front : Nat := 0xFF
  state : Nat := 0
  branch : Nat := 0
deriving DecidableEq, Repr

/-- Payload of a trigger mark (R127). -/
def trigPayload (t : TrigInfo) (number : Nat) (suppressed extended : Bool) : List Byte :=
  let sj := t.subj.getD { source := 0, seq := 0, tick := 0 }
  leBytes 8 t.tT ++ leBytes 8 sj.tick ++ leBytes 4 sj.seq ++ leBytes 2 sj.source ++ leBytes 1 t.front ++
  leBytes 1 (16 * t.state + t.branch) ++
  leBytes 1 (b2n t.remote + 2 * b2n t.subj.isSome + 4 * b2n extended + 8 * b2n suppressed) ++ zeros 1 ++
  leBytes 2 t.ev ++ leBytes 4 number

/-- A trigger of a session: the retention rules, the count, and one trigger mark in every port that captures into it. NUMBER counts the
session's triggers since reset, whatever reads have cleared (R127, log entry 23). The mark's TICK is that of the branch or the commit. -/
def Dev.trigger (d : Dev) (s tick : Nat) (t : TrigInfo) : Dev :=
  let r := d.retain s t.tT
  let d := r.2.2.inc O.retentionTriggers s
  let w := d.win s
  let d := d.setWin s { w with triggers := w.triggers + 1 }
  let pl := trigPayload t (w.triggers + 1) r.1 r.2.1
  (d.sessionPorts s).foldl (fun d i =>
    d.enter (i / 4) (i % 4) { type := 0x14, tick := tick, session := s, payload := pl }) d

/-- A committed Retention.Trigger: tT is the commit tick (R125). -/
def Dev.commitTrigger (d : Dev) (s tc : Nat) : Dev := d.trigger s tc { tT := tc }

/-- TRIG on a subject whose record is still held for late flags (R126). -/
def Dev.trigSubject (d : Dev) (sj : Subject) : Dev :=
  d.updPort (4 * bitsOf sj.source 13 8 + bitsOf sj.source 7 6) (fun a =>
    { a with held := updateFirst (fun r => r.source == sj.source && r.seq == sj.seq) (fun r => r.setFlag flagTrig) a.held })

/-- Retention.Mode changes: mode ALL copies every record of the session, those in the ring too; what it has not copied when it ends, of
earlier ticks or in the ring by then, is still copied (R131, log entry 33). -/
def Dev.retModeChanged (d : Dev) (s mode : Nat) : Dev :=
  let w := d.win s
  match w.allFrom with
  | none => if mode = 2 then d.setWin s { w with allFrom := some d.count } else d
  | some t =>
    if mode = 2 then d
    else
      let past : Span := { lo := min t d.count, hi := d.count, cut0 := (d.eng 0).writeAbs + 2 ^ 64, cut1 := (d.eng 1).writeAbs + 2 ^ 64 }
      let here : Span := { lo := 0, hi := 2 ^ 64, cut0 := (d.eng 0).ackAbs, cut1 := (d.eng 1).ackAbs }
      d.setWin s { w with allFrom := none, spans := w.spans ++ [past, here] }

/-! Fronts (R121 to R124, R130). -/

/-- Time left of a Front's timer. -/
def Dev.timerLeft (d : Dev) (n t : Nat) : Option Nat := (SMap.find d.events.timers (2 * n + t)).map (fun x => x - d.ns)

/-- Start a timer with a time, or stop it. -/
def Dev.setTimer (d : Dev) (n t : Nat) (v : Option Nat) : Dev :=
  { d with events := { d.events with timers := match v with
      | some k => SMap.ins d.events.timers (2 * n + t) (d.ns + k)
      | none => SMap.del d.events.timers (2 * n + t) } }

/-- A committed Front.Control: RUN enters state 0 with both timers stopped and both counters at 0; IDLE holds the state. A branch of the
same nanosecond is not taken (R124). -/
def Dev.frontControl (d : Dev) (n v : Nat) : Dev :=
  let d := { d with events := { d.events with controls := SMap.ins d.events.controls n d.ns,
                                              taken := d.events.taken.filter (fun x => x.n != n) } }
  if v = 1 then
    let d := (d.setTimer n 0 none).setTimer n 1 none
    ((d.setNat O.frontState 0 n).setNat O.frontCounter 0 n).setNat O.frontCounter 0 n 0 1
  else d

/-- A timer counts down to zero: it stops, and is expired in the nanosecond in which it did (R123). -/
def timerEffect (n t : Nat) (d : Dev) : Dev :=
  match SMap.find d.events.timers (2 * n + t) with
  | none => d
  | some x => d.when (decide (x ≤ d.ns)) (fun d =>
    let d := d.setTimer n t none
    { d with events := { d.events with expired := SMap.ins d.events.expired (2 * n + t) x } })

/-- The timer is expired in the present nanosecond. -/
def Dev.timerExpired (d : Dev) (n t : Nat) : Bool :=
  SMap.find d.events.timers (2 * n + t) == some d.ns || SMap.find d.events.expired (2 * n + t) == some d.ns

/-- A branch condition (R123). -/
def branchTrue (w : Nat) (occ : Nat → Bool) (t0 t1 c0 c1 : Bool) : Bool :=
  let mask := bitsOf w 7 0
  let sel := (upTo 8).filter (fun i => bitOf mask i)
  let inp := mask == 0 || (if bitOf w 8 then sel.all occ else sel.any occ)
  let tm := match bitsOf w 17 16 with
    | 0 => true | 1 => t0 | 2 => t1 | _ => t0 || t1
  let ct := match bitsOf w 19 18 with
    | 0 => true | 1 => c0 | 2 => c1 | _ => c0 && c1
  bitOf w 63 && inp && tm && ct

/-- FRONT entry of a Front (R298). -/
def Dev.frontEntry (d : Dev) (n tick : Nat) : List Byte :=
  let t := fun k => d.timerLeft n k
  leBytes 1 n ++
  leBytes 1 (d.nat O.frontState n % 16 + 16 * b2n (t 0).isSome + 32 * b2n (t 1).isSome + 64 * b2n (d.nat O.frontControl n == 0)) ++
  leBytes 4 (d.nat O.frontCounter n) ++ leBytes 4 (d.nat O.frontCounter n 0 1) ++
  leBytes 7 ((t 0).getD 0) ++ leBytes 7 ((t 1).getD 0) ++ leBytes 8 tick

/-- A timer action: 1 start, 2 stop. -/
def Dev.timerOp (d : Dev) (n t op : Nat) : Dev :=
  if op = 1 then d.setTimer n t (some (d.nat O.frontTimerLoad n 0 t)) else if op = 2 then d.setTimer n t none else d

/-- A counter action: 1 increment, saturating, 2 clear. -/
def Dev.counterOp (d : Dev) (n c op by_ : Nat) : Dev :=
  if op = 1 then d.setNat O.frontCounter (min (d.nat O.frontCounter n 0 c + by_) 0xFFFFFFFF) n 0 c
  else if op = 2 then d.setNat O.frontCounter 0 n 0 c else d

/-- Sessions that a Front triggers. -/
def Dev.frontSessionList (d : Dev) (n : Nat) : List Nat :=
  (upTo 256).filter (fun s => octBit (d.octs O.frontSessions n) s)

/-- The trigger of a branch (R125, R126). -/
def Dev.branchTrigger (d : Dev) (n b st : Nat) (sel : List Occ) : Dev :=
  let d := (d.inc O.frontTriggers n).setNat O.frontLastTriggerTick d.count n
  let origins := sel.filterMap (fun o => if 1424 ≤ o.ev && o.ev < 1440 || o.origin.isSome then o.origin else none)
  let sjs := (sel.filter (fun o => decide (o.ev < 1152))).flatMap (fun o => o.subjects)
  let t : TrigInfo := { tT := match origins with
                          | [] => d.count
                          | x :: xs => xs.foldl min x,
                        remote := !origins.isEmpty, front := n, state := st, branch := b,
                        ev := sel.foldl (fun m o => min m o.ev) 0xFFFF,
                        subj := sjs.foldl (fun m sj => match m with
                          | none => some sj
                          | some x => if sj.seq < x.seq then some sj else m) none }
  let ss := d.frontSessionList n
  let d := ss.foldl (fun d s => d.trigger s d.count t) d
  if ss.isEmpty then d else sjs.foldl Dev.trigSubject d

/-- A taken branch's actions (R122, R124, R130), and the owner's FRONT message (R296). A user mark that a branch makes carries the lowest
event number among the selected inputs that occurred, 0xFFFF where none did (log entry 95). -/
def Dev.takeBranch (d : Dev) (n b w : Nat) (sel : List Occ) : Dev :=
  let st := d.nat O.frontState n
  let by_ := if bitsOf w 7 0 = 0 then 1 else sumBy (fun o => o.mult) sel
  let d := (d.counterOp n 0 (bitsOf w 35 34) by_).counterOp n 1 (bitsOf w 37 36) by_
  let d := (d.timerOp n 0 (bitsOf w 31 30)).timerOp n 1 (bitsOf w 33 32)
  let d := if bitOf w 25 then d.setNat O.frontState (bitsOf w 23 20) n else d
  let d := if bitOf w 26 then d.branchTrigger n b st sel else d
  let ev := sel.foldl (fun m o => min m o.ev) 0xFFFF
  let d := if bitOf w 28 then d.captureMark (d.nat O.frontMarkSet n) d.count 0 ev 9 else d
  let d := if bitOf w 29 then (d.flushEngine 0).flushEngine 1 else d
  let d := if bitOf w 39 then d.setNat O.frontControl 0 n else d
  let d := if bitOf w 38 then
      if d.twinActive then d.queueFrame twinPort 2 (twinEntry d.count (d.nat O.frontPeerSlot n) 0 0 1) else d.inc O.twinPeerEventsLost
    else d
  let d := if bitOf w 27 then d.occur (1408 + n) else d
  if d.mirrors then d.mirror 8 0 1 0 (d.frontEntry n d.count) else d

/-- The end of the nanosecond: the actions of the branches taken in it, in ascending order of their Fronts (R122, R125). Its inputs are
spent; what the actions bring to Front inputs is for the next. -/
def Dev.endNs (d : Dev) : Dev :=
  let ts := sortBy (fun (x y : Taken) => decide (x.n < y.n)) d.events.taken
  let d := { d with events := { d.events with taken := [], inputs := d.events.inputs.filter (fun x => decide (d.ns < x.ns)) } }
  let d := ts.foldl (fun d x => d.takeBranch x.n x.b x.word x.sel) d
  { d with events := { d.events with inputs := d.events.inputs.map (fun x => { x with ns := max x.ns (d.ns + 1) }) } }

/-- The occurrences that a nanosecond had beyond 15 of an event occur in the next (R114), nanosecond by nanosecond as far as time has passed. -/
def Dev.carryOn : Nat → Dev → Dev
  | 0, d => d
  | n + 1, d =>
    let os := d.events.carry.filter (fun x => decide (x.1 ≤ d.ns))
    if os.isEmpty then d
    else Dev.carryOn n (os.foldl (fun (d : Dev) x => d.occurAs x.2)
      { d with events := { d.events with carry := d.events.carry.filter (fun x => decide (d.ns < x.1)) } })

/-- Time passes before a command: the present nanosecond ends, the count goes on, and what was due by now comes about: fabric logic
clocks on, carried occurrences, and records that leave settle marking, with what their occurrences carry on (log entry 96). -/
def Dev.pass (d : Dev) (dt : Nat) : Dev :=
  if dt = 0 then d
  else Dev.carryOn dt (Dev.carryOn dt ((d.endNs.tick dt).fabricPass d.ns dt)).releaseAll

/-- What every command does: the time before it passes, then its effect. The queue is not its concern. -/
def run (s : State) (dt : Nat) (f : Dev → Dev) : Host.Outcome State Fault Refusal :=
  .next { s with dev := f (s.dev.pass dt) }

end Sys2Proof.Machine
end

