-- ==== Sys2Proof/Machine/Time.lean ====
section
/-! DEFINITION. The time base, its replicas and its discipline (chapter "Time Base and Timestamps"). -/

set_option Elab.async false

namespace Sys2Proof.Machine

/-- Replica r: 0 is that of IOS, 1 + q that of quad q (R16). -/
def Dev.replica (d : Dev) (r : Nat) : Replica := SMap.getD d.time.replicas r {}

/-- Set a replica. -/
def Dev.setReplica (d : Dev) (r : Nat) (x : Replica) : Dev :=
  { d with time := { d.time with replicas := SMap.setD d.time.replicas r {} x } }

/-- The count as a quad reads it: that of its own replica, which follows that of its die (R16, R17). -/
def Dev.quadCount (d : Dev) (q : Nat) : Nat :=
  (((d.count : Int) + (d.replica (1 + q)).dev + (if dieOf q = 1 then (d.replica 0).dev else 0)) % 2 ^ 64).toNat

/-- One replica is found to differ from its source: by more than 1 tick it is a fault (R16). -/
def Dev.compareReplica (d : Dev) (r : Nat) (dev : Int) : Dev :=
  if 1 < dev.natAbs then
    ((d.inc O.timeReplicaFaultCount).setReplica r { dev := dev, faulty := true, faultTick := d.count }).occur 1478
  else d.setReplica r { d.replica r with dev := dev }

/-- The parity broadcast is compared; `seen` gives the replicas whose deviation is not as before. A fault of the IOS
replica covers the quad replicas of IOS that follow it (R16). -/
def parityEffect (seen : List (Fin 37 × Int)) (d : Dev) : Dev :=
  let ios := seen.any (fun e => e.1.val == 0 && decide (1 < e.2.natAbs)) || (d.replica 0).faulty
  seen.foldl (fun d e => if ios && 19 ≤ e.1.val then d else d.compareReplica e.1.val e.2) d

/-- A faulty replica realigns, and with that of IOS every quad replica of IOS; the ports of the quads concerned, of a group that the quad
belongs to (R34), make a marker of reason 4 whose REF_TICK is the tick of detection (R16, R30). -/
def realignEffect (r : Nat) (d : Dev) : Dev :=
  let x := d.replica r
  d.when x.faulty (fun d =>
    let d := d.setReplica r {}
    let d := if r = 0 then (upTo 18).foldl (fun d i => d.setReplica (19 + i) {}) d else d
    d.markers (fun q => if r = 0 then 18 ≤ q else d.base (r - 1) == q) 4 x.faultTick)

/-- Periodic markers fall due (R30; one period for the whole device, log entry 22). -/
def markerIntervalEffect (d : Dev) : Dev :=
  let iv := d.nat O.timeMarkerInterval
  d.when (iv != 0 && d.time.markerNs + 1000000 * iv ≤ d.ns) (fun d =>
    ({ d with time := { d.time with markerNs := d.ns } }).markers (fun _ => true) 1 d.refTick)

/-- TimeDiscipline.State changes: the event, and a marker of reason 2 on every capturing port (R24, R30). -/
def Dev.discipline (d : Dev) (st : Nat) : Dev :=
  if d.nat O.timeDisciplineState = st then d
  else
    let d := (d.setNat O.timeDisciplineState st).occur 1479
    d.markers (fun _ => true) 2 d.refTick

/-- The state becomes ACQUIRING; the count of consecutive measurements restarts (R24). -/
def Dev.acquire (d : Dev) : Dev :=
  ({ d with time := { d.time with consec := 0, entryNs := d.ns, holdNs := none, byLimit := false } }).discipline 1

/-- Fine steps from one whole multiple of 4,000,000,000 ticks to the next (R27). -/
def ppsSpan : Int := 4000000000 * 256

/-- A reference arrives with an offset in fine steps, at a tick. -/
def Dev.sampleIn (d : Dev) (off : Int) (tick : Nat) : Dev :=
  { d with time := { d.time with sample := some off, sampleTick := tick, refNs := some d.ns } }

/-- A rising edge of PPS_IN at a 10-bit position within the nanosecond (R27). Edges closer than 0.5 s to the last one
taken are ignored and counted. The offset is the local reading less the nearest multiple (log entry 97: the spec gives no sign). -/
def ppsEffect (pos : Nat) (d : Dev) : Dev :=
  d.when (d.nat O.timeDisciplineMode == 1) (fun d =>
    let close := match d.time.ppsNs with
      | some t => decide (d.ns < t + 500000000)
      | none => false
    if close then d.inc O.timeDisciplinePpsFaults
    else
      let t : Int := (d.count + pos / 256 : Nat) * 256 + (pos % 256 : Nat) - d.int O.timeDisciplinePpsDelay
      let m := t % ppsSpan
      let d := d.sampleIn (if 2 * m < ppsSpan then m else m - ppsSpan) (d.count + pos / 256)
      { d with time := { d.time with ppsNs := some d.ns } })

/-- The mean path delay of four stamps: half of what the two transfers take in all, rounded down (log entry 7). -/
def pathDelay (t1 t2 t3 t4 : Int) : Int := (t2 - t1 + (t4 - t3)) / 2

/-- Origin and arrival of a Sync are known: the offset is what the count must gain, the master's time at the arrival less the arrival (R24,
R455, log entry 7). The measurement is of the tick at which the Sync arrived (R30). -/
def Dev.ptpSynced (d : Dev) (t1 t2 : Int) : Dev :=
  ({ d with time := { d.time with ptp := { d.time.ptp with sync := some (t1, t2), wait := none } } }).sampleIn (t1 + d.time.ptp.delay - t2) ((t2 / 256).toNat % 2 ^ 64)

/-- A mean path delay has been measured. -/
def Dev.ptpDelay (d : Dev) (v : Int) : Dev := { d with time := { d.time with ptp := { d.time.ptp with delay := v } } }

/-- Send a PTP message of the ordinary clock on its port. -/
def Dev.ptpSend (d : Dev) (m : PtpMsg) : Dev := d.send (.ptp (d.nat O.timeDisciplinePtpPort) (d.nat O.timeDisciplinePtpDomain) m)

/-- Every Sync is answered with a Delay_Req and a Pdelay_Req; the stamps of messages that leave lie in the present
nanosecond, at a position that is an open value (R18, log entry 7). -/
def Dev.ptpRequests (d : Dev) : Dev :=
  let x := d.time.ptp
  let n := (x.reqSeq + 1) % 2 ^ 16
  let now : Int := 256 * d.count
  let a := d.draw
  let b := d.drawn.draw
  let d := { d.drawn.drawn with time := { d.time with ptp := { x with
    reqSeq := n, sent := some (now + (a % 1024 : Nat)), peerSent := some (now + (b % 1024 : Nat)), peer := none } } }
  (d.ptpSend (.delayReq n)).ptpSend (.pdelayReq n)

/-- A PTP message arrives on the selected Vane port, with the hardware stamp of the first bit after its start frame delimiter (R28). Messages
of another domain than TimeDiscipline.PtpDomain are not for this clock. A one-step Sync carries its origin, a two-step one waits for its
Follow_Up; delay request-response and peer-delay each measure the mean path delay. -/
def ptpEffect (pos domain : Nat) (m : PtpMsg) (d : Dev) : Dev :=
  d.when (d.nat O.timeDisciplineMode == 2 && domain == d.nat O.timeDisciplinePtpDomain) (fun d =>
    let t : Int := 256 * (d.count : Int) + pos
    let x := d.time.ptp
    match m with
    | .sync seq twoStep origin corr logInterval =>
      let d := { d with time := { d.time with interval := logInterval, refNs := some d.ns, ptp := { x with seq := seq, sync := none, wait := some (t, corr) } } }
      (if twoStep then d else d.ptpSynced (origin + corr) t).ptpRequests
    | .followUp seq origin corr =>
      match x.wait with
      | none => d
      | some (t2, c) => d.when (seq == x.seq) (fun d => d.ptpSynced (origin + corr + c) t2)
    | .delayReq _ => d
    | .delayResp seq receive corr =>
      match x.sync, x.sent with
      | some (t1, t2), some t3 => d.when (seq == x.reqSeq) (fun d => d.ptpDelay (pathDelay t1 t2 t3 (receive - corr)))
      | _, _ => d
    | .pdelayReq seq => d.ptpSend (.pdelayResp seq false t 0)
    | .pdelayResp seq twoStep receipt corr =>
      match x.peerSent with
      | none => d
      | some t1 => d.when (seq == x.reqSeq) (fun d =>
        if twoStep then { d with time := { d.time with ptp := { x with peer := some (receipt - corr, t) } } }
        else d.ptpDelay ((t - t1 - corr) / 2))
    | .pdelayFollowUp seq origin corr =>
      match x.peerSent, x.peer with
      | some t1, some (t2, t4) => d.when (seq == x.reqSeq) (fun d => d.ptpDelay (pathDelay t1 t2 (origin + corr) t4))
      | _, _ => d)

/-- The sync interval in ns: 2^logMessageInterval s. -/
def syncNs (l : Int) : Nat := if 0 ≤ l then 1000000000 * 2 ^ l.toNat else 1000000000 / 2 ^ (-l).toNat

/-- Twin lanes are locked (R24): the twin port is past LOCK in its bring-up. -/
def Dev.twinLocked (d : Dev) : Bool := 4 ≤ d.nat O.quadSpapaxStage 34

/-- Report an offset; one outside the object's range is an open value (log entry 5). -/
def Dev.setOffset (d : Dev) (off : Int) : Dev :=
  if O.timeDisciplineOffset.lo ≤ off && off ≤ O.timeDisciplineOffset.hi then d.setInt O.timeDisciplineOffset off
  else (d.setInt O.timeDisciplineOffset (signed 32 d.draw)).drawn

/-- Clamp the correction to ±200 ppm (R15). -/
def clampCorr (i : Int) : Int := max (-200000000) (min 200000000 i)

/-- The reference has returned during HOLDOVER, or in a FREE state reached through it (R24 steps 4 and 6). -/
def Dev.refReturn (d : Dev) : Dev :=
  let st := d.nat O.timeDisciplineState
  if st = 3 || (st = 0 && d.time.byLimit) then d.acquire else d

/-- A measurement of an offset takes effect (R24, R301): it is reported, steered on unless steering has stopped, brings the state back to ACQUIRING
where it is due, and counts towards LOCKED below 10 ns, which is 10,240 fine steps. -/
def Dev.measured (d : Dev) (off : Int) (steer : Bool) : Dev :=
  let d := d.setOffset off
  let d := if steer then d.setInt O.timeDisciplineFreqCorr (clampCorr (Config.steer (d.int O.timeDisciplineFreqCorr) off)) else d
  let d := d.refReturn
  if d.nat O.timeDisciplineState = 1 then
    let n := if off.natAbs < 10240 then d.time.consec + 1 else 0
    let d := { d with time := { d.time with consec := n } }
    if n = 16 then d.discipline 2 else d
  else d

/-- A measurement is taken of the latest reference (R24, R455). PTP offsets beyond 4,000,000 ticks are only reported, in whole ticks rounded
towards zero (log entry 97), and restart the count of consecutive measurements. -/
def measureEffect (d : Dev) : Dev :=
  let mode := d.nat O.timeDisciplineMode
  match d.time.sample with
  | none => d
  | some off =>
    if mode = 0 then d
    else if mode = 2 && 4000000 * 256 < off.natAbs then
      let d := ({ d with time := { d.time with sample := none, consec := 0 } }).refReturn
      d.setInt O.timeDisciplinePtpCoarseOffset (off.tdiv 256)
    else
      let d := { d with time := { d.time with lastMeas := some d.time.sampleTick,
                                              sample := if mode = 2 then some off else none } }
      let d := if mode = 2 then d.setInt O.timeDisciplinePtpCoarseOffset 0 else d
      d.measured off true

/-- The reference has been missing for the span of step 3 (R24). -/
def Dev.refLost (d : Dev) : Bool :=
  let since := max d.time.entryNs (d.time.refNs.getD 0)
  match d.nat O.timeDisciplineMode with
  | 1 => since + 1500000000 ≤ d.ns
  | 2 => since + 3 * syncNs d.time.interval ≤ d.ns
  | 3 => !d.twinLocked
  | _ => false

/-- Step 3: HOLDOVER, with the frequency held (R24). -/
def refLossEffect (d : Dev) : Dev :=
  let st := d.nat O.timeDisciplineState
  d.when ((st == 1 || st == 2) && d.refLost) (fun d =>
    ({ d with time := { d.time with holdNs := some d.ns, sample := none } }).discipline 3)

/-- Step 5: HOLDOVER has lasted its limit (R24). -/
def holdoverLimitEffect (d : Dev) : Dev :=
  match d.time.holdNs with
  | none => d
  | some t =>
    d.when (d.nat O.timeDisciplineState == 3 && t + 1000000000 * d.nat O.timeDisciplineHoldoverLimit ≤ d.ns) (fun d =>
      ({ d with time := { d.time with holdNs := none, byLimit := true } }).discipline 0)

/-- A committed TimeDiscipline.Mode takes effect: steps 1 and 7 (R24). -/
def Dev.modeCommitted (d : Dev) (mode : Nat) : Dev :=
  let d := { d with time := { d.time with lastMeas := none, sample := none, ppsNs := none, refNs := none,
                                          interval := 0, byLimit := false, holdNs := none, ptp := {} } }
  if mode = 0 then d.discipline 0 else d.acquire

/-- A step of the count (R25, R26): STEP is the new count minus the old, and the first record of every source is a
marker of reason 3 whose REF_TICK is the new count. A port that does not capture makes it when it begins to. -/
def Dev.step (d : Dev) (v : Nat) : Dev :=
  let diff := signed 64 (unsigned 64 ((v : Int) - d.count))
  let d : Dev := { d with count := v % 2 ^ 64, time := { d.time with era := d.time.era + 3, stepped := (v % 2 ^ 64, diff) } }
  (upTo 144).foldl (fun d i => if d.tapping (i / 4) (i % 4) then d.stepMarker (i / 4) (i % 4) else d) d

/-- PARITY_BROADCAST. -/
def execParityBroadcast (dt : Nat) (seen : List (Fin 37 × Int)) (s : State) : Host.Outcome State Fault Refusal :=
  run s dt (parityEffect seen)

/-- REPLICA_REALIGN. -/
def execReplicaRealign (dt : Nat) (r : Fin 37) (s : State) : Host.Outcome State Fault Refusal :=
  run s dt (realignEffect r)

/-- TIME_MARKER_INTERVAL. -/
def execTimeMarkerInterval (dt : Nat) (s : State) : Host.Outcome State Fault Refusal :=
  run s dt markerIntervalEffect

/-- PPS_EDGE. -/
def execPpsEdge (dt : Nat) (pos : Fin 1024) (s : State) : Host.Outcome State Fault Refusal :=
  run s dt (ppsEffect pos)

/-- PTP_SYNC. -/
def execPtpSync (dt : Nat) (pos : Fin 1024) (pdu : PtpPdu) (s : State) : Host.Outcome State Fault Refusal :=
  run s dt (ptpEffect pos pdu.domain pdu.m)

/-- DISCIPLINE_MEASUREMENT. -/
def execDisciplineMeasurement (dt : Nat) (s : State) : Host.Outcome State Fault Refusal :=
  run s dt measureEffect

/-- REFERENCE_LOSS. -/
def execReferenceLoss (dt : Nat) (s : State) : Host.Outcome State Fault Refusal := run s dt refLossEffect

/-- HOLDOVER_LIMIT. -/
def execHoldoverLimit (dt : Nat) (s : State) : Host.Outcome State Fault Refusal := run s dt holdoverLimitEffect

end Sys2Proof.Machine
end

