-- ==== Sys2Proof/Machine/Filter.lean ====
section
/-! DEFINITION. Filters and the flow table (R91 to R94), and where a quad sits (R36). -/

set_option Elab.async false

namespace Sys2Proof.Machine

/-- Fabric die to which a quad is attached (R36). -/
def fabricDie (q : Nat) : Nat :=
  if q ≤ 4 then 0 else if q ≤ 8 then 1 else if q ≤ 12 then 2 else if q ≤ 17 then 3
  else if q ≤ 22 then 4 else if q ≤ 26 then 5 else if q ≤ 30 then 6 else 7

/-- Filter f of engine e is enabled and its three tests hold (R91). -/
def Dev.filterHit (d : Dev) (e f source : Nat) (r : Rec) : Bool :=
  d.on O.captureFilterEnable e f &&
  Nat.land source (d.nat O.captureFilterSourceMask e f) ==
    Nat.land (d.nat O.captureFilterSourceValue e f) (d.nat O.captureFilterSourceMask e f) &&
  bitOf (d.nat O.captureFilterTypeMask e f) r.type &&
  windowMatch r.payload (d.nat O.captureFilterOffset e f) (d.octs O.captureFilterPattern e f) (d.octs O.captureFilterMask e f)

/-- The KEY of a record: the payload bytes of the four windows, zero-filled to 46 bytes (R93). -/
def Dev.flowKey (d : Dev) (e : Nat) (payload : List Byte) : List Byte :=
  fit 46 ((upTo 4).flatMap (fun w =>
    let k := d.nat O.captureFlowKeyWindow e 0 w
    slice payload (bitsOf k 31 16) (bitsOf k 4 0)))

/-- The set of a key: bits [14:0] of the CRC-32C of SOURCE and KEY (R93). -/
def flowSet (source : Nat) (key : List Byte) : Nat := crc32c (leBytes 2 source ++ key) % 32768

/-- The lookup of a record and its MATCH (R93): a hit, an insertion in the lowest free way, or a miss. -/
def Dev.flowLookup (d : Dev) (e source : Nat) (r : Rec) (tag : Nat) : Nat × Dev :=
  let src := source / 64 * 64
  let key := d.flowKey e r.payload
  let s := flowSet src key
  let x := d.eng e
  let ways := (upTo 8).map (fun w => 8 * s + w)
  match ways.find? (fun k => match SMap.find x.flow k with
      | some y => y.source == src && y.key == key
      | none => false) with
  | some k =>
    let y := SMap.getD x.flow k { source := src, key := key, tag := tag, lastHit := r.tick }
    (y.tag, d.setEng e { x with flow := SMap.ins x.flow k { y with lastHit := r.tick } })
  | none =>
    if !d.on O.captureFlowLearn e then (tag, d)
    else
      match ways.find? (fun k => (SMap.find x.flow k).isNone) with
      | none => (tag, d.inc O.captureFlowInsertFails e)
      | some k =>
        let t := d.nat O.captureFlowNextTag e
        let d := d.setEng e { x with flow := SMap.ins x.flow k { source := src, key := key, tag := t, lastHit := r.tick } }
        (t, d.setNat O.captureFlowNextTag (if t = 65535 then 1 else t + 1) e)

/-- A unit's record goes through the filters: the first that decides, or DefaultAction (R91, R92). What passes is stored in
at most 16,384 bytes and a trailer (R81), and leaves settle marking. -/
def Dev.passUnit (d : Dev) (q p : Nat) (r : Rec) : Dev :=
  let e := dieOf q
  let src := d.source q p
  let store := fun (d : Dev) (n tag : Nat) =>
    let x := truncateTo n r.payload
    d.emit q p { r with payload := x.1, mtag := tag, flags := Nat.lor r.flags (flagIf x.2 flagTrunc) }
  match (upTo 64).find? (fun f => d.filterHit e f src r) with
  | none => if d.nat O.captureEngineDefaultAction e = 1 then d else store d 16384 0
  | some f =>
    let d := d.inc O.captureFilterHits e f
    let tag := d.nat O.captureFilterTag e f
    match d.nat O.captureFilterAction e f with
    | 0 => store d 16384 tag
    | 1 => d
    | 2 => store d (d.nat O.captureFilterSnapLength e f) tag
    | _ =>
      let x := d.flowLookup e src r tag
      store x.2 16384 x.1

/-- One visit of the ageing scan: a set whose turn has come; entries hit in the same cycle stay (R94). -/
def flowVisitEffect (e : Nat) (hits : List (Fin 8)) (d : Dev) : Dev :=
  let x := d.eng e
  let period := 1000000 * d.nat O.captureFlowScanPeriod e
  d.when (decide (x.scanNs + x.scanSet * period / 32768 ≤ d.ns)) (fun d =>
    let limit := 4000000 * d.nat O.captureFlowAgeLimit e
    let d := (upTo 8).foldl (fun d w =>
      let x := d.eng e
      let k := 8 * x.scanSet + w
      match SMap.find x.flow k with
      | none => d
      | some y =>
        if hits.any (fun h => h.val == w) then d.setEng e { x with flow := SMap.ins x.flow k { y with lastHit := d.count } }
        else if y.lastHit + limit < d.count then
          ((d.setEng e { x with flow := SMap.del x.flow k }).inc O.captureFlowAged e).occur (1476 + e)
        else d) d
    let x := d.eng e
    if x.scanSet = 32767 then d.setEng e { x with scanSet := 0, scanNs := x.scanNs + period }
    else d.setEng e { x with scanSet := x.scanSet + 1 })

/-- FLOW_AGEING_VISIT. -/
def execFlowAgeingVisit (dt : Nat) (e : Fin 2) (hits : List (Fin 8)) (s : State) : Host.Outcome State Fault Refusal :=
  run s dt (flowVisitEffect e hits)

end Sys2Proof.Machine
end

