-- ==== Sys2Proof/Machine/Lanes.lean ====
section
/-! DEFINITION. Lanes, quads and ports: detectors, port state, settle intervals, equalisers, eye scan, and the hold of
a transmit channel whose port goes DOWN (chapter "Lanes, Quads and Link Partners", R46 to R56, R95, R157). -/

set_option Elab.async false

namespace Sys2Proof.Machine

/-! Lanes. -/

/-- Lane.Status of lane l (0 to 143): bit 0 LOS, bit 1 LOL, bit 2 aligned, bit 3 adapting. -/
def Dev.laneStat (d : Dev) (l : Nat) : Nat := d.nat O.laneStatus (l / 4) (l % 4)

/-- Set or clear a bit of Lane.Status. -/
def Dev.setLaneBit (d : Dev) (l bit : Nat) (v : Bool) : Dev :=
  let x := d.laneStat l
  d.setNat O.laneStatus (if v then Nat.lor x (2 ^ bit) else if bitOf x bit then x - 2 ^ bit else x) (l / 4) (l % 4)

/-- The role's receivers are active (R33). -/
def rxRole (role : Nat) : Bool := role == 1 || role == 3 || role == 4 || role == 5 || role == 6

/-- Lane.Status [3]: the equalisers of a lane with an active receiver and a signal adapt continuously in AUTO (R43, R75, log entry 107). -/
def Dev.laneAdapts (d : Dev) (l : Nat) : Bool :=
  rxRole (d.role (l / 4)) && d.nat O.powerDomainState 0 0 (32 + l / 12) == 1 && d.nat O.laneRxEqMode (l / 4) (l % 4) == 0 &&
  !bitOf (d.laneStat l) 0

/-- The lane reports lock: LOS and LOL clear, coding aligned (R46). -/
def Dev.laneGood (d : Dev) (l : Nat) : Bool := bitsOf (d.laneStat l) 2 0 == 4

/-- The quad's receivers are active: its role has some, and its lane group is ON (R33, R418). -/
def Dev.rxOn (d : Dev) (q : Nat) : Bool := rxRole (d.role q) && d.nat O.powerDomainState 0 0 (32 + q / 3) == 1

/-- The role's transmitters are active (R33). -/
def txRole (role : Nat) : Bool := 2 ≤ role && role ≤ 6

/-- Quads a port spans. -/
def Dev.quadsOf (d : Dev) (q : Nat) : List Nat :=
  (upTo (layoutQuads (d.nat O.quadLayout q))).map (fun i => d.base q + i)

/-- The reference of every quad of the port is present and in tolerance (R38). -/
def Dev.refGood (d : Dev) (q : Nat) : Bool := (d.quadsOf q).all (fun i => d.nat O.quadRefClkStatus i == 1)

/-- The transmit PLL that serves the port is locked in every quad it spans (R37, R156). -/
def Dev.txPllGood (d : Dev) (q p : Nat) : Bool :=
  (d.quadsOf q).all (fun i => SMap.getD d.clock.txPll (2 * i + d.nat O.portTxPll q p % 2) 0 == 2)

/-- Step 1 of the port states: on every lane LOS and LOL are clear and coding is aligned (R49); on a Pattern port the
same conditions as R156 reads them. -/
def Dev.portGood (d : Dev) (q p : Nat) : Bool :=
  if d.role q = 2 then d.refGood q && d.txPllGood q p && !d.on O.txForceDown q p
  else d.refGood q && (d.lanesOf q p).all d.laneGood

/-- The lowest DownReason code that holds (R50): 1 LOS, 2 LOL, 3 ALIGN. -/
def Dev.downCause (d : Dev) (q p : Nat) : Nat :=
  if d.role q = 2 then 2
  else if (d.lanesOf q p).any (fun l => bitOf (d.laneStat l) 0) then 1
  else if !d.refGood q || (d.lanesOf q p).any (fun l => bitOf (d.laneStat l) 1) then 2
  else 3

/-- Port state is governed by the table "Port state timing" (R49): Tap, Pattern and Raw quads. -/
def Dev.plainPort (d : Dev) (q p : Nat) : Bool :=
  d.hasPort q p && (d.role q == 1 || d.role q == 2 || d.role q == 6)

/-- LANE_STATUS of a link event record (R96). -/
def Dev.laneStatusWord (d : Dev) (q p : Nat) : Nat :=
  (d.lanesOf q p).foldr (fun l n => bitsOf (d.laneStat l) 2 0 + 8 * b2n (d.laneAdapts l) + 16 * n) 0

/-! Folds and batches end. -/

/-- A fold run ends as a record when it is long enough or continues an earlier fold record (R89, R90). -/
def Dev.closeFold (d : Dev) (q p : Nat) (f : FoldRun) : Dev :=
  if f.count = 0 then d
  else if f.contd || d.nat O.captureEngineFoldMin (dieOf q) ≤ f.count then
    (d.emit q p { type := 0x10, tick := f.tick, fine := f.fine, payload := foldPayload f }).inc O.capturePortFoldRecords q p
  else d

/-- Every open fold run of a port ends (R90). -/
def Dev.closeFolds (d : Dev) (q p : Nat) : Dev :=
  let fs := (d.port (4 * q + p)).folds
  fs.foldl (fun d f => d.closeFold q p f) (d.updPort (4 * q + p) (fun a => { a with folds := [] }))

/-- A raw batch ends as a record: its descriptor and its blocks (R82, R88). -/
def Dev.closeRaw (d : Dev) (q p : Nat) (b : RawBatch) : Dev :=
  let pl := leBytes 1 b.lane ++ leBytes 2 b.blocks.length ++ zeros 5 ++ b.blocks.flatten
  d.passUnit q p { type := 6, tick := b.tick, fine := b.fine, flags := b.flags, payload := pl }

/-- Every open raw batch of a port ends (R88). -/
def Dev.closeRaws (d : Dev) (q p : Nat) : Dev :=
  let bs := (d.port (4 * q + p)).raws
  bs.foldl (fun d b => d.closeRaw q p b) (d.updPort (4 * q + p) (fun a => { a with raws := [] }))

/-- What a settle boundary, a link transition or a change of session or direction ends (R79, R88, R90). -/
def Dev.boundary (d : Dev) (q p : Nat) : Dev := (d.closeRaws q p).closeFolds q p

/-! Settle intervals (R95). -/

/-- SettleWindow of a port's engine, in ns. -/
def Dev.settleNs (d : Dev) (q : Nat) : Nat := 1000 * d.nat O.captureEngineSettleWindow (dieOf q)

/-- Make a record on a port that makes records of every type. -/
def Dev.note (d : Dev) (q p : Nat) (r : Rec) : Dev := if d.tapping q p then d.emit q p r else d

/-- A settle cause touches lanes (a mask within the port) of a Tap port that is UP: steps 1, 2 and 4 of R95. -/
def Dev.settleCause (d : Dev) (q p cause mask : Nat) : Dev :=
  d.when (d.role q == 1 && d.hasPort q p && d.portUp q p) (fun d =>
    let d := d.boundary q p
    let good := (d.lanesOf q p).all d.laneGood
    let lock := if good then some d.count else none
    let endNs := if good then some (d.ns + d.settleNs q) else none
    let old := (d.port (4 * q + p)).settle
    let ph := match old with
      | none => 0
      | some _ => 2
    let prevLock := match old with
      | none => 0
      | some s => s.lock.getD 0
    let s : Settle := match old with
      | none => { cause := cause, mask := mask, start := d.count, lock := lock, endNs := endNs }
      | some s => { s with mask := Nat.lor s.mask mask, lock := lock, endNs := endNs }
    let d := d.updPort (4 * q + p) (fun a => { a with settle := some s, unobs := if good then a.unobs else some (a.unobs.getD d.count) })
    let d := d.setNat O.capturePortSettling 1 q p
    d.note q p { type := 0x13, tick := d.count, payload := settlePayload ph cause 0 mask prevLock })

/-- All lanes of a port report lock again (R95 step 3): a gap record of REASON UNLOCKED, and the end is computed. -/
def Dev.relock (d : Dev) (q p : Nat) : Dev :=
  d.when ((d.lanesOf q p).all d.laneGood && d.portUp q p) (fun d =>
    let a := d.port (4 * q + p)
    let d := match a.unobs with
      | none => d
      | some t0 =>
        let d := d.updPort (4 * q + p) (fun a => { a with unobs := none })
        (d.note q p { type := 0x11, tick := t0, payload := gapPayload t0 d.count 0 a.seq 0 2 false }).when (d.tapping q p)
          (fun d => d.inc O.capturePortGapRecords q p)
    match a.settle with
    | some s =>
      if s.endNs = none then
        d.updPort (4 * q + p) (fun a => { a with settle := some { s with lock := some d.count, endNs := some (d.ns + d.settleNs q) }, retuneNs := none })
      else d
    | none => d.updPort (4 * q + p) (fun a => { a with retuneNs := none }))

/-- A lane of a port loses lock while a settle interval is open (R95): its end waits for the lock that follows, and until then units make no records
(log entry 111). -/
def Dev.unlock (d : Dev) (q p : Nat) : Dev :=
  match (d.port (4 * q + p)).settle with
  | none => d
  | some s =>
    d.when (d.portUp q p && !(d.lanesOf q p).all d.laneGood && s.endNs.all (fun e => decide (d.ns < e))) (fun d =>
      (d.boundary q p).updPort (4 * q + p) (fun a => { a with settle := some { s with endNs := none }, unobs := some (a.unobs.getD d.count) }))

/-- The settle interval of a port closes at endTick, exclusive; records at or after it carry no SETTLE (R95). -/
def Dev.closeSettle (d : Dev) (q p : Nat) (s : Settle) (endTick : Nat) : Dev :=
  let d := d.updPort (4 * q + p) (fun a =>
    { a with settle := none, settled := (s.start, endTick) :: (if a.stage.isEmpty then [] else a.settled) })
  d.setNat O.capturePortSettling 0 q p

/-- The END record of a settle interval: OUTCOME LOCKED or ABORTED (R95 steps 5 and 6). -/
def Dev.endNote (d : Dev) (q p : Nat) (s : Settle) (outcome endTick : Nat) : Dev :=
  d.note q p { type := 0x13, tick := endTick, flags := 2 ^ 31, payload := settlePayload 1 s.cause outcome s.mask (s.lock.getD 0) }

/-- A settle interval ends at its end tick with OUTCOME LOCKED, or ABORTED (R95 step 5). -/
def Dev.endSettle (d : Dev) (q p outcome endTick : Nat) : Dev :=
  match (d.port (4 * q + p)).settle with
  | none => d
  | some s => ((d.boundary q p).closeSettle q p s endTick).endNote q p s outcome endTick

/-! Transmit channels whose port goes DOWN and UP (R144 step 3, R157). -/

/-- What transmit channel i (4q + p) holds. -/
def Dev.txch (d : Dev) (i : Nat) : TxCh := SMap.getD d.tx i {}

/-- Set it. -/
def Dev.setTx (d : Dev) (i : Nat) (x : TxCh) : Dev := { d with tx := SMap.setD d.tx i {} x }

/-- A channel in ARMED, RUNNING or HOLDING: an active replay path (R142). -/
def Dev.txActive (d : Dev) (q p : Nat) : Bool :=
  let s := d.nat O.txState q p
  1 ≤ s && s ≤ 3

/-- Position of a cursor (R158). -/
def Dev.txPos (d : Dev) (q p : Nat) (c : TxCursor) : Nat :=
  if d.nat O.txSource q p = 1 then c.off else c.iter % 2 ^ 24 * 2 ^ 40 + c.desc % 2 ^ 24 * 2 ^ 16 + c.rep % 2 ^ 16

/-- The cursor of the first unit that has not been sent. -/
def TxCh.first (x : TxCh) : TxCursor :=
  match x.queue with
  | u :: _ => u.cur
  | [] => match x.hook with
    | o :: _ => o.unit.cur
    | [] => x.cur

/-- Flush the queue: step 3 of the table "Hold timing". -/
def Dev.txFlush (d : Dev) (q p : Nat) : Dev :=
  let x := d.txch (4 * q + p)
  let d := d.add O.txFlushed (x.queue.length + x.hook.length) q p
  let d := (d.setNat O.txState 4 q p).setNat O.txPosition (d.txPos q p x.first) q p
  d.setTx (4 * q + p) { x with queue := [], hook := [], cur := x.first, holdNs := none }

/-- The port transmits its fill on every lane (R143): idle control blocks of the Ethernet code in Ethernet modes, with the alignment markers and
the FEC of the modes that R39 gives RS(544,514) (log entry 112), Pattern.RawFill in Raw modes; none where its transmitters are electrically
idle (R156). -/
def Dev.sendFill (d : Dev) (q p : Nat) : Dev :=
  let std := d.nat O.portStandard q p
  let fill := if std = 0x40 || std = 0x41 then leBytes 8 (d.nat O.patternRawFill q p) else byteOf 0x1E :: zeros 7
  d.when (d.role q == 2 && d.hasPort q p) (fun d =>
    d.send (.line (4 * q + p) (if d.on O.txForceDown q p then none else some fill) (0x12 ≤ std && std ≤ 0x19)))

/-- A STOP takes effect: the queue, and what the hook holds, are discarded and counted (R145, log entry 36); the unit on the wire stays. -/
def Dev.txIdle (d : Dev) (q p : Nat) : Dev :=
  let x := d.txch (4 * q + p)
  let d := d.add O.txFlushed (x.queue.length + x.hook.length) q p
  (d.setNat O.txState 0 q p).setTx (4 * q + p) { wire := x.wire, freeFine := x.freeFine, offers := x.offers }

/-- The port goes DOWN: step 1, and step 3 at once where the window is 0 (R157); a STOP that waits for the unit on the wire waits no more. -/
def Dev.txPortDown (d : Dev) (q p : Nat) : Dev :=
  d.when (d.nat O.txState q p == 2) (fun d =>
    let x := d.txch (4 * q + p)
    let d := if x.wire.isSome then d.inc O.txDiscarded q p else d
    if x.stopping then (d.setTx (4 * q + p) { x with wire := none }).txIdle q p
    else
      let d := (d.setNat O.txState 3 q p).inc O.txHolds q p
      let d := d.setTx (4 * q + p) { x with wire := none, holdNs := some d.ns, downTick := d.count }
      (if d.nat O.txHoldWindow q p = 0 then d.txFlush q p else d).sendFill q p)

/-- Once fetch has stopped and everything fetched has been sent: DONE, or FAULT (R144 step 5, R148, R151, R153, R154). -/
def Dev.txFinish (d : Dev) (q p : Nat) : Dev :=
  let x := d.txch (4 * q + p)
  d.when (d.nat O.txState q p == 2 && x.ended && x.queue.isEmpty && x.hook.isEmpty && x.wire.isNone) (fun d =>
    let d := match x.endPos with
      | some n => d.setNat O.txPosition n q p
      | none => d
    if x.fault = 0 then d.setNat O.txState 5 q p
    else (d.setNat O.txState 6 q p).setNat O.txFault x.fault q p)

/-- Add to the S that a cursor holds. -/
def TxCursor.shift (c : TxCursor) (n : Int) : TxCursor := { c with prevS := c.prevS + n, unitS := c.unitS + n }

/-- Add to the S of a unit. -/
def TxUnit.shift (u : TxUnit) (n : Int) : TxUnit := { u with s := u.s + n, cur := u.cur.shift n }

/-- Add to every queued and later S (R141, R157). -/
def TxCh.shift (x : TxCh) (n : Int) : TxCh :=
  { x with queue := x.queue.map (fun u => u.shift n), hook := x.hook.map (fun o => { o with unit := o.unit.shift n }),
           base := x.base + n, rebase := x.rebase.map (fun t => t + n), cur := x.cur.shift n }

/-- The port goes UP: step 2 of the hold, and step 3 of the start (R144, R157); fetch may have ended meanwhile with nothing left to send. -/
def Dev.txPortUp (d : Dev) (q p : Nat) : Dev :=
  let d := d.sendFill q p
  let x := d.txch (4 * q + p)
  let st := d.nat O.txState q p
  if st = 3 then
    match x.holdNs with
    | some t =>
      if d.ns ≤ t + 1000 * d.nat O.txHoldWindow q p then
        let n := d.count - x.downTick
        let d := (d.setNat O.txState 2 q p).add O.txShift n q p
        (d.setTx (4 * q + p) { x.shift n with holdNs := none }).txFinish q p
      else d.txFlush q p
    | none => d
  else if st = 1 && x.waitUp then
    let a := d.count + 4000 * d.nat O.txLead q p
    d.setTx (4 * q + p) { x.shift ((a : Int) - x.anchor) with anchor := a, waitUp := false }
  else d

/-! Port state (R49 to R53). -/

/-- An eye scan on a lane of a quad is aborted (R56). -/
def Dev.abortEye (d : Dev) (l : Nat) : Dev :=
  let x := SMap.getD d.links.eyes (l / 4) {}
  d.when (d.nat O.quadEyeScanStatus (l / 4) == 1 && x.lane == l % 4) (fun d => d.setNat O.quadEyeScanStatus 3 (l / 4))

/-- A link event record (R96). Its DOWN_COUNT counts the entries to DOWN since reset, whatever reads have cleared (log entry 23). -/
def Dev.linkRecord (d : Dev) (q p reason : Nat) : Dev :=
  d.when (d.capturing q p) (fun d =>
    let pl := linkPayload (d.laneStatusWord q p) (d.nat O.portState q p) reason (d.port (4 * q + p)).downs
    d.emit q p { type := 0x12, tick := d.count, payload := pl })

/-- What every transition between DOWN and UP does first (R53). -/
def Dev.transition (d : Dev) (q p st : Nat) : Dev :=
  let d := (d.setNat O.portState st q p).setNat O.portLastChangeTick d.count q p
  let d := if st = 0 then (d.inc O.portDownCount q p).updPort (4 * q + p) (fun a => { a with downs := a.downs + 1 }) else d
  d.occur (1440 + q)

/-- The reason of an entry to DOWN: one beyond Port.FlapLimit in 1 s starts a hold and records FLAP (R50, R52). -/
def Dev.downReason (d : Dev) (q p reason : Nat) : Nat × Dev :=
  let i := 4 * q + p
  let times := (d.port i).downTimes.filter (fun t => d.ns < t + 1000000000) ++ [d.ns]
  let lim := d.nat O.portFlapLimit q p
  let flap := lim != 0 && lim < times.length
  let reason := if flap then 4 else reason
  let d := d.updPort i (fun a => { a with downTimes := times, flapNs := if flap then some d.ns else a.flapNs })
  (reason, d.setNat O.portDownReason reason q p)

/-- The link event record of a port going DOWN, and the ABORTED END of a settle interval this ends: both at the transition's
tick, at which the interval has ended (R95 step 6). -/
def Dev.downRecords (d : Dev) (q p reason : Nat) : Dev :=
  match (d.port (4 * q + p)).settle with
  | none => d.linkRecord q p reason
  | some s => ((d.closeSettle q p s d.count).linkRecord q p reason).endNote q p s 1 d.count

/-- The port goes DOWN with a reason (R49, R50, R52, R53, R56, R95 step 6, R128, R157). Of a port that makes no link event records, the next
record carries LINK_DOWN (R80, log entry 20). -/
def Dev.goDown (d : Dev) (q p reason : Nat) : Dev :=
  d.when (d.nat O.portState q p != 0) (fun d =>
    let i := 4 * q + p
    let d := d.boundary q p
    let x := d.downReason q p reason
    let d := x.2.updPort i (fun a => { a with upNs := none, downNs := none, retuneNs := none, idleNs := none, unobs := none, flit := false })
    let d := d.transition q p 0
    let d := d.downRecords q p x.1
    let d := d.updPort i (fun a => { a with downSeen := a.downSeen || (a.had && !d.capturing q p) })
    let d := d.lapseMarks i
    let d := (d.lanesOf q p).foldl Dev.abortEye d
    d.txPortDown q p)

/-- The port goes UP: its settle interval opens at the transition with CAUSE 3, with its lanes already locked. -/
def Dev.goUp (d : Dev) (q p : Nat) : Dev :=
  let i := 4 * q + p
  let d := d.updPort i (fun a => { a with upNs := none, downNs := none })
  let d := d.transition q p 2
  let d := d.linkRecord q p 0
  let d := d.settleCause q p 3 (2 ^ (layoutWidth (d.nat O.quadLayout q)) - 1)
  d.txPortUp q p

/-- The port is held DOWN by a FLAP hold (R52). -/
def Dev.flapHeld (d : Dev) (i : Nat) : Bool := (d.port i).flapNs.isSome

/-- The conditions of the port's lanes have changed: a debounce starts, restarts or ends (steps 1, 3 and 4 of R49). A port
that retunes (R41) or whose tapped link is in a low-power state (R51) starts no down debounce. A Tap port that has never been UP and has
no signal or lock reads LOS or LOL (R69, log entry 107). -/
def Dev.recheck (d : Dev) (q p : Nat) : Dev :=
  d.when (d.plainPort q p) (fun d =>
    let i := 4 * q + p
    let a := d.port i
    let good := d.portGood q p
    if d.nat O.portState q p = 0 then
      if good && !d.flapHeld i then d.setPort i { a with upNs := some (a.upNs.getD d.ns) }
      else
        let d := d.setPort i { a with upNs := none }
        if d.nat O.portDownReason q p = 0 && d.role q = 1 && d.downCause q p ≤ 2 then d.setNat O.portDownReason (d.downCause q p) q p else d
    else if good || a.retuneNs.isSome || a.idleNs.isSome then d.setPort i { a with downNs := none }
    else d.setPort i { a with downNs := some (a.downNs.getD d.ns) })

/-- Recheck the port of a lane. -/
def Dev.recheckLane (d : Dev) (l : Nat) : Dev :=
  let i := d.portOfLane (l / 4) (l % 4)
  d.recheck (i / 4) (i % 4)

/-- Recheck every port of a quad's group. -/
def Dev.recheckQuad (d : Dev) (q : Nat) : Dev :=
  (upTo 4).foldl (fun d p => d.recheck (d.base q) p) d

/-- A PCIe Tap port whose link entered a low-power state: an electrical idle ordered set, then loss of signal (R51). -/
def Dev.lowPower (d : Dev) (i : Nat) : Dev :=
  let q := i / 4
  let p := i % 4
  d.when (d.role q == 1 && d.nat O.portStandard q p == 0x20 && d.portUp q p && (d.port i).eios && (d.port i).idleNs.isNone)
    (fun d => d.updPort i (fun a => { a with idleNs := some d.ns, eios := false, downNs := none }))

/-- Loss of signal asserts on a lane (R47, R51, R56). -/
def losAssertEffect (q k : Nat) (d : Dev) : Dev :=
  d.when (d.rxOn q && !bitOf (d.laneStat (4 * q + k)) 0) (fun d =>
    let l := 4 * q + k
    let i := d.portOfLane q k
    let d := ((d.setLaneBit l 0 true).inc O.laneLosCount q k).abortEye l
    ((d.lowPower i).recheckLane l).unlock (i / 4) (i % 4))

/-- Loss of signal deasserts: a low-power state ends with it (R47, R51). -/
def losDeassertEffect (q k : Nat) (d : Dev) : Dev :=
  d.when (bitOf (d.laneStat (4 * q + k)) 0) (fun d =>
    let i := d.portOfLane q k
    let d := d.setLaneBit (4 * q + k) 0 false
    let still := (d.lanesOf (i / 4) (i % 4)).any (fun l => bitOf (d.laneStat l) 0)
    let d := if still then d else d.updPort i (fun a => { a with idleNs := none })
    (d.recheckLane (4 * q + k)).relock (i / 4) (i % 4))

/-- Loss of lock asserts on a lane (R48). -/
def lolAssertEffect (q k : Nat) (d : Dev) : Dev :=
  d.when (d.rxOn q && !bitOf (d.laneStat (4 * q + k)) 1) (fun d =>
    let i := d.portOfLane q k
    ((((d.setLaneBit (4 * q + k) 1 true).inc O.laneLolCount q k).abortEye (4 * q + k)).recheckLane (4 * q + k)).unlock (i / 4) (i % 4))

/-- Loss of lock deasserts (R48). -/
def lolDeassertEffect (q k : Nat) (d : Dev) : Dev :=
  d.when (bitOf (d.laneStat (4 * q + k)) 1) (fun d =>
    let i := d.portOfLane q k
    ((d.setLaneBit (4 * q + k) 1 false).recheckLane (4 * q + k)).relock (i / 4) (i % 4))

/-- A lane's coding becomes aligned (R40, R49): on an Ethernet port only where the lane's skew against the port's earliest, in ps, is at most
180 ns. -/
def alignGainEffect (q k skew : Nat) (d : Dev) : Dev :=
  let i := d.portOfLane q k
  let eth := bitsOf (d.nat O.portStandard (i / 4) (i % 4)) 7 4 == 1
  d.when (d.rxOn q && !bitOf (d.laneStat (4 * q + k)) 2 && (!eth || skew ≤ 180000)) (fun d =>
    let i := d.portOfLane q k
    ((d.setLaneBit (4 * q + k) 2 true).recheckLane (4 * q + k)).relock (i / 4) (i % 4))

/-- A lane's coding loses alignment (R49). -/
def alignLossEffect (q k : Nat) (d : Dev) : Dev :=
  d.when (bitOf (d.laneStat (4 * q + k)) 2) (fun d =>
    let i := d.portOfLane q k
    ((d.setLaneBit (4 * q + k) 2 false).recheckLane (4 * q + k)).unlock (i / 4) (i % 4))

/-- Step 2: the conditions have held for Port.UpDebounce (R49). -/
def upDebounceEffect (q p : Nat) (d : Dev) : Dev :=
  match (d.port (4 * q + p)).upNs with
  | none => d
  | some t =>
    d.when (d.plainPort q p && d.nat O.portState q p == 0 && t + 1000 * d.nat O.portUpDebounce q p ≤ d.ns)
      (fun d => d.goUp q p)

/-- Step 5: the loss has held for Port.DownDebounce (R49, R50). -/
def downDebounceEffect (q p : Nat) (d : Dev) : Dev :=
  match (d.port (4 * q + p)).downNs with
  | none => d
  | some t =>
    d.when (d.plainPort q p && t + 1000 * d.nat O.portDownDebounce q p ≤ d.ns)
      (fun d => (d.goDown q p (d.downCause q p)).recheck q p)

/-- A PCIe Tap port sees the electrical idle before a rate change, whose rate and width, and the order and polarity of whose lanes, it has from
the training sets: a settle cause, and a retune that keeps the port UP (R41, R46). Its lanes report lock again as they align. -/
def pcieRateEffect (q p speed width : Nat) (reversed : Bool) (inverted : Nat) (d : Dev) : Dev :=
  d.when (d.role q == 1 && d.hasPort q p && d.nat O.portStandard q p == 0x20) (fun d =>
    let d := (d.setNat O.portPcieSpeed speed q p).setNat O.portPcieWidth width q p
    let d := d.updPort (4 * q + p) (fun a => { a with reversed := reversed, inverted := inverted })
    d.when (d.portUp q p) (fun d =>
      let d := (d.lanesOf q p).foldl (fun d l => d.setLaneBit l 2 false) d
      let d := d.updPort (4 * q + p) (fun a => { a with retuneNs := some d.ns, downNs := none })
      d.settleCause q p 2 (2 ^ (layoutWidth (d.nat O.quadLayout q)) - 1)))

/-- The receivers have not locked within Port.RetuneLimit (R41). -/
def retuneLimitEffect (q p : Nat) (d : Dev) : Dev :=
  match (d.port (4 * q + p)).retuneNs with
  | none => d
  | some t =>
    d.when (d.portUp q p && t + 1000 * d.nat O.portRetuneLimit q p ≤ d.ns) (fun d => (d.goDown q p 2).recheck q p)

/-- Loss of signal has lasted longer than Port.PcieIdleLimit (R51). -/
def idleLimitEffect (q p : Nat) (d : Dev) : Dev :=
  match (d.port (4 * q + p)).idleNs with
  | none => d
  | some t =>
    d.when (d.portUp q p && t + 1000 * d.nat O.portPcieIdleLimit q p ≤ d.ns) (fun d => (d.goDown q p 1).recheck q p)

/-- tL + SettleWindow is reached: the END record carries that tick exactly (R95 step 5). -/
def settleEndEffect (q p : Nat) (d : Dev) : Dev :=
  match (d.port (4 * q + p)).settle with
  | none => d
  | some s =>
    match s.endNs, s.lock with
    | some e, some _ => d.when (decide (e ≤ d.ns)) (fun d =>
        d.endSettle q p 0 (((d.count : Int) - 4 * (d.ns - e : Nat)) % 2 ^ 64).toNat)
    | _, _ => d

/-! Committed values of ports and lanes. -/

/-- Step 6 of the port states: DOWN with reason COMMIT, without a transition where the port was DOWN already, and step 1 anew at the commit
tick. In a FLAP hold the reason stays FLAP (R49, R52). A Pattern port sends the fill of its mode (R143). -/
def Dev.commitDown (d : Dev) (q p : Nat) : Dev :=
  d.when (d.plainPort q p) (fun d =>
    let d := if d.nat O.portState q p != 0 then d.goDown q p 8
      else if d.flapHeld (4 * q + p) then d
      else d.setNat O.portDownReason 8 q p
    ((d.updPort (4 * q + p) (fun a => { a with upNs := none })).recheck q p).sendFill q p)

/-- A commit changes Port.Standard or Port.LaneRate: the port goes DOWN with COMMIT, if it was not already DOWN, and
proceeds from step 1 (R49 step 6). -/
def Dev.modeChanged (d : Dev) (q p : Nat) : Dev :=
  ((d.lanesOf q p).foldl (fun d l => (d.setLaneBit l 2 false).abortEye l) d).commitDown q p

/-- Rate in kb/s of each lane for a mode (R39); 0 where the mode fixes none. -/
def modeRate (std : Nat) : Nat :=
  match std with
  | 0x10 => 10312500 | 0x11 => 25781250 | 0x12 => 53125000 | 0x13 => 53125000 | 0x14 => 106250000 | 0x15 => 53125000
  | 0x16 => 106250000 | 0x17 => 53125000 | 0x18 => 106250000 | 0x19 => 106250000 | 0x30 => 112000000
  | 0x60 => 112000000 | _ => 0

/-- The transmit rate of a port: that of its mode, or Port.LaneRate in modes 0x40 and 0x41. -/
def Dev.txRate (d : Dev) (q p : Nat) : Nat :=
  let std := d.nat O.portStandard q p
  if std = 0x40 || std = 0x41 then d.nat O.portLaneRate q p else modeRate std

/-- The ports of a quad that transmit and have taken a PLL, with their rates. -/
def Dev.txServed (d : Dev) (q : Nat) (i : Nat) : List Nat :=
  (upTo 4).filter (fun p => txRole (d.role q) && d.hasPort q p && d.nat O.portTxPll q p == i)

/-- The port serves no PLL, or is not yet given one. -/
def Dev.freePll (d : Dev) (q p : Nat) : Dev := d.setNat O.portTxPll 0xFF q p

/-- The port takes in its quad the PLL that already serves its rate, or else the lower-numbered free one (R37). -/
def Dev.assignPll (d : Dev) (q p : Nat) : Dev :=
  if txRole (d.role q) && d.hasPort q p then
    let d := d.freePll q p
    let serves := fun i => (d.txServed q i).any (fun r => d.txRate q r == d.txRate q p)
    let i := if serves 0 then 0 else if serves 1 then 1 else if (d.txServed q 0).isEmpty then 0 else 1
    d.setNat O.portTxPll i q p
  else d.freePll q p

/-- A commit changes the mode or rate of some ports: each lets go of its PLL before any takes one (R37), and proceeds from step 1. -/
def Dev.modesChanged (d : Dev) (l : List Nat) : Dev :=
  let d := l.foldl (fun d i => d.freePll (i / 4) (i % 4)) d
  let d := l.foldl (fun d i => d.assignPll (i / 4) (i % 4)) d
  l.foldl (fun d i => d.modeChanged (i / 4) (i % 4)) d

/-- A commit changes Quad.Layout of some quads: their ports go DOWN with COMMIT, and each port of the new layout starts
DOWN at step 1 (R35, R49 step 6). -/
def Dev.layoutChanged (d : Dev) (old : List (Nat × Nat)) (new : List (Nat × Nat)) : Dev :=
  let d := old.foldl (fun d e => d.setNat O.quadLayout e.2 e.1) d
  let d := old.foldl (fun d e =>
    (upTo 4).foldl (fun d p => d.commitDown e.1 p) d) d
  let d := new.foldl (fun d e => (d.setNat O.quadLayout e.2 e.1).setNat O.quadGroupBase (layoutBase e.2 e.1) e.1) d
  let d := new.foldl (fun d e => (upTo 4).foldl (fun d p => d.freePll e.1 p) d) d
  new.foldl (fun d e => (upTo 4).foldl (fun d p => (d.assignPll e.1 p).commitDown e.1 p) d) d

/-! Eye scan (R54 to R56). -/

/-- A port's lanes carry NRZ: its mode's, or PCIe below 64 GT/s (R37, R39). -/
def Dev.nrz (d : Dev) (q p : Nat) : Bool :=
  let std := d.nat O.portStandard q p
  match std with
  | 0x10 | 0x11 | 0x40 => true
  | 0x20 => d.nat O.portPcieSpeed q p != 6
  | 0x50 => d.nat O.pcieCurrentSpeed q != 6
  | _ => false

/-- A scan starts: the second sampler goes to the first point. Quad.EyeScan.Eye selects for PAM4; NRZ has only the middle eye (R54, log
entry 107). -/
def Dev.eyeBegin (d : Dev) (q : Nat) : Dev :=
  let i := d.portOfLane q (d.nat O.quadEyeScanLane q % 4)
  let x : EyeAux := { lane := d.nat O.quadEyeScanLane q, eye := if d.nrz (i / 4) (i % 4) then 0 else d.nat O.quadEyeScanEye q, dwell := d.nat O.quadEyeScanDwellExp q,
                      h := -64, v := -63, hStride := d.nat O.quadEyeScanHStride q, vStride := d.nat O.quadEyeScanVStride q }
  let d := { d with links := { d.links with eyes := SMap.setD d.links.eyes q {} x } }
  (d.setNat O.quadEyeScanStatus 1 q).setNat O.quadEyeScanPoints 0 q

/-- One point ends: its entry, and the next point or the end of the scan. -/
def eyePointEffect (q errors : Nat) (d : Dev) : Dev :=
  d.when (d.nat O.quadEyeScanStatus q == 1) (fun d =>
    let x := SMap.getD d.links.eyes q {}
    let entry := leBytes 1 x.eye ++ leBytes 1 (unsigned 8 x.h) ++ leBytes 1 (unsigned 8 x.v) ++
      leBytes 5 (min errors 0xFFFFFFFFFF)
    let h := x.h + x.hStride
    let v := if 63 < h then x.v + x.vStride else x.v
    let y := { x with entries := x.entries ++ [entry], h := if 63 < h then -64 else h, v := v }
    let d := { d with links := { d.links with eyes := SMap.setD d.links.eyes q {} y } }
    let d := d.inc O.quadEyeScanPoints q
    if 63 < v then d.setNat O.quadEyeScanStatus 2 q else d)

/-- LOS_DEASSERT. -/
def execLosDeassert (dt : Nat) (q : Fin 36) (k : Fin 4) (s : State) : Host.Outcome State Fault Refusal :=
  run s dt (losDeassertEffect q k)

/-- LOL_DEASSERT. -/
def execLolDeassert (dt : Nat) (q : Fin 36) (k : Fin 4) (s : State) : Host.Outcome State Fault Refusal :=
  run s dt (lolDeassertEffect q k)

/-- ALIGNMENT_GAINED. -/
def execAlignmentGained (dt : Nat) (lane : LaneOf) (skew : Nat) (s : State) : Host.Outcome State Fault Refusal :=
  run s dt (alignGainEffect lane.q lane.k skew)

/-- ALIGNMENT_LOST. -/
def execAlignmentLost (dt : Nat) (q : Fin 36) (k : Fin 4) (s : State) : Host.Outcome State Fault Refusal :=
  run s dt (alignLossEffect q k)

/-- UP_DEBOUNCE_EXPIRY. -/
def execUpDebounceExpiry (dt : Nat) (q : Fin 36) (p : Fin 4) (s : State) : Host.Outcome State Fault Refusal :=
  run s dt (upDebounceEffect q p)

/-- DOWN_DEBOUNCE_EXPIRY. -/
def execDownDebounceExpiry (dt : Nat) (q : Fin 36) (p : Fin 4) (s : State) : Host.Outcome State Fault Refusal :=
  run s dt (downDebounceEffect q p)

/-- PCIE_RATE_CHANGE. -/
def execPcieRateChange (dt : Nat) (q : Fin 36) (p : Fin 4) (speed : Fin 7) (lanes : LinkLanes) (s : State) : Host.Outcome State Fault Refusal :=
  run s dt (pcieRateEffect q p speed lanes.width lanes.reversed lanes.inverted)

/-- RETUNE_LIMIT_EXPIRY. -/
def execRetuneLimitExpiry (dt : Nat) (q : Fin 36) (p : Fin 4) (s : State) : Host.Outcome State Fault Refusal :=
  run s dt (retuneLimitEffect q p)

/-- PCIE_IDLE_LIMIT_EXPIRY. -/
def execPcieIdleLimitExpiry (dt : Nat) (q : Fin 36) (p : Fin 4) (s : State) : Host.Outcome State Fault Refusal :=
  run s dt (idleLimitEffect q p)

/-- SETTLE_WINDOW_EXPIRY. -/
def execSettleWindowExpiry (dt : Nat) (q : Fin 36) (p : Fin 4) (s : State) : Host.Outcome State Fault Refusal :=
  run s dt (settleEndEffect q p)

/-- EYESCAN_POINT. -/
def execEyescanPoint (dt : Nat) (q : Fin 36) (errors : Nat) (s : State) : Host.Outcome State Fault Refusal :=
  run s dt (eyePointEffect q errors)

end Sys2Proof.Machine
end

