-- ==== Sys2Proof/Machine/Lookup.lean ====
section
/-! DEFINITION. Finding the object of an index and a sub-index (R247), and the rules of placement (R35). -/

set_option Elab.async false

namespace Sys2Proof.Machine

/-- An occurrence of an object. -/
structure Occurrence where
  o : ObjDef
  a : Nat := 0
  b : Nat := 0
  c : Nat := 0
deriving DecidableEq, Repr

/-- The occurrence of one row that an index and a sub-index name. -/
def ObjDef.locate (o : ObjDef) (index sub : Nat) : Option Occurrence :=
  if sub < o.sub0 || o.sub0 + o.subs ≤ sub || index < o.base then none
  else
    let c := sub - o.sub0
    let x := index - o.base
    if o.hole = .chan then
      if x < 8 then some { o := o, a := 0, b := x, c := c }
      else if 64 ≤ x && x < 192 then some { o := o, a := 1, b := x - 64, c := c } else none
    else
      let a := if o.s1 = 0 then 0 else x / o.s1
      let r := x - o.s1 * a
      let b := if o.s2 = 0 then 0 else r / o.s2
      let ok := a < o.n1 && b < o.n2 && o.s1 * a + o.s2 * b == x &&
        (match o.hole with
         | .sensor => a < 8 || c < 4
         | .router => a == 0 || c < 32
         | .origin => 1 ≤ a && a ≤ 9
         | _ => true)
      if ok then some { o := o, a := a, b := b, c := c } else none

/-- The occurrence that an index and a sub-index name, among the objects the manual prints. -/
def lookup (index sub : Nat) : Option Occurrence := objTable.findSome? (fun o => o.locate index sub)

/-- Its key. -/
def Occurrence.key (x : Occurrence) : Nat := x.o.key x.a x.b x.c

/-- Its default. -/
def Occurrence.default (x : Occurrence) : Val := x.o.default x.a x.b x.c

/-- Its stored value. -/
def Dev.stored (d : Dev) (x : Occurrence) : Val := d.val x.o x.a x.b x.c

/-- Set its stored value. -/
def Dev.storeVal (d : Dev) (x : Occurrence) (v : Val) : Dev := d.put x.o v x.a x.b x.c

/-! Bytes of values (R249). -/

/-- Bytes of a type of fixed length; 0 for the others. -/
def ObjType.bytes (t : ObjType) : Nat :=
  match t with
  | .bool | .u8 | .i8 => 1
  | .u16 | .i16 => 2
  | .u32 | .i32 => 4
  | .u64 | .i64 | .tick64 | .csa52 => 8
  | .octets | .string | .record => 0

/-- Type codes (table "Type encodings"). -/
def ObjType.code (t : ObjType) : Nat :=
  match t with
  | .bool => 1 | .u8 => 2 | .u16 => 3 | .u32 => 4 | .u64 => 5 | .i8 => 6 | .i16 => 7 | .i32 => 8 | .i64 => 9
  | .tick64 => 0xA | .csa52 => 0xB | .octets => 0xC | .string => 0xD | .record => 0xE

/-- The type is signed. -/
def ObjType.isSigned (t : ObjType) : Bool :=
  match t with
  | .i8 | .i16 | .i32 | .i64 => true
  | _ => false

/-- A value as the bytes of its type. -/
def encodeVal (t : ObjType) (v : Val) : List Byte :=
  match v with
  | .num n => if t.bytes = 0 then [] else leBytes t.bytes (unsigned (8 * t.bytes) n)
  | .oct b => b

/-- Bytes as a value of a type. -/
def decodeVal (t : ObjType) (l : List Byte) : Val :=
  if t.bytes = 0 then .oct l
  else .num (if t.isSigned then signed (8 * t.bytes) (leNat l) else (leNat l : Int))

/-! Placement (R35). -/

/-- Quad q breaks a constraint of the table "Placement constraints", or asks for the 16-lane group that Q16 to Q19 never
form (R34, R35). -/
def Dev.misplaced (d : Dev) (q : Nat) : Bool :=
  let role := d.role q
  let layout := d.nat O.quadLayout q
  let twin := (d.role 34 == 5 && d.nat O.quadSpapaxUse 34 == 0) || (d.role 35 == 5 && d.nat O.quadSpapaxUse 35 == 0)
  let host := (upTo 4).any (fun i => d.role i == 3)
  let group := (upTo (layoutQuads layout)).map (fun i => layoutBase layout q + i)
  (host && q < 4 && (role != 3 || layout != 4)) || (role == 3 && 4 ≤ q) ||
  (role == 4 && (layout != 2 || 16 < ((upTo 36).filter (fun i => d.role i == 4)).length)) ||
  (role == 5 && d.nat O.quadSpapaxUse q == 0 && !(34 ≤ q && layout == 3)) ||
  (role == 5 && d.nat O.quadSpapaxUse q != 0 && (3 < layout || (twin && 34 ≤ q))) ||
  (layout == 4 && q / 4 == 4) ||
  group.any (fun i => d.role i != role || d.nat O.quadLayout i != layout || d.nat O.quadRefClkSelect i != d.nat O.quadRefClkSelect q)

/-- The lowest-numbered quad involved in a broken constraint: one that breaks it, or another of its group (R35). -/
def Dev.firstMisplaced (d : Dev) : Option Nat :=
  (upTo 36).find? (fun q => (upTo 36).any (fun i => d.misplaced i &&
    (i == q || layoutBase (d.nat O.quadLayout i) i == layoutBase (d.nat O.quadLayout i) q)))

end Sys2Proof.Machine
end

