-- ==== Sys2Proof/Machine/Pair.lean ====
section
/-! DEFINITION. The state of a twin pair: its scopes, its messages, its roles, the join and the failover (R287 to R310). -/

set_option Elab.async false

namespace Sys2Proof.Machine

/-! Mirror scopes (R289). -/

/-- SHARED objects. -/
def ObjDef.shared (o : ObjDef) : Bool :=
  let w := o.acc == .rw || o.acc == .wo
  (w && ((0x1200 ≤ o.base && o.base ≤ 0x12FF) || o.base == 0x5020 || (0x5100 ≤ o.base && o.base ≤ 0x51FF))) ||
  (o.base == 0x9802 && o.sub0 ≤ 3)

/-- SHADOW objects. -/
def ObjDef.shadowed (o : ObjDef) : Bool := o.acc == .rw && o.cls != .config && !o.shared

/-! The catalogue (R297). -/

/-- Objects of the device's dictionary as catalogue words (R297): index, sub-index, TYPE and COMMIT. -/
def classCode (c : CommitClass) : Nat :=
  match c with
  | .live => 0 | .quiesce => 1 | .config => 2 | .reset => 3

/-- The occurrences of one row. -/
def ObjDef.occurrences (o : ObjDef) : List Occurrence :=
  (upTo o.n1).flatMap (fun a => (upTo o.n2).flatMap (fun b => (upTo o.subs).filterMap (fun c =>
    let x : Occurrence := { o := o, a := a, b := b, c := c }
    if o.locate (x.key / 256) (x.key % 256) = some x then some x else none)))

/-- The catalogue: one word for each object (R297). -/
def Dev.catalogue (d : Dev) : List Nat :=
  let word := fun (key ty cls : Nat) => key * 256 + ty * 8 + cls
  (objTable.flatMap (fun o => o.occurrences.map (fun (x : Occurrence) => word x.key o.ty.code (classCode o.cls)))) ++
    d.fab.user.map (fun (u : UserObj) => word (u.index * 256 + u.sub) u.type u.cls)

/-! Messages (R297). -/

/-- Entries gathered into messages with room for so many bytes: 4,072 in the payload of a keyed frame, 4,088 bytes with the 16 of the message header
(R62, R202). -/
def packEntries (room : Nat) : List (List Byte) → Nat → List Byte → List (Nat × List Byte)
  | [], n, acc => if n = 0 then [] else [(n, acc)]
  | e :: es, n, acc =>
    if n ≠ 0 ∧ room < acc.length + e.length then (n, acc) :: packEntries room es 1 e
    else packEntries room es (n + 1) (acc ++ e)

/-- Send the entries of one kind in as few messages as they need. -/
def Dev.mirrorAll (d : Dev) (kind : Nat) (es : List (List Byte)) : Dev :=
  (packEntries 4072 es 0 []).foldl (fun d m => d.mirror kind 0 m.1 0 m.2) d

/-! Commits that the device makes itself. -/

/-- A commit with origin 0x9 of one value waits its turn (R303 step 3, R301). -/
def Dev.autoCommit (d : Dev) (key : Nat) (v : Val) : Dev :=
  let t : Txn := { slot := none, txn := 0, origin := 9, state := .queued, items := [{ key := key, val := v }], sinceNs := d.ns }
  { d with dict := { d.dict with txns := d.dict.txns ++ [t] } }

/-- TimeDiscipline.Mode is committed with origin 0x9. -/
def Dev.autoMode (d : Dev) (mode : Nat) : Dev := d.autoCommit (O.timeDisciplineMode.key 0 0 0) (.num mode)

/-! Roles (R302, R308, R309). -/

/-- A role or compatibility entry (R309). -/
def Dev.roleLog (d : Dev) (new old cause index : Nat) : Dev :=
  d.logNote 4 5 (leBytes 1 new ++ leBytes 1 old ++ leBytes 1 cause ++ zeros 1 ++ leBytes 4 (d.nat O.twinRoleEpoch))
    (leBytes 8 (d.nat O.twinLastBeatTick) ++ leBytes 4 (d.nat O.twinPeerSchema)) index

/-- Twin.Role changes: EV1508 and a Logbook entry (R302). On becoming Secondary the device commits mode 3 and its alignment begins anew
(R301). -/
def Dev.setRole (d : Dev) (new cause : Nat) : Dev :=
  let old := d.nat O.twinRole
  if new = old then d
  else
    let d := ((d.setNat O.twinRole new).occur 1508).roleLog new old cause 1508
    if new = 2 then
      (({ d with twin := { d.twin with good := 0, holdSteer := false } }).setNat O.twinAligned 0).autoMode 3
    else d

/-- Twin.RoleEpoch waits for the Keep (R310). -/
def Dev.keepEpoch (d : Dev) : Dev := d.keepVals [(O.twinRoleEpoch.key 0 0 0, d.val O.twinRoleEpoch)]

/-- A lane of the twin port is locked: neither LOS nor LOL (R302). -/
def Dev.twinHeld (d : Dev) : Bool := (upTo 8).any (fun i => bitsOf (d.laneStat (136 + i)) 1 0 == 0)

/-- SUSPECT and SPLIT: EV1508, and the Secondary's discipline enters HOLDOVER (R304). -/
def Dev.twinTrouble (d : Dev) (st : Nat) : Dev :=
  let d := (d.setNat O.twinState st).occur 1508
  if d.nat O.twinRole = 2 && d.nat O.timeDisciplineMode = 3 && (d.nat O.timeDisciplineState = 1 || d.nat O.timeDisciplineState = 2) then
    ({ d with time := { d.time with holdNs := some d.ns, sample := none } }).discipline 3
  else d

/-! Failover (R303, R304, R307). -/

/-- Time left of a shadow Front's timer: its mirrored remainder less the time since the branch tick, in ns (R303). -/
def shadowLeft (entry : List Byte) (t now : Nat) : Option Nat :=
  if bitOf (fieldAt entry 1 1) (4 + t) then some (fieldAt entry (10 + 7 * t) 7 - (now - fieldAt entry 24 8) / 4) else none

/-- A shadow Front's timer starts with its mirrored remainder, or stays stopped. -/
def Dev.shadowTimer (d : Dev) (n : Nat) (entry : List Byte) (t : Nat) : Dev :=
  let m := match shadowLeft entry t d.count with
    | some k => SMap.ins d.events.timers (2 * n + t) (d.ns + k)
    | none => SMap.del d.events.timers (2 * n + t)
  { d with events := { d.events with timers := m } }

/-- Steps 1 to 3 of the table "Failover timing", beside Twin.State: the epoch, the tick of the last beat, the shadow Fronts' timers (their states
and counters are in their objects since their last FRONT message), and the fallback of a Secondary. -/
def Dev.takeOver (d : Dev) : Dev :=
  let was := d.nat O.twinRole
  let d := (d.inc O.twinRoleEpoch).keepEpoch
  let d := (d.setNat O.twinPeerFailTick (d.nat O.twinLastBeatTick)).setNat O.twinRole 1
  let d := (upTo 16).foldl (fun d n =>
    match SMap.find d.twin.fronts n with
    | none => d
    | some e => (d.shadowTimer n e 0).shadowTimer n e 1) d
  let d := { d with twin := { d.twin with fronts := [], ownAll := true } }
  if was = 2 then d.autoMode (d.nat O.twinFallbackMode) else d

/-- A failover (R303), or a takeover by commit (R304): storage takeover is a command of its own. -/
def Dev.failover (d : Dev) (cause : Nat) : Dev :=
  let was := d.nat O.twinRole
  let d := ((d.setNat O.twinState 7).takeOver).inc O.twinFailovers
  (d.occur 1508).roleLog 1 was cause 1508

/-- What the lanes, the port and the misses make of a paired device: failover, SPLIT or SUSPECT (R302 to R304). -/
def Dev.twinCheck (d : Dev) : Dev :=
  if !d.paired then d
  else if !d.twinHeld then (if 3 ≤ d.twin.misses then d.failover 2 else d)
  else if !d.twinActive then (if d.nat O.twinState = 5 then d else d.twinTrouble 5)
  else if d.nat O.twinState = 3 && 1 ≤ d.twin.misses then d.twinTrouble 4
  else d

/-! The join (R308). -/

/-- SYNCING, and this side's catalogue is sent. -/
def Dev.twinSync (d : Dev) : Dev :=
  let st := d.nat O.twinState
  let d := { d with twin := { d.twin with
    before := if st = 2 then d.twin.before else st, ownWas := if st = 2 then d.twin.ownWas else d.twin.ownAll, catalogue := [], common := false, sentEnd := false, gotEnd := false } }
  (d.setNat O.twinState 2).mirrorAll 9 (d.catalogue.map (fun (w : Nat) => leBytes 4 w))

/-- Step 1: the port has reached ACTIVE; messages are counted anew. -/
def Dev.twinUp (d : Dev) : Dev :=
  if !d.hasTwin then d
  else
    let d := { d with twin := { d.twin with txMsg := 0, rxMsg := 0, watchNs := some d.ns, misses := 0 } }
    (d.setNat O.twinPeerSchema (d.spx twinPort).peerSchema).twinSync

/-- The port has left ACTIVE: a join under way is abandoned (step 5); a pair is split where a lane is still locked. A pair that has never joined is
SEARCHING again with no lane locked (DESIGN CHOICE, log entry 58). -/
def Dev.twinDown (d : Dev) : Dev :=
  if !d.hasTwin then d
  else
    let st := d.nat O.twinState
    if st = 2 then
      let b := d.twin.before
      let d := { d with twin := { d.twin with ownAll := d.twin.ownWas } }
      if !d.twin.known then d.setNat O.twinState 1
      else if b = 6 || b = 7 then d.setNat O.twinState b
      else if d.twinHeld then (if b = 5 then d.setNat O.twinState 5 else d.twinTrouble 5)
      else d.setNat O.twinState (max b 1)
    else if st = 8 then d.setNat O.twinState 1
    else d.twinCheck

end Sys2Proof.Machine
end

