-- ==== Sys2Proof/Machine/Spapax.lean ====
section
/-! DEFINITION. Spapax links (R57 to R67, R202, R203): the line coding of blocks, frames and their keys, replay, and bring-up. -/

set_option Elab.async false

namespace Sys2Proof.Machine

/-! Levels (R57, R60). -/

/-- The level of a bit pair: Gray code (R57 step 5). -/
def grayLevel (pair : Nat) : Nat :=
  match pair with
  | 0 => 0 | 1 => 1 | 3 => 2 | _ => 3

/-- The bit pair of a level. -/
def grayPair (level : Nat) : Nat :=
  match level with
  | 0 => 0 | 1 => 1 | 2 => 3 | _ => 2

/-- The stuff symbol after a run of a level (R60). -/
def stuffOf (level : Nat) : Nat := if level ≤ 1 then 3 else 0

/-- One more level in a row of levels. -/
def LevelRun.next (r : LevelRun) (s : Nat) : LevelRun := { run := if r.last = some s then r.run + 1 else 1, last := some s }

/-- The run after a stuff symbol. -/
def LevelRun.stuffed (r : LevelRun) : LevelRun := { run := 1, last := some (stuffOf (r.last.getD 0)) }

/-- The levels that are sent for some levels (R60). -/
def stuffLevels : LevelRun → List Nat → LevelRun × List Nat
  | r, [] => (r, [])
  | r, s :: ss =>
    if r.run = 47 then
      let y := stuffLevels (r.stuffed.next s) ss
      (y.1, stuffOf (r.last.getD 0) :: s :: y.2)
    else
      let y := stuffLevels (r.next s) ss
      (y.1, s :: y.2)

/-- The levels that remain of received ones, and whether a discarded one differed from the rule (R60). -/
def destuff : LevelRun → List Nat → LevelRun × List Nat × Bool
  | r, [] => (r, [], false)
  | r, s :: ss =>
    if r.run = 47 then
      let y := destuff r.stuffed ss
      (y.1, y.2.1, y.2.2 || s != stuffOf (r.last.getD 0))
    else
      let y := destuff (r.next s) ss
      (y.1, s :: y.2.1, y.2.2)

/-- The 33 levels of a block: its header symbol, then its 64 bits, least significant pair first (R57). -/
def blockLevels (header payload : Nat) : List Nat := grayLevel header :: (upTo 32).map (fun i => grayLevel (bitsOf payload (2 * i + 1) (2 * i)))

/-- The 64 bits of 32 levels. -/
def levelBits : List Nat → Nat
  | [] => 0
  | l :: ls => grayPair l + 4 * levelBits ls

/-! The scrambler (R59). -/

/-- The bit that the generator of x^31 + x^28 + 1 takes in, which is the next bit of its sequence (log entry 99). -/
def scrBit (s : Nat) : Nat := Nat.xor (bitsOf s 30 30) (bitsOf s 27 27)

/-- One step. -/
def scrStep (s : Nat) : Nat := (2 * s + scrBit s) % 2 ^ 31

/-- n steps. -/
def scrSteps : Nat → Nat → Nat
  | 0, s => s
  | n + 1, s => scrSteps n (scrStep s)

/-- The next n bits of the sequence, the first least significant. -/
def scrBits : Nat → Nat → Nat
  | 0, _ => 0
  | n + 1, s => scrBit s + 2 * scrBits n (scrStep s)

/-- The state that ALIGN loads. -/
def alignState (lane : Nat) : Nat := 0x7FFFFFF0 + lane

/-! Blocks (R58). -/

/-- A block to be sent. -/
inductive TxBlock
  | data (l : List Byte) | idle | align | start | end_ (n : Nat) | train (ready peerReady : Bool)
deriving DecidableEq, Repr

/-- The eight bytes of a block on a lane whose generator stands at a state. -/
def TxBlock.bytes (b : TxBlock) (lane scr : Nat) : List Byte :=
  fit 8 (match b with
    | .data l => l
    | .idle => 0x1E :: leBytes 4 scr
    | .align => 0x2D :: leBytes 1 lane
    | .start => [0x33]
    | .end_ n => 0x4B :: leBytes 1 n
    | .train r p => 0x55 :: leBytes 1 (b2n r + 2 * b2n p))

/-- A lane sends a block: what it puts on the line, and its generator and run after it. -/
def SpxTx.block (x : SpxTx) (lane : Nat) (b : TxBlock) : SpxTx × List Nat :=
  let pl := leNat (b.bytes lane x.scr)
  let y := stuffLevels x.levels (match b with
    | .data _ => blockLevels 1 (Nat.xor pl (scrBits 64 x.scr))
    | _ => blockLevels 2 pl)
  ({ scr := if b = .align then alignState lane else scrSteps 64 x.scr, levels := y.1 }, y.2)

/-- Blocks dealt to `w` lanes, in rows; the last row is filled with IDLE (log entry 99). -/
def rowsOf (w : Nat) : Nat → List TxBlock → List (List TxBlock)
  | 0, _ => []
  | n + 1, bs => if bs.isEmpty then [] else ((upTo w).map (fun i => bs.getD i .idle)) :: rowsOf w n (bs.drop w)

/-- One block on each lane: the levels of each. -/
def SpxAux.row (x : SpxAux) (bs : List TxBlock) : SpxAux × List (List Nat) :=
  (upTo bs.length).foldl (fun (y : SpxAux × List (List Nat)) i =>
    let r := (SMap.getD y.1.tx i {}).block i (bs.getD i .idle)
    ({ y.1 with tx := SMap.ins y.1.tx i r.1 }, y.2 ++ [r.2])) ({ x with rows := x.rows + 1 }, [])

/-- ALIGN on every lane (R61). -/
def SpxAux.alignRow (x : SpxAux) (w : Nat) : SpxAux × List (List Nat) :=
  let y := x.row (List.replicate w .align)
  ({ y.1 with rows := 0 }, y.2)

/-- Rows in turn, with ALIGN at every 16,384th block of each lane (R61). -/
def SpxAux.rows_ (x : SpxAux) (w : Nat) (rs : List (List TxBlock)) : SpxAux × List (List Nat) :=
  rs.foldl (fun (y : SpxAux × List (List Nat)) bs =>
    let a := if y.1.rows = 16383 then y.1.alignRow w else (y.1, List.replicate w [])
    let r := a.1.row bs
    (r.1, List.zipWith (fun u v => u ++ v) y.2 (List.zipWith (fun u v => u ++ v) a.2 r.2))) (x, List.replicate w [])

/-- IDLE on every lane for a number of blocks. -/
def SpxAux.idle (w : Nat) : Nat → SpxAux → SpxAux
  | 0, x => x
  | n + 1, x => SpxAux.idle w n (x.row (List.replicate w .idle)).1

/-- Bytes in blocks of eight. -/
def eights : Nat → List Byte → List (List Byte)
  | 0, _ => []
  | n + 1, l => if l.isEmpty then [] else l.take 8 :: eights n (l.drop 8)

/-- The blocks of a frame: START, its bytes, END with the valid bytes of the last block (R58). -/
def frameBlocks (l : List Byte) : List TxBlock :=
  .start :: (eights l.length l).map .data ++ [.end_ (if l.length % 8 = 0 then 8 else l.length % 8)]

/-- Lanes of a port. -/
def Dev.spxWidth (d : Dev) (i : Nat) : Nat := layoutWidth (d.nat O.quadLayout (i / 4))

/-- Send blocks on a port. -/
def Dev.sendBlocks (d : Dev) (i : Nat) (frame : List Byte) (bs : List TxBlock) : Dev :=
  let w := d.spxWidth i
  let y := (d.spx i).rows_ w (rowsOf w bs.length bs)
  (d.setSpx i y.1).send (.spapax i frame y.2)

/-- Send a frame: its header and payload, and their CRC-32C (R62). -/
def Dev.sendFrame (d : Dev) (i : Nat) (l : List Byte) : Dev :=
  let f := l ++ leBytes 4 (crc32c l)
  d.sendBlocks i f (frameBlocks f)

/-! Frames and their keys (R62, R202). -/

/-- A frame header (R62). -/
def frameHeader (cls flags len seq ackSeq : Nat) : List Byte :=
  leBytes 1 cls ++ leBytes 1 flags ++ leBytes 2 len ++ leBytes 4 seq ++ leBytes 4 ackSeq ++ zeros 4

/-- Highest SEQ received in order. -/
def SpxAux.lastGood (x : SpxAux) : Nat := (x.rxSeq + 2 ^ 32 - 1) % 2 ^ 32

/-- Counter block of a frame: DOMAIN 0x02 (R195, R202). -/
def frameCounter (wrap seq minor block : Nat) : List Byte := counterBlock 2 (wrap % 2 ^ 32 * 64) seq minor block

/-- Encryption of a payload, which is also its decryption (R202). -/
def frameCrypt (key : List Byte) (wrap seq : Nat) (text : List Byte) : List Byte :=
  let n := (text.length + 15) / 16
  octXor text ((upTo n).flatMap (fun b => aes256 key (frameCounter wrap seq (b / 4) (b % 4))))

/-- The tag of a header and a ciphertext: the top 64 bits of the GHASH, XORed with the tag mask (R202). The hash key is that of AES-GCM under
the direction key (log entry 9). -/
def frameTag (key : List Byte) (wrap seq : Nat) (header ct : List Byte) : List Byte :=
  (octXor (ghash (aes256 key (zeros 16)) (gcmBlocks header ct)) (aes256 key (frameCounter wrap seq 0xFF 4))).take 8

/-- The link pairing key of a port: sub-index 1 for the twin port, 2 for expansion ports (R379). -/
def Dev.pairingKey (d : Dev) (q : Nat) : List Byte := d.octs O.keyLinkPairing 0 0 (d.nat O.quadSpapaxUse q)

/-- This side is side A of a link: that of the twin, or the device with the lower identity at an expansion link (R202, log entry 24). -/
def Dev.sideA (d : Dev) (i : Nat) : Bool :=
  if d.nat O.quadSpapaxUse (i / 4) = 0 then d.side == 0 else decide (beNat (d.octs O.identityDeviceId) < beNat (d.spx i).peerIdentity)

/-- The two direction keys, from side A and from side B (R202, log entry 24). -/
def Dev.linkKeys (d : Dev) (i : Nat) : List Byte × List Byte :=
  let x := d.spx i
  let own := d.octs O.identityDeviceId
  let ctx := if d.sideA i then x.nonce ++ x.peerNonce ++ own ++ x.peerIdentity else x.peerNonce ++ x.nonce ++ x.peerIdentity ++ own
  let k := kdfHmac x.key 64 ("EKX-FOG-LINK".toList.map (fun c => byteOf c.toNat)) ctx
  (k.take 32, k.drop 32)

/-- The link is keyed (R202). -/
def Dev.linkKeyed (d : Dev) (i : Nat) : Dev :=
  let k := d.linkKeys i
  let x := d.spx i
  d.setSpx i { x with keyed := true, keyOut := if d.sideA i then k.1 else k.2, keyIn := if d.sideA i then k.2 else k.1 }

/-- A frame with the next SEQ, encrypted and tagged on a keyed link (R62, R202). -/
def SpxAux.build (x : SpxAux) (f : SpxWait) : List Byte :=
  if x.keyed then
    let h := frameHeader f.cls 0 (f.payload.length + 8) x.txSeq x.lastGood
    let ct := frameCrypt x.keyOut x.txWrap x.txSeq f.payload
    h ++ ct ++ frameTag x.keyOut x.txWrap x.txSeq h ct
  else frameHeader f.cls 0 f.payload.length x.txSeq x.lastGood ++ f.payload

/-- Send an ACK_ONLY frame, with or without NAK (R62). -/
def Dev.sendAck (d : Dev) (i : Nat) (nak : Bool) : Dev := d.sendFrame i (frameHeader 0 (1 + 2 * b2n nak) 0 0 (d.spx i).lastGood)

/-! Link management (R65, log entry 24). -/

/-- Payload of a link-management frame. -/
def linkBytes (m : LinkMsg) : List Byte :=
  match m with
  | .caps identity lanes use schema nonce => [1] ++ fit 32 identity ++ leBytes 1 lanes ++ leBytes 1 use ++ leBytes 4 schema ++ fit 16 nonce
  | .response mac => [2] ++ fit 32 mac

/-- The message in a payload. -/
def linkOf (l : List Byte) : Option LinkMsg :=
  match fieldAt l 0 1 with
  | 1 => some (.caps (slice l 1 32) (fieldAt l 33 1) (fieldAt l 34 1) (fieldAt l 35 4) (slice l 39 16))
  | 2 => some (.response (slice l 1 32))
  | _ => none

/-- The response to a challenge: HMAC-SHA-256 of the nonce under the link pairing key. -/
def Dev.linkMac (d : Dev) (i : Nat) (nonce : List Byte) : List Byte := hmacSha256 (d.spx i).key nonce

/-- The CAPS message of a port, once it has its nonce. -/
def Dev.linkHello (d : Dev) (i : Nat) : Dev :=
  let x := d.spx i
  if x.nonce.isEmpty then d
  else d.queueFrame i 5 (linkBytes (.caps (d.octs O.identityDeviceId) (d.spxWidth i) (d.nat O.quadSpapaxUse (i / 4))
    (d.nat O.identitySchemaVersion) x.nonce))

/-- A fresh 128-bit nonce, for which a port waits while the entropy source has failed (R65, R379, R380). -/
def Dev.linkNonce (d : Dev) (i : Nat) : Dev :=
  if d.on O.entropyState then d
  else ((d.setSpx i { d.spx i with nonce := fit 16 (Config.freeBytes d.free) }).drawn).linkHello i

/-! Bring-up (R65, R66). -/

/-- Stage bounds in ns (R65). -/
def stageBound (st : Nat) : Nat :=
  match st with
  | 1 => 100000000 | 2 => 300000000 | 3 => 20000000 | _ => 50000000

/-- Native ports of a quad, or of the group that is based there. -/
def Dev.spxPorts (d : Dev) (q : Nat) : List Nat := (upTo (layoutPorts (d.nat O.quadLayout q))).map (fun p => 4 * q + p)

/-- Do something on each of them. -/
def Dev.eachPort (d : Dev) (q : Nat) (f : Dev → Nat → Dev) : Dev := (d.spxPorts q).foldl f d

/-- This side says READY and PEER_READY in TRAIN on every lane; IDLE fills to the next TRAIN, and so it
goes on (R65 step 2). -/
def Dev.sendTrain (d : Dev) (i : Nat) : Dev :=
  let x := d.spx i
  let w := d.spxWidth i
  (d.sendBlocks i [] (List.replicate w (.train x.ready x.peerReady) ++ List.replicate (31 * w) .idle)).send (.train i x.ready x.peerReady)

/-- What a port forgets and begins as its quad enters a stage. Entering CAPS takes the pairing key in force and draws a nonce. -/
def Dev.portStage (d : Dev) (st i : Nat) : Dev :=
  let x := d.spx i
  let x := if st ≤ 1 then { x with lanes := [], ready := false, peerReady := false, frame := none } else x
  let x := if st ≤ 4 then { x with capsSeen := false, authed := false, keyed := false, keyOut := [], keyIn := [], nonce := [],
                                   txSeq := 0, txWrap := 0, rxSeq := 0, rxWrap := 0, replay := [], waiting := [], nak := false } else x
  let x := if st = 4 then { x with key := d.pairingKey (i / 4) } else x
  let d := d.setSpx i x
  if st = 2 then d.sendTrain i else if st = 4 then d.linkNonce i else if st = 5 then d.linkKeyed i else d

/-- Enter a stage. -/
def Dev.enterStage (d : Dev) (q st : Nat) : Dev :=
  let d := d.setSpx (4 * q) { d.spx (4 * q) with stageNs := d.ns, backoffNs := none }
  let d := (d.eachPort q (fun d i => d.portStage st i)).setNat O.quadSpapaxStage st q
  let d := if st < 5 then d.eachPort q (fun d i => d.setNat O.portState (if st = 0 then 0 else 1) q (i % 4)) else d
  if st = 5 && q = 34 then d.twinUp else d

/-- DETECT, unless the reference of the quad is bad or a FLAP hold keeps a port DOWN, which bring-up then waits for (R38, R52, R65). -/
def Dev.detectStage (d : Dev) (q : Nat) : Dev :=
  if d.refGood q && !(d.spxPorts q).any d.flapHeld then d.enterStage q 1 else d.enterStage q 0

/-- A port between DOWN and UP, of a role whose own protocol governs it (R49 to R53, R56). -/
def Dev.linkTransition (d : Dev) (q p st reason : Nat) : Dev :=
  if st = 0 then
    let d := ((d.downReason q p reason).2).transition q p 0
    (d.lanesOf q p).foldl Dev.abortEye d
  else d.transition q p st

/-- Every Native port of a quad. -/
def Dev.nativeTransition (d : Dev) (q st reason : Nat) : Dev := d.eachPort q (fun d i => d.linkTransition q (i % 4) st reason)

/-- A stage times out or fails: LastFailStage, LastFailReason, the link-change event, and the backoff, which doubles from
100 ms to 6.4 s (R66). A failure of RETRY or AUTH is the DownReason (R50, R63); the eighth of AUTH in a row is LOCKOUT. -/
def Dev.stageFail (d : Dev) (q reason : Nat) : Dev :=
  let d := (d.setNat O.quadSpapaxLastFailStage (d.stage q) q).setNat O.quadSpapaxLastFailReason reason q
  let d := d.occur (1440 + q)
  let d := d.enterStage q 0
  let x := d.spx (4 * q)
  let run := if reason = 6 then x.authRun + 1 else 0
  let d := if reason = 7 then d.eachPort q (fun d i => d.setNat O.portDownReason 5 q (i % 4)) else d
  let d := if reason = 6 then ((d.inc O.quadSpapaxAuthFailures q).occur 1504).eachPort q (fun d i => d.setNat O.portDownReason 6 q (i % 4)) else d
  if run = 8 then
    let d := (d.logNote 3 2 (leBytes 1 q) []).occur 1504
    (d.eachPort q (fun d i => d.setNat O.portDownReason 9 q (i % 4))).setSpx (4 * q) { x with authRun := run, lockout := true, backoffNs := none }
  else
    d.setSpx (4 * q) { x with authRun := run, fails := x.fails + 1, backoffNs := some (d.ns + min (100000000 * 2 ^ x.fails) 6400000000) }

/-- A fall from ACTIVE returns to step 1 with no backoff (R66). Reasons: 7 RETRY, 8 LOST. -/
def Dev.activeFall (d : Dev) (q reason down : Nat) : Dev :=
  d.when (d.stage q == 5) (fun d =>
    let d := (d.setNat O.quadSpapaxLastFailStage 5 q).setNat O.quadSpapaxLastFailReason reason q
    let d := (d.nativeTransition q 0 down).setSpx (4 * q) { d.spx (4 * q) with fails := 0 }
    let d := d.detectStage q
    if q = 34 then d.twinDown else d)

/-- Loss of signal or lock on a Native port: LOST in ACTIVE (R66). -/
def Dev.spxLost (d : Dev) (q down : Nat) : Dev := d.activeFall q 8 down

/-- A committed Quad.Spapax.Enable takes effect (R65, R66): it also leaves LOCKOUT. -/
def Dev.spxEnabled (d : Dev) (q : Nat) (on : Bool) : Dev :=
  let active := d.stage q == 5
  let d := if active then d.nativeTransition q 0 8 else d
  let d := d.eachPort q (fun d i => d.setSpx i {})
  let d := if on then d.detectStage q else d.enterStage q 0
  if active && q = 34 then d.twinDown else d

/-- The bring-up of a quad goes on, if it waited for its reference or for the end of a hold. -/
def Dev.spxResume (d : Dev) (q : Nat) : Dev :=
  let x := d.spx (4 * q)
  if d.role q = 5 && d.base q = q && d.stage q = 0 && d.on O.quadSpapaxEnable q && !x.lockout && x.backoffNs.isNone then d.detectStage q else d

/-- The reference of a quad is bad: its ports are held DOWN with LOL (R38). -/
def Dev.spxHold (d : Dev) (q : Nat) : Dev :=
  if d.stage q = 5 then d.spxLost q 2
  else if d.stage q = 0 then d
  else (d.enterStage q 0).eachPort q (fun d i => d.setNat O.portDownReason 2 q (i % 4))

/-! Received blocks (R58 to R61). -/

/-- Listed types of control block (R58). -/
def ctlListed (t : Nat) : Bool := t == 0x1E || t == 0x2D || t == 0x33 || t == 0x4B || t == 0x55

/-- A lane takes the levels of one block (R57 to R61): block errors, lock gained after 64 valid headers and lost after 16 block errors
within 64 blocks, the scrambler, and what control blocks say. The answer says whether lock was lost. -/
def SpxLane.block (x : SpxLane) (lane : Nat) (levels : List Nat) (ns : Nat) : SpxLane × Bool :=
  let r := destuff x.levels levels
  let header := grayPair (r.2.1.headD 0)
  let ok := header == 1 || header == 2
  let ctl := header == 2
  let raw := levelBits ((r.2.1.drop 1).take 32)
  let bytes := leBytes 8 (if ctl then raw else Nat.xor raw (scrBits 64 x.scr))
  let t := fieldAt bytes 0 1
  let v := fieldAt bytes 1 1
  let err := !ok || (ctl && !ctlListed t) || r.2.2
  let good := if ok then x.good + 1 else 0
  let recent := if x.locked then (err :: x.recent).take 64 else []
  let lost := x.locked && 16 ≤ (recent.filter (fun e => e)).length
  let align := ctl && t == 0x2D && v == lane
  let idle := ctl && t == 0x1E
  let train := ctl && t == 0x55
  ({ levels := r.1,
     good := if lost then 0 else good,
     locked := !lost && (x.locked || 64 ≤ good),
     recent := if lost then [] else recent,
     scr := if align then alignState lane else scrSteps 64 x.scr,
     loaded := (x.loaded || align) && !lost,
     alignNs := if align then some ns else x.alignNs,
     match_ := if idle then (if fieldAt bytes 1 4 = x.scr then x.match_ + 1 else 0) else x.match_,
     ready := if train then bitOf v 0 else x.ready,
     peerReady := if train then bitOf v 1 else x.peerReady,
     fifo := if lost then [] else if align && !x.loaded then [(ctl, bytes)] else newest 64 (x.fifo ++ [(ctl, bytes)]) }, lost)

/-- Every lane of a port. -/
def Dev.spxAll (d : Dev) (i : Nat) (f : SpxLane → Bool) : Bool :=
  (upTo (d.spxWidth i)).all (fun k => f (SMap.getD (d.spx i).lanes k {}))

/-- The lanes are deskewed: ALIGN blocks at most 32 ns apart (R61). -/
def Dev.deskewed (d : Dev) (i : Nat) : Bool :=
  let ts := (upTo (d.spxWidth i)).filterMap (fun k => (SMap.getD (d.spx i).lanes k {}).alignNs)
  ts.length == d.spxWidth i && ts.all (fun a => ts.all (fun b => decide (a ≤ b + 32)))

/-- A row of blocks, one of each lane in their order, once every lane has one. Blocks ahead of a lane's ALIGN are passed over. -/
def SpxAux.takeRow (x : SpxAux) (w : Nat) : Option (List (Bool × List Byte)) × SpxAux :=
  let heads := (upTo w).filterMap (fun k => (SMap.getD x.lanes k {}).fifo.head?)
  if heads.length != w || w == 0 then (none, x)
  else
    let aligned := fun (b : Bool × List Byte) => b.1 && fieldAt b.2 0 1 == 0x2D
    let even := heads.all aligned || !heads.any aligned
    let x' := (upTo w).foldl (fun (y : SpxAux) k =>
      let l := SMap.getD y.lanes k {}
      if even || !(l.fifo.headD (false, [])).1 || fieldAt (l.fifo.headD (false, [])).2 0 1 != 0x2D then
        { y with lanes := SMap.ins y.lanes k { l with fifo := l.fifo.drop 1 } }
      else y) x
    (some (if even then heads else []), x')

/-- A block of the port joins the frame that is arriving (R57, R58). The answer is the frame that it completes. -/
def joinBlock (fr : Option (List Byte)) (b : Bool × List Byte) : Option (List Byte) × Option (List Byte) :=
  if !b.1 then (fr.map (fun l => l ++ b.2), none)
  else match fieldAt b.2 0 1 with
    | 0x33 => (some [], none)
    | 0x4B => (none, fr.map (fun l => l.take (l.length - 8 + fieldAt b.2 1 1)))
    | _ => (fr, none)

/-- The frames that the blocks at hand complete. -/
def SpxAux.frames (w : Nat) : Nat → SpxAux → SpxAux × List (List Byte)
  | 0, x => (x, [])
  | n + 1, x =>
    match x.takeRow w with
    | (none, x) => (x, [])
    | (some bs, x) =>
      let y := bs.foldl (fun (z : SpxAux × List (List Byte)) b =>
        let j := joinBlock z.1.frame b
        ({ z.1 with frame := j.1 }, z.2 ++ j.2.toList)) (x, [])
      let r := SpxAux.frames w n y.1
      (r.1, y.2 ++ r.2)

/-! Received frames (R63, R65, R67, R203). -/

/-- SEQ a comes after SEQ b. -/
def seqAfter (a b : Nat) : Bool := (a + 2 ^ 32 - b - 1) % 2 ^ 32 < 2 ^ 31

/-- Frames after ACK_SEQ go out again; one that has been sent 8 times takes the port DOWN with RETRY (R63). -/
def Dev.replay (d : Dev) (i : Nat) (due : SpxKept → Bool) : Dev :=
  let q := i / 4
  let x := d.spx i
  let ks := x.replay.filter due
  if ks.any (fun k => decide (8 ≤ k.sends)) then (if d.stage q = 5 then d.activeFall q 7 5 else d.stageFail q 7)
  else
    let d := (d.add O.quadSpapaxReplays ks.length q).setSpx i { x with
      replay := x.replay.map (fun k => if due k then { k with sends := k.sends + 1, sentNs := d.ns } else k) }
    ks.foldl (fun d k => d.sendFrame i k.bytes) d

/-- A link-management message in CAPS (R65 step 4, R66): lane count or use that differs fails with CAPS, a wrong response with
AUTH; with a right one on every port of the quad the link is ACTIVE, UP and keyed (R202). -/
def Dev.linkMessage (d : Dev) (i : Nat) (m : LinkMsg) : Dev :=
  let q := i / 4
  let x := d.spx i
  match m with
  | .caps identity lanes use schema nonce =>
    if lanes != d.spxWidth i || use != d.nat O.quadSpapaxUse q then d.stageFail q 5
    else
      let d := (d.setOct O.quadSpapaxPeerIdentity identity q).setSpx i
        { x with capsSeen := true, peerNonce := nonce, peerSchema := schema, peerIdentity := identity }
      d.queueFrame i 5 (linkBytes (.response (d.linkMac i nonce)))
  | .response mac =>
    if x.capsSeen && x.nonce != [] && mac == d.linkMac i x.nonce then
      let d := d.setSpx i { x with authed := true }
      if (d.spxPorts q).all (fun j => (d.spx j).authed) then
        let d := d.setSpx (4 * q) { d.spx (4 * q) with fails := 0, authRun := 0 }
        (d.enterStage q 5).nativeTransition q 2 0
      else d
    else d.stageFail q 6

/-- The next SEQ expected. -/
def SpxAux.accept (x : SpxAux) : SpxAux :=
  { x with rxSeq := (x.rxSeq + 1) % 2 ^ 32, rxWrap := if x.rxSeq = 2 ^ 32 - 1 then x.rxWrap + 1 else x.rxWrap }

/-- The payload of a frame, decrypted without its tag on a keyed link; none where the tag fails. -/
def SpxAux.open_ (x : SpxAux) (header body : List Byte) : Option (List Byte) :=
  if !x.keyed then some body
  else
    let seq := fieldAt header 4 4
    let wrap := if seqAfter x.rxSeq seq && x.rxSeq < seq then x.rxWrap - 1 else if seqAfter seq x.rxSeq && seq < x.rxSeq then x.rxWrap + 1 else x.rxWrap
    let ct := body.take (body.length - 8)
    if body.drop (body.length - 8) == frameTag x.keyIn wrap seq header ct then some (frameCrypt x.keyIn wrap seq ct) else none

/-- A sound frame is accepted in sequence: expansion data goes to fabric logic, link management acts in CAPS, and the twin's messages are
commands of their own. One with a later SEQ asks for a NAK; an earlier one is a replay already accepted. -/
def Dev.frameAccept (d : Dev) (i cls seq : Nat) (payload : List Byte) : Dev :=
  let x := d.spx i
  if seq != x.rxSeq then (if seqAfter seq x.rxSeq then d.setSpx i { x with nak := true } else d)
  else
    let d := d.setSpx i x.accept
    if cls = 4 then d.send (.fabric (fabricDie (i / 4)) payload)
    else if cls = 5 && d.stage (i / 4) = 4 then (match linkOf payload with
      | some m => d.linkMessage i m
      | none => d)
    else d

/-- A frame arrives (R62, R63, R67, R203): a CRC or tag failure asks for a NAK; an acknowledgement releases replay-buffer space, but not
that of an ACK_ONLY frame on a keyed link; a NAK asks for a replay. An ACK_ONLY frame on a keyed link acts on the 20 µs timer: it restarts it for
what it acknowledges. Before ACTIVE only link management is accepted, and others are counted; before CAPS nothing acts. -/
def Dev.frameIn (d : Dev) (i : Nat) (l : List Byte) : Dev :=
  let q := i / 4
  d.when (d.role q == 5 && 1 ≤ d.stage q) (fun d =>
    let x := d.spx i
    let header := l.take 16
    let len := fieldAt l 2 2
    let body := slice l 16 len
    let ackOnly := bitOf (fieldAt l 1 1) 0
    let ack := fieldAt l 8 4
    let whole := l.length == 20 + len && len ≤ 4096 && crc32c (header ++ body) == fieldAt l (16 + len) 4 && !(ackOnly && len != 0)
    if d.stage q < 4 then (if whole && (ackOnly || fieldAt l 0 1 == 5) then d else d.setSpx i { x with errors := x.errors + 1 })
    else if !whole then d.setSpx i { x with nak := true }
    else if d.stage q = 4 && !ackOnly && fieldAt l 0 1 != 5 then d.setSpx i { x with errors := x.errors + 1 }
    else
      match (if ackOnly then some [] else x.open_ header body) with
      | none => (d.inc O.fogLinkTagFailures).setSpx i { x with nak := true }
      | some payload =>
        let kept := if ackOnly && x.keyed then x.replay.map (fun k => if seqAfter k.seq ack then k else { k with sentNs := d.ns })
          else x.replay.filter (fun k => seqAfter k.seq ack)
        let d := d.setSpx i { x with replay := kept }
        let st := d.stage q
        let d := if bitOf (fieldAt l 1 1) 1 then d.replay i (fun k => seqAfter k.seq ack) else d
        if ackOnly || d.stage q != st then d else d.frameAccept i (fieldAt l 0 1) (fieldAt l 4 4) payload)

/-! What the link's commands do. -/

/-- A stage's completion condition holds on every port of the quad, and bring-up moves on (R65 steps 2 and 3). In TRAIN this side says READY
once every lane of the port has block lock, and PEER_READY once TRAIN with READY is received on every lane (log entry 99). -/
def Dev.stageAdvance (d : Dev) (q : Nat) : Dev :=
  let all := fun (d : Dev) (f : SpxLane → Bool) => (d.spxPorts q).all (fun i => d.spxAll i f)
  if d.stage q = 2 then
    let d := d.eachPort q (fun d i =>
      let x := d.spx i
      let r := x.ready || d.spxAll i (fun l => l.locked)
      let p := x.peerReady || d.spxAll i (fun l => l.ready)
      if r = x.ready && p = x.peerReady then d else (d.setSpx i { x with ready := r, peerReady := p }).sendTrain i)
    if all d (fun x => x.ready && x.peerReady) then d.enterStage q 3 else d
  else if d.stage q = 3 && all d (fun x => x.locked && 16 ≤ x.match_) && (d.spxPorts q).all d.deskewed then d.enterStage q 4
  else d

/-- A block is received on a lane of a Native port that is coming up or ACTIVE, or of a Spapax Tap port. Loss of block lock
counts as loss of lock (R56, R58, R66). -/
def blockEffect (q p lane : Nat) (levels : List Nat) (d : Dev) : Dev :=
  let i := 4 * q + p
  let native := d.role q == 5 && 1 ≤ d.stage q
  let tap := d.role q == 1 && d.nat O.portStandard q p == 0x30
  d.when (!d.stopped && (native || tap) && d.hasPort q p && lane < d.spxWidth i) (fun d =>
    let x := d.spx i
    let r := (SMap.getD x.lanes lane {}).block lane levels d.ns
    let d := d.setSpx i { x with lanes := SMap.setD x.lanes lane {} r.1 }
    let l := (d.lanesOf q p).getD lane 0
    if r.2 then
      let d := ((d.setLaneBit l 1 true).inc O.laneLolCount (l / 4) (l % 4)).abortEye l
      if native then d.spxLost q 2 else d.recheckLane l
    else if native then
      let y := (d.spx i).frames (d.spxWidth i) (r.1.fifo.length)
      let d := y.2.foldl (fun d f => d.frameIn i f) (d.setSpx i y.1)
      d.stageAdvance q
    else d.setSpx i { d.spx i with lanes := SMap.setD x.lanes lane {} { r.1 with fifo := [] } })

/-- A receiver-detect pulse is sent on every lane in DETECT (R65 step 1): done when termination is seen and LOS is clear on all lanes. -/
def detectEffect (q : Nat) (termination : Bool) (d : Dev) : Dev :=
  d.when (!d.stopped && d.role q == 5 && d.stage q == 1) (fun d =>
    let d := d.send (.pulse q)
    if termination && (d.spxPorts q).all (fun i => (d.lanesOf q (i % 4)).all (fun l => !bitOf (d.laneStat l) 0)) then d.enterStage q 2 else d)

/-- A stage has lasted its bound (R65, R66). A CAPS stage that ends without the peer's CAPS fails with CAPS, and without the
peer's authentication with AUTH (log entry 24). -/
def stageTimeoutEffect (q : Nat) (freq : Bool) (d : Dev) : Dev :=
  let st := d.stage q
  d.when (!d.stopped && 1 ≤ st && st ≤ 4 && (d.spx (4 * q)).stageNs + stageBound st ≤ d.ns) (fun d =>
    d.stageFail q (match st with
      | 1 => 1 | 2 => 2 | 3 => if freq then 4 else 3 | _ => if (d.spxPorts q).all (fun i => (d.spx i).capsSeen) then 6 else 5))

/-- A backoff ends and the port returns to step 1 (R66). -/
def backoffEffect (q : Nat) (d : Dev) : Dev :=
  match (d.spx (4 * q)).backoffNs with
  | none => d
  | some t => d.when (!d.stopped && decide (t ≤ d.ns) && d.on O.quadSpapaxEnable q) (fun d => d.detectStage q)

/-- A link-management frame is received, and accepted, in CAPS (R65). -/
def linkFrameEffect (q p : Nat) (m : LinkMsg) (d : Dev) : Dev :=
  let i := 4 * q + p
  d.when (!d.stopped && d.role q == 5 && d.hasPort q p && d.stage q == 4) (fun d => (d.setSpx i (d.spx i).accept).linkMessage i m)

/-- A frame is received whole (R63). -/
def frameEffect (q p : Nat) (l : List Byte) (d : Dev) : Dev := d.when (!d.stopped && d.hasPort q p) (fun d => d.frameIn (4 * q + p) l)

/-- Bytes held for replay: header, payload and CRC of each frame (R62, R63). -/
def SpxAux.held (x : SpxAux) : Nat := sumBy (fun k => 4 + k.bytes.length) x.replay

/-- The link sends: a NAK that is due, or the next frame that waits, when the 256 KiB replay buffer has room for it (R63); an acknowledgement
when nothing waits. -/
def frameSendEffect (q p : Nat) (d : Dev) : Dev :=
  let i := 4 * q + p
  d.when (!d.stopped && d.role q == 5 && d.hasPort q p && 4 ≤ d.stage q) (fun d =>
    let x := d.spx i
    if x.nak then (d.setSpx i { x with nak := false }).sendAck i true
    else
      match x.waiting with
      | [] => d.sendAck i false
      | k :: ks =>
        let b := x.build k
        if x.held + 4 + b.length ≤ 262144 then
          (d.setSpx i { x with waiting := ks, txSeq := (x.txSeq + 1) % 2 ^ 32,
                               txWrap := if x.txSeq = 2 ^ 32 - 1 then x.txWrap + 1 else x.txWrap,
                               replay := x.replay ++ [{ seq := x.txSeq, bytes := b, sentNs := d.ns }] }).sendFrame i b
        else d)

/-- No acknowledgement for 20 µs (R63): the frames after ACK_SEQ are replayed. -/
def ackTimeoutEffect (q p : Nat) (d : Dev) : Dev :=
  let i := 4 * q + p
  d.when (!d.stopped && d.hasPort q p && 4 ≤ d.stage q && (d.spx i).replay.any (fun k => decide (k.sentNs + 20000 ≤ d.ns))) (fun d => d.replay i (fun _ => true))

/-- The 16,384th block of each lane is ALIGN; IDLE has filled the lanes up to it (R59, R61, log entry 99). -/
def alignInsertEffect (q p : Nat) (d : Dev) : Dev :=
  let i := 4 * q + p
  d.when (!d.stopped && d.role q == 5 && d.hasPort q p && 3 ≤ d.stage q) (fun d =>
    let w := d.spxWidth i
    let x := SpxAux.idle w (16383 - (d.spx i).rows) (d.spx i)
    let y := x.alignRow w
    (d.setSpx i y.1).send (.spapax i [] y.2))

/-- RECEIVER_DETECT_PULSE. -/
def execReceiverDetectPulse (dt : Nat) (q : Fin 36) (termination : Bool) (s : State) : Host.Outcome State Fault Refusal :=
  run s dt (detectEffect q termination)

/-- SPAPAX_BLOCK. -/
def execSpapaxBlock (dt : Nat) (port : LinkEnd) (lane : Fin 8) (levels : List (Fin 4)) (s : State) : Host.Outcome State Fault Refusal :=
  run s dt (blockEffect port.q port.p lane (levels.map (fun l => l.val)))

/-- SPAPAX_STAGE_TIMEOUT. -/
def execSpapaxStageTimeout (dt : Nat) (q : Fin 36) (freq : Bool) (s : State) : Host.Outcome State Fault Refusal :=
  run s dt (stageTimeoutEffect q freq)

/-- LINK_MANAGEMENT_FRAME. -/
def execLinkManagementFrame (dt : Nat) (port : LinkEnd) (msg : LinkMsg) (s : State) : Host.Outcome State Fault Refusal :=
  run s dt (linkFrameEffect port.q port.p msg)

/-- SPAPAX_FRAME. -/
def execSpapaxFrame (dt : Nat) (port : LinkEnd) (bytes : List Byte) (s : State) : Host.Outcome State Fault Refusal :=
  run s dt (frameEffect port.q port.p bytes)

/-- SPAPAX_ACK_TIMEOUT. -/
def execSpapaxAckTimeout (dt : Nat) (port : LinkEnd) (s : State) : Host.Outcome State Fault Refusal :=
  run s dt (ackTimeoutEffect port.q port.p)

/-- SPAPAX_BACKOFF_EXPIRY. -/
def execSpapaxBackoffExpiry (dt : Nat) (q : Fin 36) (s : State) : Host.Outcome State Fault Refusal :=
  run s dt (backoffEffect q)

/-- SPAPAX_FRAME_SEND. -/
def execSpapaxFrameSend (dt : Nat) (port : LinkEnd) (s : State) : Host.Outcome State Fault Refusal :=
  run s dt (frameSendEffect port.q port.p)

/-- SPAPAX_ALIGN_INSERT. -/
def execSpapaxAlignInsert (dt : Nat) (port : LinkEnd) (s : State) : Host.Outcome State Fault Refusal :=
  run s dt (alignInsertEffect port.q port.p)

end Sys2Proof.Machine
end

