-- ==== Sys2Proof/Machine/Links.lean ====
section
/-! DEFINITION. PCIe links (R68 to R71), the references and holds of every role's ports (R38, R52), and the Vane ports as links (R72, R73). -/

set_option Elab.async false

namespace Sys2Proof.Machine

/-! PCIe. -/

/-- A hot reset or link down sets every mailbox slot to IDLE and discards the responses of their requests, unsent ones too (R264). It also takes the
endpoint's MSI-X enable and table back to their defaults, as PCIe 6.0 has it (PRESUMED, log entry 34). -/
def Dev.dropMailboxes (d : Dev) : Dev :=
  let mail := fun (r : Reply) => match r.path with
    | .mailbox _ => true
    | _ => false
  { d with dict := { d.dict with boxes := [], replies := d.dict.replies.filter (fun e => !mail e.2) },
           events := { d.events with msixControl := 0, msixTable := [] } }

/-- A PCIe link goes down with a reason: speed and width 0, LTSSM in Detect, the port DOWN (R50, R53). In a FLAP hold the reason
stays FLAP (R52). -/
def Dev.pcieFall (d : Dev) (q reason : Nat) : Dev :=
  let d := ((d.setNat O.pcieCurrentSpeed 0 q).setNat O.pcieCurrentWidth 0 q).setNat O.pcieLtssmState 0 q
  if d.nat O.portState q 0 = 2 then d.linkTransition q 0 0 reason
  else if d.flapHeld (4 * q) then d.setNat O.portState 0 q 0
  else (d.setNat O.portState 0 q 0).setNat O.portDownReason reason q 0

/-- With reason PCIE (R50). -/
def Dev.pcieDown (d : Dev) (q : Nat) : Dev := d.pcieFall q 7

/-- Quad of the Host port (R35): Q00 when it carries Host. -/
def Dev.hasHost (d : Dev) : Bool := d.role 0 == 3

/-- The Host link goes down: capture, triggers, store, replay and open transactions go on (R70, R264). -/
def hostDownEffect (d : Dev) : Dev := d.when d.hasHost (fun d => d.dropMailboxes.pcieDown 0)

/-- A completion has not come within Pcie.CompletionTimeout: the read of the engine at a network interface fails (R70, R71). -/
def completionTimeoutEffect (q ni : Nat) (d : Dev) : Dev :=
  d.when (d.role q == 3 || d.role q == 4) (fun d => (d.inc O.pcieCompletionTimeouts q).send (.noc ni false []))

/-- A Storage link goes down unasked, or fails to train (R71). -/
def Dev.surpriseDown (d : Dev) (q : Nat) : Dev :=
  let d := d.pcieDown q
  let d := d.inc O.pcieSurpriseDownCount q
  { d with links := { d.links with retrainNs := SMap.ins d.links.retrainNs q d.ns, retried := SMap.del d.links.retried q } }

/-- A Storage port whose reference is good and that no FLAP hold keeps DOWN (R38, R52) retrains every Pcie.RetrainInterval, with a pulse of its PERST_N first (R444); an attempt that has not brought the link up before the next is a
training failure, and is counted (R71). -/
def retrainEffect (q : Nat) (d : Dev) : Dev :=
  match SMap.find d.links.retrainNs q with
  | none => d
  | some t =>
    d.when (d.role q == 4 && d.refGood q && !d.flapHeld (4 * q) && decide (t + 1000000 * d.nat O.pcieRetrainInterval q ≤ d.ns)) (fun d =>
      let d := if (SMap.find d.links.retried q).isSome then d.inc O.pcieSurpriseDownCount q else d
      let d := (d.setNat O.pcieLtssmState 1 q).setNat O.portState 1 q 0
      let d := (d.send (.perst q true)).send (.perst q false)
      { d with links := { d.links with retrainNs := SMap.ins d.links.retrainNs q d.ns, retried := SMap.ins d.links.retried q 1 } })

/-- A PCIe link trains, at no more than the target speed and four lanes of a root port, and the port is UP (R53, R70, R71), unless its
reference is bad or a FLAP hold keeps it DOWN (R38, R52). -/
def Dev.pcieUp (d : Dev) (q speed width : Nat) : Dev :=
  d.when (d.refGood q && !d.flapHeld (4 * q)) (fun d =>
    let root := d.role q == 4
    let d := (d.setNat O.pcieCurrentSpeed (if root then min speed (d.nat O.pcieTargetSpeed q) else speed) q)
    let d := (d.setNat O.pcieCurrentWidth (if root then min width 4 else width) q).setNat O.pcieLtssmState 4 q
    let d := { d with links := { d.links with retrainNs := SMap.del d.links.retrainNs q, retried := SMap.del d.links.retried q } }
    if d.nat O.portState q 0 = 2 then d else d.linkTransition q 0 2 0)

/-! What holds a port of any role DOWN (R38, R52). -/

/-- A FLAP hold ends 1 s after the transition that began it, and the port proceeds from step 1 (R52). -/
def flapEndEffect (q p : Nat) (d : Dev) : Dev :=
  match (d.port (4 * q + p)).flapNs with
  | none => d
  | some t =>
    d.when (t + 1000000000 ≤ d.ns) (fun d => ((d.updPort (4 * q + p) (fun a => { a with flapNs := none })).recheck q p).spxResume q)

/-- A port of any role that is not DOWN goes DOWN with a reason that its own protocol does not give. -/
def Dev.portFall (d : Dev) (q p reason : Nat) : Dev :=
  match d.role q with
  | 5 => if d.stage q = 5 then d.activeFall q 8 reason
    else if d.stage q = 0 then d
    else (d.enterStage q 0).eachPort q (fun d i => d.setNat O.portDownReason reason q (i % 4))
  | 3 | 4 => if d.nat O.portState q 0 = 0 then d else d.pcieFall q reason
  | _ => d.goDown q p reason

/-- A port that is DOWN already is held so with LOL, unless a FLAP hold or a LOCKOUT holds it (R38, R52, R66). -/
def Dev.heldLol (d : Dev) (q p : Nat) : Dev :=
  if d.role q != 0 && d.hasPort q p && d.nat O.portState q p == 0 && !d.flapHeld (4 * q + p) && !(d.role q == 5 && (d.spx (4 * q)).lockout)
  then d.setNat O.portDownReason 2 q p else d

/-- The reference of a group has changed: its ports are held DOWN with LOL while it is bad (R38); those that their lanes govern go DOWN by their
debounce (R49). -/
def Dev.refHold (d : Dev) (b : Nat) : Dev :=
  if d.refGood b then d.spxResume b
  else
    let d := if d.role b = 3 ∨ d.role b = 4 ∨ d.role b = 5 then d.portFall b 0 2 else d
    (upTo 4).foldl (fun d p => d.heldLol b p) d

/-- The reference of a quad is found absent (0), present (1) or out of tolerance (2) (R38). It is measured while the
quad's lane-group domain is ON. The 100 ms of a Storage quad's PERST_N run from it (R444). -/
def refclkEffect (q status : Nat) (d : Dev) : Dev :=
  d.when (d.nat O.powerDomainState 0 0 (32 + q / 3) == 1) (fun d =>
    let d := if status = 1 && d.role q = 4 && (SMap.find d.pins.refNs q).isNone then
        { d with pins := { d.pins with refNs := SMap.ins d.pins.refNs q d.ns } }
      else if status = 1 then d else { d with pins := { d.pins with refNs := SMap.del d.pins.refNs q } }
    ((d.setNat O.quadRefClkStatus status q).recheckQuad q).refHold (d.base q))

/-- FLAP_HOLD_EXPIRY. -/
def execFlapHoldExpiry (dt : Nat) (q : Fin 36) (p : Fin 4) (s : State) : Host.Outcome State Fault Refusal :=
  run s dt (flapEndEffect q p)

/-- REFCLK_STATUS_CHANGE. -/
def execRefclkStatusChange (dt : Nat) (q : Fin 36) (status : Fin 3) (s : State) : Host.Outcome State Fault Refusal :=
  run s dt (refclkEffect q status)

/-- An inbound request on a Storage port: accepted only inside a range that the Storage Engine has assigned, otherwise
answered as Unsupported Request and counted (R71). -/
def inboundEffect (q addr len : Nat) (d : Dev) : Dev :=
  d.when (d.role q == 4) (fun d =>
    let ok := match SMap.find d.links.assigned q with
      | some (b, n) => b ≤ addr && addr + len ≤ b + n
      | none => false
    if ok then d
    else
      let d := { d with links := { d.links with refused := SMap.ins d.links.refused q (SMap.getD d.links.refused q 0 + 1) } }
      d.send (.refuse q addr))

/-! Vane ports. -/

/-- Vane.Mode in force: RESET class (R73). -/
def Dev.vaneMode (d : Dev) (v : Nat) : Nat :=
  ((SMap.find d.inForce (O.vaneMode.key v 0 0)).getD (O.vaneMode.default v 0 0)).nat

/-- Vane.MacAddress in force: RESET class, at first the fused one (R73, R74). -/
def Dev.vaneMac (d : Dev) (v : Nat) : List Byte :=
  match SMap.find d.inForce (O.vaneMacAddress.key v 0 0) with
  | some x => x.bytes
  | none => ((d.boot.fused.find? (fun f => f.1 == 0x1800 + 0x40 * v && f.2.1 == 2)).map (fun f => f.2.2)).getD (zeros 6)

/-- The IPv6 link-local address derived from a MAC address: the modified EUI-64 of RFC 4291 (R72, log entry 98). -/
def linkLocal (mac : List Byte) : List Byte :=
  [0xFE, 0x80] ++ zeros 6 ++ [mac.getD 0 0 ^^^ 2, mac.getD 1 0, mac.getD 2 0, 0xFF, 0xFE] ++ (mac.drop 3).take 3

/-- What the port sends from. -/
def Dev.vaneOwn (d : Dev) (v : Nat) : VaneAddr :=
  { mac := d.vaneMac v, ip4 := d.octs O.vaneIpv4Address v, ip6 := d.octs O.vaneIpv6Address v, local_ := linkLocal (d.vaneMac v),
    udp := d.nat O.vaneUdpPort v, vlan := d.nat O.vaneVlanId v, prefix4 := d.nat O.vaneIpv4Prefix v, gateway := d.octs O.vaneIpv4Gateway v,
    prefix6 := d.nat O.vaneIpv6Prefix v }

/-- An address is the port's own: IPv4 unless all zero, IPv6 unless all zero, or link-local (R72, R74). -/
def VaneAddr.has (a : VaneAddr) (dst : List Byte) : Bool :=
  dst.any (fun b => b != 0) && (dst == a.ip4 || dst == a.ip6 || dst == a.local_)

/-- An IPv6 multicast address. -/
def v6Multicast (dst : List Byte) : Bool := dst.length == 16 && dst.headD 0 == 0xFF

/-- The port accepts a frame of this kind to an address (R73): ARP, also as a broadcast, unless IPv4 is disabled (R74); neighbour discovery, also as a
multicast; PTP goes to its multicast addresses too. -/
def Dev.vaneAccepts (d : Dev) (v : Nat) (k : VaneKind) (dst : List Byte) : Bool :=
  let a := d.vaneOwn v
  let own := a.has dst
  match k with
  | .arp => a.v4On && (own || dst.isEmpty)
  | .nd => own || v6Multicast dst
  | .echo => d.on O.vaneEchoEnable v && own
  | .udp port => (port == d.nat O.vaneUdpPort v && own) || ((port == 319 || port == 320) && d.nat O.timeDisciplinePtpPort == v && (dst.length != 4 || a.v4On))
  | .ptp => d.nat O.timeDisciplinePtpPort == v
  | .frag _ => own
  | .other => false

/-- The first fragment of a datagram: at most 16 reassemblies are pending, and one more is dropped and counted (R257, log entry 63). -/
def Dev.fragment (d : Dev) (v id : Nat) : Dev :=
  if d.dict.reass.any (fun (r : Reassembly) => r.vane == v && r.id == id) then d
  else if d.dict.reass.length < 16 then { d with dict := { d.dict with reass := d.dict.reass ++ [({ vane := v, id := id, ns := d.ns } : Reassembly)] } }
  else d.inc O.vaneDroppedFrames v

/-- A frame arrives on a Vane port that is up: on its VLAN and of an accepted kind, or dropped and counted. ARP and neighbour
discovery that ask for an address of the port are answered, and so is echo. -/
def vaneFrameEffect (v : Nat) (k : VaneKind) (vlan : Nat) (dst target : List Byte) (d : Dev) : Dev :=
  d.when (d.on O.vaneLinkState v) (fun d =>
    if vlan == d.nat O.vaneVlanId v && d.vaneAccepts v k dst then
      let asked := (d.vaneOwn v).has (if target.isEmpty then dst else target)
      match k with
      | .arp => if asked then d.send (.frame v (d.vaneOwn v) .arp) else d
      | .nd => if asked then d.send (.frame v (d.vaneOwn v) .nd) else d
      | .echo => d.send (.frame v (d.vaneOwn v) .echo)
      | .frag id => d.fragment v id
      | _ => d
    else d.inc O.vaneDroppedFrames v)

/-- The lockout of a source ends (R73). -/
def vaneLockoutEffect (v : Nat) (src : List Byte) (d : Dev) : Dev :=
  { d with links := { d.links with sources := d.links.sources.map (fun x =>
      if x.vane == v && x.source == src && x.untilNs.any (fun t => decide (t ≤ d.ns)) then { x with untilNs := none, fails := [] }
      else x) } }

/-- The link of a Vane port changes; a port whose mode is off has none. Open transactions stay (R272). -/
def vaneLinkEffect (v : Nat) (up : Bool) (d : Dev) : Dev :=
  d.when (!up || (d.vaneMode v != 0 && !d.boot.monitor)) (fun d => d.setNat O.vaneLinkState (b2n up) v)

/-- HOST_LINK_DOWN. -/
def execHostLinkDown (dt : Nat) (s : State) : Host.Outcome State Fault Refusal := run s dt hostDownEffect

/-- PCIE_COMPLETION_TIMEOUT. -/
def execPcieCompletionTimeout (dt : Nat) (read : HostRead) (s : State) : Host.Outcome State Fault Refusal :=
  run s dt (completionTimeoutEffect read.q read.ni)

/-- PCIE_RETRAIN. -/
def execPcieRetrain (dt : Nat) (q : Fin 36) (s : State) : Host.Outcome State Fault Refusal := run s dt (retrainEffect q)

/-- PCIE_INBOUND_REQUEST. -/
def execPcieInboundRequest (dt : Nat) (q : Fin 36) (addr len : Nat) (s : State) : Host.Outcome State Fault Refusal :=
  run s dt (inboundEffect q addr len)

/-- VANE_FRAME. -/
def execVaneFrame (dt : Nat) (v : Fin 2) (kind : VaneKind) (dest : VaneDest) (s : State) :
    Host.Outcome State Fault Refusal := run s dt (vaneFrameEffect v kind dest.vlan dest.dst dest.target)

/-- VANE_LOCKOUT_EXPIRY. -/
def execVaneLockoutExpiry (dt : Nat) (v : Fin 2) (source : List Byte) (s : State) : Host.Outcome State Fault Refusal :=
  run s dt (vaneLockoutEffect v source)

/-- VANE_LINK_CHANGE. -/
def execVaneLinkChange (dt : Nat) (v : Fin 2) (up : Bool) (s : State) : Host.Outcome State Fault Refusal :=
  run s dt (vaneLinkEffect v up)

end Sys2Proof.Machine
end

