-- ==== Sys2Proof/Machine/Capture.lean ====
section
/-! DEFINITION. Capture: from received units to closed packets (R84 to R90, R97 to R111, R454). -/

set_option Elab.async false

namespace Sys2Proof.Machine

/-! Units. -/

/-- TYPE of a unit's record (R82). -/
def unitType (k : UnitKind) : Nat :=
  match k with
  | .eth => 1 | .tlp => 2 | .dllp => 3 | .flit => 4 | .oset => 5 | .raw => 6 | .spapax => 7 | .idle _ => 0

/-- The stamp of a unit in fine steps: the replica of the physical lane's quad, the 10-bit position and the lane's user offset (R17, R18). The
position is that of arrival at the ball, so half a unit interval and the factory's path delay are in it (log entry 108). -/
def Dev.stamp (d : Dev) (pos lane : Nat) : Nat :=
  (((((d.quadCount (lane / 4) + pos / 256) * 256 + pos % 256 : Nat) : Int) + d.int O.timeBaseLaneOffset 0 0 lane) % 2 ^ 72).toNat

/-- What a unit counts as: the fold kind of an idle unit (R89), with FoldSkip deciding on standard SKP ordered sets (R86) and
RawFill on raw blocks; 0 for any other unit. -/
def Dev.foldKind (d : Dev) (q p : Nat) (u : RxUnit) : Nat :=
  let skip := d.on O.captureEngineFoldSkip (dieOf q)
  match u.kind with
  | .idle k => if k.val = 4 && !skip then 0 else k.val
  | .oset => if u.skp && skip then 4 else 0
  | .raw => if leNat u.bytes = d.nat O.capturePortRawFill q p then 7 else 0
  | _ => 0

/-- The unit makes a record of its own under CaptureEngine.PcieRecords (R86). Flit mode is negotiated at 64 GT/s, and at a lower rate once a
flit has been received since the port came up (log entry 108). -/
def Dev.recorded (d : Dev) (q p : Nat) (k : UnitKind) : Bool :=
  let m := d.nat O.captureEnginePcieRecords (dieOf q)
  let flit := d.nat O.portPcieSpeed q p == 6 || (d.port (4 * q + p)).flit
  match k with
  | .tlp | .dllp => !(m == 1 && flit)
  | .flit => m != 0
  | _ => true

/-- A unit of an Ethernet Tap port in MONITOR, whose data passes uncorrected (R40); that of a PCIe flit is after correction (R82). -/
def Dev.monitors (d : Dev) (q p : Nat) : Bool := d.nat O.portFecMode q p == 1 && d.nat O.portStandard q p != 0x20

/-- The bytes of a unit under Port.FecMode: corrected in DECODE, as they came in MONITOR (R40). -/
def Dev.unitBytes (d : Dev) (q p : Nat) (u : RxUnit) : List Byte :=
  if d.monitors q p then
    u.errs.foldl (fun l e => (upTo l.length).map (fun i => if i = e.1 then l.getD i 0 ^^^ e.2 else l.getD i 0)) u.bytes
  else u.bytes

/-- The unit's own check failed: the Ethernet FCS, over the bytes as passed (R40), the CRC of a Spapax frame, or what the operand says. -/
def unitFcs (u : RxUnit) (l : List Byte) : Bool :=
  match u.kind with
  | .eth => l.drop (l.length - 4) != ethFcs (l.take (l.length - 4))
  | .spapax => l.drop (l.length - 4) != leBytes 4 (crc32c (l.take (l.length - 4)))
  | _ => u.fcsErr

/-- A Spapax frame's header or length violates R62 (R87). R62 gives the CLASS of an ACK_ONLY frame no value: any is taken as no violation (DESIGN CHOICE,
log entry 111). -/
def spapaxBad (l : List Byte) : Bool :=
  l.length != 20 + fieldAt l 2 2 || 4096 < fieldAt l 2 2 || 4 ≤ fieldAt l 1 1 || fieldAt l 12 4 != 0 ||
  (bitOf (fieldAt l 1 1) 0 && fieldAt l 2 2 != 0) || !(bitOf (fieldAt l 1 1) 0 || (1 ≤ fieldAt l 0 1 && fieldAt l 0 1 ≤ 5))

/-- FLAGS that a unit brings (R80, R85 to R87). -/
def Dev.unitFlags (d : Dev) (q p : Nat) (u : RxUnit) (l : List Byte) (folded : Bool) : Nat :=
  let oversz := match u.kind with
    | .eth => decide (d.nat O.captureEngineEthMaxFrame (dieOf q) < l.length)
    | .tlp => u.oversize
    | _ => false
  let sym := u.symErr || u.overBad || (d.monitors q p && !u.errs.isEmpty)
  let frame := u.framing || (u.kind == .spapax && spapaxBad l)
  flagIf (unitFcs u l) flagFcsErr + flagIf sym flagSymErr + flagIf folded flagFolded + flagIf oversz flagOversize + flagIf frame flagDecodeErr

/-- Runs that a unit of a fold kind (0: none) on a lane ends: every other run; kind 0x07 runs of other lanes go on. -/
def endsRun (kind lane : Nat) (f : FoldRun) : Bool :=
  if f.kind = 7 then f.lane = lane && kind != 7 else f.kind != kind

/-- Close the runs that a unit ends; the answer says whether one of them made a fold record (R90). -/
def Dev.breakFolds (d : Dev) (q p kind lane : Nat) : Bool × Dev :=
  let a := d.port (4 * q + p)
  let gone := a.folds.filter (endsRun kind lane)
  let d := d.updPort (4 * q + p) (fun a => { a with folds := a.folds.filter (fun f => !endsRun kind lane f) })
  let long := gone.any (fun f => f.count != 0 && (f.contd || decide (d.nat O.captureEngineFoldMin (dieOf q) ≤ f.count)))
  (long, gone.foldl (fun d f => d.closeFold q p f) d)

/-- An idle unit extends the run of its kind, or begins one (R89); `stop` is the tick of its end. A commit of CapturePort.RawFill ends no run: blocks
of the old fill and of the new make one run if nothing comes between (log entry 100). -/
def Dev.foldUnit (d : Dev) (q p kind lane tick fine stop : Nat) : Dev :=
  d.updPort (4 * q + p) (fun a =>
    let mine := fun (f : FoldRun) => f.kind == kind && (kind != 7 || f.lane == lane)
    if a.folds.any mine then
      { a with folds := updateFirst mine (fun f => { f with count := f.count + 1, endTick := stop % 2 ^ 64, tick := if f.count = 0 then tick else f.tick, fine := if f.count = 0 then fine else f.fine }) a.folds }
    else
      { a with folds := a.folds ++ [{ kind := kind, lane := if kind = 7 then lane else 0, tick := tick, fine := fine,
                                      startNs := d.ns, endTick := stop % 2 ^ 64 }] })

/-- A raw block joins the batch of its lane; a full batch becomes a record (R88). -/
def Dev.rawUnit (d : Dev) (q p : Nat) (u : RxUnit) (tick fine flags : Nat) : Dev :=
  let s := d.nat O.capturePortSession q p
  let a := d.port (4 * q + p)
  let mine := fun (b : RawBatch) => b.lane == u.lane
  let b : RawBatch := match a.raws.find? mine with
    | some b => { b with blocks := b.blocks ++ [fit 8 u.bytes], flags := Nat.lor b.flags flags }
    | none => { lane := u.lane, tick := tick, fine := fine, blocks := [fit 8 u.bytes], session := s, flags := flags }
  let rest := a.raws.filter (fun b => !mine b)
  if d.nat O.captureEngineRawBatch (dieOf q) ≤ b.blocks.length then
    (d.setPort (4 * q + p) { a with raws := rest }).closeRaw q p b
  else d.setPort (4 * q + p) { a with raws := rest ++ [b] }

/-- Units are recorded on the port now: it captures, is UP and locked, its engine is in RUN, the device is not halted (R95
step 2, R110, R111). -/
def Dev.observing (d : Dev) (q p : Nat) : Bool :=
  d.tapping q p && d.portUp q p && (d.port (4 * q + p)).unobs.isNone &&
  d.nat O.captureEngineState (dieOf q) == 0 && !d.stopped

/-- Bytes in words. -/
def wordsOf (n : Nat) : Nat → List Byte → List (List Byte)
  | 0, _ => []
  | k + 1, l => if l.isEmpty then [] else l.take n :: wordsOf n k (l.drop n)

/-- Data of a lane of a Raw quad passes to fabric logic (R42). -/
def Dev.rawData (d : Dev) (q p : Nat) (u : RxUnit) : Dev :=
  let w := parallelWidth (d.nat O.portLaneRate q p)
  d.send (.parallel q ((d.lanesOf q p).getD u.lane (4 * q)) w (wordsOf (w / 8) u.bytes.length u.bytes))

/-- A unit is observed: folded, or made into a record that goes through the filters (R85 to R92). -/
def Dev.takeUnit (d : Dev) (q p : Nat) (u : RxUnit) : Dev :=
  let st := d.stamp u.pos.val ((d.lanesOf q p).getD u.lane (4 * q))
  let tick := st / 256
  let fine := st % 256
  let kind := d.foldKind q p u
  let x := d.breakFolds q p kind u.lane
  let d := x.2
  if kind != 0 then
    let d := if kind = 7 then
        let bs := (d.port (4 * q + p)).raws.filter (fun b => b.lane == u.lane)
        bs.foldl (fun d b => d.closeRaw q p b)
          (d.updPort (4 * q + p) (fun a => { a with raws := a.raws.filter (fun b => !(b.lane == u.lane)) }))
      else d
    d.foldUnit q p kind u.lane tick fine ((st + 256 * u.ticks + u.fine.val) / 256)
  else
    let l := d.unitBytes q p u
    let fl := d.unitFlags q p u l x.1
    match u.kind with
    | .raw => d.rawUnit q p { u with bytes := l } tick fine fl
    | k => d.passUnit q p { type := if unitType k = 0 then 5 else unitType k, tick := tick, fine := fine, flags := fl, payload := l }

/-- A unit arrives at the ball (R42, R85 to R90): FEC counts, then decode. Its end is that of its last symbol, in ticks, rounded up. -/
def unitEffect (q p : Nat) (u : RxUnit) (d : Dev) : Dev :=
  if d.role q = 6 then d.when (d.hasPort q p && d.rxOn q) (fun d => d.rawData q p u)
  else
    d.when (d.hasPort q p && d.role q == 1 && d.portUp q p) (fun d =>
      let d := (d.add O.portFecCorrected u.cwFixed q p).add O.portFecUncorrected u.cwBad q p
      let d := d.updPort (4 * q + p) (fun a => { a with
        eios := u.eios, flit := a.flit || u.kind == .flit,
        unitEnd := 4 * d.ns + (u.pos.val + 256 * u.ticks + u.fine.val + 255) / 256 })
      d.when (d.observing q p && d.recorded q p u.kind) (fun d => d.takeUnit q p u))

/-- A run reaches FoldMaxSpan: its record, and a new run at once that is exempt from FoldMin (R90). A part shorter than
FoldMin makes no record (log entry 25). -/
def foldSpanEffect (q p lane : Nat) (d : Dev) : Dev :=
  let span := 1000 * d.nat O.captureEngineFoldMaxSpan (dieOf q)
  let due := fun (f : FoldRun) => f.lane == lane && decide (f.startNs + span ≤ d.ns) && f.count != 0
  match (d.port (4 * q + p)).folds.find? due with
  | none => d
  | some f =>
    let g : FoldRun := { f with count := 0, tick := f.endTick, fine := f.fine, startNs := d.ns, contd := true }
    (d.updPort (4 * q + p) (fun a => { a with folds := updateFirst due (fun _ => g) a.folds })).closeFold q p f

/-! Ingest buffers and loss runs (R100 to R102). -/

/-- A gap record that lies in a buffer's reserve: REASON INGEST_FULL or SRAM_ERROR. -/
def Rec.lossGap (r : Rec) : Bool :=
  r.type == 0x11 && (fieldAt r.payload 32 1 == 1 || fieldAt r.payload 32 1 == 4)

/-- The buffer that a port's records arrive at: the ingest buffer of its quad, or the link FIFO of its die (R454). -/
def Dev.bufferOf (d : Dev) (q : Nat) : Ingest :=
  if d.role q = 1 then d.ingest q else (d.eng (dieOf q)).link

/-- Set it. -/
def Dev.setBuffer (d : Dev) (q : Nat) (x : Ingest) : Dev :=
  if d.role q = 1 then d.setIngest q x else d.setEng (dieOf q) { d.eng (dieOf q) with link := x }

/-- Its bytes: those of every quad of a group together; 16,384 for the link FIFO (R100, R454). -/
def Dev.bufferBytes (d : Dev) (q : Nat) : Nat :=
  if d.role q = 1 then 262144 * layoutQuads (d.nat O.quadLayout q) else 16384

/-- Its bytes reserved for gap records. -/
def Dev.bufferReserve (d : Dev) (q : Nat) : Nat :=
  if d.role q = 1 then 4096 * layoutQuads (d.nat O.quadLayout q) else 4096

/-- Packets that a FIFO holds, those whose writes are not acknowledged among them: its number is the quad, or 36 for the link FIFO. -/
def EngAux.packetsOf (x : EngAux) (k : Nat) (f : Fifo) : List Packet :=
  (x.flights.filter (fun y => y.fifo == k)).map (fun y => y.pkt) ++ f.draining ++ f.filling ++ f.cur.toList

/-- The records that a buffer holds; the link FIFO is one store with its packets (R454). -/
def Dev.bufferRecs (d : Dev) (q : Nat) : List Rec :=
  if d.role q = 1 then (d.ingest q).q
  else
    let x := d.eng (dieOf q)
    x.link.q ++ (x.packetsOf 36 x.linkFifo).flatMap (fun p => p.recs)

/-- Bytes of records outside the reserve, and of the length words of the link FIFO's packets. -/
def Dev.bufferUsed (d : Dev) (q : Nat) : Nat :=
  let x := d.eng (dieOf q)
  sumBy Rec.size ((d.bufferRecs q).filter (fun r => !r.lossGap)) + (if d.role q = 1 then 0 else 8 * (x.packetsOf 36 x.linkFifo).length)

/-- Bytes of the reserve in use. -/
def Dev.bufferReserved (d : Dev) (q : Nat) : Nat := sumBy Rec.size ((d.bufferRecs q).filter Rec.lossGap)

/-- All bytes that an ingest buffer holds. -/
def Ingest.level (x : Ingest) : Nat := sumBy Rec.size x.q

/-- Set a buffer that has taken a record, and IngestPeak (R112). -/
def Dev.fillBuffer (d : Dev) (q : Nat) (x : Ingest) : Dev :=
  let d := d.setBuffer q x
  if d.role q = 1 then d.peak O.captureAdmissionIngestPeak x.level q else d

/-- Bytes of one bank of a record FIFO (R106). -/
def Dev.bankBytes (d : Dev) (q : Nat) : Nat :=
  if d.role q = 1 then 524288 * layoutQuads (d.nat O.quadLayout q) else 16384

/-- The banks exchange roles: the draining one is empty, its writes acknowledged (R167), and the filling one holds a closed packet (R106). 
An open packet stays in its bank. -/
def Fifo.swap (f : Fifo) : Fifo :=
  if f.draining.isEmpty && f.flying == 0 && !f.curDrains && !f.filling.isEmpty then
    { f with draining := f.filling, filling := [], curDrains := f.cur.isSome, drainUsed := sumBy Packet.size f.filling }
  else f

/-- The bank of the open packet, or the filling bank with a new one, has room for some bytes. -/
def Fifo.room (f : Fifo) (bank size : Nat) : Bool :=
  let closed := if f.curDrains then f.drainUsed else sumBy Packet.size f.filling
  decide (closed + (match f.cur with
    | some p => p.size
    | none => 8) + size ≤ bank)

/-- Put a record into the open packet, after the packet closures it causes (R107, R108). The answer says whether the bank had room. -/
def Fifo.intake (f : Fifo) (bank psize ns : Nat) (r : Rec) : Bool × Fifo :=
  let f := match f.cur with
    | none => f
    | some p =>
      if p.session != r.session then (f.closeCur 3 ns).swap
      else if psize < p.size + r.size then (f.closeCur 0 ns).swap
      else f
  let f := if f.room bank r.size then f else (f.closeCur 4 ns).swap
  if f.room bank r.size then
    match f.cur with
    | some p => (true, { f with cur := some { p with recs := p.recs ++ [r] } })
    | none =>
      let p : Packet := { session := r.session, recs := [r], openNs := ns }
      let f := { f with cur := some p }
      (true, if psize < 8 + r.size then (f.closeCur 0 ns).swap else f)
  else (false, f)

/-- The FIFO of a port's records. -/
def Dev.fifoOf (d : Dev) (q : Nat) : Fifo :=
  if d.role q = 1 then d.fifo q else (d.eng (dieOf q)).linkFifo

/-- Set it. -/
def Dev.setFifoOf (d : Dev) (q : Nat) (f : Fifo) : Dev :=
  if d.role q = 1 then d.setFifo q f else d.setEng (dieOf q) { d.eng (dieOf q) with linkFifo := f }

/-- The unreserved part of a buffer has room for a record, and for the length word of a packet of the link FIFO (R101). -/
def Dev.bufferRoom (d : Dev) (q : Nat) (r : Rec) : Bool :=
  decide (d.bufferUsed q + r.size + (if d.role q = 1 then 0 else 8) + d.bufferReserve q ≤ d.bufferBytes q)

/-- The FIFO is full for a record (BP of R98); the link FIFO is its own buffer (R454). -/
def Dev.fifoFull (d : Dev) (q : Nat) (r : Rec) : Bool :=
  if d.role q != 1 then !d.bufferRoom q r
  else !((d.fifoOf q).intake (d.bankBytes q) (d.nat O.captureEnginePacketSize (dieOf q)) d.ns r).1

/-- The gap record of a loss run: its SEQ follows those lost, its session is the one that its port captures into as it is made (R98, log
entries 26 and 100). -/
def Dev.lossRec (d : Dev) (q p : Nat) (l : LossRun) : Rec :=
  { type := 0x11, tick := l.tick, fine := l.fine, session := d.nat O.capturePortSession q p, source := d.source q p,
    seq := (l.first + l.count) % 2 ^ 32, port := 4 * q + p, flags := flagIf l.settle flagSettle + flagIf l.gap flagGap + flagIf l.down flagLinkDown,
    payload := gapPayload l.tick l.lastTick l.bytes l.first l.count l.reason l.bp }

/-- SEQ a is b or comes after it. -/
def seqFrom (a b : Nat) : Bool := a == b || seqAfter a b

/-- The SEQ after one that a new gap record takes: later ones move up (R98, R99, log entry 26). -/
def bumpSeq (seq from_ : Nat) : Nat := if seqFrom seq from_ then (seq + 1) % 2 ^ 32 else seq

/-- A record of a port whose SEQ moves up, with the FIRST_SEQ of a gap record. -/
def Rec.bump (i from_ : Nat) (r : Rec) : Rec :=
  if r.port != i then r
  else { r with seq := bumpSeq r.seq from_,
                payload := if r.type = 0x11 then r.payload.take 24 ++ leBytes 4 (bumpSeq (fieldAt r.payload 24 4) from_) ++ r.payload.drop 28 else r.payload }

/-- A packet of such records. -/
def Packet.bump (i from_ : Nat) (p : Packet) : Packet := { p with recs := p.recs.map (Rec.bump i from_) }

/-- A FIFO of such packets. -/
def Fifo.bump (i from_ : Nat) (f : Fifo) : Fifo :=
  { f with cur := f.cur.map (Packet.bump i from_), filling := f.filling.map (Packet.bump i from_), draining := f.draining.map (Packet.bump i from_) }

/-- A loss run of such records. -/
def LossRun.bump (from_ : Nat) (l : LossRun) : LossRun := { l with first := bumpSeq l.first from_ }

/-- The port that SOURCE bits [13:6] name. -/
def sourcePort (source : Nat) : Nat := bitsOf source 13 6

/-- A unit that caused an event, whose record moves up. -/
def Subject.bump (i from_ : Nat) (s : Subject) : Subject := if sourcePort s.source = i then { s with seq := bumpSeq s.seq from_ } else s

/-- An occurrence with such subjects. -/
def Occ.bump (i from_ : Nat) (o : Occ) : Occ := { o with subjects := o.subjects.map (Subject.bump i from_) }

/-- A trigger mark that names such a subject (R127). -/
def Rec.bumpSubject (i from_ : Nat) (r : Rec) : Rec :=
  if r.type = 0x14 ∧ sourcePort (fieldAt r.payload 20 2) = i ∧ bitOf (fieldAt r.payload 24 1) 1 then
    { r with payload := r.payload.take 16 ++ leBytes 4 (bumpSeq (fieldAt r.payload 16 4) from_) ++ r.payload.drop 20 }
  else r

/-- A gap record takes the SEQ after those lost, and the records of its port that lie behind it, with what names them, move up by one (R98, R99,
log entry 26). -/
def Dev.makeRoom (d : Dev) (i from_ : Nat) : Dev :=
  let q := i / 4
  let d := d.updPort i (fun a => { a with seq := (a.seq + 1) % 2 ^ 32, held := a.held.map (Rec.bump i from_), loss := a.loss.map (LossRun.bump from_),
                                          owed := a.owed.map (LossRun.bump from_) })
  let b := d.bufferOf q
  let d := (d.setBuffer q { b with q := b.q.map (Rec.bump i from_) }).setFifoOf q ((d.fifoOf q).bump i from_)
  let d := { d with events := { d.events with
    inputs := d.events.inputs.map (fun (x : FrontIn) => { x with occ := x.occ.bump i from_ }),
    taken := d.events.taken.map (fun (x : Taken) => { x with sel := x.sel.map (Occ.bump i from_) }),
    carry := d.events.carry.map (fun (x : Nat × Occ) => (x.1, x.2.bump i from_)) } }
  (upTo 144).foldl (fun d j => d.updPort j (fun a => { a with
    held := a.held.map (Rec.bumpSubject i from_), stage := a.stage.map (fun x => { x with r := x.r.bumpSubject i from_ }) })) d

/-- Counts of a gap record of lost records (R112). -/
def Dev.countGap (d : Dev) (q p : Nat) (l : LossRun) : Dev :=
  let d := d.add O.capturePortLostRecords l.count q p
  let d := d.add O.capturePortLostBytes l.bytes q p
  d.inc O.capturePortGapRecords q p

/-- The gap record of a run goes into the reserve, behind what its buffer holds (R102). It carries GAP behind another gap record (R80). -/
def Dev.placeRun (d : Dev) (q p : Nat) (l : LossRun) : Dev :=
  let i := 4 * q + p
  let r := d.lossRec q p l
  let r := if (d.port i).gapNext then r.setFlag flagGap else r
  let d := d.makeRoom i r.seq
  let b := d.bufferOf q
  ((d.fillBuffer q { b with q := b.q ++ [r] }).updPort i (fun a => { a with gapNext := true })).countGap q p l

/-- The reserve has room for some gap records. -/
def Dev.reserveRoom (d : Dev) (q n : Nat) : Bool := decide (d.bufferReserved q + 72 * n ≤ d.bufferReserve q)

/-- The gap records of a port's ended loss runs are placed in their order, as far as the reserve has room (R102). -/
def Dev.placeOwed (d : Dev) (q p : Nat) : Nat → Dev
  | 0 => d
  | n + 1 =>
    match (d.port (4 * q + p)).owed with
    | [] => d
    | l :: ls => if d.reserveRoom q 1 then ((d.updPort (4 * q + p) (fun a => { a with owed := ls })).placeRun q p l).placeOwed q p n else d

/-- The open run of a port ends; its gap record is due (R102). -/
def Dev.endRun (d : Dev) (i : Nat) : Dev := d.updPort i (fun a => { a with owed := a.owed ++ a.loss.toList, loss := none })

/-- It ends, and gap records are placed as far as there is room. -/
def Dev.closeRun (d : Dev) (q p : Nat) : Dev :=
  let d := d.endRun (4 * q + p)
  d.placeOwed q p (d.port (4 * q + p)).owed.length

/-- The open run of a port closes as soon as the reserve has room; till then it goes on (R102). -/
def Dev.closeDue (d : Dev) (q p : Nat) : Dev :=
  let i := 4 * q + p
  let d := d.updPort i (fun a => { a with loss := a.loss.map (fun l => { l with due := true }) })
  if (d.port i).loss.isSome && d.reserveRoom q ((d.port i).owed.length + 1) then d.closeRun q p else d

/-- The SEQ values that a record accounts for: its own, and the lost ones before it for the gap record of a loss run (R98, R99). -/
def Rec.span (r : Rec) : Nat × Nat := if r.lossGap then (fieldAt r.payload 24 4, fieldAt r.payload 28 4 + 1) else (r.seq, 1)

/-- The port of a record was DOWN before it: the record says so, or is the link event record of the transition (R80, R96). -/
def Rec.downBefore (r : Rec) : Bool := r.flags.testBit flagLinkDown || (r.type == 0x12 && fieldAt r.payload 8 1 == 0)

/-- A loss run of one record. -/
def LossRun.of (reason : Nat) (bp : Bool) (ns : Nat) (r : Rec) : LossRun :=
  { reason := reason, first := r.span.1, tick := r.tick, fine := r.fine,
    lastTick := if r.lossGap then fieldAt r.payload 8 8 else r.tick,
    bytes := r.size + (if r.lossGap then fieldAt r.payload 16 8 else 0), count := r.span.2, bp := bp,
    settle := r.flags.testBit flagSettle, gap := r.flags.testBit flagGap, down := r.downBefore, openNs := ns }

/-- A later record of the source joins it. -/
def LossRun.join (l : LossRun) (r : Rec) : LossRun :=
  let x := LossRun.of l.reason l.bp l.openNs r
  { l with lastTick := x.lastTick, bytes := l.bytes + x.bytes, down := l.down || x.down, count := (x.first + x.count + 2 ^ 32 - l.first) % 2 ^ 32 }

/-- A run among those whose gap records are due, in the order of SEQ. -/
def insertRun (l : LossRun) (owed : List LossRun) : List LossRun :=
  let before := fun (x : LossRun) => decide ((l.first + 2 ^ 32 - x.first) % 2 ^ 32 < 2 ^ 31)
  owed.takeWhile before ++ l :: owed.dropWhile before

/-- The gap record of records lost behind the buffer's input stands ahead of the next record of its port in the buffer, the first whose SEQ comes
after those lost, in the reserve (R98 to R100, log entry 26). False where no such record of the port waits there, or the reserve has no room. -/
def Dev.gapAhead (d : Dev) (q p : Nat) (l : LossRun) : Bool × Dev :=
  let mine := fun (r : Rec) => r.port == 4 * q + p && seqAfter r.seq l.first
  if (d.bufferOf q).q.any mine && d.reserveRoom q 1 then
    let r := d.lossRec q p l
    let d := d.makeRoom (4 * q + p) r.seq
    let b := d.bufferOf q
    let front := b.q.takeWhile (fun r => !mine r)
    let rest := b.q.dropWhile (fun r => !mine r)
    let r := if (front.filter (fun x => x.port == 4 * q + p)).getLast?.any (fun x => x.type == 0x11) then r.setFlag flagGap else r
    (true, (d.fillBuffer q { b with q := front ++ r :: updateFirst mine (fun r => r.setFlag flagGap) rest }).countGap q p l)
  else (false, d)

/-- An arriving record is lost into a run of a reason; a change of REASON ends the open run, and a run that opens raises its event
(R101, R102). -/
def Dev.lose (d : Dev) (q p reason : Nat) (bp : Bool) (r : Rec) : Dev :=
  let i := 4 * q + p
  let a := d.port i
  let fresh := LossRun.of reason bp d.ns r
  match a.loss with
  | some l =>
    if l.reason = reason then d.setPort i { a with loss := some { l.join r with bp := l.bp || bp } }
    else (d.setPort i { a with owed := a.owed ++ [l], loss := some fresh }).occur (1512 + dieOf q)
  | none => (d.setPort i { a with loss := some fresh }).occur (1512 + dieOf q)

/-- A record arrives at its buffer (R101, R102): accepted, behind the gap records that are due, or dropped whole. R101 speaks of one open run; where
the gap records of several ended runs are due as well, the reserve must have room for all of them (DESIGN CHOICE, log entry 111). -/
def Dev.arrive (d : Dev) (q p : Nat) (r : Rec) : Dev :=
  let i := 4 * q + p
  let a := d.port i
  let runs := a.owed.length + a.loss.toList.length
  if d.bufferRoom q r && d.reserveRoom q runs then
    let d := d.updPort i (fun a => { a with held := [r] ++ a.held })
    let d := d.closeRun q p
    let r := ((d.port i).held.head?).getD r
    let r := if (d.port i).gapNext then r.setFlag flagGap else r
    let d := d.updPort i (fun a => { a with held := a.held.drop 1, gapNext := r.type == 0x11 })
    let b := d.bufferOf q
    d.fillBuffer q { b with q := b.q ++ [r] }
  else d.lose q p 1 (d.fifoFull q r) r

/-- The oldest held record of a port leaves the hold for late flags (R84). -/
def ingestEffect (q p : Nat) (d : Dev) : Dev :=
  match (d.port (4 * q + p)).held with
  | [] => d
  | r :: rs => d.when (!d.stopped) (fun d => (d.updPort (4 * q + p) (fun a => { a with held := rs })).arrive q p r)

/-- A loss run has stayed open for 1 ms: it closes with its gap record as soon as the reserve has room (R102). -/
def lossTimeoutEffect (q p : Nat) (d : Dev) : Dev :=
  match (d.port (4 * q + p)).loss with
  | none => d
  | some l => d.when (decide (l.openNs + 1000000 ≤ d.ns)) (fun d => d.closeDue q p)

/-! Admission and packets (R103 to R108). -/

/-- Records move from a buffer into its FIFO, while they fit and credit covers them; gap records need no credit (R103). -/
def Dev.admitLoop (d : Dev) (q : Nat) (useCredit : Bool) : Nat → Ingest → Fifo → Dev × Ingest × Fifo
  | 0, b, f => (d, b, f)
  | n + 1, b, f =>
    match b.q with
    | [] => (d, b, f)
    | r :: rs =>
      let cost : Int := 8000 * r.size
      if useCredit && r.type != 0x11 && b.credit < cost then (d, b, f)
      else
        let y := f.intake (d.bankBytes q) (d.nat O.captureEnginePacketSize (dieOf q)) d.ns r
        if y.1 then
          let d := (d.inc O.captureEngineRecords (dieOf q)).inc O.capturePortRecords (r.port / 4) (r.port % 4)
          Dev.admitLoop d q useCredit n { q := rs, credit := if useCredit then b.credit - cost else b.credit } y.2
        else (d, b, y.2)

/-- Group bases among the Tap quads of a die (R103). -/
def Dev.tapBases (d : Dev) (e : Nat) : List Nat :=
  ((upTo 18).map (fun i => 18 * e + i)).filter (fun q => d.role q == 1 && d.base q == q)

/-- Millibits at which a quad's credit is full (R103). -/
def Dev.cap (d : Dev) (q : Nat) : Int := 8000 * d.nat O.captureAdmissionBurst q

/-- Credit earned under Guarantee; what is left of the pool (R103). -/
def Dev.earn (d : Dev) (quads : List Nat) : Dev × Int :=
  quads.foldl (fun x q =>
    let b := x.1.ingest q
    let g := min (d.nat O.captureAdmissionGuarantee q : Int) (d.cap q - b.credit)
    (x.1.setIngest q { b with credit := b.credit + g }, x.2 - g)) (d, 6000000)

/-- The surplus is shared by ShareWeight among the quads where a record waits (R103). -/
def Dev.shareSurplus (d : Dev) (quads : List Nat) (pool : Int) : Dev :=
  let want := quads.filter (fun q => !(d.ingest q).q.isEmpty && decide ((d.ingest q).credit < d.cap q))
  let w := sumBy (fun q => d.nat O.captureAdmissionShareWeight q) want
  if w = 0 then d
  else want.foldl (fun d q =>
    let b := d.ingest q
    d.setIngest q { b with credit := b.credit + min (pool * d.nat O.captureAdmissionShareWeight q / w) (d.cap q - b.credit) }) d

/-- An uncorrectable SRAM error strikes the record at the head of a buffer (that of a quad, or of the link FIFO under number 36): its gap record
stands in its place, or its run waits for the next record of its port. An open run of another REASON closes (R102, R454). -/
def Dev.strikeBuffer (d : Dev) (e k : Nat) : Dev :=
  let b := if k = 36 then (d.eng e).link else d.ingest k
  match b.q with
  | [] => d
  | r :: rs =>
    let d := if k = 36 then d.setEng e { d.eng e with link := { b with q := rs } } else d.setIngest k { b with q := rs }
    let d := d.inc O.integritySramUncorrected
    let l := LossRun.of 4 false d.ns r
    let d := if (d.port r.port).loss.any (fun x => x.reason != 4) then d.endRun r.port else d
    let x := d.gapAhead (r.port / 4) (r.port % 4) l
    if x.1 then x.2
    else d.updPort r.port (fun a =>
      if a.loss.isNone && a.owed.isEmpty then { a with loss := some l } else { a with owed := insertRun l a.owed })

/-- No record of a port is on its way to the FIFO, and no loss run of it is unrecorded. -/
def Dev.portDone (d : Dev) (i : Nat) : Bool :=
  let a := d.port i
  a.stage.isEmpty && a.held.isEmpty && a.loss.isNone && a.owed.isEmpty && !(d.bufferOf (i / 4)).q.any (fun r => r.port == i)

/-- A record without SEQ comes before the gap record of the quiesce of its engine, which the resume will make. -/
def Dev.beforeQuiesce (d : Dev) (e : Nat) (x : Staging) : Bool :=
  beforeIn x.era x.r (d.eng e).quiesceEra { type := 0x11, tick := (d.eng e).quiesceTick }

/-- Gap records that are due are placed as room comes, and the flush of a session's end takes effect behind its last records (R102, R110). In a
quiesce a run closes once the port's records from before it have arrived (R111 step 2). -/
def Dev.settlePort (d : Dev) (i : Nat) : Dev :=
  let d := d.placeOwed (i / 4) (i % 4) (d.port i).owed.length
  let quiet := d.nat O.captureEngineState (dieOf (i / 4)) == 1 && (d.port i).held.isEmpty && !(d.port i).stage.any (d.beforeQuiesce (dieOf (i / 4)))
  let d := if quiet || (d.port i).loss.any (fun l => l.due) then d.closeDue (i / 4) (i % 4) else d
  if (d.port i).flushOwed && d.portDone i then (d.updPort i (fun a => { a with flushOwed := false })).flushEngine (dieOf (i / 4)) else d

/-- The engine is QUIESCING and a buffer has emptied: its open packet is flushed (R108, R111). -/
def Dev.quiesceFlush (d : Dev) (e : Nat) (b : Ingest) (f : Fifo) : Fifo :=
  if d.nat O.captureEngineState e = 1 && b.q.isEmpty then (f.closeCur 1 d.ns).swap else f

/-- The packets of the link FIFO, which has one store, can be taken as soon as they close (R454). -/
def Fifo.ready (f : Fifo) : Fifo := { f with draining := f.draining ++ f.filling, filling := [] }

/-- The records of the link FIFO go into its packets. -/
def Dev.admitLink (d : Dev) (e : Nat) : Dev :=
  let y := d.eng e
  let r := d.admitLoop (18 * e) false y.link.q.length y.link y.linkFifo
  r.1.setEng e { r.1.eng e with link := r.2.1, linkFifo := (r.1.quiesceFlush e r.2.1 r.2.2).ready }

/-- One nanosecond of admission on die e (R103), and of the link FIFO, which takes no credit (R454). `struck` names the buffers whose head reads with
an SRAM error, and whether it was corrected (R182). -/
def admissionEffect (e : Nat) (struck : List (Fin 37 × Bool)) (d : Dev) : Dev :=
  d.when (!d.stopped) (fun d =>
    let quads := d.tapBases e
    let d := struck.foldl (fun d (k : Fin 37 × Bool) =>
      if k.1.val = 36 || quads.contains k.1.val then
        (if k.2 then d.sramFixed (captureInstance e k.1 false) else d.strikeBuffer e k.1.val)
      else d) d
    let x := d.earn quads
    let d := x.1.shareSurplus quads x.2
    let d := quads.foldl (fun d q =>
      let r := d.admitLoop q true (d.ingest q).q.length (d.ingest q) (d.fifo q)
      (r.1.setIngest q r.2.1).setFifo q (r.1.quiesceFlush e r.2.1 r.2.2.swap)) d
    let d := d.admitLink e
    (upTo 72).foldl (fun d j => d.settlePort (72 * e + j)) d)

/-- Close the open packet of a FIFO that has been open for FlushAge (R108). -/
def Fifo.age (f : Fifo) (age ns : Nat) : Fifo :=
  match f.cur with
  | some p => if p.openNs + age ≤ ns then (f.closeCur 2 ns).swap else f
  | none => f

/-- FlushAge has passed since the first record of open packets: CLOSE 2, in the record FIFOs, the link FIFO and the stage
(R108, R168). -/
def flushAgeEffect (e : Nat) (d : Dev) : Dev :=
  let age := 1000 * d.nat O.captureEngineFlushAge e
  let d := (upTo 18).foldl (fun d i => d.setFifo (18 * e + i) ((d.fifo (18 * e + i)).age age d.ns)) d
  let x := d.eng e
  let d := d.setEng e { x with linkFifo := x.linkFifo.age age d.ns }
  match x.stage with
  | some p => if p.pkt.openNs + age ≤ d.ns then d.closeStage e 2 else d
  | none => d

/-! Sessions and quiesce (R110, R111). -/

/-- A port begins to capture: on a Tap quad the session starts with a marker of reason 6, at the first unit boundary:
the end of the unit in progress, if one is (R30, R110, log entry 93). A source that has no record since the last step of the count begins with
the marker of that step (R26). -/
def Dev.captureStart (d : Dev) (q p : Nat) : Dev :=
  if d.tapping q p then
    let d := if (d.port (4 * q + p)).stepEra < d.time.era then d.stepMarker q p else d
    d.markerAt q p 6 d.refTick 0 ((d.count + ((d.port (4 * q + p)).unitEnd - 4 * d.ns)) % 2 ^ 64)
  else d

/-- A port stops capturing: open runs and loss runs end with their records, marks lapse, and open packets are flushed once these records are in
them (R110, R128). -/
def Dev.captureStop (d : Dev) (q p : Nat) : Dev :=
  let d := ((d.boundary q p).closeDue q p).lapseMarks (4 * q + p)
  (d.updPort (4 * q + p) (fun a => { a with flushOwed := true })).settlePort (4 * q + p)

/-- A committed quiesce of engine e: units in progress are complete; open fold runs and settle intervals are recorded, settle intervals as ABORTED;
loss runs close once these records have arrived (R111). -/
def Dev.quiesceBegin (d : Dev) (e : Nat) : Dev :=
  let d := d.setEng e { d.eng e with quiesceTick := d.count, quiesceEra := d.time.era, quiesceNs := d.ns, resume := false }
  let d := (upTo 72).foldl (fun d j =>
    let q := 18 * e + j / 4
    let p := j % 4
    if d.tapping q p then (d.boundary q p).endSettle q p 1 d.count else d) d
  d.setNat O.captureEngineState 1 e

/-- Capture resumes: RUN, and a gap record of REASON QUIESCED on each enabled Tap port (R111). -/
def Dev.resumeNow (d : Dev) (e : Nat) : Dev :=
  let x := d.eng e
  let d := (d.setEng e { x with resume := false }).setNat O.captureEngineState 0 e
  (upTo 72).foldl (fun d j =>
    let q := 18 * e + j / 4
    let p := j % 4
    if d.tapping q p then
      let pl := gapPayload x.quiesceTick d.count 0 (d.port (4 * q + p)).seq 0 3 false
      (d.emitIn (d.quiescePlace e) q p { type := 0x11, tick := x.quiesceTick, payload := pl }).inc O.capturePortGapRecords q p
    else d) d

/-- A committed CaptureEngine.Control: 1 begins a quiesce, or cancels a resume that waits (log entry 28); 0 resumes. -/
def Dev.engineControl (d : Dev) (e v : Nat) : Dev :=
  let st := d.nat O.captureEngineState e
  if v = 1 then
    if st = 0 then d.quiesceBegin e else d.setEng e { d.eng e with resume := false }
  else if st = 2 then d.resumeNow e
  else if st = 1 then d.setEng e { d.eng e with resume := true }
  else d

/-- No record of engine e from before the quiesce is still on its way to a buffer. -/
def Dev.arrived (d : Dev) (e : Nat) : Bool :=
  (upTo 72).all (fun j =>
    let a := d.port (72 * e + j)
    a.held.isEmpty && !a.stage.any (d.beforeQuiesce e))

/-- None waits anywhere ahead of the ring, and every loss run is recorded (R111 steps 2 and 3). -/
def Dev.drained (d : Dev) (e : Nat) : Bool :=
  let x := d.eng e
  d.arrived e && (upTo 72).all (fun j => (d.port (72 * e + j)).loss.isNone && (d.port (72 * e + j)).owed.isEmpty) &&
  (upTo 18).all (fun j => (d.ingest (18 * e + j)).q.isEmpty && (x.packetsOf (18 * e + j) (d.fifo (18 * e + j))).isEmpty) &&
  x.link.q.isEmpty && (x.packetsOf 36 x.linkFifo).isEmpty

/-- Discarded records are accounted for per source: a gap record of each stands ahead of the source's next record (R109, R180). -/
def Dev.discard (d : Dev) (reason : Nat) (bp : Bool) (recs : List Rec) : Dev :=
  (recs.map (fun (r : Rec) => r.port)).eraseDups.foldl (fun (d : Dev) (i : Nat) =>
    match recs.filter (fun r => r.port == i) with
    | [] => d
    | r :: rs =>
      let l := rs.foldl LossRun.join (LossRun.of reason bp d.ns r)
      let x := d.gapAhead (i / 4) (i % 4) l
      if x.1 then x.2 else d.updPort i (fun a => { a with owed := insertRun l a.owed })) d

/-- A packet is discarded. -/
def Dev.discardPacket (d : Dev) (reason : Nat) (bp : Bool) (pk : Packet) : Dev := d.discard reason bp pk.recs

/-- The 200 µs bound meets a stalled ring: the FIFOs discard their packets, those awaiting rewrite and what still waits to enter them included,
and the write position returns to WriteOffset (R180, log entry 100). -/
def Dev.quiesceDiscard (d : Dev) (e : Nat) : Dev :=
  let x := d.eng e
  let recs := fun (k : Nat) (f : Fifo) (b : Ingest) => (x.packetsOf k f).flatMap (fun p => p.recs) ++ b.q
  let d := (upTo 18).foldl (fun d j =>
    let q := 18 * e + j
    ((d.setFifo q {}).setIngest q { d.ingest q with q := [] }).discard 1 true (recs q (d.fifo q) (d.ingest q))) d
  let d := (d.setEng e { d.eng e with linkFifo := {}, link := {} }).discard 1 true (recs 36 x.linkFifo x.link)
  d.setEng e { d.eng e with flights := [], writeAbs := x.ackAbs, atEnd := 0 < x.ackAbs && d.nat O.memRingWriteOffset e == d.nat O.memRingSize e }

/-- The ring writer of engine e is stalled: a write has failed, or the ring lies in an unavailable half (R164, R167). -/
def Dev.ringStalled (d : Dev) (e : Nat) : Bool :=
  let x := d.eng e
  x.held || x.flights.any (fun f => !f.ok || f.state == 1)

/-- Steps 1 to 3 of a quiesce are complete: QUIESCED, or RUN where a resume waits (R111). At the bound a stalled ring does not hold it up: gap
records of what is discarded go ahead of the records that follow the resume (R180). -/
def quiesceDoneEffect (e : Nat) (d : Dev) : Dev :=
  d.when (d.nat O.captureEngineState e == 1) (fun d =>
    let late := decide ((d.eng e).quiesceNs + 200000 ≤ d.ns) && d.ringStalled e
    let done := if late then d.arrived e else d.drained e
    let d := if late then d.quiesceDiscard e else d
    d.when done (fun d => if (d.eng e).resume then d.resumeNow e else d.setNat O.captureEngineState 2 e))

/-- UNIT_RECEIVED. -/
def execUnitReceived (dt : Nat) (q : Fin 36) (p : Fin 4) (u : RxUnit) (s : State) : Host.Outcome State Fault Refusal :=
  run s dt (unitEffect q p u)

/-- FOLD_MAX_SPAN_EXPIRY. -/
def execFoldMaxSpanExpiry (dt : Nat) (q : Fin 36) (p : Fin 4) (lane : Nat) (s : State) : Host.Outcome State Fault Refusal :=
  run s dt (foldSpanEffect q p lane)

/-- RECORD_INGEST. -/
def execRecordIngest (dt : Nat) (q : Fin 36) (p : Fin 4) (s : State) : Host.Outcome State Fault Refusal :=
  run s dt (ingestEffect q p)

/-- LOSS_RUN_TIMEOUT. -/
def execLossRunTimeout (dt : Nat) (q : Fin 36) (p : Fin 4) (s : State) : Host.Outcome State Fault Refusal :=
  run s dt (lossTimeoutEffect q p)

/-- ADMISSION_CYCLE. -/
def execAdmissionCycle (dt : Nat) (e : Fin 2) (struck : List (Fin 37 × Bool)) (s : State) : Host.Outcome State Fault Refusal :=
  run s dt (admissionEffect e struck)

/-- FLUSH_AGE_EXPIRY. -/
def execFlushAgeExpiry (dt : Nat) (e : Fin 2) (s : State) : Host.Outcome State Fault Refusal := run s dt (flushAgeEffect e)

/-- QUIESCE_COMPLETE. -/
def execQuiesceComplete (dt : Nat) (e : Fin 2) (s : State) : Host.Outcome State Fault Refusal := run s dt (quiesceDoneEffect e)

end Sys2Proof.Machine
end

