-- ==== Sys2Proof/Machine/Ecc.lean ====
section
/-! DEFINITION. The codes over stored words and the Fog engine: Hsiao SECDED (R182), Reed–Solomon over a DRAM line (R187, R188), the epoch keys,
the key stream and the tag (R192 to R196). -/

set_option Elab.async false

namespace Sys2Proof.Machine

/-! Hsiao codes (R182). Which columns a code takes is not in the spec: it takes those of odd weight, light ones first, and picks freely among
those of one weight (log entry 37). -/

/-- Number of set bits below n. -/
def ones : Nat → Nat → Nat
  | 0, _ => 0
  | n + 1, v => v % 2 + ones n (v / 2)

/-- Check bits of the shortest Hsiao code that covers n data bits: r check bits give 2^(r-1) columns of odd weight, r of them those of the
check bits. -/
def hsiaoBits (n : Nat) : Nat := ((upTo 9).find? (fun r => 2 ≤ r && n + r ≤ 2 ^ (r - 1))).getD 8

/-- k columns picked from a list; `i` numbers the picks. -/
def hsiaoPick : Nat → Nat → List Nat → List Nat
  | 0, _, _ => []
  | k + 1, i, l =>
    match l[Config.hsiaoPick i % l.length]? with
    | none => []
    | some c => c :: hsiaoPick k (i + 1) (l.erase c)

/-- The columns of the data bits. -/
def hsiaoColumns (n : Nat) : List Nat :=
  let r := hsiaoBits n
  [3, 5, 7].foldl (fun cols w => cols ++ hsiaoPick (n - cols.length) cols.length ((upTo (2 ^ r)).filter (fun v => ones r v == w))) []

/-- The check bits of n data bits. -/
def hsiaoCheck (n v : Nat) : Nat :=
  (hsiaoColumns n).zipIdx.foldl (fun c x => if v.testBit x.2 then Nat.xor c x.1 else c) 0

/-- How a decoder ends. -/
inductive Ecc
  | clean | corrected | uncorrectable
deriving DecidableEq, Repr

/-- The decoder: a single error is put right, a double one has a syndrome of even weight. -/
def hsiaoDecode (n v check : Nat) : Ecc × Nat :=
  let s := Nat.xor check (hsiaoCheck n v)
  if s = 0 then (.clean, v)
  else if ones 8 s = 1 then (.corrected, v)
  else match (hsiaoColumns n).findIdx? (fun c => c == s) with
    | some i => (.corrected, Nat.xor v (2 ^ i))
    | none => (.uncorrectable, 0)

/-- Data bits of a word of an instance: 64 in a fabric RAM block (R339); the words of hardened instances are not in the spec (log entry 37). -/
def sramWidth (inst : Nat) : Nat := if bitsOf inst 27 24 = 0 then 64 else Config.sramWidth inst % 64 + 1

/-- The word is valid: two of its three cells say so (R183). -/
def SramWord.valid (x : SramWord) : Bool := 2 ≤ ones 3 x.cells

/-- A valid word of some data, encoded. -/
def SramWord.of (v : Nat) : SramWord := { data := v, cells := 7 }

/-- What a read of a valid word through the decoder finds: the stored word with the bits that a disturbance has changed. Data bits come first. -/
def SramWord.look (x : SramWord) (width : Nat) (f : SramFind) : Ecc × Nat :=
  if f.flips.isEmpty && x.check.isNone then (.clean, x.data)
  else
    let turned := f.flips.eraseDups.foldl (fun (m : Nat) i => m + 2 ^ i.val) 0
    hsiaoDecode width (Nat.xor x.data (turned % 2 ^ 64) % 2 ^ width) (Nat.xor (x.check.getD (hsiaoCheck width x.data)) (turned / 2 ^ 64) % 2 ^ hsiaoBits width)

/-- The majority of the valid cells, which rewrites a cell that disagrees, and whether one did (R183). -/
def SramWord.vote (x : SramWord) (f : SramFind) : Bool × SramWord :=
  match f.upset with
  | none => (x.cells != 0 && x.cells != 7, { x with cells := if x.valid then 7 else 0 })
  | some i =>
    let y := { x with cells := Nat.xor x.cells (2 ^ i.val) }
    (y.cells != 0 && y.cells != 7, { y with cells := if y.valid then 7 else 0 })

/-! The code over a DRAM line (R188). Symbols 0 to 3 are the check symbols, 4 to 67 the ciphertext bytes, 68 to 70 the tag bytes and 71 the minor
byte; the field's polynomial and the generator's first root are not in the spec (log entry 37). -/

/-- The polynomials of degree 8 of which x is a primitive element. -/
def rsPolys : List Nat :=
  [0x11D, 0x12B, 0x12D, 0x14D, 0x15F, 0x163, 0x165, 0x169, 0x171, 0x187, 0x18D, 0x1A9, 0x1C3, 0x1CF, 0x1E7, 0x1F5]

/-- Product in the code's field. -/
def rsMul (a b : Nat) : Nat := gfMulWith (rsPolys.getD (Config.rsPoly % 16) 0) 8 a b

/-- Power of the primitive element. -/
def rsPow : Nat → Nat
  | 0 => 1
  | n + 1 => rsMul 2 (rsPow n)

/-- Exponent of root j of the generator. -/
def rsRoot (j : Nat) : Nat := Config.rsRoot % 255 + j

/-- The generator: coefficients of powers 0 to 3, the highest being 1. -/
def rsGenerator : List Nat :=
  ((upTo 4).foldl (fun (g : List Nat) j => List.zipWith Nat.xor (0 :: g) (g.map (rsMul (rsPow (rsRoot j % 255))) ++ [0])) [1]).take 4

/-- The check symbols of 68 data symbols: the remainder of their division. -/
def rsCheck (l : List Byte) : List Byte :=
  let g := rsGenerator
  ((l.reverse.foldl (fun (r : List Nat) b =>
    let f := Nat.xor b.toNat (r.getD 3 0)
    List.zipWith Nat.xor (0 :: r.take 3) (g.map (rsMul f))) [0, 0, 0, 0])).map byteOf

/-- The syndromes of a word of 72 symbols. -/
def rsSyndromes (l : List Byte) : List Nat :=
  (upTo 4).map (fun j =>
    let a := rsPow (rsRoot j % 255)
    l.reverse.foldl (fun s b => Nat.xor (rsMul s a) b.toNat) 0)

/-- The decoder: the outcome, the word put right, and the syndrome of an uncorrectable word. A word at one symbol from a code word is taken
for it; no other is, so that an error in two or three symbols is always found. -/
def rsDecode (l : List Byte) : Ecc × List Byte × Nat :=
  let s := rsSyndromes l
  let g := fun j => s.getD j 0
  if s.all (fun x => x == 0) then (.clean, l, 0)
  else
    let fits := fun i => g 0 != 0 && (upTo 3).all (fun j => g (j + 1) == rsMul (g j) (rsPow i))
    match (upTo 72).find? fits with
    | some i =>
      let e := rsMul (g 0) (rsPow ((255 - i * rsRoot 0 % 255) % 255))
      (.corrected, l.set i (l.getD i 0 ^^^ byteOf e), 0)
    | none => (.uncorrectable, l, leNat (s.map byteOf))

/-- The stored word of a line: its ciphertext, tag and minor counter with their check symbols. -/
def lineSymbols (ct : List Byte) (tag minor : Nat) : List Byte :=
  let l := fit 64 ct ++ leBytes 3 tag ++ leBytes 1 minor
  rsCheck l ++ l

/-- The 64 data bytes of a stored word. -/
def lineData (w : List Byte) : List Byte := (w.drop 4).take 64

/-- Its tag and minor counter. -/
def lineTag (w : List Byte) : Nat := fieldAt w 68 3
def lineMinor (w : List Byte) : Nat := fieldAt w 71 1

/-- Its spare bits (table "DRAM spare bits"). -/
def lineSpare (w : List Byte) : Nat := lineMinor w + 2 ^ 8 * lineTag w + 2 ^ 32 * leNat (w.take 4)

/-- A stored word from data and spare bits as the checker test gives them. -/
def rawSymbols (data : List Byte) (spare : Nat) : List Byte :=
  leBytes 4 (spare / 2 ^ 32) ++ fit 64 data ++ leBytes 3 (spare / 2 ^ 8) ++ leBytes 1 spare

/-- The symbols that a read meets changed, as a word to be added. -/
def findWord (f : LineFind) (line : Nat) : List Byte :=
  (f.flips.filter (fun x => x.1 == line)).foldl (fun l x => l.set x.2.1.val (l.getD x.2.1.val 0 ^^^ x.2.2)) (zeros 72)

/-! The Fog engine (R192 to R196). -/

/-- The bytes of a label. -/
def labelBytes (l : String) : List Byte := l.toList.map (fun c => byteOf c.toNat)

/-- An epoch key: the cipher key, then the hash key (R193). -/
def epochKey (session : List Byte) (e : Nat) : List Byte := kdfCmac session 48 (labelBytes "EKX-FOG-EPOCH") (leBytes 4 e)

/-- A line with its key stream, which encrypts and decrypts (R195). -/
def fogCrypt (key : List Byte) (line major minor : Nat) (l : List Byte) : List Byte :=
  octXor l ((upTo 4).flatMap (fun b => aes256 (key.take 32) (counterBlock 1 line major minor b)))

/-- The tag of a line's ciphertext (R196). -/
def fogTag (key : List Byte) (line major minor : Nat) (ct : List Byte) : Nat :=
  let g := ghash (key.drop 32) (blocks16 4 (fit 64 ct) ++ [(leBytes 16 512).reverse])
  beNat ((octXor g (aes256 (key.take 32) (counterBlock 1 line major minor 4))).take 3)

end Sys2Proof.Machine
end

