-- ==== Sys2Proof/Machine/Dram.lean ====
section
/-! DEFINITION. HBM and DDR: addresses, channels, fill streams, counters, the order of checks, Frost, Integrity Halt and
Lull (chapters "HBM and DDR Tiers" and "Data Integrity and Fog Encryption"). Channels are numbered d for Dd and
8 + 16h + c for channel c of Hh. -/

set_option Elab.async false

namespace Sys2Proof.Machine

/-! Plain contents. -/

/-- The memory keeps its canonical form: addresses rise strictly, and no byte listed is zero, which is what an unlisted
address reads as (R189). -/
def Memory.wf (m : List Host.Cell) : Bool := SMap.wf m (fun _ => 0)

/-- One byte. -/
def Memory.get (m : List Host.Cell) (a : Nat) : Byte := SMap.getD m a 0

/-- Write one byte. -/
def Memory.set (m : List Host.Cell) (a : Nat) (b : Byte) : List Host.Cell := SMap.setD m a 0 b

/-- n bytes from an address. -/
def Memory.read (m : List Host.Cell) (a n : Nat) : List Byte := (upTo n).map (fun i => Memory.get m (a + i))

/-- Write bytes from an address. -/
def Memory.write (m : List Host.Cell) (a : Nat) : List Byte → List Host.Cell
  | [] => m
  | b :: bs => Memory.write (Memory.set m a b) (a + 1) bs

/-- Read device memory without any check: what the plain contents are. -/
def Dev.peek (d : Dev) (a n : Nat) : List Byte := Memory.read d.mem.cells a n

/-- Store into the plain contents. -/
def Dev.poke (d : Dev) (a : Nat) (l : List Byte) : Dev :=
  { d with mem := { d.mem with cells := Memory.write d.mem.cells a l } }

/-- Plain contents lost: a predicate picks the addresses. -/
def Dev.scrap (d : Dev) (p : Nat → Bool) : Dev :=
  { d with mem := { d.mem with cells := d.mem.cells.filter (fun e => !p e.1) } }

/-! Channels and addresses (R160 to R164). -/

/-- Occurrence a of a channel's objects: 0 for DDR, 1 for HBM. -/
def chA (ch : Nat) : Nat := if ch < 8 then 0 else 1

/-- Occurrence b of a channel's objects. -/
def chB (ch : Nat) : Nat := if ch < 8 then ch else ch - 8

/-- A number in a channel's object. -/
def Dev.chNat (d : Dev) (o : ObjDef) (ch : Nat) : Nat := d.nat o (chA ch) (chB ch)

/-- Set a channel's object. -/
def Dev.setCh (d : Dev) (o : ObjDef) (ch n : Nat) : Dev := d.setNat o n (chA ch) (chB ch)

/-- Count on a channel's object. -/
def Dev.incCh (d : Dev) (o : ObjDef) (ch : Nat) : Dev := d.inc o (chA ch) (chB ch)

/-- MemChannel.State: 0 ABSENT, 1 ACTIVE, 2 FROST, 3 THAWING, 4 LULL_RETAIN, 5 LULL_OFF. -/
def Dev.chState (d : Dev) (ch : Nat) : Nat := d.chNat O.memChannelState ch

/-- What a channel holds beside its objects. -/
def Dev.chan (d : Dev) (ch : Nat) : ChanAux := SMap.getD d.mem.chans ch {}

/-- Set it. -/
def Dev.setChan (d : Dev) (ch : Nat) (x : ChanAux) : Dev :=
  { d with mem := { d.mem with chans := SMap.setD d.mem.chans ch {} x } }

/-- Channels of a DDR half's interleave set, ascending (R163). -/
def Dev.ddrSet (d : Dev) (half : Nat) : List Nat :=
  ((upTo 4).map (fun i => 4 * half + i)).filter (fun c => bitOf (d.nat O.memDdrChannels) c)

/-- Bytes of a DDR half. -/
def Dev.ddrBytes (d : Dev) (half : Nat) : Nat :=
  if half = 0 then d.nat O.memDdrBytesNorth else d.nat O.memDdrBytesSouth

/-- An HBM half is available: none of its channels is ABSENT (R164). -/
def Dev.hbmUp (d : Dev) (half : Nat) : Bool := (upTo 64).all (fun i => d.chState (8 + 64 * half + i) != 0)

/-- The channel and the offset within it of a device physical address; none outside populated memory (R161 to R163). -/
def Dev.locate (d : Dev) (a : Nat) : Option (Nat × Nat) :=
  if a < 0x4800000000 then
    let half := a / 0x2400000000
    let o := a % 0x2400000000
    let c := o / 1024 % 64
    if d.chState (8 + 64 * half + c) = 0 then none
    else some (8 + 64 * half + c, o / 65536 * 1024 + o % 1024)
  else if 0x40000000000 ≤ a && a < 0x80000000000 then
    let half := if a < 0x60000000000 then 0 else 1
    let o := a - (0x40000000000 + half * 0x20000000000)
    let set := d.ddrSet half
    if d.ddrBytes half ≤ o then none
    else
      let n := set.length
      (set[o / 4096 % n]?).map (fun c => (c, o / (4096 * n) * 4096 + o % 4096))
  else none

/-- Address in HBM. -/
def isHbm (a : Nat) : Bool := a < 0x4800000000

/-- Granule of an address: 64 KiB of HBM, 1 MiB of DDR; numbered by its first address div 65,536 (R189). -/
def granuleOf (a : Nat) : Nat := if isHbm a then a / 65536 else a / 1048576 * 16

/-- Region of an address: 1 MiB of HBM, 64 MiB of DDR; numbered by its first address div 2^20 (R194). -/
def regionOf (a : Nat) : Nat := if isHbm a then a / 1048576 else a / 67108864 * 64

/-- Bytes of a region. -/
def regionBytes (r : Nat) : Nat := if r < 0x48000 then 1048576 else 67108864

/-- Byte index of an address within its slice: its place in the order of the slice's bytes (R190). -/
def Dev.sliceIndex (d : Dev) (a : Nat) : Nat :=
  if isHbm a then a % 1024
  else
    let n := max 1 (d.ddrSet (if a < 0x60000000000 then 0 else 1)).length
    a % 1048576 / 4096 / n * 4096 + a % 4096

/-- Bytes of the slice an address lies in. -/
def Dev.sliceBytes (d : Dev) (a : Nat) : Nat :=
  if isHbm a then 1024 else 1048576 / max 1 (d.ddrSet (if a < 0x60000000000 then 0 else 1)).length

/-- States of a slice: 0 NEVER, 1 FILLING, 2 WRITTEN (R189, R190). -/
def Dev.sliceState (d : Dev) (a ch : Nat) : Nat :=
  if SMap.getD d.mem.granules (granuleOf a) 0 = 2 then 2
  else match SMap.find d.mem.slices (granuleOf a * 256 + ch) with
    | none => 0
    | some s => if s.closed then 2 else 1

/-- The fill pointer, for a FILLING slice. -/
def Dev.fillPtr (d : Dev) (a ch : Nat) : Nat :=
  match SMap.find d.mem.slices (granuleOf a * 256 + ch) with
  | some s => s.ptr
  | none => 0

/-- A read of the line at an address is a zero read (R204): NEVER, or at or above the fill pointer. -/
def Dev.zeroRead (d : Dev) (a ch : Nat) : Bool :=
  d.sliceState a ch == 0 || (d.sliceState a ch == 1 && d.fillPtr a ch ≤ d.sliceIndex (a / 64 * 64))

/-! Buckets (R185, R186). -/

/-- Instance number of a channel's bucket (R185). -/
def chInstance (ch : Nat) : Nat :=
  if ch < 8 then 0xF9000000 + ch else 0xF8000000 + (ch - 8)

/-! Where a line lies in its channel. -/

/-- The rank that holds an offset of a DDR channel: ranks fill offsets in ascending order, and rank r is rank r mod 2 of DIMM r div 2 (R163). -/
def Dev.rankOf (d : Dev) (ch off : Nat) : Nat :=
  let x := SMap.getD d.mem.ranks ch (1, 1, 1)
  let k := off / max 1 (x.2.2 / max 1 x.2.1)
  if x.2.1 = 2 then k else 2 * k

/-- RANK of an offset of a channel: the rank, or the pseudo-channel. -/
def Dev.rankAt (d : Dev) (ch off : Nat) : Nat := if ch < 8 then d.rankOf ch off else Config.dramPseudo ch off % 2

/-- A rank of a DDR channel exists. -/
def Dev.hasRank (d : Dev) (ch r : Nat) : Bool :=
  match SMap.find d.mem.ranks ch with
  | some x => r / 2 < x.1 && r % 2 < x.2.1
  | none => false

/-! Frost (R176, R177). -/

/-- The bytes of a snapshot (R177). -/
def Snapshot.bytes (s : Snapshot) : List Byte :=
  leBytes 8 s.tick ++ leBytes 8 s.address ++ leBytes 8 s.thawTick ++ zeros 16 ++ leBytes 1 s.cause ++
  leBytes 1 s.command ++ leBytes 1 s.rank ++ leBytes 1 s.bank ++ leBytes 4 s.row ++ leBytes 2 s.column ++
  leBytes 2 s.initiator ++ leBytes 2 s.queued ++ leBytes 2 s.further ++ leBytes 4 s.syndrome ++ zeros 4

/-- The Frost event of a channel: EV1480+d for Dd, EV1488+h for any channel of Hh. -/
def frostEvent (ch : Nat) : Nat := if ch < 8 then 1480 + ch else 1488 + (ch - 8) / 16

/-- Bytes of a request that waits. -/
def Deferred.size (x : Deferred) : Nat := if x.write then x.data.length else x.len

/-- A request that waits touches one of the lines of some bytes. -/
def Deferred.meets (x : Deferred) (a n : Nat) : Bool := x.addr / 64 ≤ (a + n - 1) / 64 && a / 64 ≤ (x.addr + x.size - 1) / 64

/-- A line of a channel. -/
def Dev.lineIn (d : Dev) (line ch : Nat) : Bool :=
  match d.locate (64 * line) with
  | some (c, _) => c == ch
  | none => false

/-- Requests that wait on a channel: those with a line of it. -/
def Dev.queuedOn (d : Dev) (ch : Nat) : List Deferred :=
  d.mem.deferred.filter (fun x => (upTo ((x.addr + x.size - 1) / 64 + 1 - x.addr / 64)).any (fun i => d.lineIn (x.addr / 64 + i) ch))

/-- A request that has waited ends: its requester gets the data, the completion or a bus error. A write of the host is posted, and a failed one is
counted (R266). -/
def Dev.replyTo (d : Dev) (x : Deferred) (ok : Bool) (data : List Byte) : Dev :=
  match x.reply with
  | .nobody => d
  | .requester => d.send (.noc x.req.ni ok data)
  | .window => if !x.write then d.send (.window ok false data) else if ok then d else d.inc O.dictionaryWindowErrors

/-- A channel enters FROST, or a further detection is counted in FROST or THAWING (R176). Requests that wait on the channel fail, whole
(log entry 30). -/
def Dev.frost (d : Dev) (ch cause command initiator addr : Nat) (syn : Nat := 0) : Dev :=
  let st := d.chState ch
  let x := d.chan ch
  if st = 2 || st = 3 then d.setChan ch { x with snap := { x.snap with further := min (x.snap.further + 1) 0xFFFF } }
  else
    let off := ((d.locate addr).map (fun y => y.2)).getD 0
    let at_ := fun (n : Nat) => if command = 4 then 0 else n
    let queue := d.queuedOn ch
    let s : Snapshot := { tick := d.count, address := addr / 64 * 64, thawTick := x.snap.thawTick, cause := cause,
                          command := command, rank := at_ (d.rankAt ch off % 256), bank := at_ (Config.dramBank ch off % 256),
                          row := at_ (Config.dramRow ch off % 2 ^ 32), column := at_ (Config.dramColumn ch off % 2 ^ 16), initiator := initiator,
                          queued := min queue.length 0xFFFF, syndrome := if cause = 1 then syn else 0 }
    let d := { d with mem := { d.mem with deferred := d.mem.deferred.filter (fun x => !queue.contains x) } }
    let d := queue.foldl (fun d x => d.replyTo x false []) d
    let d := (d.setCh O.memChannelState ch 2).setChan ch { x with snap := s }
    let d := d.incCh O.memChannelFrostCount ch
    let d := d.occur (frostEvent ch)
    d.logNote 4 1 (s.bytes.take 16) ((s.bytes.drop 16).take 16) (frostEvent ch)

/-! Integrity Halt (R206). -/

/-- Entries made since the last checkpoint (R279). -/
def Dev.sinceCheckpoint (d : Dev) : Nat := (d.dict.logSeq + 2 ^ 32 - d.dict.ckptSeq) % 2 ^ 32

/-- A checkpoint of the Logbook begins: its new entries are a group for the Keep (R279). -/
def Dev.checkpoint (d : Dev) : Dev :=
  let new := newest d.sinceCheckpoint d.dict.log
  { d with dict := { d.dict with ckptNs := d.ns, ckptSeq := d.dict.logSeq },
           keep := { d.keep with groups := d.keep.groups ++ [{ log := new, ns := d.ns }] } }

/-- Integrity Halt: memory stops, the halt objects, lanes idle, the Host link down, user cores in reset, a Logbook entry and
its checkpoint. Causes: 1 read, 2 read-modify-write, 3 counter fetch, 4 Drizzle, 5 re-encryption. -/
def Dev.integrityHalt (d : Dev) (cause addr initiator : Nat) : Dev :=
  if d.halted then d
  else
    let d := { d with test := { d.test with running := [] } }
    let d := (d.setNat O.integrityHaltState 1).setNat O.integrityHaltCause cause
    let d := (d.setNat O.integrityHaltTick d.count).setNat O.integrityHaltAddress (addr / 64 * 64)
    let d := d.setNat O.integrityHaltInitiator initiator
    let d := (upTo 144).foldl (fun d i => if txRole (d.role (i / 4)) && d.hasPort (i / 4) (i % 4) then d.send (.line i none false) else d) d
    let d := d.dropMailboxes.pcieDown 0
    let d := (upTo 12).foldl (fun d i => if d.nat O.coreState (4 + i) = 0 then d else d.setNat O.coreState 4 (4 + i)) d
    let d := d.logNote 4 2 (leBytes 8 d.count ++ leBytes 8 (addr / 64 * 64)) (leBytes 2 initiator ++ leBytes 1 cause) 0xFFFF
    d.checkpoint

/-! Counters and re-encryption (R194, R199 to R201). -/

/-- The counters of a region. -/
def Dev.region (d : Dev) (r : Nat) : Region := SMap.getD d.mem.regions r {}

/-- The re-encryption of a region that is under way. -/
def Dev.job (d : Dev) (r : Nat) : Option Reenc := d.mem.jobs.find? (fun j => j.region == r)

/-- Replace the job of a region. -/
def Dev.setJob (d : Dev) (j : Reenc) : Dev :=
  { d with mem := { d.mem with jobs := updateFirst (fun k => k.region == j.region) (fun _ => j) d.mem.jobs } }

/-- The counter pair under which a line lies: the new one where a re-encryption has done it (R194, R199). -/
def Dev.pairOf (d : Dev) (line : Nat) : Region :=
  match d.job (regionOf (64 * line)) with
  | some j => if j.done.contains line then { epoch := j.epoch, major := j.major } else d.region (regionOf (64 * line))
  | none => d.region (regionOf (64 * line))

/-- A new counter pair for a region, and its re-encryption (R199). -/
def Dev.startJob (d : Dev) (r : Nat) : Dev :=
  if (d.job r).isSome then d
  else
    let g := d.region r
    let j : Reenc := if g.major < 0xFFFFFFFF then { region := r, epoch := g.epoch, major := g.major + 1 }
      else { region := r, epoch := g.epoch + 1, major := 0 }
    let d := if g.major < 0xFFFFFFFF then d else d.inc O.fogEpochChanges
    { d with mem := { d.mem with jobs := d.mem.jobs ++ [j] } }

/-- Mark a line of a region done. -/
def Dev.jobDone (d : Dev) (line : Nat) : Dev :=
  match d.job (regionOf (64 * line)) with
  | none => d
  | some j => if j.done.contains line then d else d.setJob { j with done := j.done ++ [line] }

/-- Lines of a region. -/
def jobLines (r : Nat) : List Nat := (upTo (regionBytes r / 64)).map (fun i => r * 16384 + i)

/-- Lines of a region that exist in populated memory. -/
def Dev.regionLines (d : Dev) (r : Nat) : Nat := ((jobLines r).filter (fun l => (d.locate (64 * l)).isSome)).length

/-- Re-encryptions running or queued on a channel: those whose part there is not done (R200). -/
def Dev.jobsOn (d : Dev) (ch : Nat) : Nat :=
  (d.mem.jobs.filter (fun j => (jobLines j.region).any (fun l => d.lineIn l ch && !j.done.contains l))).length

/-- The region of a job takes its new pair, and EV1498 occurs (R199). -/
def Dev.endJob (d : Dev) (j : Reenc) : Dev :=
  let d := { d with mem := { d.mem with regions := SMap.ins d.mem.regions j.region { epoch := j.epoch, major := j.major },
                                        jobs := d.mem.jobs.filter (fun k => k.region != j.region) } }
  (d.inc O.fogReencryptions).occur 1498

/-- A re-encryption ends when every line is done. -/
def Dev.finishJob (d : Dev) (r : Nat) : Dev :=
  match d.job r with
  | none => d
  | some j => if j.done.length < d.regionLines r then d else d.endJob j

/-- The MINOR stored with a line. -/
def Dev.minorOf (d : Dev) (line : Nat) : Nat := SMap.getD d.mem.minors line 0

/-- Set it. -/
def Dev.setMinor (d : Dev) (line m : Nat) : Dev :=
  { d with mem := { d.mem with minors := SMap.setD d.mem.minors line 0 m } }

/-- The MINOR of a line in the minor cache of its channel (R197). -/
def Dev.cachedMinor (d : Dev) (ch line : Nat) : Option Nat := ((d.chan ch).cache.find? (fun e => e.1 == line)).map (fun e => e.2)

/-! What lies in the DRAM, and the order of checks (R187, R188, R204). -/

/-- The word that is stored for a line: as the checker test wrote it, or its contents encrypted and encoded. -/
def Dev.storedWord (d : Dev) (line : Nat) : List Byte :=
  match SMap.find d.mem.raw line with
  | some r => rawSymbols r.data r.spare
  | none =>
    let g := d.pairOf line
    let m := d.minorOf line
    let ct := fogCrypt (epochKey d.mem.key g.epoch) line g.major m (d.peek (64 * line) 64)
    lineSymbols ct (fogTag (epochKey d.mem.key g.epoch) line g.major m ct) m

/-- What a read of a line finds: the outcome of ECC and its syndrome, whether the tag verifies, the contents, the MINOR, and the word as put
right. -/
structure LineLook where
  ecc : Ecc
  syn : Nat
  tagOk : Bool
  plain : List Byte
  minor : Nat
  word : List Byte
deriving DecidableEq, Repr

/-- A word is decrypted and its tag checked. -/
def Dev.openWord (d : Dev) (line : Nat) (e : Ecc) (syn : Nat) (w : List Byte) : LineLook :=
  let g := d.pairOf line
  let k := epochKey d.mem.key g.epoch
  { ecc := e, syn := syn, tagOk := fogTag k line g.major (lineMinor w) (lineData w) == lineTag w,
    plain := fogCrypt k line g.major (lineMinor w) (lineData w), minor := lineMinor w, word := w }

/-- Disturbances change symbols of stored lines; a line that a read makes no access to has none stored (R189, R204). -/
def Dev.disturb (d : Dev) (f : LineFind) : Dev :=
  ((f.flips.map (fun x => x.1)).eraseDups).foldl (fun d line =>
    match d.locate (64 * line) with
    | none => d
    | some (ch, _) =>
      if d.zeroRead (64 * line) ch then d
      else
        let w := octXor (SMap.getD d.mem.upset line (zeros 72)) (findWord f line)
        { d with mem := { d.mem with upset := SMap.ins d.mem.upset line w } }) d

/-- A read looks at a line. The code is linear: for a line that the controller encoded, the decoder's outcome is that of the changed symbols
alone, and where it has put them right, what it returns is what was stored. -/
def Dev.lookLine (d : Dev) (line : Nat) : LineLook :=
  let clean : LineLook := { ecc := .clean, syn := 0, tagOk := true, plain := d.peek (64 * line) 64, minor := d.minorOf line, word := d.storedWord line }
  match SMap.find d.mem.raw line, SMap.find d.mem.upset line with
  | none, none => clean
  | none, some u =>
    let r := rsDecode u
    if r.2.1.all (fun b => b == 0) then { clean with ecc := r.1, syn := r.2.2 }
    else d.openWord line r.1 r.2.2 (octXor (d.storedWord line) r.2.1)
  | some _, u =>
    let r := rsDecode (octXor (d.storedWord line) (u.getD (zeros 72)))
    d.openWord line r.1 r.2.2 r.2.1

/-- How a read of a line ends. -/
inductive Check
  | ok | err | halt
deriving DecidableEq, Repr

/-- Access kinds, as HaltCause codes them: 1 read, 2 read of a read-modify-write, 3 counter fetch, 4 Drizzle,
5 re-encryption. COMMAND of the snapshot is 2 for kinds 2 and 3 (R204). -/
def commandOf (kind : Nat) : Nat := if kind = 2 || kind = 3 then 2 else 0

/-- The poison list of a channel holds a line (R179). -/
def Dev.poisoned (d : Dev) (ch line : Nat) : Bool := (d.chan ch).poison.any (fun e => e.2.line == line)

/-- A line is read or written: its MINOR joins the minor cache of 8,192 lines (R197), the region's last (R198), and its epoch the cache of 8
epoch keys (R193). Each cache keeps what was used last (log entry 38). -/
def Dev.touch (d : Dev) (ch line m : Nat) : Dev :=
  let x := d.chan ch
  let e := (d.pairOf line).epoch
  d.setChan ch { x with cache := ((line, m) :: x.cache.filter (fun l => l.1 != line)).take 8192,
                        epochs := (e :: x.epochs.filter (fun k => k != e)).take 8,
                        lastMinor := SMap.ins x.lastMinor (regionOf (64 * line)) m }

/-- A corrected line is counted, and its channel's bucket takes it (R204). -/
def Dev.lineCorrected (d : Dev) (ch : Nat) (e : Ecc) : Dev :=
  if e = .corrected then (d.inc O.integrityDramCorrected).corrected (chInstance ch) else d

/-- A line that has passed the checks: a MINOR that differs from the prediction is counted (R198), and the line is touched. Where no line of the region
has been seen on the channel, 0 is predicted (DESIGN CHOICE, log entry 113). -/
def Dev.linePassed (d : Dev) (ch line m : Nat) : Dev :=
  let guess := (d.cachedMinor ch line).getD (SMap.getD (d.chan ch).lastMinor (regionOf (64 * line)) 0)
  (if guess = m then d else d.inc O.fogMispredicts).touch ch line m

/-- The line at an address is read through the checks: zero read, poison list, ECC, tag (R204, R205). -/
def Dev.checkLine (d : Dev) (a ch kind ni : Nat) : Check × Dev :=
  let line := a / 64
  if d.zeroRead a ch then (.ok, d)
  else if d.poisoned ch line then (.err, d)
  else
    let l := d.lookLine line
    if l.ecc = .uncorrectable then (.err, (d.inc O.integrityDramUncorrected).frost ch 1 (commandOf kind) ni a l.syn)
    else
      let d := d.lineCorrected ch l.ecc
      if !l.tagOk then (.halt, d.integrityHalt kind a ni) else (.ok, d.linePassed ch line l.minor)

/-! Rows (R170 to R172). -/

/-- An access to a row: an activate when the row is not open, with its draw for the neighbours that lie in the bank (R172), and the page
policy's decision to leave the row open (R171). -/
def Dev.rowAccess (d : Dev) (ch off : Nat) (hint : Option Bool) : Dev :=
  let x := d.chan ch
  let bank := d.rankAt ch off * 256 + Config.dramBank ch off % 256
  let row := Config.dramRow ch off
  let near := (if row = 0 then 0 else 1) + (if row + 1 < Config.dramRows ch then 1 else 0)
  let d := if SMap.getD x.openRow bank 0 == row + 1 then d
    else
      let hit := decide (d.draw % 65536 < d.chNat O.memChannelNeighbourProb ch)
      let d := d.drawn.incCh O.memChannelActivates ch
      if hit then d.add O.memChannelNeighbourRefreshes near (chA ch) (chB ch) else d
  let c := SMap.getD x.predictor bank 2
  let same := SMap.getD x.lastRow bank 0 == row + 1
  let keepOpen := match hint with
    | some b => b
    | none => match d.chNat O.memChannelPagePolicy ch with
      | 1 => false
      | 2 => true
      | _ => decide (2 ≤ c)
  let x := match hint with
    | some _ => x
    | none => { x with predictor := SMap.setD x.predictor bank 2 (if same then min (c + 1) 3 else c - 1),
                       lastRow := SMap.setD x.lastRow bank 0 (row + 1) }
  d.setChan ch { x with openRow := SMap.setD x.openRow bank 0 (if keepOpen then row + 1 else 0) }

/-! Writes (R179, R190, R191, R197). -/

/-- Set a slice. -/
def Dev.setSlice (d : Dev) (k : Nat) (s : Slice) : Dev :=
  { d with mem := { d.mem with slices := SMap.ins d.mem.slices k s } }

/-- Lines of a granule. -/
def granuleLines (g : Nat) : List Nat := (upTo (if isHbm (65536 * g) then 1024 else 16384)).map (fun i => 1024 * g + i)

/-- Zero is written into lines: a row access for each. -/
def Dev.zeroLines (d : Dev) (ls : List Nat) (hint : Option Bool) : Dev :=
  ls.foldl (fun d l => match d.locate (64 * l) with
    | some (ch, off) => d.rowAccess ch off hint
    | none => d) d

/-- A slice closes: its lines from the pointer are written as zero, with the hint of stream writes (log entry 31), and it is WRITTEN (R190). -/
def Dev.closeSlice (d : Dev) (k : Nat) : Dev :=
  match SMap.find d.mem.slices k with
  | none => d
  | some s =>
    if s.closed then d
    else
      let ls := (granuleLines (k / 256)).filter (fun l => d.lineIn l (k % 256) && s.ptr ≤ d.sliceIndex (64 * l))
      (d.zeroLines ls (some true)).setSlice k { s with closed := true }

/-- FILLING slices of a channel. -/
def Dev.filling (d : Dev) (ch : Nat) : List (Nat × Slice) :=
  d.mem.slices.filter (fun e => e.1 % 256 == ch && !e.2.closed)

/-- A slice opens; the 65th on a channel forces the earliest one closed (R190). -/
def Dev.openSlice (d : Dev) (k ch ptr who : Nat) : Dev :=
  let f := d.filling ch
  let d := if 64 ≤ f.length then
      match sortBy (fun x y => decide (x.2.order < y.2.order)) f with
      | (k0, _) :: _ => (d.closeSlice k0).inc O.integrityForcedCloses
      | [] => d
    else d
  let d := d.setSlice k { ptr := ptr, order := d.mem.opened, who := who }
  { d with mem := { d.mem with opened := d.mem.opened + 1 } }

/-- Which stream a write belongs to. -/
def streamOf (r : MemReq) : Nat := r.ni + 1024 * r.strm

/-- A stream declares its end: its slices close (R190). -/
def Dev.endStream (d : Dev) (who : Nat) : Dev :=
  (d.mem.slices.filter (fun e => e.2.who == who && !e.2.closed)).foldl (fun d e => d.closeSlice e.1) d

/-- Lines that a running re-encryption of their region has yet to do are written under the new pair (R199). -/
def Dev.linesDone (d : Dev) (r : Nat) (ls : List Nat) : Dev :=
  match d.job r with
  | none => d
  | some j => d.setJob { j with done := j.done ++ ls.filter (fun l => (d.locate (64 * l)).isSome && !j.done.contains l) }

/-- Where no slice of a granule has opened, a write that is no stream write finds all of it NEVER, and else the slice it falls in: the key under
which that is noted. -/
def Dev.freshKey (d : Dev) (a ch : Nat) : Nat :=
  let g := granuleOf a
  g * 256 + (if d.mem.slices.any (fun e => e.1 / 256 == g) then ch else 255)

/-- A write into a NEVER granule that is no stream write: zero in every other line, the granule WRITTEN (R191). -/
def Dev.zeroFill (d : Dev) (a ch : Nat) (hint : Option Bool) : Dev :=
  let g := granuleOf a
  let k := d.freshKey a ch
  let ls := (granuleLines g).filter (fun l => k % 256 == 255 || d.lineIn l ch)
  let d := ((d.inc O.integrityZeroFills).linesDone (regionOf a) ls).zeroLines (ls.filter (fun l => l != a / 64)) hint
  if k % 256 != 255 then d.setSlice k { ptr := 0, order := 0, closed := true }
  else { d with mem := { d.mem with granules := SMap.ins d.mem.granules g 2 } }

/-- Remove a line from a channel's poison list (R179). -/
def Dev.unpoison (d : Dev) (ch line : Nat) : Dev :=
  let x := d.chan ch
  d.setChan ch { x with poison := x.poison.filter (fun e => e.2.line != line) }

/-- Enter a line into the lowest free place of a channel's poison list (R178, R179). -/
def Dev.poisonAdd (d : Dev) (ch line : Nat) : Dev :=
  let x := d.chan ch
  match (upTo 16).find? (fun i => (SMap.find x.poison i).isNone) with
  | some i => if d.poisoned ch line then d else d.setChan ch { x with poison := SMap.ins x.poison i { line := line, tick := d.count } }
  | none => d

/-- Contents are stored at an address within one line; a line that lay raw, or had been disturbed, is encoded again. -/
def Dev.lay (d : Dev) (a : Nat) (l : List Byte) : Dev :=
  let d := d.poke a l
  { d with mem := { d.mem with raw := SMap.del d.mem.raw (a / 64), upset := SMap.del d.mem.upset (a / 64) } }

/-- The counters of a write to a WRITTEN line whose previous MINOR is m: MINOR + 1, or 0 under the new pair of a re-encryption, which a wrap
starts (R197, R199). -/
def Dev.countWrite (d : Dev) (a m : Nat) : Dev :=
  let line := a / 64
  match d.job (regionOf a) with
  | some j =>
    if j.done.contains line then d.setMinor line ((m + 1) % 256)
    else (d.setMinor line 0).jobDone line
  | none => if m = 255 then ((d.startJob (regionOf a)).setMinor line 0).jobDone line else d.setMinor line (m + 1)

/-- A line that is written while its granule is NEVER or FILLING takes MINOR 0 (R191). -/
def Dev.freshLine (d : Dev) (ch line : Nat) : Dev := ((d.setMinor line 0).jobDone line).touch ch line 0

/-- A further re-encryption of the region of an address must wait (R200): the region has one under way and the line is done, or the
queue of one running and four waiting is full on a channel that holds part of the region. -/
def Dev.jobWaits (d : Dev) (a : Nat) : Bool :=
  match d.job (regionOf a) with
  | some j => j.done.contains (a / 64)
  | none => (upTo 136).any (fun c => (jobLines (regionOf a)).any (fun l => d.lineIn l c) && 5 ≤ d.jobsOn c)

/-- A write within a line must wait: behind a request that waits for the same line (R174), or because it would start a re-encryption that must
(R200). `fresh` says that the request has itself found the slice NEVER. -/
def Dev.mustWait (d : Dev) (a ch n : Nat) (fresh : Bool) : Bool :=
  let line := a / 64
  d.mem.deferred.any (fun x => x.meets a n) ||
  (!fresh && d.sliceState a ch == 2 && d.jobWaits a &&
    (if d.poisoned ch line then a % 64 == 0 && n == 64 else (d.cachedMinor ch line).getD (d.minorOf line) == 255))

/-- A re-encryption of a line's region is under way and has yet to do the line: a write sets its MINOR to 0 (R199). -/
def Dev.lineMoves (d : Dev) (line : Nat) : Bool :=
  match d.job (regionOf (64 * line)) with
  | some j => !j.done.contains line
  | none => false

/-- Write within one line that does not wait, while its slice is NEVER, FILLING or WRITTEN. A line whose previous MINOR is neither in the minor cache
nor known from R191 or R199 is read first: a counter fetch, which a partial write makes with the read it needs anyway (R197). The answer says how the
read of a read-modify-write or a counter fetch has ended. -/
def Dev.writeLine (d : Dev) (a ch : Nat) (r : MemReq) (data : List Byte) (fresh : Bool) : Check × Dev :=
  let line := a / 64
  let whole := a % 64 == 0 && data.length == 64
  let k := granuleOf a * 256 + ch
  let idx := d.sliceIndex a
  let listed := d.poisoned ch line
  if listed && !whole then (.err, d)
  else
    let d := if listed then d.unpoison ch line else d
    match d.sliceState a ch with
    | 0 =>
      if r.stream && idx < 64 then
        let d := (d.openSlice k ch (idx + data.length) (streamOf r)).lay a data
        (.ok, (if d.sliceBytes a ≤ idx + data.length then d.closeSlice k else d).freshLine ch line)
      else (.ok, ((d.zeroFill a ch r.hint).lay a data).freshLine ch line)
    | s =>
      if s = 1 && r.stream && idx = d.fillPtr a ch then
        let x := (SMap.find d.mem.slices k).getD { ptr := 0, order := 0 }
        let d := (d.setSlice k { x with ptr := idx + data.length }).lay a data
        (.ok, (if d.sliceBytes a ≤ idx + data.length then d.closeSlice k else d).freshLine ch line)
      else if fresh then (.ok, (d.lay a data).freshLine ch line)
      else
        let d := if s = 1 then d.closeSlice k else d
        if listed then (.ok, ((((d.startJob (regionOf a)).setMinor line 0).jobDone line).lay a data).touch ch line 0)
        else
          let known := if d.lineMoves line then some 0 else d.cachedMinor ch line
          let l := d.lookLine line
          let n := if known.isSome then d else d.inc O.integrityCounterFetches
          let c := if whole && known.isSome then (Check.ok, n) else n.checkLine a ch (if whole then 3 else 2) r.ni
          match c.1 with
          | .ok =>
            let new := if whole then data else (l.plain.take (a % 64)) ++ data ++ l.plain.drop (a % 64 + data.length)
            let d := (c.2.countWrite a (known.getD l.minor)).lay (64 * line) new
            (.ok, d.touch ch line (d.minorOf line))
          | e => (e, c.2)

/-! Requests. -/

/-- The switched domain of a channel (table "Switched domains"). -/
def chDomain (ch : Nat) : Nat := if ch < 8 then 52 + ch / 2 else 44 + (ch - 8) / 16

/-- A span lies wholly within populated DDR (R161, R163). -/
def Dev.ddrSpan (d : Dev) (a n : Nat) : Bool :=
  let north := d.ddrBytes 0
  let south := d.ddrBytes 1
  (north == 0x20000000000 && 0x40000000000 ≤ a && a + n ≤ 0x60000000000 + south) ||
  (0x40000000000 ≤ a && a + n ≤ 0x40000000000 + north) || (0x60000000000 ≤ a && a + n ≤ 0x60000000000 + south)

/-- The memory accepts requests: not halted or tripped, and not in Lull (R175, R206). -/
def Dev.admits (d : Dev) : Bool := !d.stopped && d.nat O.memLullState == 0

/-- The channel of an address, and the offset in it, where it takes requests: populated memory, the channel ACTIVE (R161, R164, R167, R176) and its
domain not in FAULT (R418, R419). Any other request ends in a bus error. -/
def Dev.lineTarget (d : Dev) (a : Nat) : Option (Nat × Nat) :=
  match d.locate a with
  | none => none
  | some (ch, off) => if d.chState ch = 1 && d.nat O.powerDomainState 0 0 (chDomain ch) != 3 then some (ch, off) else none

/-- The first line's test line is released by an access (R209). -/
def Dev.releaseTest (d : Dev) (line : Nat) : Dev :=
  if d.mem.testLine = some line then { d with mem := { d.mem with testLine := none } } else d

/-- A read that comes in the cycle of an Integrity Halt, here its tick: the request is refused, and an uncorrectable line still takes its channel to
FROST (R205). -/
def Dev.haltFrost (d : Dev) (a n ni : Nat) : Dev :=
  d.when (d.halted && d.nat O.integrityHaltTick == d.count) (fun d =>
    (upTo ((a + n - 1) / 64 + 1 - a / 64)).foldl (fun d i =>
      let line := a / 64 + i
      match d.lineTarget (64 * line) with
      | none => d
      | some (ch, _) =>
        let l := d.lookLine line
        if !d.zeroRead (64 * line) ch && !d.poisoned ch line && l.ecc = .uncorrectable then
          (d.inc O.integrityDramUncorrected).frost ch 1 0 ni (64 * line) l.syn
        else d) d)

/-- A request that is not accepted: one refused in Lull is counted (R175). -/
def Dev.refused (d : Dev) (a n ni : Nat) : Dev :=
  (if !d.stopped && d.nat O.memLullState != 0 then d.inc O.memLullRefused else d).haltFrost a n ni

/-- The hint of a line of a request (R170). -/
def hintAt (r : MemReq) (last : Bool) : Option Bool := if r.closeLast && last then some false else r.hint

/-- Read n bytes, line by line: the data, or a bus error. The whole fails when one part fails. -/
def Dev.readSpan (d : Dev) (r : MemReq) : Nat → Nat → Nat → List Byte → Option (List Byte) × Dev
  | 0, _, _, acc => (some acc, d)
  | k + 1, a, n, acc =>
    if n = 0 then (some acc, d)
    else
      let m := min n (64 - a % 64)
      match d.lineTarget a with
      | none => (none, d)
      | some (ch, off) =>
        let d := d.releaseTest (a / 64)
        let z := d.zeroRead a ch
        let l := d.lookLine (a / 64)
        let d := if z then d else d.rowAccess ch off (hintAt r (n == m))
        let c := d.checkLine a ch 1 r.ni
        if c.1 = .ok then Dev.readSpan c.2 r k (a + m) (n - m) (acc ++ if z then zeros m else (l.plain.drop (a % 64)).take m)
        else (none, c.2)

/-- How far a write has come: what is left where it must wait, the slices that it has found NEVER, and whether all that was tried was performed. -/
structure Written where
  at_ : Nat
  rest : List Byte
  fresh : List Nat
  ok : Bool
deriving DecidableEq, Repr

/-- Write bytes, line by line, up to a line that must wait. -/
def Dev.writeSpan (d : Dev) (r : MemReq) : Nat → Nat → List Byte → List Nat → Bool → Written × Dev
  | 0, a, l, fresh, ok => ({ at_ := a, rest := l, fresh := fresh, ok := ok }, d)
  | k + 1, a, l, fresh, ok =>
    if l.isEmpty then ({ at_ := a, rest := [], fresh := fresh, ok := ok }, if r.streamEnd then d.endStream (streamOf r) else d)
    else
      let m := min l.length (64 - a % 64)
      match d.lineTarget a with
      | none => Dev.writeSpan d r k (a + m) (l.drop m) fresh false
      | some (ch, off) =>
        let d := d.releaseTest (a / 64)
        let mine := fresh.contains (granuleOf a * 256 + 255) || fresh.contains (granuleOf a * 256 + ch)
        if d.mustWait a ch m mine then ({ at_ := a, rest := l, fresh := fresh, ok := ok }, d)
        else
          let fresh := if d.sliceState a ch = 0 && !(r.stream && d.sliceIndex a < 64) then fresh ++ [d.freshKey a ch] else fresh
          let c := (d.rowAccess ch off (hintAt r (l.length == m))).writeLine a ch r (l.take m) mine
          Dev.writeSpan (c.2.finishJob (regionOf a)) r k (a + m) (l.drop m) fresh (ok && c.1 == .ok)

/-- A read must wait: a write to one of its lines does (R174). -/
def Dev.readWaits (d : Dev) (a n : Nat) : Bool := d.mem.deferred.any (fun x => x.write && x.meets a n)

/-- A request joins those that wait. -/
def Dev.defer (d : Dev) (x : Deferred) : Dev := { d with mem := { d.mem with deferred := d.mem.deferred ++ [x] } }

/-- A request is performed as far as it can be; what must wait joins those that wait. -/
def Dev.perform (d : Dev) (x : Deferred) : Dev :=
  if x.write then
    let y := d.writeSpan x.req (x.data.length + 1) x.addr x.data x.fresh x.ok
    if y.1.rest.isEmpty then y.2.replyTo x y.1.ok []
    else y.2.defer { x with addr := y.1.at_, data := y.1.rest, fresh := y.1.fresh, ok := y.1.ok }
  else if d.readWaits x.addr x.len then d.defer x
  else
    let y := d.readSpan x.req (x.len + 1) x.addr x.len []
    y.2.replyTo x y.1.isSome (y.1.getD [])

/-- Requests that wait are tried in their order, each behind those before it that still wait; again while any has gone on. -/
def Dev.wake : Nat → Dev → Dev
  | 0, d => d
  | n + 1, d =>
    if d.mem.deferred.isEmpty then d
    else
      let w := d.mem.deferred
      let d := w.foldl Dev.perform { d with mem := { d.mem with deferred := [] } }
      if d.mem.deferred = w then d else Dev.wake n d

/-- Try what waits. -/
def Dev.wakeAll (d : Dev) : Dev := d.wake (d.mem.deferred.length + 1)

/-- A requester asks: refused, performed, or waiting (R174, R175, R200). -/
def Dev.ask (d : Dev) (x : Deferred) : Dev :=
  if !d.admits then (d.refused x.addr x.size x.req.ni).replyTo x false []
  else
    let waits := !x.write && (x.req.rawWait || d.readWaits x.addr x.len)
    let d := match d.locate x.addr with
      | some (ch, _) => if waits then d.incCh O.memChannelRawWaits ch else d
      | none => d
    (d.perform x).wakeAll

/-! Accesses of the device's own engines. An access that meets a request that waits on one of its lines waits too: the command that makes it is taken
back, and comes again (log entry 30). -/

/-- The access must wait. -/
def Dev.hold (d : Dev) : Dev := { d with mem := { d.mem with held := true } }

/-- A command of an engine: taken back where one of its accesses must wait. -/
def Dev.orHold (d : Dev) (f : Dev → Dev) : Dev :=
  let n := f { d with mem := { d.mem with held := false } }
  if n.mem.held then d else n

/-- Read n bytes for an engine, with the hint OPEN; the last request carries CLOSE where nothing follows (R170). -/
def Dev.fetch (d : Dev) (ni a n : Nat) (last : Bool := true) : Option (List Byte) × Dev :=
  if !d.admits then (none, d.refused a n ni)
  else if d.readWaits a n then (none, d.hold)
  else
    let y := d.readSpan { ni := ni, hint := some true, closeLast := last } (n + 1) a n []
    (y.1, y.2.wakeAll)

/-- Write bytes for an engine, as a stream that goes on where `stream` says so. The answer says whether every write was performed. -/
def Dev.storeAt (d : Dev) (ni a : Nat) (l : List Byte) (stream : Bool := true) (last : Bool := true) (fin : Bool := false)
    (strm : Nat := 0) : Bool × Dev :=
  if !d.admits then (false, d.refused a l.length ni)
  else
    let y := d.writeSpan { ni := ni, strm := strm, hint := some true, closeLast := last, stream := stream, streamEnd := fin } (l.length + 1) a l [] true
    if y.1.rest.isEmpty then (y.1.ok, y.2.wakeAll) else (false, y.2.hold)

/-- A posted write of an engine, whose completion nobody awaits. -/
def Dev.postAt (d : Dev) (ni a : Nat) (l : List Byte) : Dev :=
  d.ask { addr := a, write := true, data := l, req := { ni := ni, hint := some true, closeLast := true } }

/-- Network interfaces of die e's blocks (R314): ring writer, promoter, fetch engine, Storage Engine; then the Query Engine, the
Host endpoint and service memory. -/
def niRing (e : Nat) : Nat := 576 * e + 32
def niPromoter (e : Nat) : Nat := 576 * e + 33
def niFetch (e : Nat) : Nat := 576 * e + 36
def niStore (e : Nat) : Nat := 576 * e + 37
def niQuery : Nat := 40
def niHost : Nat := 44
def niService : Nat := 48

/-- Channels of some bytes. -/
def Dev.chansOf (d : Dev) (a n : Nat) : List Nat :=
  (upTo (n / 1024 + 2)).filterMap (fun i => (d.locate (min (a + 1024 * i) (a + n - 1))).map (fun c => c.1))

/-- A DRAM read: its data goes back to the requester, or a bus error (R204). -/
def memReadEffect (a : Nat) (r : MemReq) (f : LineFind) (n : Nat) (d : Dev) : Dev :=
  (d.disturb f).ask { addr := a, write := false, len := n, req := r, reply := .requester }

/-- A DRAM write (R197). Where a part of it waits, its completion does. -/
def memWriteEffect (a : Nat) (r : MemReq) (f : LineFind) (l : List Byte) (d : Dev) : Dev :=
  (d.disturb f).ask { addr := a, write := true, data := l, req := r, reply := .requester }

/-- The next line that a channel's re-encryption reads: the lowest line that is not done, of the oldest job with one (R199). -/
def Dev.nextLine (d : Dev) (ch : Nat) : Option Nat :=
  d.mem.jobs.findSome? (fun j => (jobLines j.region).find? (fun l => d.lineIn l ch && !j.done.contains l))

/-- One line is re-encrypted (R199, R204): a line that was never written stays so; an uncorrectable one freezes the channel,
enters the poison list and is marked done unwritten. FROST, THAWING and Lull pause the work; its hint is OPEN, CLOSE on the last line of each
1 KiB block (R200). Lull pauses it once the queues have drained (R175). -/
def reencLineEffect (ch : Nat) (f : LineFind) (d : Dev) : Dev :=
  d.when (d.chState ch == 1 && !d.stopped && d.nat O.memLullState ≤ 1) (fun d =>
    let d := d.disturb f
    match d.nextLine ch with
    | none => d
    | some line =>
      let a := 64 * line
      let d := d.releaseTest line
      if d.zeroRead a ch then ((d.jobDone line).finishJob (regionOf a)).wakeAll
      else
        let off := ((d.locate a).map (fun x => x.2)).getD 0
        let l := d.lookLine line
        let c := (d.rowAccess ch off (some (a % 1024 != 960))).checkLine a ch 5 0xFFFE
        match c.1 with
        | .ok => (((((c.2.setMinor line 0).lay a l.plain).jobDone line).touch ch line 0).finishJob (regionOf a)).wakeAll
        | .err => (((c.2.poisonAdd ch line).jobDone line).finishJob (regionOf a)).wakeAll
        | .halt => c.2)

/-- A refresh command: it closes the open rows of the channel (R171, R173). -/
def refreshEffect (ch : Nat) (d : Dev) : Dev :=
  d.when (1 ≤ d.chState ch && d.chState ch ≤ 3) (fun d => d.setChan ch { d.chan ch with openRow := [] })

/-- Channels that share a temperature readout: the 16 of a stack (R173). -/
def sameSensor (ch : Nat) : List Nat :=
  if ch < 8 then [ch] else (upTo 16).map (fun i => 8 + (ch - 8) / 16 * 16 + i)

/-- A temperature reading, or none that is valid (R173): doubling at or above the threshold, back to normal at 3 °C below; ten
milliseconds after the last valid reading, or after training where there was none, count as above it. -/
def temperatureEffect (ch : Nat) (reading : Option Int) (d : Dev) : Dev :=
  (sameSensor ch).foldl (fun d c =>
    d.when (1 ≤ d.chState c && d.chState c ≤ 3) (fun d =>
      let x := d.chan c
      let th : Int := d.chNat O.memChannelRefreshThreshold c
      match reading with
      | some t =>
        let d := (d.setInt O.memChannelTemperature t (chA c) (chB c)).setChan c { x with sensorNs := some d.ns, sensorDown := false }
        if th ≤ t then d.setCh O.memChannelRefreshDoubled c 1
        else if t ≤ th - 3 then d.setCh O.memChannelRefreshDoubled c 0 else d
      | none =>
        if x.sensorNs.getD 0 + 10000000 ≤ d.ns && !x.sensorDown then
          ((d.setCh O.memChannelRefreshDoubled c 1).incCh O.memChannelSensorFaults c).setChan c { x with sensorDown := true }
        else d)) d

/-- Command/address parity failure on a channel (R176). Refresh and training have no initiator (R177); one in the cycle of an Integrity Halt, here its
tick, is still recorded (R205). -/
def caParityEffect (ch a command ni : Nat) (d : Dev) : Dev :=
  d.when (1 ≤ d.chState ch && d.chState ch ≤ 3 && (!d.stopped || (d.halted && d.nat O.integrityHaltTick == d.count))) (fun d =>
    (d.frost ch 2 command (if 3 ≤ command then 0xFFFF else ni) a).wakeAll)

/-! Lull (R175, R201). -/

/-- A stack or rank of a channel is retained. -/
def Dev.retains (d : Dev) (ch : Nat) : Bool :=
  if ch < 8 then (upTo 4).any (fun r => d.hasRank ch r && bitOf (d.nat O.memLullRetainDdr) (4 * ch + r))
  else bitOf (d.nat O.memLullRetainHbm) ((ch - 8) / 16)

/-- Step 2 and 3: queues are empty; channels retain or give up their contents, as MemLull.RetainHbm and RetainDdr then say, and domains go off. -/
def lullDrainedEffect (d : Dev) : Dev :=
  d.when (d.nat O.memLullState == 1 && d.mem.deferred.isEmpty) (fun d =>
    let d := { d with mem := { d.mem with lullKeep := (d.nat O.memLullRetainHbm, d.nat O.memLullRetainDdr) } }
    let d := (upTo 136).foldl (fun d ch =>
      if d.chState ch = 1 then d.setCh O.memChannelState ch (if d.retains ch then 4 else 5) else d) d
    let d := (upTo 8).foldl (fun d h =>
      if bitOf (d.nat O.memLullRetainHbm) h then d else d.setNat O.powerDomainState 0 0 0 (44 + h)) d
    let d := (upTo 4).foldl (fun d j =>
      if d.retains (2 * j) || d.retains (2 * j + 1) then d else d.setNat O.powerDomainState 0 0 0 (52 + j)) d
    d.setNat O.memLullState (if d.on O.memLullControl then 2 else 3))

/-- The byte at an address survives Lull: its stack or rank was retained. -/
def Dev.survives (d : Dev) (a : Nat) : Bool :=
  match d.locate a with
  | none => false
  | some (ch, off) =>
    if ch < 8 then bitOf d.mem.lullKeep.2 (4 * ch + d.rankOf ch off)
    else bitOf d.mem.lullKeep.1 ((ch - 8) / 16)

/-- First addresses of the parts of a granule that lie in different channels. -/
def granuleParts (g : Nat) : List Nat :=
  let a := g * 65536
  if isHbm a then (upTo 64).map (fun i => a + 1024 * i) else (upTo 256).map (fun i => a + 4096 * i)

/-- A granule survives whole: one valid bit covers it (R189). -/
def Dev.granuleSurvives (d : Dev) (g : Nat) : Bool := (granuleParts g).all d.survives

/-- A region moves to a new counter pair after Lull (R201). A re-encryption that Lull has paused counts as ended first (log entry 38). -/
def Dev.renewRegion (d : Dev) (r : Nat) : Dev :=
  let d := match d.job r with
    | none => d
    | some j => d.endJob j
  d.startJob r

/-- Steps 4 and 5: the domains that Lull switched off come on, and the channels are retrained; those that fail enter FROST. Granules that
lost a part are NEVER, and their regions move to a new counter pair (R175, R201). -/
def lullRetrainEffect (failed : List (Fin 136)) (d : Dev) : Dev :=
  d.when (d.nat O.memLullState == 3) (fun d =>
    let gs := (d.mem.granules.map (fun e => e.1)) ++ (d.mem.slices.map (fun e => e.1 / 256))
    let gone := (gs.filter (fun g => !d.granuleSurvives g)).eraseDups
    let lost := fun (line : Nat) => gone.contains (granuleOf (64 * line))
    let d := { d with mem := { d.mem with granules := d.mem.granules.filter (fun e => !gone.contains e.1),
                                          slices := d.mem.slices.filter (fun e => !gone.contains (e.1 / 256)),
                                          minors := d.mem.minors.filter (fun e => !lost e.1),
                                          raw := d.mem.raw.filter (fun e => !lost e.1),
                                          upset := d.mem.upset.filter (fun e => !lost e.1) } }
    let d := d.scrap (fun a => gone.contains (granuleOf a))
    let d := (upTo 12).foldl (fun d j =>
      if d.nat O.powerDomainState 0 0 (44 + j) = 0 && d.domainUsed (44 + j) then d.setNat O.powerDomainState 1 0 0 (44 + j) else d) d
    let d := (upTo 136).foldl (fun d ch =>
      if d.chState ch = 4 || d.chState ch = 5 then
        let d := d.setCh O.memChannelState ch 1
        if failed.any (fun x => x.val == ch) then d.frost ch 3 4 0xFFFF 0 else d
      else d) d
    let d := ((gone.map (fun g => regionOf (65536 * g))).eraseDups).foldl Dev.renewRegion d
    d.setNat O.memLullState (if d.on O.memLullControl then 1 else 0))

/-! Thaw (R178). -/

/-- A Thaw committed at tc: THAWING; a DATA line enters the poison list. -/
def Dev.thawBegin (d : Dev) (ch tc : Nat) : Dev :=
  let x := d.chan ch
  let d := if x.snap.cause = 1 then d.poisonAdd ch (x.snap.address / 64) else d
  let x := d.chan ch
  (d.setCh O.memChannelState ch 3).setChan ch { x with snap := { x.snap with thawTick := tc } }

/-- The retraining of a Thaw ends: ACTIVE and a Logbook entry, or FROST again with CAUSE TRAINING. -/
def thawDoneEffect (ch : Nat) (ok : Bool) (d : Dev) : Dev :=
  d.when (d.chState ch == 3) (fun d =>
    let d := d.setCh O.memChannelState ch 1
    if ok then
      let b := (d.chan ch).snap.bytes
      d.logNote 4 1 (b.take 16) ((b.drop 16).take 16) 0xFFFF
    else (d.incCh O.memChannelThawFailures ch).frost ch 3 4 0xFFFF 0)

/-- MEMORY_READ. -/
def execMemoryRead (dt : Nat) (addr : Fin (2 ^ 44)) (req : MemReq) (find : LineFind) (bytes : Nat) (s : State) :
    Host.Outcome State Fault Refusal :=
  run s dt (memReadEffect addr req find bytes)

/-- MEMORY_WRITE. -/
def execMemoryWrite (dt : Nat) (addr : Fin (2 ^ 44)) (req : MemReq) (find : LineFind) (data : List Byte) (s : State) :
    Host.Outcome State Fault Refusal :=
  run s dt (memWriteEffect addr req find data)

/-- REENCRYPTION_LINE. -/
def execReencryptionLine (dt : Nat) (ch : Fin 136) (find : LineFind) (s : State) : Host.Outcome State Fault Refusal :=
  run s dt (reencLineEffect ch find)

/-- REFRESH. -/
def execRefresh (dt : Nat) (ch : Fin 136) (s : State) : Host.Outcome State Fault Refusal := run s dt (refreshEffect ch)

/-- MEMORY_TEMPERATURE_READ. -/
def execMemoryTemperatureRead (dt : Nat) (ch : Fin 136) (reading : Option Int) (s : State) : Host.Outcome State Fault Refusal :=
  run s dt (temperatureEffect ch reading)

/-- CA_PARITY_FAILURE. -/
def execCaParityFailure (dt : Nat) (ch : Fin 136) (addr : Fin (2 ^ 44)) (command initiator : Nat) (s : State) :
    Host.Outcome State Fault Refusal :=
  run s dt (caParityEffect ch addr command initiator)

/-- LULL_DRAINED. -/
def execLullDrained (dt : Nat) (s : State) : Host.Outcome State Fault Refusal := run s dt lullDrainedEffect

/-- LULL_RETRAIN_DONE. -/
def execLullRetrainDone (dt : Nat) (failed : List (Fin 136)) (s : State) : Host.Outcome State Fault Refusal :=
  run s dt (lullRetrainEffect failed)

/-- THAW_RETRAIN_DONE. -/
def execThawRetrainDone (dt : Nat) (ch : Fin 136) (ok : Bool) (s : State) : Host.Outcome State Fault Refusal :=
  run s dt (thawDoneEffect ch ok)

end Sys2Proof.Machine
end

