-- ==== Sys2Proof/Machine/Fronts.lean ====
section
/-! DEFINITION. Evaluation of the Fronts, window ends and delivery (chapter "Events, Fronts and Retention", R122 to R124, R132, R136, R137). -/

set_option Elab.async false

namespace Sys2Proof.Machine

/-! Fronts (R121 to R124). -/

/-- A Front evaluates, once in a nanosecond: it takes the lowest enabled branch of its state whose condition is true, on the inputs that
occurred in the nanosecond; the branch's actions take effect at the end of it (R122, R123). A commit of its Control in the nanosecond
wins (R124). -/
def frontEffect (n : Nat) (d : Dev) : Dev :=
  d.when (SMap.find d.events.evals n != some d.ns) (fun d =>
    let d := { d with events := { d.events with evals := SMap.ins d.events.evals n d.ns } }
    d.when (d.nat O.frontControl n == 1 && d.ownsFront n && SMap.find d.events.controls n != some d.ns) (fun d =>
      let ins := d.events.inputs.filter (fun x => x.n == n && x.ns == d.ns)
      let st := d.nat O.frontState n
      let word := fun b => d.nat O.frontBranch n 0 (4 * st + b)
      let reached := fun c => decide (d.nat O.frontCounterLimit n 0 c ≤ d.nat O.frontCounter n 0 c)
      let hit := fun b => branchTrue (word b) (fun i => ins.any (fun x => x.i == i)) (d.timerExpired n 0) (d.timerExpired n 1) (reached 0) (reached 1)
      match (upTo 4).find? hit with
      | none => d
      | some b =>
        let t : Taken := { n := n, b := b, word := word b, sel := (ins.filter (fun x => bitOf (word b) x.i)).map (fun x => x.occ) }
        { d with events := { d.events with taken := d.events.taken ++ [t] } }))

/-- The time-base count passes a window's end (R132 steps 6 and 7). -/
def windowEndEffect (s : Nat) (d : Dev) : Dev :=
  d.when (d.nat O.retentionState s == 1 && d.nat O.retentionWindowEnd s ≤ d.count) (fun d =>
    (d.setNat O.retentionState 2 s).tryClose s)

/-! Delivery (R136, R137). -/

/-- A notification PDU of at most 64 reports, to Notify.Target of the port (R136, R263). -/
def notifyEffect (v : Nat) (d : Dev) : Dev :=
  let target := if v = 0 then d.octs O.notifyTargetA else d.octs O.notifyTargetB
  let sent := (SMap.getD d.events.notified v []).filter (fun t => decide (d.ns < t + 1000000000))
  let due := ((upTo 1536).filter (fun ev =>
    let s := SMap.getD d.events.slots (v * 2048 + ev) {}
    s.count != 0 && (match s.sentNs with
      | some t => decide (t + 1000000 * d.nat O.notifyHoldoff ≤ d.ns)
      | none => true))).take 64
  d.when (d.on O.vaneLinkState v && target.any (fun b => b != 0) && sent.length < d.nat O.notifyMaxRate && !due.isEmpty) (fun d =>
    let items := due.flatMap (fun ev =>
      let s := SMap.getD d.events.slots (v * 2048 + ev) {}
      itemBytes 7 0 ev 0 0x0E 0 (leBytes 4 s.count ++ leBytes 8 s.first ++ leBytes 8 s.last))
    let seq := SMap.getD d.dict.portSeq v 0
    let d := d.sendPdu v (d.vaneOwn v) target (d.pdu v 3 0 0 0 seq 0 due.length items d.count)
    let d := due.foldl (fun d ev =>
      { d with events := { d.events with slots := SMap.ins d.events.slots (v * 2048 + ev) { sentNs := some d.ns } } }) d
    let d := { d with dict := { d.dict with portSeq := SMap.ins d.dict.portSeq v ((seq + 1) % 2 ^ 64) },
                      events := { d.events with notified := SMap.ins d.events.notified v (sent ++ [d.ns]) } }
    d.inc O.notifySent)

/-- The entry of a vector in the MSI-X table: address, data and Vector Control, of which bit 0 masks the vector and is 1 until the host clears it
(PRESUMED, log entry 34). -/
def Dev.msixEntry (d : Dev) (v : Nat) : List Byte := SMap.getD d.events.msixTable v (zeros 12 ++ [1, 0, 0, 0])

/-- The vector is masked, by itself or with the whole function. -/
def Dev.msixMasked (d : Dev) (v : Nat) : Bool := bitOf (fieldAt (d.msixEntry v) 12 1) 0 || bitOf d.events.msixControl 14

/-- A pending vector that is not masked sends its message, with MSI-X enabled and the link up, at most once in Msix.Interval (R137): the
data of its entry of the MSI-X table to the entry's address (log entry 34). -/
def msixEffect (v : Nat) (d : Dev) : Dev :=
  let ready := match SMap.find d.events.msixSent v with
    | some t => decide (t + 1000 * d.nat O.msixInterval (v / 128) 0 (v % 128) ≤ d.ns)
    | none => true
  d.when ((SMap.find d.events.msix v).isSome && !d.msixMasked v && bitOf d.events.msixControl 15 && d.hasHost && d.portUp 0 0 && ready) (fun d =>
    let d := { d with events := { d.events with msix := SMap.del d.events.msix v, msixSent := SMap.ins d.events.msixSent v d.ns } }
    d.send (.msix v (fieldAt (d.msixEntry v) 0 8) (fieldAt (d.msixEntry v) 8 4)))

/-- FRONT_EVALUATE. -/
def execFrontEvaluate (dt : Nat) (n : Fin 16) (s : State) : Host.Outcome State Fault Refusal := run s dt (frontEffect n)

/-- FRONT_TIMER_EXPIRY. -/
def execFrontTimerExpiry (dt : Nat) (n : Fin 16) (t : Fin 2) (s : State) : Host.Outcome State Fault Refusal :=
  run s dt (timerEffect n t)

/-- WINDOW_END_REACHED. -/
def execWindowEndReached (dt : Nat) (w : Fin 256) (s : State) : Host.Outcome State Fault Refusal := run s dt (windowEndEffect w)

/-- CLOSE_LIMIT_EXPIRY. -/
def execCloseLimitExpiry (dt : Nat) (w : Fin 256) (s : State) : Host.Outcome State Fault Refusal :=
  run s dt (fun d => d.tryClose w)

/-- NOTIFICATION. -/
def execNotification (dt : Nat) (v : Fin 2) (s : State) : Host.Outcome State Fault Refusal := run s dt (notifyEffect v)

/-- MSIX_MESSAGE. -/
def execMsixMessage (dt : Nat) (v : Fin 2048) (s : State) : Host.Outcome State Fault Refusal := run s dt (msixEffect v)

end Sys2Proof.Machine
end

