-- ==== Sys2Proof/Machine/Ring.lean ====
section
/-! DEFINITION. The ring writer, the promoter and the stage (R109, R131 to R134, R165 to R169, R229). -/

set_option Elab.async false

namespace Sys2Proof.Machine

/-! Ring writer. -/

/-- Base and size of a ring. -/
def Dev.ringBase (d : Dev) (e : Nat) : Nat := d.nat O.memRingBase e
def Dev.ringSize (d : Dev) (e : Nat) : Nat := max 1 (d.nat O.memRingSize e)

/-- The ring lies in available HBM (R164): a range that crosses the halves needs both. -/
def Dev.ringUp (d : Dev) (e : Nat) : Bool :=
  let lo := d.ringBase e / 0x2400000000
  let hi := (d.ringBase e + d.ringSize e - 1) / 0x2400000000
  d.hbmUp lo && d.hbmUp hi

/-- Device address of an absolute position of the ring. -/
def Dev.ringAddr (d : Dev) (e abs : Nat) : Nat := d.ringBase e + abs % d.ringSize e

/-- FIFOs of die e, by ascending quad, the link FIFO (36) last. -/
def fifoList (e : Nat) : List Nat := (upTo 18).map (fun i => 18 * e + i) ++ [36]

/-- A FIFO of die e. -/
def Dev.fifoAt (d : Dev) (e q : Nat) : Fifo := if q = 36 then (d.eng e).linkFifo else d.fifo q

/-- Set it. -/
def Dev.setFifoAt (d : Dev) (e q : Nat) (f : Fifo) : Dev :=
  if q = 36 then d.setEng e { d.eng e with linkFifo := f } else d.setFifo q f

/-- The FIFO whose draining bank holds the packet that closed first (R165). -/
def Dev.nextFifo (d : Dev) (e : Nat) : Option (Nat × Packet) :=
  (fifoList e).foldl (fun best q =>
    match (d.fifoAt e q).draining with
    | [] => best
    | p :: _ => match best with
      | none => some (q, p)
      | some b => if p.closeNs < b.2.closeNs then some (q, p) else best) none

/-- The open or CLOSING window of a session that a tick lies in: its start. -/
def Dev.windowAt (d : Dev) (s tick : Nat) : Option Nat :=
  if d.nat O.retentionState s != 0 && d.nat O.retentionWindowStart s ≤ tick && tick < d.nat O.retentionWindowEnd s
  then some (d.nat O.retentionWindowStart s) else none

/-- The promoter would copy a record that lies in the ring at an absolute position (R131, R132): the start of its span. A window that is open
goes on when the mode changes to ALL, which copies every record of the session. -/
def Dev.spanOf (d : Dev) (e s abs type tick : Nat) : Option Nat :=
  let w := d.win s
  let m := d.nat O.retentionMode s
  if m = 0 then none
  else if (d.windowAt s tick).isSome then d.windowAt s tick
  else if m = 2 then some (min tick (w.allFrom.getD tick))
  else match w.spans.find? (fun x => decide (x.lo ≤ tick ∧ tick < x.hi ∧ abs < (if e = 0 then x.cut0 else x.cut1))) with
    | some x => some x.lo
    | none => if type = 0x14 then some tick else none

/-- A record of a ring packet waits for promotion. -/
def Dev.wanted (d : Dev) (e : Nat) (p : RingPkt) (r : RingIx) : Bool :=
  !r.taken && (d.spanOf e p.session p.abs r.type r.tick).isSome

/-- Records passed over count as overrun: once for the packet, and their ports' runs break (R133, R169). Those of a window that has not closed count
while Retention.Mode is OFF too. -/
def Dev.passOver (d : Dev) (e : Nat) (p : RingPkt) : Dev :=
  let lost := p.ix.filter (fun r => d.wanted e p r || (!r.taken && (d.windowAt p.session r.tick).isSome))
  if lost.isEmpty then d
  else
    let w := d.win p.session
    let ports := lost.map (fun r => r.port)
    ((d.setWin p.session { w with broken := w.broken ++ (ports.eraseDups.filter (fun i => !w.broken.contains i)) }).inc O.promoterOverruns e).occur (1510 + e)

/-- The newest TICK of each port that has left the ring, a packet more. -/
def RingPkt.noteGone (p : RingPkt) (m : SMap Nat) : SMap Nat := p.ix.foldl (fun m r => SMap.ins m r.port (max r.tick (SMap.getD m r.port 0))) m

/-- The writer is about to fill the ring up to an absolute position: packets it overwrites leave it (R133). -/
def Dev.overwrite (d : Dev) (e upTo : Nat) : Dev :=
  let gone := (d.eng e).pkts.filter (fun p => p.abs + d.ringSize e < upTo)
  gone.foldl (fun d p =>
    let d := d.passOver e p
    let x := d.eng e
    d.setEng e { x with pkts := x.pkts.filter (fun q => q.abs != p.abs), overw := p.noteGone x.overw }) d

/-- Write a packet at an absolute position, after the zero word that goes ahead of it, with which the stream up to the ring's end is declared ended
(R190, log entry 39). -/
def Dev.ringPut (d : Dev) (e : Nat) (zero : Option Nat) (abs : Nat) (p : Packet) : Bool × Dev :=
  let z := match zero with
    | some a => d.storeAt (niRing e) (d.ringAddr e a) (zeros 8) true false true
    | none => (true, d)
  let r := z.2.storeAt (niRing e) (d.ringAddr e abs) p.bytes
  (z.1 && r.1, r.2)

/-- An uncorrectable SRAM error discards the packet at the head of a record FIFO's draining bank (R109). -/
def Dev.strikeFifo (d : Dev) (e q : Nat) : Dev :=
  let f := d.fifoAt e q
  match f.draining with
  | [] => d
  | p :: ps => ((d.setFifoAt e q { f with draining := ps }).inc O.integritySramUncorrected).discardPacket 4 false p

/-- The banks of a FIFO exchange roles where they can; the link FIFO has one store. -/
def Fifo.turn (k : Nat) (f : Fifo) : Fifo := if k = 36 then f.ready else f.swap

/-- Every channel that a packet in flight touches is ACTIVE. -/
def Dev.flightClear (d : Dev) (e : Nat) (f : Flight) : Bool :=
  (d.chansOf (d.ringAddr e f.abs) f.pkt.size ++ (match f.zero with
    | some a => d.chansOf (d.ringAddr e a) 8
    | none => [])).all (fun c => d.chState c == 1)

/-- Where the next packet of some bytes goes: its absolute position, whether the ring wraps, and the position of the zero word. At the ring's
very end there is no room for that word (log entry 35). -/
def EngAux.nextPlace (x : EngAux) (size bytes : Nat) : Nat × Bool × Option Nat :=
  let room := if x.atEnd then 0 else size - x.writeAbs % size
  if room < bytes then (x.writeAbs + room, true, if room = 0 then none else some x.writeAbs) else (x.writeAbs, false, none)

/-- The ring writer takes the next closed packet, or writes again one whose write failed (R165 to R167). `struck` names the FIFOs whose draining bank reads
with an SRAM error, and whether it was corrected (R109, R182). -/
def ringWriteEffect (e : Nat) (struck : List (Fin 37 × Bool)) (d : Dev) : Dev :=
  d.when (!d.stopped) (fun d =>
    let d := (fifoList e).foldl (fun d q => d.setFifoAt e q ((d.fifoAt e q).turn q)) d
    let d := struck.foldl (fun d (q : Fin 37 × Bool) =>
      if q.1.val = 36 || dieOf q.1 = e then (if q.2 then d.sramFixed (captureInstance e q.1 true) else d.strikeFifo e q.1) else d) d
    d.orHold (fun d =>
    let x := d.eng e
    if x.flights.any (fun f => f.state == 1) then
      match x.flights.find? (fun f => f.state == 1 && d.flightClear e f) with
      | none => d
      | some f =>
        let r := d.ringPut e f.zero f.abs f.pkt
        r.2.setEng e { r.2.eng e with flights := updateFirst (fun g => g.abs == f.abs) (fun g => { g with ok := r.1, state := 0 }) x.flights }
    else
      match d.nextFifo e with
      | none => d
      | some (q, p) =>
        if !d.ringUp e then
          if x.held then d else (d.setEng e { x with held := true }).inc O.memRingStalls e
        else
          let size := d.ringSize e
          let pl := x.nextPlace size p.size
          let d := d.overwrite e (pl.1 + p.size)
          let d := if pl.2.1 then d.inc O.memRingWraps e else d
          let r := d.ringPut e pl.2.2 pl.1 p
          let f := r.2.fifoAt e q
          let d := r.2.setFifoAt e q { f with draining := f.draining.drop 1, flying := f.flying + 1 }
          let y := d.eng e
          d.setEng e { y with writeAbs := pl.1 + p.size, atEnd := (pl.1 + p.size) % size == 0, held := false,
                              flights := y.flights ++ [{ fifo := q, abs := pl.1, zero := pl.2.2, pkt := p, ok := r.1 }] }))

/-- A record with TICK before the end of its session's last window that reaches the ring after that window has closed, and is not
promoted (R132). -/
def Dev.late (d : Dev) (e s abs : Nat) (r : Rec) : Dev :=
  if r.tick < (d.win s).lastEnd && (d.spanOf e s abs r.type r.tick).isNone then d.inc O.retentionLateRecords s else d

/-- The oldest packet in flight is acknowledged: WriteOffset becomes the offset that follows it, and its records are the promoter's (R166). -/
def Dev.landed (d : Dev) (e : Nat) (f : Flight) : Dev :=
  let y := d.eng e
  let stop := f.abs + f.pkt.size
  let size := d.ringSize e
  let rp : RingPkt := { abs := f.abs, bytes := f.pkt.size, session := f.pkt.session,
                        prev := (SMap.find y.lastOf f.pkt.session).getD f.abs,
                        ix := f.pkt.recs.map (fun r => { type := r.type, port := r.port, tick := r.tick, seq := r.seq }) }
  let d := d.setEng e { y with flights := y.flights.drop 1, ackAbs := stop, pkts := y.pkts ++ [rp],
                               lastOf := SMap.ins y.lastOf f.pkt.session f.abs }
  let d := d.setNat O.memRingWriteOffset (if stop % size = 0 then size else stop % size) e
  let d := f.pkt.recs.foldl (fun d r => d.late e f.pkt.session f.abs r) d
  d.tryClose f.pkt.session

/-- Packets whose writes, and those of every packet before them, are acknowledged. -/
def Dev.landAll (e : Nat) : Nat → Dev → Dev
  | 0, d => d
  | n + 1, d =>
    match (d.eng e).flights with
    | [] => d
    | f :: _ => if f.state = 2 then Dev.landAll e n (d.landed e f) else d

/-- The writes of the oldest packet that waits for it complete (R166, R167): its FIFO's bank lets it go; with a bus error it is to be
written again, and the writer stalls until no packet is. -/
def ringAckEffect (e : Nat) (ok : Bool) (d : Dev) : Dev :=
  let x := d.eng e
  match x.flights.find? (fun f => f.state == 0) with
  | none => d
  | some f =>
    let set := fun (n : Nat) => updateFirst (fun (g : Flight) => g.abs == f.abs) (fun g => { g with state := n }) x.flights
    if ok && f.ok then
      let g := d.fifoAt e f.fifo
      let d := d.setEng e { x with flights := set 2 }
      let d := d.setFifoAt e f.fifo (Fifo.turn f.fifo { g with flying := g.flying - 1 })
      Dev.landAll e x.flights.length d
    else
      let d := if x.flights.any (fun g => g.state == 1) then d else d.inc O.memRingStalls e
      d.setEng e { x with flights := set 1 }

/-! Stage (R168). -/

/-- The stage takes writes: it has a size and lies in available memory. -/
def Dev.stageUp (d : Dev) (e : Nat) : Bool :=
  let n := d.nat O.memStageSize e
  let a := d.nat O.memStageBase e
  n != 0 && (d.locate a).isSome && (d.locate (a + n - 1)).isSome

/-- Bytes written and not yet drained: those of the packets that the stage holds (R181). -/
def Dev.stageLevel (d : Dev) (e : Nat) : Nat := sumBy (fun p => p.bytes) (d.eng e).staged

/-- A closed stage packet goes into the stage when it has room; a packet that does not fit at the end is placed at the start, where its stream
begins anew. A stage write that ends in a bus error is not repeated: the packet counts as staged (DESIGN CHOICE, log entry 113). -/
def Dev.stagePut (d : Dev) (e : Nat) (p : StagePkt) : Option Dev :=
  let x := d.eng e
  let n := d.nat O.memStageSize e
  let room := n - x.stageAbs % n
  let abs := if room < p.pkt.size then x.stageAbs + room else x.stageAbs
  if x.drainAbs + n < abs + p.pkt.size then none
  else
    let d := if room < p.pkt.size then d.endStream (niPromoter e) else d
    let r := d.storeAt (niPromoter e) (d.nat O.memStageBase e + abs % n) p.pkt.bytes
    let y := r.2.eng e
    some (r.2.setEng e { y with stageAbs := abs + p.pkt.size,
                                staged := y.staged ++ [{ abs := abs, bytes := p.pkt.size, session := p.pkt.session,
                                                         src := p.src, gapSet := p.gapSet }] })

/-- Closed stage packets are written, in order, while there is room; each wait is counted (R168). One whose write must wait stays closed. -/
def Dev.pushStage (d : Dev) (e : Nat) : Nat → Dev
  | 0 => d
  | n + 1 =>
    let x := d.eng e
    match x.stageOut with
    | [] => d.setEng e { x with waiting := false }
    | p :: ps =>
      if !d.stageUp e then d
      else match (d.setEng e { x with stageOut := ps }).stagePut e p with
        | some n' => if n'.mem.held then d else Dev.pushStage n' e n
        | none => if x.waiting then d else (d.setEng e { x with waiting := true }).inc O.memStageWaits e

/-- Write what has closed. -/
def Dev.flushStage (d : Dev) (e : Nat) : Dev := d.pushStage e ((d.eng e).stageOut.length + 1)

/-- A record joins the open stage packet, after the closures it causes (R107, R168). -/
def Dev.stageRec (d : Dev) (e : Nat) (r : Rec) (src : List (Nat × Nat)) (gapSet : Bool) : Dev :=
  let lim := d.nat O.captureEnginePacketSize e
  let d := match (d.eng e).stage with
    | none => d
    | some p =>
      if p.pkt.session != r.session then d.closeStage e 3
      else if lim < p.pkt.size + r.size then d.closeStage e 0
      else d
  let x := d.eng e
  let p : StagePkt := x.stage.getD { pkt := { session := r.session, recs := [], openNs := d.ns } }
  let p : StagePkt := { pkt := { p.pkt with recs := p.pkt.recs ++ [r] }, gapSet := p.gapSet || gapSet,
                        src := p.src ++ src.filter (fun a => !p.src.contains a) }
  let d := d.setEng e { x with stage := some p }
  let d := d.add O.promoterBytes r.size e
  if lim < 8 + r.size then d.closeStage e 0 else d

/-- A session's stream takes records: its store session is enabled, the store runs, and it is not stalled (R220, R229, R241). -/
def Dev.streamOpen (d : Dev) (s : Nat) : Bool :=
  d.on O.storeSessionEnable s && d.nat O.storeState == 2 && !d.on O.storeSessionStalled s

/-! Promoter (R132 step 5, R133, R169). -/

/-- One record is promoted: a RING_OVERRUN gap record goes ahead of it where its port's run has broken, and it then carries GAP
(R133). -/
def Dev.promoteRec (d : Dev) (e s lo : Nat) (src : List (Nat × Nat)) (r : Rec) : Dev :=
  let w := d.win s
  let broke := w.broken.contains r.port
  let prev := match SMap.find w.promoted r.port with
    | some (t, _) => if lo ≤ t then t else lo
    | none => lo
  let sq := (r.seq + 2 ^ 32 - 1) % 2 ^ 32
  let d := d.setWin s { w with broken := w.broken.filter (fun i => i != r.port), promoted := SMap.ins w.promoted r.port (r.tick, r.seq) }
  let d := if broke then
      let g : Rec := { type := 0x11, tick := prev, session := s, source := r.source, seq := sq, port := r.port,
                       payload := gapPayload prev r.tick 0 sq 0 6 false }
      (d.stageRec e g src true).inc O.retentionOverrunGaps s
    else d
  d.stageRec e (if broke then r.setFlag flagGap else r) src broke

/-- The records that lie in some bytes, at most n. -/
def recsOf : Nat → List Byte → List Rec
  | 0, _ => []
  | n + 1, l =>
    if l.length < 32 then []
    else
      let r := Rec.parse l
      r :: recsOf n (l.drop (32 + fieldAt l 12 3 + fieldAt l 15 1))

/-- Mark the records of a packet that have been promoted. -/
def Dev.markTaken (d : Dev) (e abs : Nat) (ix : List RingIx) : Dev :=
  let x := d.eng e
  d.setEng e { x with pkts := x.pkts.map (fun p => if p.abs = abs then { p with ix := ix } else p) }

/-- Take nothing more from a packet. -/
def Dev.skipPkt (d : Dev) (e : Nat) (p : RingPkt) : Dev :=
  (d.passOver e p).markTaken e p.abs (p.ix.map (fun r => { r with taken := true }))

/-- Logbook entries that wait for streaming go into stage 0 as records of their session (R280), a span gap ahead of the first after
entries were overwritten. -/
def Dev.streamLog (d : Dev) : Dev :=
  let s := d.nat O.logbookStreamSession
  if s < 256 && d.streamOpen s && d.stageUp 0 then
    let src := 2 ^ 15 * d.side + 0x3F00
    let es := d.dict.toStream
    es.foldl (fun (d : Dev) e =>
      let lost := d.dict.streamLost
      let put := fun (d : Dev) (r : Rec) =>
        ({ d with dict := { d.dict with streamSeq := (d.dict.streamSeq + 1) % 2 ^ 32 } }).stageRec 0
          { r with seq := d.dict.streamSeq, session := s, source := src, port := 252 } [] lost
      let d := if lost then
          put d { type := 0x11, tick := d.dict.streamTick,
                  payload := gapPayload d.dict.streamTick e.tick 0 d.dict.streamSeq 0 6 false }
        else d
      let d := put d { type := 0x17, tick := e.tick, payload := e.bytes, flags := flagIf lost flagGap }
      { d with dict := { d.dict with streamLost := false, streamTick := e.tick } })
      { d with dict := { d.dict with toStream := [] } }
  else d

/-- The promoter reads the oldest ring packet that holds a record it would copy. `busError` says what of it reads with a bus
error: word 0 sends it to WriteOffset, any later word passes the packet over (R169). A stage that takes no writes makes every
such record overrun (R164, R168); one that has no room makes it wait. -/
def promoteEffect (e : Nat) (busError : Option Nat) (d : Dev) : Dev :=
  d.when (!d.stopped) (fun d => d.orHold (fun d =>
    let d := (if e = 0 then d.streamLog else d).flushStage e
    let x := d.eng e
    match x.pkts.find? (fun p => (d.streamOpen p.session || !d.stageUp e) && p.ix.any (fun r => d.wanted e p r)) with
    | none => d
    | some p =>
      if !d.stageUp e then d.skipPkt e p
      else if !x.stageOut.isEmpty then d
      else
        let a := d.ringAddr e p.abs
        let h := d.fetch (niPromoter e) a 8 false
        let b := h.2.fetch (niPromoter e) (a + 8) (p.bytes - 8)
        if busError = some 0 || h.1.isNone then x.pkts.foldl (fun d p => d.skipPkt e p) h.2
        else match b.1 with
          | none => b.2.skipPkt e p
          | some body =>
            if busError.isSome then b.2.skipPkt e p
            else
              let d := b.2
              let rs := (recsOf p.ix.length body).zip p.ix
              let want := p.ix.map (fun r => d.wanted e p r)
              let whole := (p.ix.zip want).all (fun y => y.1.taken || y.2)
              let src := if whole then [(p.abs, p.prev)] else []
              let d := d.markTaken e p.abs ((p.ix.zip want).map (fun y => { y.1 with taken := y.1.taken || y.2 }))
              let d := rs.foldl (fun (d : Dev) (y : Rec × RingIx) =>
                if y.2.taken then d
                else match d.spanOf e p.session p.abs y.2.type y.2.tick with
                  | some lo => d.promoteRec e p.session lo src y.1
                  | none => d) d
              d.flushStage e))

/-- Ring bytes between promoter and writer (R139): those from the oldest packet with a record that the promoter would copy, none where no record
waits for it (DESIGN CHOICE, log entry 106). -/
def Dev.promoterLag (d : Dev) (e : Nat) : Nat :=
  let x := d.eng e
  match x.pkts.find? (fun p => p.ix.any (fun r => d.wanted e p r)) with
  | some p => x.ackAbs - p.abs
  | none => 0

/-- A commit moves a ring: writing starts at offset 0, and records that the promoter would still copy are lost to it (log entry 35). -/
def Dev.ringMoved (d : Dev) (e : Nat) : Dev :=
  let d := (d.eng e).pkts.foldl (fun d p => d.passOver e p) d
  let d := d.endStream (niRing e)
  let x := d.eng e
  let n := d.ringSize e
  let abs := (x.writeAbs + n - 1) / n * n
  (d.setEng e { x with writeAbs := abs, ackAbs := abs, atEnd := false, pkts := [], overw := x.pkts.foldl (fun m p => p.noteGone m) x.overw, lastOf := [], held := false }).setNat O.memRingWriteOffset 0 e

/-- A commit moves a stage: it is empty, for the store is STOPPED. -/
def Dev.stageMoved (d : Dev) (e : Nat) : Dev :=
  let d := d.endStream (niPromoter e)
  let x := d.eng e
  { d.setEng e { x with stageAbs := 0, drainAbs := 0, staged := [] } with
    store := { d.store with take := SMap.del d.store.take e, held := SMap.del d.store.held e } }

/-- RING_WRITE. -/
def execRingWrite (dt : Nat) (e : Fin 2) (struck : List (Fin 37 × Bool)) (s : State) : Host.Outcome State Fault Refusal :=
  run s dt (ringWriteEffect e struck)

/-- RING_WRITE_ACK. -/
def execRingWriteAck (dt : Nat) (e : Fin 2) (ok : Bool) (s : State) : Host.Outcome State Fault Refusal :=
  run s dt (ringAckEffect e ok)

/-- PROMOTE. -/
def execPromote (dt : Nat) (e : Fin 2) (busError : Option Nat) (s : State) : Host.Outcome State Fault Refusal :=
  run s dt (promoteEffect e busError)

end Sys2Proof.Machine
end

