-- ==== Sys2Proof/Machine/Transmit.lean ====
section
/-! DEFINITION. Transmit channels: pattern lists, replay, the fabric hook and the hold window (chapter "Pattern Generation
and Replay", R140 to R158). -/

set_option Elab.async false

namespace Sys2Proof.Machine

/-- The port runs an Ethernet mode. -/
def ethMode (std : Nat) : Bool := 0x10 ≤ std && std ≤ 0x19

/-- The port runs a Raw mode. -/
def rawMode (std : Nat) : Bool := std == 0x40 || std == 0x41

/-- Data rate of an Ethernet mode in Gb/s. -/
def ethRate (std : Nat) : Nat := [10, 25, 50, 100, 100, 200, 200, 400, 400, 800].getD (std - 0x10) 1

/-- Q of an Ethernet mode in picoseconds (R140). -/
def ethQuantum (std : Nat) : Nat := [6400, 2560, 9640, 4820, 4820, 4820, 4820, 4820, 4820, 2410].getD (std - 0x10) 0

/-- Fine steps by which a unit that starts at `a` (in fine steps) misses S + 1 tick; 1 ns is 1,024 fine steps. -/
def missBy (a : Nat) (s : Int) : Int := (a : Int) - (s + 1) * 256

/-- A unit is late: it starts after S + 1 tick + Q (R140, R141). Q of a Raw mode is 64 unit intervals, each of one bit in NRZ and of two in PAM4
(R37). -/
def Dev.txLate (d : Dev) (q p a : Nat) (s : Int) : Bool :=
  let std := d.nat O.portStandard q p
  let m := missBy a s
  if ethMode std then decide ((ethQuantum std * 1024 : Nat) < m * 1000)
  else decide (((if std = 0x41 then 2 else 1) * 64000000000 * 1024 : Nat) < m * 1000 * d.nat O.portLaneRate q p)

/-- Tick A is reached (R144 steps 3 and 4). -/
def anchorEffect (q p : Nat) (d : Dev) : Dev :=
  let x := d.txch (4 * q + p)
  d.when (d.nat O.txState q p == 1 && !x.waitUp && x.anchor ≤ d.count) (fun d =>
    if d.portUp q p then ((d.setNat O.txState 2 q p).setNat O.txAnchorTick x.anchor q p).txFinish q p
    else d.setTx (4 * q + p) { x with waitUp := true })

/-- The first queued unit starts at a start position at or after both its S and the free line (R140, R141). Position names the unit last
started while the channel runs, and a_i - S_i counts in whole ticks, rounded up (R141, R158, log entry 36). -/
def unitStartEffect (q p pos : Nat) (d : Dev) : Dev :=
  let x := d.txch (4 * q + p)
  let a := d.count * 256 + pos
  match x.queue with
  | [] => d
  | u :: us =>
    d.when (!d.stopped && d.nat O.txState q p == 2 && !x.stopping && x.wire.isNone && decide (u.s * 256 ≤ (a : Int)) && x.freeFine ≤ a) (fun d =>
      let d := d.setNat O.txPosition u.pos q p
      let y := { x with queue := us, wire := some u }
      if d.txLate q p a u.s then
        let n := (((a : Int) - u.s * 256 + 255) / 256).toNat
        let d := (d.inc O.txLateUnits q p).peak O.txMaxLate n q p
        if d.nat O.txLatePolicy q p = 1 then (d.add O.txShift n q p).setTx (4 * q + p) (y.shift n)
        else d.setTx (4 * q + p) y
      else d.setTx (4 * q + p) y)

/-- The last symbol of the unit on the wire leaves the ball; in Ethernet modes Tx.MinIfg bytes of idle follow (R141), and the line carries
fill again (R143). A STOP that has waited for it takes effect (R145). -/
def unitEndEffect (q p : Nat) (d : Dev) : Dev :=
  let x := d.txch (4 * q + p)
  match x.wire with
  | none => d
  | some u =>
    let std := d.nat O.portStandard q p
    let ifg := if ethMode std then (d.nat O.txMinIfg q p * 8 * 1024 + ethRate std - 1) / ethRate std else 0
    let d := (d.inc O.txUnitsSent q p).add O.txBytesSent u.bytes.length q p
    let d := d.setTx (4 * q + p) { x with wire := none, freeFine := d.count * 256 + ifg }
    let d := (d.send (.unit (4 * q + p) u.lane d.count u.bytes)).sendFill q p
    if x.stopping then d.txIdle q p else d.txFinish q p

/-! Fetch (R148 to R154). -/

/-- Fetch stops, with a fault or none. -/
def Dev.txStop (d : Dev) (q p fault : Nat) (pos : Option Nat) : Dev :=
  let x := d.txch (4 * q + p)
  (d.setTx (4 * q + p) { x with ended := true, fault := fault, endPos := pos }).txFinish q p

/-- A unit has been fetched, with the cursor it was fetched at and the one that follows: it is queued, or offered to the hook
(R155). After RESUME the first unit takes A + Tx.Offset, and all that follows, later iterations too, keeps its spacing from it (R157 step 5). -/
def Dev.txTake (d : Dev) (q p : Nat) (u : TxUnit) (next : TxCursor) : Dev :=
  let i := 4 * q + p
  let x := d.txch i
  let n := match x.rebase with
    | some t => t - u.s
    | none => 0
  let x := { x with cur := next }.shift n
  let u := u.shift n
  let x := { x with rebase := none }
  if d.on O.txHook q p then
    (d.setTx i { x with hook := x.hook ++ [{ no := x.offers, unit := u, ns := d.ns }], offers := x.offers + 1 }).send
      (.fabric (fabricDie q) (u.header ++ leBytes 8 (unsigned 64 u.s) ++ u.bytes))
  else d.setTx i { x with queue := x.queue ++ [u] }

/-- A pattern descriptor (R149). -/
structure PatDesc where
  whn : Nat
  addr : Nat
  len : Nat
  kind : Nat
  lane : Nat
  base : Bool
  fcs : Bool
  rep : Nat
  ival : Nat
  zero : Bool
deriving DecidableEq, Repr

/-- The fields of 32 bytes; `zero` says that every reserved bit is 0. -/
def PatDesc.parse (l : List Byte) : PatDesc :=
  let m := fieldAt l 21 1
  { whn := fieldAt l 0 8, addr := fieldAt l 8 8, len := fieldAt l 16 3, kind := fieldAt l 19 1, lane := fieldAt l 20 1,
    base := bitOf m 0, fcs := bitOf m 1, rep := fieldAt l 22 2, ival := fieldAt l 24 4,
    zero := bitsOf m 7 2 == 0 && fieldAt l 28 4 == 0 && fieldAt l 8 8 < 2 ^ 44 }

/-- A descriptor is valid on a port of a mode and width (R151). -/
def PatDesc.valid (x : PatDesc) (std width : Nat) : Bool :=
  x.zero && 1 ≤ x.len && x.len ≤ 16384 &&
  ((x.kind == 1 && ethMode std && x.lane == 0) || (x.kind == 6 && rawMode std && x.len % 8 == 0 && x.lane < width))

/-- The cursor after one unit of a descriptor. A BASE 0 descriptor counts from the S that the unit before it was given, also where the hook drops
that unit (DESIGN CHOICE, log entry 112). -/
def TxCursor.next (c : TxCursor) (x : PatDesc) (count : Nat) (s first : Int) : TxCursor :=
  let c := { c with prevS := s, unitS := first }
  if c.rep < x.rep then { c with rep := c.rep + 1 }
  else if c.desc + 1 < count then { c with rep := 0, desc := c.desc + 1 }
  else { c with rep := 0, desc := 0, iter := c.iter + 1 }

/-- Fetch the next unit of a pattern list. -/
def Dev.fetchPattern (d : Dev) (q p : Nat) (busError : Bool) : Dev :=
  let x := d.txch (4 * q + p)
  let c := x.cur
  let loops := d.nat O.patternLoops q p
  let pos := d.txPos q p c
  if loops != 0 && loops ≤ c.iter then d.txStop q p 0 none
  else
    let a := d.nat O.patternListAddr q p + 32 * c.desc
    let h := d.fetch (niFetch (dieOf q)) a 32 false
    match h.1 with
    | none => h.2.txStop q p 1 (some pos)
    | some l =>
      let t := PatDesc.parse l
      let d := h.2
      if !t.valid (d.nat O.portStandard q p) (layoutWidth (d.nat O.quadLayout q)) then d.txStop q p 2 (some pos)
      else
        let b := d.fetch (niFetch (dieOf q)) t.addr t.len
        match b.1 with
        | none => b.2.txStop q p 1 (some pos)
        | some bytes =>
          let d := b.2
          if busError then d.txStop q p 1 (some pos)
          else
            let ik := x.base + c.iter * d.nat O.patternLoopPeriod q p
            let first := if c.rep != 0 then c.unitS else if t.base || c.desc = 0 then ik + t.whn else c.prevS + t.whn
            let s := first + c.rep * t.ival
            let u : TxUnit := { s := s, bytes := if t.fcs && t.kind = 1 then bytes ++ ethFcs bytes else bytes, lane := t.lane,
                                pos := pos, header := l, cur := c }
            d.txTake q p u (c.next t (d.nat O.patternListCount q p) s first)

/-- The frame that a replayed Ethernet record sends: none when it is skipped (R154). -/
def Dev.replayFrame (d : Dev) (q p : Nat) (r : Rec) : Option (List Byte) :=
  let n := r.payload.length
  if r.flags.testBit flagTrunc then
    if d.nat O.replayTruncPolicy q p = 0 then none
    else
      let full := fieldAt r.payload (n - 8) 4
      let b := fit (full - 4) (r.payload.take (n - 8))
      some (b ++ ethFcs b)
  else if d.on O.replayFcsRegen q p then
    let b := r.payload.take (n - 4)
    some (b ++ ethFcs b)
  else some r.payload

/-- What a selected record sends, with its lane: none when it is skipped. A record whose unit does not suit the port's mode is
skipped (log entry 36), and so is a padded frame that the whole queue could not hold (log entry 112). -/
def Dev.replayUnit (d : Dev) (q p : Nat) (r : Rec) : Option (List Byte × Nat) :=
  let std := d.nat O.portStandard q p
  if r.type = 1 then
    (if ethMode std then ((d.replayFrame q p r).filter (fun b => b.length ≤ 262144)).map (fun b => (b, 0)) else none)
  else if rawMode std && fieldAt r.payload 0 1 < layoutWidth (d.nat O.quadLayout q) then
    some ((r.payload.drop 8).take (8 * fieldAt r.payload 1 2), fieldAt r.payload 0 1)
  else none

/-- The record's source is selected (R152). -/
def Dev.replaySource (d : Dev) (q p : Nat) (r : Rec) : Bool :=
  let m := d.nat O.replaySourceMask q p
  Nat.land r.source m == Nat.land (d.nat O.replaySourceValue q p) m

/-- The record is selected: its source, TYPE and TICK (R152). -/
def Dev.replayPicks (d : Dev) (q p : Nat) (r : Rec) : Bool :=
  let hi := d.nat O.replayToTick q p
  d.replaySource q p r && (r.type == 1 || r.type == 6) && bitOf (d.nat O.replayTypeMask q p) r.type &&
  d.nat O.replayFromTick q p ≤ r.tick && (hi == 0 || r.tick < hi)

/-- Read the next record of a replay buffer: it is sent, skipped, or passed over. A record that runs past the buffer ends it
(log entry 36). The previous S is that of the previous selected record, also where that record is skipped (DESIGN CHOICE, log entry 112). -/
def Dev.fetchReplay (d : Dev) (q p : Nat) (busError : Bool) : Dev :=
  let i := 4 * q + p
  let x := d.txch i
  let c := x.cur
  let size := d.nat O.replayBufferBytes q p
  let a := d.nat O.replayBufferAddr q p + c.off
  if size < c.off + 32 then d.txStop q p 0 none
  else
    let h := d.fetch (niFetch (dieOf q)) a 32 (fieldAt (d.peek (a + 12) 4) 0 4 == 0)
    match h.1 with
    | none => h.2.txStop q p 1 (some c.off)
    | some l =>
      let d := h.2
      let n := 32 + fieldAt l 12 3 + fieldAt l 15 1
      if !hcrcOk l then d.txStop q p 3 (some c.off)
      else if size < c.off + n then d.txStop q p 0 none
      else
        let b := d.fetch (niFetch (dieOf q)) (a + 32) (n - 32)
        match b.1 with
        | none => b.2.txStop q p 1 (some c.off)
        | some body =>
          let d := b.2
          if busError then d.txStop q p 1 (some c.off)
          else
            let r := Rec.parse (l ++ body)
            let next := { c with off := c.off + n }
            if r.type = 0x11 && d.replaySource q p r && d.nat O.replayGapPolicy q p = 1 then d.txStop q p 0 (some c.off)
            else if d.replayPicks q p r then
              let t0 := x.t0.getD r.tick
              let d := if x.t0.isNone then d.setNat O.replayFirstTick t0 q p else d
              let s := if x.t0.isSome && r.tick < c.prevTick then c.prevS else x.base + ((r.tick : Int) - t0)
              let after := { next with prevTick := r.tick, prevS := s }
              let d := d.setTx i { x with t0 := some t0 }
              match d.replayUnit q p r with
              | none => (d.inc O.txSkipped q p).setTx i { x with t0 := some t0, cur := after }
              | some (bytes, lane) =>
                d.txTake q p { s := s, bytes := bytes, lane := lane, pos := c.off, header := l, cur := c } after
            else d.setTx i { x with cur := next }

/-- Bytes of the queue, with the room that each unit at the hook may come to need: the hook returns at most 16,384 bytes, and the device adds an
FCS (R148, R155). -/
def TxCh.level (x : TxCh) : Nat :=
  sumBy (fun u => u.bytes.length) x.queue + sumBy (fun o => max 16388 o.unit.bytes.length) x.hook

/-- Nothing is left to fetch: every iteration of the list, or the buffer, has been. -/
def Dev.txSpent (d : Dev) (q p : Nat) : Bool :=
  let c := (d.txch (4 * q + p)).cur
  if d.nat O.txSource q p = 1 then decide (d.nat O.replayBufferBytes q p < c.off + 32)
  else d.on O.patternLoops q p && decide (d.nat O.patternLoops q p ≤ c.iter)

/-- The channel fetches its next unit ahead of its schedule; a unit for which the port queue has no room is fetched once it has (R148). -/
def fetchEffect (q p : Nat) (busError : Bool) (d : Dev) : Dev :=
  let x := d.txch (4 * q + p)
  d.when (d.txActive q p && !x.ended && !x.stopping) (fun d => d.orHold (fun d =>
    let n := if d.nat O.txSource q p = 1 then d.fetchReplay q p busError else d.fetchPattern q p busError
    let n := if !(n.txch (4 * q + p)).ended && n.txSpent q p then n.txStop q p 0 none else n
    if (n.txch (4 * q + p)).level ≤ 262144 then n else d))

/-! Fabric hook (R155). -/

/-- The fabric returns the unit it was offered first; a return of a unit that has been dropped is ignored. -/
def hookEffect (q p : Nat) (v : HookVerdict) (d : Dev) : Dev :=
  let i := 4 * q + p
  let x := d.txch i
  match x.hook with
  | [] => d
  | o :: os =>
    d.when (v.offer == o.no && o.ns + d.nat O.txHookBudget q p ≥ d.ns) (fun d =>
      let n := bitsOf v.word 23 0
      let d := d.setTx i { x with hook := os }
      if bitOf v.word 25 || n = 0 || 16384 < n then (d.inc O.txHookDrops q p).txFinish q p
      else
        let b := fit n v.bytes
        let u := { o.unit with s := o.unit.s + bitsOf v.word 63 32, bytes := if bitOf v.word 26 then b ++ ethFcs b else b }
        d.setTx i { x with hook := os, queue := x.queue ++ [u] })

/-- The budget of the unit offered first has passed: it is dropped. -/
def hookTimeoutEffect (q p : Nat) (d : Dev) : Dev :=
  let i := 4 * q + p
  let x := d.txch i
  match x.hook with
  | [] => d
  | o :: os =>
    d.when (o.ns + d.nat O.txHookBudget q p < d.ns) (fun d =>
      ((d.setTx i { x with hook := os }).inc O.txHookTimeouts q p).txFinish q p)

/-- No UP by td + W (R157 step 3). -/
def holdEffect (q p : Nat) (d : Dev) : Dev :=
  match (d.txch (4 * q + p)).holdNs with
  | none => d
  | some t => d.when (d.nat O.txState q p == 3 && t + 1000 * d.nat O.txHoldWindow q p < d.ns) (fun d => d.txFlush q p)

/-! Committed controls (R144 to R147, R156). -/

/-- START at tc: from the first unit. -/
def Dev.txBegin (d : Dev) (q p tc : Nat) : Dev :=
  let a := if d.nat O.txStartTick q p = 0 then tc + 4000 * d.nat O.txLead q p else d.nat O.txStartTick q p
  let d := ((d.setNat O.txFault 0 q p).setNat O.txShift 0 q p).setNat O.txPosition 0 q p
  let x := d.txch (4 * q + p)
  (d.setNat O.txState 1 q p).setTx (4 * q + p)
    { anchor := a, base := (a : Int) + d.int O.txOffset q p, wire := x.wire, freeFine := x.freeFine, offers := x.offers }

/-- RESUME at tc: as START, from the unit at Position, which takes A + Tx.Offset (R157 step 5). -/
def Dev.txResume (d : Dev) (q p tc : Nat) : Dev :=
  let pos := d.nat O.txPosition q p
  let x := d.txch (4 * q + p)
  let d := (d.txBegin q p tc).setNat O.txPosition pos q p
  let y := d.txch (4 * q + p)
  d.setTx (4 * q + p) { y with cur := x.cur, t0 := x.t0, base := x.base, rebase := some y.base }

/-- STOP, by the channel's state: a unit in progress completes first (R145). -/
def Dev.txHalt (d : Dev) (q p : Nat) : Dev :=
  let x := d.txch (4 * q + p)
  let st := d.nat O.txState q p
  if st = 0 then d
  else if st = 2 && x.wire.isSome then d.setTx (4 * q + p) { x with stopping := true }
  else d.txIdle q p

/-- A committed Tx.Control. -/
def Dev.txControl (d : Dev) (q p v tc : Nat) : Dev :=
  if v = 0 then d.txHalt q p else if v = 1 then d.txBegin q p tc else d.txResume q p tc

/-- A committed Tx.ForceDown, its value stored; with STOP in the same commit no hold window is entered (R145, R156). -/
def Dev.txForced (d : Dev) (q p : Nat) (down stop : Bool) : Dev :=
  if down then
    let x := d.txch (4 * q + p)
    let d := if stop && d.nat O.txState q p = 2 then d.setTx (4 * q + p) { x with stopping := true } else d
    d.commitDown q p
  else (d.recheck q p).sendFill q p

/-- TX_ANCHOR. -/
def execTxAnchor (dt : Nat) (q : Fin 36) (p : Fin 4) (s : State) : Host.Outcome State Fault Refusal := run s dt (anchorEffect q p)

/-- TX_UNIT_START. -/
def execTxUnitStart (dt : Nat) (q : Fin 36) (p : Fin 4) (pos : Fin 1024) (s : State) : Host.Outcome State Fault Refusal :=
  run s dt (unitStartEffect q p pos)

/-- TX_UNIT_END. -/
def execTxUnitEnd (dt : Nat) (q : Fin 36) (p : Fin 4) (s : State) : Host.Outcome State Fault Refusal := run s dt (unitEndEffect q p)

/-- TX_FETCH. -/
def execTxFetch (dt : Nat) (q : Fin 36) (p : Fin 4) (busError : Bool) (s : State) : Host.Outcome State Fault Refusal :=
  run s dt (fetchEffect q p busError)

/-- HOOK_RETURN. -/
def execHookReturn (dt : Nat) (q : Fin 36) (p : Fin 4) (v : HookVerdict) (s : State) : Host.Outcome State Fault Refusal :=
  run s dt (hookEffect q p v)

/-- HOOK_TIMEOUT. -/
def execHookTimeout (dt : Nat) (q : Fin 36) (p : Fin 4) (s : State) : Host.Outcome State Fault Refusal := run s dt (hookTimeoutEffect q p)

/-- HOLD_WINDOW_EXPIRY. -/
def execHoldWindowExpiry (dt : Nat) (q : Fin 36) (p : Fin 4) (s : State) : Host.Outcome State Fault Refusal := run s dt (holdEffect q p)

end Sys2Proof.Machine
end

