-- ==== Sys2Proof/Machine/Integrity.lean ====
section
/-! DEFINITION. SRAM protection, Drizzle and the checker test (R182 to R186, R207 to R209). -/

set_option Elab.async false

namespace Sys2Proof.Machine

/-- Key of an SRAM word: its instance number and its place in the instance. -/
def sramKey (inst word : Nat) : Nat := inst * 2 ^ 32 + word

/-- KIND of an instance number (R185). -/
def instKind (inst : Nat) : Nat := bitsOf inst 27 24

/-- DIE of an instance number. -/
def instDie (inst : Nat) : Nat := bitsOf inst 31 28

/-- The number is one that the table "Instance number" lists (R185). -/
def numberListed (inst : Nat) : Bool :=
  let i := inst % 2 ^ 24
  if instDie inst = 15 then (instKind inst == 8 && i < 128) || (instKind inst == 9 && i < 8)
  else if instKind inst = 0 then instDie inst < 8 && i < 4608
  else instDie inst < 10 && instKind inst ≤ 5

/-- A word. -/
def Dev.sramWord (d : Dev) (inst word : Nat) : SramWord := SMap.getD d.mem.sram (sramKey inst word) {}

/-- Store a word. -/
def Dev.setSram (d : Dev) (inst word : Nat) (x : SramWord) : Dev :=
  { d with mem := { d.mem with sram := SMap.setD d.mem.sram (sramKey inst word) {} x } }

/-- What a read of an SRAM word of an instance records (R182, R185). -/
def Dev.sramSeen (d : Dev) (inst : Nat) (e : Ecc) : Dev :=
  match e with
  | .clean => d
  | .corrected => d.sramFixed inst
  | .uncorrectable => d.inc O.integritySramUncorrected

/-- The valid cells of a word are read: a cell that disagrees with the other two is rewritten and counts as a correctable error (R183). The answer is
the word as it is then. -/
def Dev.sramVote (d : Dev) (inst word : Nat) (f : SramFind) : SramWord × Dev :=
  let v := (d.sramWord inst word).vote f
  (v.2, if v.1 then (d.setSram inst word v.2).sramSeen inst .corrected else d)

/-- Every Integrity.LeakPeriod every level falls by 1, never below 0 (R185). -/
def leakEffect (d : Dev) : Dev :=
  d.when (d.mem.leakNs + 1000000 * d.nat O.integrityLeakPeriod ≤ d.ns) (fun d =>
    let bs := d.mem.buckets.foldl (fun m e => SMap.setD m e.1 {} { e.2 with level := e.2.level - 1 }) d.mem.buckets
    { d with mem := { d.mem with buckets := bs, leakNs := d.ns } })

/-- The instance number of a fabric RAM block (R185). -/
def ramInstance (blk : Nat) : Nat := (blk / 4608) * 2 ^ 28 + blk % 4608

/-- The instance is a RAM block with SCRUB OFF (R342). -/
def Dev.scrubOff (d : Dev) (inst : Nat) : Bool :=
  match d.boot.cfg with
  | some c => c.noScrub.any (fun k => ramInstance k == inst)
  | none => false

/-- Drizzle reads an SRAM word, and writes it back encoded where it has corrected it (R207); a RAM block with SCRUB OFF it skips (R342). The words of
hardened instances are those that ChkTest has written and those that the command says are valid: what such an instance holds is not in the spec (log
entry 38). -/
def Dev.drizzleWord (d : Dev) (inst word : Nat) (f : SramFind) : Dev :=
  let v := d.sramVote inst word f
  if d.scrubOff inst then d
  else if instKind inst = 0 && !v.1.valid then v.2
  else
    let r := v.1.look (sramWidth inst) f
    let d := v.2.sramSeen inst r.1
    if r.1 = .corrected then
      (if v.1.valid then d.setSram inst word (SramWord.of r.2) else d).inc O.drizzleCorrected
    else d

/-- Drizzle reads a line through the order of checks, and writes it back as corrected (R204, R207). -/
def Dev.drizzleLine (d : Dev) (a : Nat) : Dev :=
  match d.locate a with
  | none => d
  | some (ch, off) =>
    if d.chState ch != 1 || d.nat O.memLullState != 0 || d.zeroRead a ch then d
    else
      let line := a / 64
      let d := d.releaseTest line
      let l := d.lookLine line
      let listed := d.poisoned ch line
      let c := (d.rowAccess ch off (some false)).checkLine a ch 4 0xFFFE
      if c.1 = .ok && !listed && l.ecc = .corrected then
        let d := if (SMap.find c.2.mem.raw line).isSome then
            { c.2 with mem := { c.2.mem with raw := SMap.ins c.2.mem.raw line { data := lineData l.word, spare := lineSpare l.word } } }
          else c.2
        ({ d with mem := { d.mem with upset := SMap.del d.mem.upset line } } : Dev).inc O.drizzleCorrected
      else c.2

/-- Lines of a channel that a sweep reads, from a line on: those of WRITTEN granules and slices, and those below the pointer of FILLING ones (R207). -/
def Dev.sweepLines (d : Dev) (ch from_ : Nat) : List Nat :=
  let gs := ((d.mem.granules.map (fun (e : Nat × Nat) => e.1)) ++ (d.mem.slices.map (fun (e : Nat × Slice) => e.1 / 256))).eraseDups
  gs.flatMap (fun g => (granuleLines g).filter (fun l => from_ ≤ l && d.lineIn l ch && !d.zeroRead (64 * l) ch))

/-- The lowest of some lines. -/
def lowestOf (l : List Nat) : Option Nat := l.foldl (fun b n => match b with
  | none => some n
  | some m => some (min m n)) none

/-- A channel's sweep goes on: the next line in ascending address order from where it stands is read; after the last one the channel has completed its
sweep and begins the next (R207). A channel that is skipped keeps its place. -/
def Dev.sweepChannel (d : Dev) (ch : Nat) : Dev :=
  if d.chState ch != 1 || d.nat O.memLullState != 0 then d
  else
    let x := d.chan ch
    match lowestOf (d.sweepLines ch x.sweep) with
    | none => d.setChan ch { x with sweep := 0, swept := true }
    | some l =>
      let d := d.drizzleLine (64 * l)
      let more := !(d.sweepLines ch (l + 1)).isEmpty
      let y := d.chan ch
      d.setChan ch { y with sweep := if more then l + 1 else 0, swept := y.swept || !more }

/-- Every ACTIVE channel has completed a sweep since EV1497 last occurred; one without a line to read has none to do. -/
def Dev.allSwept (d : Dev) : Bool := (upTo 136).all (fun ch => d.chState ch != 1 || (d.chan ch).swept || (d.sweepLines ch 0).isEmpty)

/-- Drizzle reads one SRAM word, or the next DRAM line of a channel (R207). The sizes of the hardened instances are not in the spec: the command says when
every instance has been swept (log entry 38). With every ACTIVE channel swept too, EV1497 occurs. -/
def drizzleEffect (target : Sum (Nat × Nat) (Fin (2 ^ 44))) (sram : SramFind) (find : LineFind) (last : Bool) (d : Dev) : Dev :=
  d.when (d.on O.drizzleEnable && !d.stopped) (fun d =>
    let d := d.disturb find
    let d := match target with
      | .inl (inst, word) => d.drizzleWord inst word sram
      | .inr a => match d.locate a with
        | some (ch, _) => d.sweepChannel ch
        | none => d
    let d := if last then { d with mem := { d.mem with sramSwept := true } } else d
    if d.mem.sramSwept && d.allSwept then
      let d := (upTo 136).foldl (fun d ch => d.setChan ch { d.chan ch with swept := false }) { d with mem := { d.mem with sramSwept := false } }
      (d.inc O.drizzleSweeps).occur 1497
    else d)

/-! Checker test (R208, R209). -/

/-- Op 1: data and check bits, as many as the word has, are written without encoding. -/
def Dev.chkWrite (d : Dev) : Dev :=
  d.setSram (d.nat O.chkTestInstance) (d.nat O.chkTestWord)
    { data := d.nat O.chkTestData % 2 ^ sramWidth (d.nat O.chkTestInstance),
      check := some (d.nat O.chkTestCheck % 2 ^ hsiaoBits (sramWidth (d.nat O.chkTestInstance))), cells := 7 }

/-- The selected word as it lies in the SRAM: data and check bits. A word of a hardened unit that ChkTest has not written is
an open value (log entry 37); an invalid word of a fabric RAM block reads as zero (R183). -/
def Dev.chkRaw (d : Dev) : (Nat × Nat) × Dev :=
  let inst := d.nat O.chkTestInstance
  let n := sramWidth inst
  let x := d.sramWord inst (d.nat O.chkTestWord)
  let v := d.draw % 2 ^ n
  if x.valid then ((x.data, x.check.getD (hsiaoCheck n x.data)), d)
  else if instKind inst = 0 then ((0, 0), d)
  else ((v, hsiaoCheck n v), d.drawn)

/-- Op 2: the raw data and check bits are read. -/
def Dev.chkReadRaw (d : Dev) : Dev :=
  let r := d.chkRaw
  (r.2.setNat O.chkTestData r.1.1).setNat O.chkTestCheck r.1.2

/-- Op 3: the word is read through the decoder; an invalid word undergoes no check. -/
def Dev.chkReadDecoded (d : Dev) : Dev :=
  let inst := d.nat O.chkTestInstance
  let x := d.sramWord inst (d.nat O.chkTestWord)
  let e := if x.valid then (x.look (sramWidth inst) {}).1 else .clean
  (d.sramSeen inst e).setNat O.chkTestStatus (match e with
    | .clean => 0 | .corrected => 1 | .uncorrectable => 2)

/-- The channel of the test line, where it answers; elsewhere, outside populated memory or on a channel that is not ACTIVE, ops 4 and 5 do nothing and
leave Status (DESIGN CHOICE, log entry 113). -/
def Dev.chkChannel (d : Dev) : Option (Nat × Nat) :=
  match d.locate (d.nat O.chkTestDramLine) with
  | none => none
  | some (ch, off) => if d.chState ch = 1 && !d.stopped && d.nat O.memLullState = 0 then some (ch, off) else none

/-- The line of ChkTest.DramLine becomes the test line. -/
def Dev.takeTestLine (d : Dev) : Dev := { d with mem := { d.mem with testLine := some (d.nat O.chkTestDramLine / 64) } }

/-- Op 4: ChkTest.DramData and DramSpare are written raw, the MINOR byte of the spare bits among them; the minor cache keeps what it holds. -/
def Dev.chkDramWrite (d : Dev) : Dev :=
  let a := d.nat O.chkTestDramLine
  let line := a / 64
  let d := d.takeTestLine
  match d.chkChannel with
  | none => d
  | some (ch, off) =>
    let d := d.rowAccess ch off none
    let d := if d.sliceState a ch = 1 then d.closeSlice (granuleOf a * 256 + ch) else if d.sliceState a ch = 0 then d.zeroFill a ch none else d
    let raw : RawLine := { data := fit 64 (d.octs O.chkTestDramData), spare := d.nat O.chkTestDramSpare }
    let d := d.setMinor line (raw.spare % 256)
    { d with mem := { d.mem with raw := SMap.ins d.mem.raw line raw, upset := SMap.del d.mem.upset line } }

/-- Op 5: the line is read through the order of checks; the outcomes uncorrectable and tag failure take no action (R209). What Status a line on the
poison list gives is not in the spec: an open value (log entry 38). -/
def Dev.chkDramRead (d : Dev) : Dev :=
  let a := d.nat O.chkTestDramLine
  let line := a / 64
  let d := d.takeTestLine
  match d.chkChannel with
  | none => d
  | some (ch, off) =>
    if d.zeroRead a ch then ((d.setNat O.chkTestStatus 0).setOct O.chkTestDramData (zeros 64)).setNat O.chkTestDramSpare 0
    else if d.poisoned ch line then (d.setNat O.chkTestStatus (d.draw % 4)).drawn
    else
      let w := d.storedWord line
      let l := d.lookLine line
      let d := d.rowAccess ch off none
      let d := (d.setOct O.chkTestDramData (lineData w)).setNat O.chkTestDramSpare (lineSpare w)
      if l.ecc = .uncorrectable then d.setNat O.chkTestStatus 2
      else
        let d := d.lineCorrected ch l.ecc
        if !l.tagOk then d.setNat O.chkTestStatus 3
        else (d.linePassed ch line l.minor).setNat O.chkTestStatus (if l.ecc = .corrected then 1 else 0)

/-- A committed ChkTest.Op. -/
def Dev.chkOp (d : Dev) (op : Nat) : Dev :=
  match op with
  | 1 => d.chkWrite
  | 2 => d.chkReadRaw
  | 3 => d.chkReadDecoded
  | 4 => d.chkDramWrite
  | _ => d.chkDramRead

/-- LEAK_PERIOD. -/
def execLeakPeriod (dt : Nat) (s : State) : Host.Outcome State Fault Refusal := run s dt leakEffect

/-- DRIZZLE_SCRUB. -/
def execDrizzleScrub (dt : Nat) (target : Sum (Nat × Nat) (Fin (2 ^ 44))) (sram : SramFind) (find : LineFind) (last : Bool)
    (s : State) : Host.Outcome State Fault Refusal :=
  run s dt (drizzleEffect target sram find last)

end Sys2Proof.Machine
end

