-- ==== Sys2Proof/Machine/Keep.lean ====
section
/-! DEFINITION. The Keep: groups of shadow pages, refreshes, and the values that survive a reset (R281 to R284, R412). -/

set_option Elab.async false

namespace Sys2Proof.Machine

/-- Physical pages of the Keep (R281). -/
def keepPages : Nat := 131072

/-- Erases of a block of 16 pages. -/
def Dev.blockErases (d : Dev) (b : Nat) : Nat := SMap.getD d.keep.erases b 0

/-- A block has had its rated 100,000 erases and is not written again (R284, log entry 43). -/
def Dev.blockWorn (d : Dev) (b : Nat) : Bool := 100000 ≤ d.blockErases b

/-- The first erased page at or after p, outside a block. -/
def Dev.freePage (d : Dev) (avoid : Nat) : Nat → Nat → Option Nat
  | 0, _ => none
  | n + 1, p =>
    if (SMap.find d.keep.pages p).isNone && !d.blockWorn (p / 16) && p / 16 != avoid then some p
    else Dev.freePage d avoid n ((p + 1) % keepPages)

/-- Keep.SpareBlocks: good blocks that hold no current copy and are not worn out (R284, log entry 43). -/
def Dev.spareBlocks (d : Dev) : Nat :=
  Config.keepSpare % 8193 - (((d.keep.pages.filter (fun e => e.2.current)).map (fun e => e.1 / 16)).eraseDups.length +
    (d.keep.erases.filter (fun e => 100000 ≤ e.2)).length)

/-- A copy goes to an erased page, which is the model's open choice; with none left the Keep has FAILED (R282, log entry 43). -/
def Dev.putPage (d : Dev) (avoid : Nat) (k : KeepPage) : Dev :=
  match d.freePage avoid keepPages (d.draw % keepPages) with
  | none => d.drawn.setNat O.keepState 2
  | some p =>
    let old := if k.current then d.keep.pages.map (fun (e : Nat × KeepPage) =>
        if e.2.logical = k.logical then (e.1, { e.2 with current := false }) else e) else d.keep.pages
    let k := { k with wseq := d.keep.wseq, secs := d.nat O.ageingPoweredSeconds }
    ({ d.drawn with keep := { d.keep with pages := SMap.ins old p k, wseq := d.keep.wseq + 1 } }).inc O.keepPageWrites

/-- A block is erased, after the current copies in it have been written elsewhere (R281, R282). -/
def Dev.eraseBlock (d : Dev) (b : Nat) : Dev :=
  let d := (d.keep.pages.filter (fun e => e.1 / 16 == b && e.2.current)).foldl (fun d e => d.putPage b { e.2 with group := 0, size := 1 }) d
  let n := d.blockErases b + 1
  ({ d with keep := { d.keep with pages := d.keep.pages.filter (fun e => e.1 / 16 != b), erases := SMap.ins d.keep.erases b n } }).peak O.keepMaxErase n

/-- The block with the fewest erases. -/
def Dev.leastErased (d : Dev) (bs : List Nat) : Option Nat :=
  bs.foldl (fun best b => match best with
    | none => some b
    | some c => if d.blockErases b < d.blockErases c then some b else some c) none

/-- When erased pages run short, the block with the fewest erases among those that hold a stale copy is erased, and before it one whose count has
fallen behind by almost 1,000, so that the spread stays within that (R284, log entry 43). -/
def Dev.recycle (d : Dev) : Dev :=
  let worn := (d.keep.erases.filter (fun e => 100000 ≤ e.2)).length
  if d.keep.pages.length + 16 * worn + 32 < keepPages then d
  else
    let good := (upTo 8192).filter (fun b => !d.blockWorn b)
    match d.leastErased (good.filter (fun b => d.keep.pages.any (fun e => e.1 / 16 == b && !e.2.current))), d.leastErased good with
    | some c, some m => (if d.blockErases m + 999 ≤ d.blockErases c then d.eraseBlock m else d).eraseBlock c
    | _, _ => d

/-- With fewer than 256 spare blocks the Keep is DEGRADED (R284). -/
def Dev.wear (d : Dev) (page : Nat) : Dev :=
  if d.spareBlocks < 256 && d.nat O.keepState = 0 then (d.setNat O.keepState 1).logNote 4 6 (leBytes 4 page) [] 0xFFFF else d

/-- Write a logical page as a shadow copy, one of so many of a group (R282). -/
def Dev.writePage (d : Dev) (logical : Nat) (whole current : Bool) (group size : Nat) : Dev :=
  ((d.recycle).putPage 8192 { logical := logical, wseq := 0, secs := 0, group := group, size := size, whole := whole, current := current }).wear logical

/-- The number of a new group. -/
def Dev.newGroup (d : Dev) : Dev := { d with keep := { d.keep with groupNo := d.keep.groupNo + 1 } }

/-- The device itself writes a page of the Ageing area, from logical page 21,504 on, or of the Diagnostics area, from 25,600 on (R281). -/
def Dev.writeArea (d : Dev) (first key : Nat) : Dev :=
  let d := d.newGroup
  d.writePage (first + Config.keepPage key % 4096) true true d.keep.groupNo 1

/-- The Logbook area's page of an entry: 64 entries to a page, behind the 4,096 pages of the Dictionary area (R277, R281). -/
def logPage (e : LogEntry) : Nat := 4096 + e.seq % 65536 / 64

/-- The logical pages of a group. -/
def KeepGroup.all (g : KeepGroup) : List Nat := (g.pages ++ g.log.map logPage).eraseDups

/-- A value that the device itself keeps in the Diagnostics or Ageing area (R281): one page write. -/
def Dev.keepDiag (d : Dev) (o : ObjDef) (a : Nat := 0) (b : Nat := 0) (c : Nat := 0) : Dev :=
  ({ d with diag := { d.diag with vals := SMap.ins d.diag.vals (o.key a b c) (d.val o a b c) } }).writeArea 25600 (o.key a b c)

/-- A group's values are durable. -/
def Dev.durable (d : Dev) (g : KeepGroup) : Dev :=
  let d := { d with keep := { d.keep with vals := g.vals.foldl (fun m e => SMap.ins m e.1 e.2) d.keep.vals,
                                          log := newest 65536 (d.keep.log ++ g.log) } }
  match g.log.getLast? with
  | some e => d.setNat O.logbookLastCheckpointSeq e.seq
  | none => d

/-- No further Keep write begins 10 ms after the power-fail warning (R412 step 4). -/
def Dev.keepHeld (d : Dev) : Bool :=
  match d.power.warnNs with
  | some t => decide (t + 10000000 ≤ d.ns)
  | none => false

/-- The group that is being written ends: whole, and its values are durable; or power has failed within the pages listed, counted in the
group's own order, and every pointer still names the old copies (R282, R283). -/
def groupWriteEffect (torn : List Nat) (d : Dev) : Dev :=
  match d.keep.groups with
  | [] => d
  | g :: gs =>
    d.when (!d.keepHeld) (fun d =>
      let ok := torn.isEmpty
      let ps := g.all
      let d := ({ d with keep := { d.keep with groups := gs } }).newGroup
      let d := (upTo ps.length).foldl (fun d i => d.writePage (ps.getD i 0) (!torn.contains i) ok d.keep.groupNo ps.length) d
      if ok then d.durable g else d)

/-- A page is rewritten: its age exceeds 5 years of powered time, or it fails a margin read at start-up (R284). -/
def pageRefreshEffect (page : Nat) (margin : Bool) (d : Dev) : Dev :=
  match SMap.find d.keep.pages page with
  | none => d
  | some k =>
    d.when (k.current && !d.keepHeld && (margin && d.nat O.configState != 4 || decide (k.secs + 157788000 < d.nat O.ageingPoweredSeconds)))
      (fun d => d.newGroup.writePage k.logical true true (d.keep.groupNo + 1) 1)

/-- Torn pages are counted and logged, and their blocks reclaimed: erased, with what is current in them written elsewhere (R283). -/
def Dev.reclaimTorn (d : Dev) : Dev :=
  let torn := d.keep.pages.filter (fun e => !e.2.whole)
  let d := torn.foldl (fun d e => (d.inc O.keepTornPages).logNote 4 6 (leBytes 4 e.1) [] 0xFFFF) d
  ((torn.map (fun e => e.1 / 16)).eraseDups).foldl (fun d b => d.eraseBlock b) d

/-- Keep.RawStatus of a physical page (R283): 0 ERASED, 1 CURRENT, 2 STALE, 3 TORN; 0 until a page is selected. -/
def Dev.rawStatus (d : Dev) (page : Nat) : Nat :=
  match if d.keep.rawOn then SMap.find d.keep.pages page else none with
  | none => 0
  | some k => if !k.whole then 3 else if k.current then 1 else 2

/-- The periodic checkpoint falls due (R279). -/
def checkpointIntervalEffect (d : Dev) : Dev :=
  d.when (decide (d.dict.ckptNs + 1000000 * d.nat O.logbookCheckpointInterval ≤ d.ns)) Dev.checkpoint

/-- 4,096 entries have been made since the last checkpoint (R279). -/
def checkpointCountEffect (d : Dev) : Dev := d.when (decide (4096 ≤ d.sinceCheckpoint)) Dev.checkpoint

/-- CHECKPOINT_INTERVAL. -/
def execCheckpointInterval (dt : Nat) (s : State) : Host.Outcome State Fault Refusal := run s dt checkpointIntervalEffect

/-- CHECKPOINT_COUNT. -/
def execCheckpointCount (dt : Nat) (s : State) : Host.Outcome State Fault Refusal := run s dt checkpointCountEffect

/-- KEEP_GROUP_WRITE. -/
def execKeepGroupWrite (dt : Nat) (torn : List Nat) (s : State) : Host.Outcome State Fault Refusal := run s dt (groupWriteEffect torn)

/-- KEEP_PAGE_REFRESH. -/
def execKeepPageRefresh (dt : Nat) (page : Nat) (margin : Bool) (s : State) : Host.Outcome State Fault Refusal :=
  run s dt (pageRefreshEffect page margin)

end Sys2Proof.Machine
end

