-- ==== Sys2Proof/Machine/Boot.lean ====
section
/-! DEFINITION. Device reset, boot, the configuration stream and start-up (R366 to R384), and the keys and fuses that it
reads. -/

set_option Elab.async false

namespace Sys2Proof.Machine

/-! Reset (R254, R366 to R368). -/

/-- Objects that a device reset does not touch: fuses and keys, what AON0, AON3 and the Keep hold, the boot count and the causes
of earlier resets. -/
def resetKeeps (key : Nat) : Bool :=
  let i := key / 256
  let s := key % 256
  i == 0x9020 || i == 0x9021 || (i == 0x9022 && s < 3) || (i == 0x2430 && s == 3) || (i == 0x2812 && 3 ≤ s) ||
  i == 0x2840 || i == 0x2841 || (i == 0x1140 && 1 ≤ s && s < 5) || (i == 0x1000 && s == 9) || (i == 0x2C02 && s == 1)

/-- The boot mode of a reset (R368): `pins` is CFG_MODE as sampled. Reserved codes, and mode JTAG with JTAG_LOAD_DISABLE, are HOLD
(R377). -/
def Dev.bootMode (d : Dev) (cause pins : Nat) : Nat :=
  let m :=
    if cause = 1 || cause = 2 then pins
    else if cause = 8 then
      match d.nat O.configSource with
      | 0 => 0 | 1 => 1 | 2 => 2 | 3 => 3 | _ => pins
    else
      let v := ((SMap.find d.keep.vals (O.configBootOverride.key 0 0 0)).getD (.num 0)).nat
      if v = 0 then pins else v - 1
  if 4 ≤ m || (m = 3 && bitOf (d.nat O.keyStorePolicy) 3) then 4 else m

/-- Groups that a reset meets in the Keep's queue: a commit's of 50 ms ago are durable, with those ahead of them; how many others are is open (R282). -/
def Dev.resetGroups (d : Dev) : Dev :=
  let late := (d.keep.groups.reverse.dropWhile (fun g => g.vals.isEmpty || decide (d.ns < g.ns + 50000000))).length
  let n := max late (d.draw % (d.keep.groups.length + 1))
  let d := (upTo n).foldl (fun d _ => groupWriteEffect [] d) d.drawn
  { d with keep := { d.keep with groups := [] } }

/-- Every sensor that a trip limit governs lies at least 15 °C below it (R422 step 5). -/
def Dev.coolEnough (d : Dev) : Bool :=
  let lim : Int := 10 * (d.int O.thermalTripLimit - 15)
  (upTo 10).all (fun x => (upTo 9).all (fun s => d.int O.thermalSensor x 0 s ≤ lim))

/-- A device reset: step 1 of the boot (R366, R367). Everything returns to its reset value but what the list above names, the Keep, the
fuses, the battery-backed key, and the powered time, which lies in an always-on domain. The count starts at 0 (R29). RESET-class values of the Keep are in force from here on (R251). Sources start again, FOSC first (R361). -/
def Dev.deviceReset (d : Dev) (cause pins : Nat) : Dev :=
  let hot := d.power.tripped || d.boot.hot
  let d := d.resetGroups
  let mode := d.bootMode cause pins
  let on := cause == 1
  let objs := d.objs.filter (fun e => resetKeeps e.1)
  let n : Dev :=
    { count := 0, ns := d.ns, free := d.free, objs := objs, keep := { d.keep with rawOn := false }, diag := d.diag, sent := d.sent,
      power := { history := d.power.history, ages := if on then d.diag.ages else d.power.ages, tripPin := d.power.tripPin && !on },
      test := { fails := d.test.fails },
      jtag := { d.jtag with outstanding := false, ready := false, response := [] },
      pins := { hostReset := d.pins.hostReset },
      boot := { pinLow := d.boot.pinLow, hot := hot && !on } }
  let n := if on then
      (O.ageingPoweredSeconds.key 0 0 0 :: (upTo 10).map (O.ageingAvgJunction.key 0 0)).foldl (fun n k =>
        { n with objs := match SMap.find d.diag.vals k with
                          | some v => SMap.ins n.objs k v
                          | none => SMap.del n.objs k }) n
    else n
  let reset := d.keep.vals.filter (fun e => match lookup (e.1 / 256) (e.1 % 256) with
    | some x => x.o.cls == .reset
    | none => false)
  let n := { n with inForce := reset }
  let n := n.setNat O.clockSysRefInUse ((SMap.find reset (O.clockSysRef.key 0 0 0)).getD (.num 0)).nat
  let n := n.setNat O.clockTimeRefInUse ((SMap.find d.keep.vals (O.clockTimeRef.key 0 0 0)).getD (.num 0)).nat
  let n := (n.setNat O.configResetCause cause).setNat O.configMode mode
  if n.boot.pinLow || n.boot.hot then n else n.setNat O.clockSourceStatus 1 0 0 0

/-- A device reset that a command reports, with one of the causes of R366. -/
def deviceResetEffect (cause pins : Nat) (d : Dev) : Dev := d.when (1 ≤ cause && cause ≤ 8) (fun d => d.deviceReset cause pins)

/-- PROGRAM_N has been low for 1 µs, or rises again: while it is low the device stays at step 1 (R366, R445). A trip's pin is
released when every sensor is cool enough (R446). -/
def programPinEffect (pins : Nat) (low : Bool) (d : Dev) : Dev :=
  if low then
    let cool := d.coolEnough
    let d := { d with boot := { d.boot with pinLow := true } }
    let d := if cool then { d with power := { d.power with tripPin := false } } else d
    d.deviceReset 2 pins
  else d.when d.boot.pinLow (fun d =>
    let d := { d with boot := { d.boot with pinLow := false } }
    if d.boot.hot then d else d.setNat O.clockSourceStatus 1 0 0 0)

/-- Power good ends the POWER_ON reset (R366, R411). -/
def powerGoodEffect (pins : Nat) (d : Dev) : Dev := d.deviceReset 1 pins

/-! Loading (R370 to R376). -/

/-- Config.State becomes FAULT. -/
def Dev.bootFault (d : Dev) (fault : Nat) : Dev := (d.setNat O.configState 5).setNat O.configFault fault

/-- A load starts from a source: step 6 (R367). -/
def Dev.loadBegin (d : Dev) (source : Nat) : Dev :=
  let d := (d.setNat O.configState 1).setNat O.configSource source
  { d with boot := { d.boot with hdr := none, stored := [], plain := [], blocks := 0, received := 0, nextFrame := 0, ended := false, sections := [], cfg := none,
                                 loadNs := some (d.boot.loadNs.getD d.ns), lastNs := d.ns, credit := 65536, loaded := 0, steps := [] } }

/-- A load fails (R373, R375): its frames are cleared; an SPI mode tries its other image once. -/
def Dev.loadFail (d : Dev) (fault : Nat) : Dev :=
  let auth := 4 ≤ fault && fault ≤ 9
  let d := if auth then (d.inc O.configAuthFailures).occur 1504 else d
  let d := { d with boot := { d.boot with sections := [], stored := [], plain := [], hdr := none, cfg := none, steps := [] } }
  let m := d.nat O.configMode
  if m ≤ 1 && !d.boot.fallback then
    let d := d.inc O.configFallbacks
    ({ d with boot := { d.boot with fallback := true } }).loadBegin (1 - m)
  else (d.bootFault fault).setNat O.configSource 0xFF

/-- Steps 3, 4 and 5 are done: the source of the mode is taken, or HOLD. Mode PCIE waits for LOAD_CONTROL, mode JTAG for CFG_LOAD;
in mode PCIE Q00 to Q03 are the Host endpoint (R367, R370). -/
def Dev.bootGo (d : Dev) : Dev :=
  if d.nat O.configState = 0 && d.boot.drawn && d.boot.restored && d.boot.plls && d.boot.links then
    match d.nat O.configMode with
    | 0 => d.loadBegin 0
    | 1 => d.loadBegin 1
    | 2 => ((upTo 4).foldl (fun d q => ((d.setNat O.quadRole 3 q).setNat O.quadLayout 4 q).setNat O.quadGroupBase 0 q) d).setNat O.portStandard 0x50 0 0
    | 3 => d
    | _ => d.setNat O.configState 6
  else d

/-- A stream may start: the mode waits for it. -/
def Dev.loadReady (d : Dev) (mode : Nat) : Bool :=
  d.nat O.configState == 0 && d.nat O.configMode == mode && d.boot.drawn && d.boot.restored && d.boot.plls && d.boot.links

/-- LOAD_CONTROL := 1 (R370). -/
def loadStartEffect (d : Dev) : Dev := d.when (d.loadReady 2 && !d.stopped) (fun d => d.loadBegin 2)

/-- LOAD_CONTROL := 2 (R370). -/
def loadAbortEffect (d : Dev) : Dev :=
  d.when (d.nat O.configState == 1 && d.nat O.configMode == 2) (fun d => d.loadFail 14)

/-- A write into the data aperture (R370): beyond the credit it is fault OVERRUN; outside LOADING in mode PCIE it is ignored. -/
def apertureEffect (bytes : Nat) (d : Dev) : Dev :=
  d.when (d.nat O.configState == 1 && d.nat O.configMode == 2) (fun d =>
    if d.boot.credit < bytes then d.loadFail 13
    else { d with boot := { d.boot with credit := d.boot.credit - bytes, loaded := d.boot.loaded + bytes, lastNs := d.ns } })

/-- The four 2-bit codes of a start-up order (R382). -/
def startupCodes (v : Nat) : List Nat := (upTo 4).map (fun i => v / 4 ^ i % 4)

/-- Whether some bytes of a header are zero, as its reserved ones are. -/
def hdrZero (h : List Byte) (o n : Nat) : Bool := fieldAt h o n == 0

/-- The stream is native, by its MAGIC (R372); an EK7 stream otherwise (R376). -/
def hdrNative (h : List Byte) : Bool := h.take 8 == asciiBytes "EKXCONF1"

/-- PAYLOAD_BYTES. -/
def hdrPayload (h : List Byte) : Nat := fieldAt h 32 8

/-- STARTUP_ORDER; the default of an EK7 stream. -/
def hdrOrder (h : List Byte) : Nat := if hdrNative h then fieldAt h 20 1 else 0xE4

/-- PLL_WAIT and PLL_CONTINUE; the defaults of an EK7 stream. -/
def hdrPllWait (h : List Byte) : Nat := if hdrNative h then fieldAt h 21 1 else 10
def hdrPllContinue (h : List Byte) : Bool := hdrNative h && bitOf (fieldAt h 16 1) 2

/-- SECURITY_VERSION. -/
def hdrVersion (h : List Byte) : Nat := if hdrNative h then fieldAt h 28 4 else 0

/-- The payload is ciphertext. -/
def hdrEncrypted (h : List Byte) : Bool := !hdrNative h || bitOf (fieldAt h 16 1) 0

/-- KEY_SOURCE: 0 eFuse key, 1 battery-backed key. -/
def hdrKeySource (h : List Byte) : Nat := if hdrNative h then bitsOf (fieldAt h 16 1) 1 1 else fieldAt h 12 1

/-- The stored key that a stream names: the battery-backed one is ignored where the policy says so (R377). -/
def Dev.streamKey (d : Dev) (source : Nat) : Option (List Byte) :=
  if source = 0 then (if d.nat O.keyStoreEfuseKeyState = 1 then some (d.octs O.keyStoreEfuseKey) else none)
  else if d.nat O.keyStoreBbramState = 1 && !bitOf (d.nat O.keyStorePolicy) 4 then some (d.octs O.keyStoreBbramKey) else none

/-- The first check of a header that fails (R372, R373, R376, R377), 0 when all pass. -/
def Dev.headerFault (d : Dev) (h : List Byte) : Nat :=
  let pol := d.nat O.keyStorePolicy
  let slot := bitsOf (fieldAt h 52 1) 1 0
  if hdrNative h then
    if fieldAt h 8 4 != 1 || !(hdrZero h 312 200 && fieldAt h 52 4 < 4 && hdrZero h 22 6 && fieldAt h 16 4 < 8) || hdrPayload h % 16 != 0 ||
       !(upTo 4).all (startupCodes (hdrOrder h)).contains || hdrPllWait h = 0 || 64 < hdrVersion h then 2
    else if fieldAt h 12 4 != 0x0144 then 3
    else if d.octs O.keyStorePubKeyHash 0 0 slot == zeros 48 || bitOf (d.nat O.keyStoreRevoked) slot ||
       sha384 (slice h 120 96) != d.octs O.keyStorePubKeyHash 0 0 slot then 4
    else if !ecdsaOk (slice h 120 96) (slice h 216 96) (sha384 (h.take 216)) then 5
    else if hdrVersion h < d.nat O.keyStoreSecurityVersion then 6
    else if (bitOf pol 0 && !hdrEncrypted h) || (bitOf pol 1 && hdrKeySource h = 1) then 7
    else 0
  else if h.take 8 == asciiBytes "EK7STRM2" then
    if !(hdrZero h 13 3 && hdrZero h 28 36 && fieldAt h 12 1 < 2) then 2
    else if d.nat O.keyStoreSecurityVersion != 0 || bitOf pol 2 || (bitOf pol 1 && hdrKeySource h = 1) then 7
    else 0
  else 1

/-- Frames of a region, a die-level range or an I/O die that a frame address may run through (R374); 0 where it names none. -/
def frameLimit (address : Nat) : Nat :=
  let die := bitsOf address 31 28
  let region := bitsOf address 27 20
  if bitsOf address 19 12 != 0 then 0
  else if die < 8 then (if region < 144 then 196 else if region = 0xFF then 448 else 0)
  else if die < 10 && region = 0xFF then 4096
  else 0

/-- A section is well formed and in its place (R374). END ends the payload of a native stream exactly. -/
def Dev.sectionOk (d : Dev) (h : List Byte) (address count kind : Nat) : Bool :=
  if kind = 0xFF then address == 0 && count == 0 && (!hdrNative h || d.boot.received + 16 == hdrPayload h)
  else
    (kind == 1 || kind == 2 || kind == 3) && 1 ≤ count && d.boot.nextFrame ≤ address && address % 4096 + count ≤ frameLimit address

/-- Frames that follow a section's header. -/
def sectionFrames (kind count : Nat) : Nat := if kind = 1 then count else if kind = 3 then 1 else 0

/-- The sections that stand whole in the plaintext that has come are written into frames (R374); nothing follows END. -/
def Dev.sections (d : Dev) (h : List Byte) : Nat → Dev
  | 0 => d
  | n + 1 =>
    let l := d.boot.plain
    if d.boot.ended then (if l.isEmpty then d else d.loadFail 2)
    else if l.length < 16 then d
    else
      let address := fieldAt l 0 4
      let count := fieldAt l 4 4
      let kind := fieldAt l 8 1
      if !hdrZero l 9 7 || !d.sectionOk h address count kind then d.loadFail 2
      else
        let size := 4096 * sectionFrames kind count
        if l.length < 16 + size then d
        else
          let frames := (upTo (sectionFrames kind count)).map (fun i => slice l (16 + 4096 * i) 4096)
          let s : Section := { address := address, count := count, kind := kind, frames := frames }
          let b := d.boot
          let b := { b with received := b.received + 16 + size, ended := kind == 0xFF, nextFrame := address + count, plain := l.drop (16 + size),
                            sections := if kind = 0xFF then b.sections else b.sections ++ [s] }
          ({ d with boot := b } : Dev).sections h n

/-- n bytes of the key stream of GCM from an offset of the text. -/
def gcmStream (key iv : List Byte) (off n : Nat) : List Byte :=
  (((upTo ((off % 16 + n + 15) / 16)).flatMap (fun i => aes256 key (gcmCounter iv (off / 16 + i + 2)))).drop (off % 16)).take n

/-- Payload bytes of a native stream, decrypted where the stream is encrypted (R373); without its key they stay as they are, and TAG fails. -/
def Dev.nativeData (d : Dev) (h l : List Byte) : Dev :=
  let b := d.boot
  let plain := match d.streamKey (hdrKeySource h) with
    | some k => if hdrEncrypted h then octXor l (gcmStream k (slice h 40 12) b.stored.length l.length) else l
    | none => l
  ({ d with boot := { b with stored := b.stored ++ l, plain := b.plain ++ plain } } : Dev).sections h (b.plain.length + l.length + 1)

/-- One block of an EK7 stream: its tag, its plaintext, and the key and IV of the next (R376). `last` says that it is the last of BLOCKS: its chain
ends there, and no other does. -/
def Dev.ek7Block (d : Dev) (h blk : List Byte) (last : Bool) : Dev :=
  let ct := blk.take (blk.length - 16)
  let b := d.boot
  let key := if b.blocks = 0 then d.streamKey (hdrKeySource h) else some b.chainKey
  let iv := if b.blocks = 0 then slice h 16 12 else b.chainIv
  match key with
  | none => d.loadFail 9
  | some k =>
    if gcmTag k iv (leBytes 4 b.blocks) ct != blk.drop (blk.length - 16) then d.loadFail 9
    else
      let text := gcmCrypt k iv ct
      let tail := text.drop (text.length - 48)
      if text.length < 48 || (tail.all (fun x => x == 0)) != last || !hdrZero tail 44 4 then d.loadFail 2
      else
        ({ d with boot := { b with blocks := b.blocks + 1, chainKey := tail.take 32, chainIv := slice tail 32 12,
                                   plain := b.plain ++ text.take (text.length - 48) } } : Dev).sections h (b.plain.length + text.length + 1)

/-- Whole blocks of an EK7 stream that have come, all but the last of BLOCKS, whose length only the end of the stream tells. -/
def Dev.ek7Data (d : Dev) (h : List Byte) : Nat → Dev
  | 0 => d
  | n + 1 =>
    if d.boot.hdr.isSome && d.boot.blocks + 1 < fieldAt h 8 4 && 65552 ≤ d.boot.stored.length then
      let blk := d.boot.stored.take 65552
      (({ d with boot := { d.boot with stored := d.boot.stored.drop 65552 } } : Dev).ek7Block h blk false).ek7Data h n
    else d

/-- Working bundles of a direction of an edge, in a range (R399). -/
def Dev.bundlesUp (d : Dev) (edge dir lo hi : Nat) : Nat :=
  ((upTo (hi + 1 - lo)).filter (fun i => (SMap.getD d.bundles (edge * 128 + dir * 64 + lo + i) {}).state != 3)).length

/-- The fabric die's link with its I/O die keeps at least 5 quad bundles in each direction, where the stream needs them, and no more of the
user bundles in use on a link have failed than the two spares cover (R394, R399). -/
def Dev.duaxisFits (d : Dev) (cfg : StreamCfg) : Bool :=
  (upTo 8).all (fun f =>
    !(cfg.hooks.any (fun x => x.val == f) || cfg.roles.any (fun r => r.2 == 6 && fabricDie r.1.val == f)) ||
    (5 ≤ d.bundlesUp f 0 14 31 && 5 ≤ d.bundlesUp f 1 14 31)) &&
  (upTo 10).all (fun i => (upTo 2).all (fun dir => (d.failedInUse cfg (8 + i) dir).length ≤ 2))

/-- The mode of the ports of Host, Storage and Native quads is fixed by their role (R39). -/
def Dev.fixModes (d : Dev) : Dev :=
  (upTo 36).foldl (fun d q =>
    if d.hasPort q 0 && (d.role q = 3 || d.role q = 4) then d.setNat O.portStandard 0x50 q 0
    else if d.hasPort q 0 && d.role q = 5 then d.setNat O.portStandard 0x60 q 0 else d) d

/-- The CONFIG-class values of a stream (R251), with the RESET-class values of exported objects that the Keep holds (R254). Exports lie from
0xA100 to 0xEFFF; the device answers NO_OBJECT for any other index (R12). -/
def Dev.applyCfg (d : Dev) (h : List Byte) (cfg : StreamCfg) : Dev :=
  let d := (upTo 36).foldl (fun d q => ((d.setNat O.quadRole 0 q).setNat O.quadLayout 2 q).setNat O.quadGroupBase q q) d
  let d := cfg.roles.foldl (fun d r => d.setNat O.quadRole r.2 r.1) d
  let d := cfg.layouts.foldl (fun d r => (d.setNat O.quadLayout r.2 r.1).setNat O.quadGroupBase (layoutBase r.2 r.1) r.1) d
  let d := cfg.refclk.foldl (fun d r => d.setNat O.quadRefClkSelect r.2 r.1) d
  let d := cfg.spxUse.foldl (fun d r => d.setNat O.quadSpapaxUse r.2 r.1) d
  let d := (d.setNat O.twinSide cfg.twinSide).setNat O.fabricQuadrantUsed (cfgUsed cfg)
  let d := cfg.banks.foldl (fun d b => d.setNat O.fabricBankStandard b.2 0 0 b.1) d
  let d := cfg.fabPlls.foldl (fun d p => (d.setNat O.clockFabPllConfig (Nat.land p.config 0xFF00FFFFFFFF0000) p.die 0 p.pll).setNat O.clockFabPllEnable (b2n p.enable) p.die 0 p.pll) d
  let d := (d.setNat O.fabricObjectCount cfg.userObjs.length).setNat O.configStartupOrder (hdrOrder h)
  let d := d.fixModes
  let users := cfg.userObjs.filter (fun u => 0xA100 ≤ u.index && u.index ≤ 0xEFFF)
  let kept := d.keep.vals.filter (fun e => users.any (fun u => u.index * 256 + u.sub == e.1))
  { d with fab := { d.fab with user := users, plls := cfg.fabPlls, values := kept } }

/-- The values of a stream whose checks have passed are those of the device, and start-up begins (R367 steps 7 and 8). -/
def Dev.startStream (d : Dev) (h : List Byte) (cfg : StreamCfg) : Dev :=
  let n := (d.setNat O.configState 3).setOct O.configStreamDigest (if hdrNative h then slice h 72 48 else zeros 48)
  let n := n.setNat O.configStreamVersion (hdrVersion h)
  let n := (upTo 8).foldl (fun n f => (upTo 16).foldl (fun n k =>
    if n.on O.clockFabPllEnable f 0 k then n.setNat O.clockFabPllStatus 1 f 0 k else n) n) n
  let n := (upTo 60).foldl (fun n i =>
    let use := n.domainUsed i
    (n.setNat O.powerDomainControl (b2n use) 0 0 i).setNat O.powerDomainState (b2n use) 0 0 i) n
  { n with boot := { n.boot with cfg := some cfg, steps := startupCodes (hdrOrder h), stepNs := n.ns, pllWait := hdrPllWait h,
                                 pllContinue := hdrPllContinue h, stored := [], plain := [] } }

/-- Step 7: after the last byte, DIGEST, TAG and the CONFIG rules (R367, R373). -/
def Dev.verifyStream (d : Dev) (h : List Byte) (cfg : StreamCfg) : Dev :=
  let d := d.setNat O.configState 2
  if !d.boot.ended || !d.boot.plain.isEmpty then d.loadFail 2
  else if hdrNative h && sha384 d.boot.stored != slice h 72 48 then d.loadFail 8
  else if hdrNative h && hdrEncrypted h &&
      (d.streamKey (hdrKeySource h)).map (fun k => gcmTag k (slice h 40 12) (h.take 56) d.boot.stored) != some (slice h 56 16) then d.loadFail 9
  else
    let n := d.applyCfg h cfg
    if n.firstMisplaced.isSome || (n.nat O.configMode = 2 && n.role 0 != 3) || !d.duaxisFits cfg || 65535 < cfg.userObjs.length then d.loadFail 10
    else n.startStream h cfg

/-- Bytes of the stream arrive while LOADING (R371 to R376). -/
def streamEffect (part : StreamPart) (d : Dev) : Dev :=
  d.when (d.nat O.configState == 1) (fun d =>
    let used := fun (d : Dev) (n : Nat) => ({ d with boot := { d.boot with lastNs := d.ns, credit := min 65536 (d.boot.credit + n) } } : Dev)
    match part, d.boot.hdr with
    | .header l, none =>
      let d := used d l.length
      let f := d.headerFault l
      if f = 0 then { d with boot := { d.boot with hdr := some l } } else d.loadFail f
    | .data l, some h =>
      let d := used d l.length
      if hdrNative h then d.nativeData h l
      else ({ d with boot := { d.boot with stored := d.boot.stored ++ l } } : Dev).ek7Data h (l.length + 1)
    | .last cfg, some h =>
      if hdrNative h then d.verifyStream h cfg
      else
        let d := if d.boot.blocks + 1 = fieldAt h 8 4 then d.ek7Block h d.boot.stored true else d.loadFail 2
        if d.nat O.configState = 1 && d.boot.hdr.isSome then d.verifyStream h cfg else d
    | _, _ => d.loadFail 2)

/-- No byte for 1 s during LOADING (R371). -/
def streamTimeoutEffect (d : Dev) : Dev :=
  d.when (d.nat O.configState == 1 && d.boot.lastNs + 1000000000 ≤ d.ns) (fun d => d.loadFail 1)

/-! Start-up (R382). -/

/-- Every enabled fabric PLL is LOCKED. -/
def Dev.fabPllsLocked (d : Dev) : Bool :=
  (upTo 8).all (fun f => (upTo 16).all (fun k => !d.on O.clockFabPllEnable f 0 k || d.nat O.clockFabPllStatus f 0 k == 2))

/-- The next start-up step ends. GSR loads every flip-flop with its initial value (R335) and sets the valid bits of
the RAM words that the stream fills (R183). -/
def startupEffect (d : Dev) : Dev :=
  d.when (d.nat O.configState == 3) (fun d =>
    match d.boot.steps with
    | [] => d
    | c :: cs =>
      let b := { d.boot with steps := cs, stepNs := d.ns }
      match c with
      | 0 => if d.fabPllsLocked then { d with boot := b } else d
      | 1 => { d with boot := { b with outputs := true } }
      | 2 =>
        let rams := match d.boot.cfg with
          | some cfg => cfg.rams
          | none => []
        rams.foldl (fun d r => d.setSram (ramInstance r.1) r.2.1 (SramWord.of r.2.2)) (({ d with boot := { b with gsr := true } } : Dev).setReset)
      | _ => { d with boot := { b with writes := true } })

/-- PLL_WAIT ms pass in the PLL_WAIT step with a fabric PLL unlocked. -/
def pllWaitEffect (d : Dev) : Dev :=
  d.when (d.nat O.configState == 3 && d.boot.steps.head? == some 0 && d.boot.stepNs + 1000000 * d.boot.pllWait ≤ d.ns && !d.fabPllsLocked)
    (fun d =>
      if d.boot.pllContinue then ({ d with boot := { d.boot with steps := d.boot.steps.drop 1, stepNs := d.ns } }).occur 1502
      else d.loadFail 11)

/-- Step 9: start-up is done and every DRAM channel is ACTIVE or ABSENT. Hardened services start, DONE is released, and the ports of
every quad start at step 1 of their states (R367), those of Pattern quads with their fill (R143). -/
def bootCompleteEffect (d : Dev) : Dev :=
  d.when (d.nat O.configState == 3 && d.boot.steps.isEmpty && d.boot.trained && (upTo 136).all (fun ch => d.chState ch ≤ 1)) (fun d =>
    let t := (d.ns - d.boot.loadNs.getD d.ns) / 1000
    let d := (d.setNat O.configState 4).setNat O.configLoadTime (min t 0xFFFFFFFF)
    let d := { d with boot := { d.boot with done := true } }
    let d := if d.hasTwin then d.setNat O.twinState 1 else d
    let d := (upTo 144).foldl (fun d i => if d.hasPort (i / 4) (i % 4) then (d.assignPll (i / 4) (i % 4)).sendFill (i / 4) (i % 4) else d) d
    let d := (upTo 36).foldl (fun d q => if d.base q = q then d.recheckQuad q else d) d
    (upTo 36).foldl (fun d q => if d.role q = 5 && d.base q = q && d.on O.quadSpapaxEnable q then d.spxEnabled q true else d) d)

/-! Boot steps 3 and 4 (R367, R380, R381, R254). -/

/-- The entropy start-up tests end: the session key is drawn, or FAULT ENTROPY. -/
def entropyStartEffect (ok : Bool) (d : Dev) : Dev :=
  d.when (d.boot.fuses && !d.boot.drawn && d.nat O.configState == 0) (fun d =>
    if ok then
      let d := { d with mem := { d.mem with key := fit 32 (Config.freeBytes d.free) }, boot := { d.boot with drawn := true } }
      d.drawn.bootGo
    else ((d.inc O.entropyFailures).setNat O.entropyState 1).bootFault 12)

/-- The slot with the higher version that verifies is started on cores 0 to 3, or FAULT FIRMWARE and the recovery monitor (R381). The
versions that the firmware itself reports are open values. -/
def firmwareEffect (ok0 ok1 : Bool) (v0 v1 : Nat) (d : Dev) : Dev :=
  d.when (d.boot.fuses && !d.boot.firmware && !d.boot.monitor) (fun d =>
    if !ok0 && !ok1 then ({ d with boot := { d.boot with monitor := true } }).bootFault 16
    else
      let slot := if ok0 && ok1 then (if v0 = v1 then d.draw % 2 else if v0 < v1 then 1 else 0) else if ok0 then 0 else 1
      let d := if ok0 && ok1 && v0 = v1 then d.drawn else d
      let d := ((d.setNat O.fwSlotVersion (if ok0 then v0 else 0) 0 0 0).setNat O.fwSlotVersion (if ok1 then v1 else 0) 0 0 1).setNat O.fwActiveSlot slot
      let d := (d.setNat O.identityFirmwareVersion (d.draw % 2 ^ 32)).drawn
      let d := (d.setNat O.identitySchemaVersion (d.draw % 2 ^ 32)).drawn
      let d := (upTo 4).foldl (fun d c => d.setNat O.coreState 2 c) d
      ({ d with boot := { d.boot with firmware := true } }).inc O.identityBootCount)

/-- Auth.KeyValid and Key.LinkPairingValid follow the keys held (R269, R385). -/
def Dev.keysValid (d : Dev) : Dev :=
  let d := (upTo 8).foldl (fun d i => d.setNat O.authKeyValid (b2n (d.octs O.authKey (i / 4) 0 (i % 4) != zeros 32)) (i / 4) 0 (i % 4)) d
  d.setNat O.keyLinkPairingValid (b2n (d.octs O.keyLinkPairing 0 0 0 != zeros 32) + 2 * b2n (d.octs O.keyLinkPairing 0 0 1 != zeros 32))

/-- A value of the Keep returns to its object (R254). -/
def Dev.restoreVal (d : Dev) (key : Nat) (v : Val) : Dev :=
  match lookup (key / 256) (key % 256) with
  | none =>
    match d.fab.user.find? (fun u => u.index * 256 + u.sub == key) with
    | some _ => { d with fab := { d.fab with values := SMap.ins d.fab.values key v } }
    | none => d
  | some x =>
    d.storeVal x v

/-- A sealed value that fails its tag takes its default, and is reported (R379). -/
def Dev.sealFail (d : Dev) (index sub : Nat) : Dev :=
  match lookup index sub with
  | none => d
  | some x =>
    if x.o.secret then ((d.storeVal x x.default).logNote 3 4 (leBytes 2 index ++ leBytes 1 sub) [] 0xFFFF).occur 1504 else d

/-- The Logbook is restored from its last checkpoint, and the boot entry is made (R278, R279). -/
def Dev.restoreLog (d : Dev) : Dev :=
  let last := (d.keep.log.getLast?).map (fun e => e.seq)
  let next := (last.getD 0xFFFFFFFF + 1) % 2 ^ 32
  let d := { d with dict := { d.dict with log := d.keep.log, logSeq := next, ckptSeq := next, ckptNs := d.ns } }
  let d := d.setNat O.logbookLastCheckpointSeq (last.getD 0)
  d.logNote 5 1 (leBytes 4 (last.getD 0xFFFFFFFF)) (leBytes 1 (d.nat O.configResetCause % 16 + (if last.isNone then 16 else 0)))

/-- The Keep is mounted, PERSIST values and the Logbook are restored, and the boot entry is made (R254, R279, R283, R379). -/
def restoreEffect (badSeal : List (Nat × Nat)) (d : Dev) : Dev :=
  d.when (d.boot.firmware && !d.boot.restored) (fun d =>
    let d := d.keep.vals.foldl (fun d e => d.restoreVal e.1 e.2) d
    let d := { d with dict := { d.dict with streamTick := d.count } }
    let d := d.restoreLog
    let d := badSeal.foldl (fun d e => d.sealFail e.1 e.2) d.reclaimTorn
    let d := d.keysValid
    let d := if d.on O.clockXbEnable && d.nat O.clockSourceStatus 0 0 3 = 0 then d.setNat O.clockSourceStatus 1 0 0 3 else d
    ({ d with boot := { d.boot with restored := true } }).bootGo)

/-! Read-back, watchdog, reconfiguration (R381, R383, R384). -/

/-- Read-back meets a frame. -/
def readbackEffect (frame : Nat) (find : FrameFind) (last : Bool) (pins : Nat) (d : Dev) : Dev :=
  d.when (d.on O.readbackEnable && d.nat O.configState == 4 && !d.halted) (fun d =>
    let d := if last then d.inc O.readbackSweeps else d
    let name := fun (d : Dev) => (d.setNat O.readbackLastFrame (frame % 2 ^ 32)).setNat O.readbackLastTick d.count
    match find with
    | .ok => d
    | .single _ => name (d.inc O.readbackCorrected)
    | .multi =>
      let d := (name (d.inc O.readbackUncorrectable)).occur 1503
      if d.nat O.readbackAction = 1 then d.deviceReset 8 pins else d)

/-- The service cores have not served the watchdog for 2 s. -/
def watchdogEffect (pins : Nat) (d : Dev) : Dev := d.when (!d.boot.monitor) (fun d => d.deviceReset 6 pins)

/-- 1 ms after the tc of Config.Reconfigure. -/
def reconfigureDelayEffect (pins : Nat) (d : Dev) : Dev :=
  match d.boot.reconfNs with
  | none => d
  | some t => d.when (decide (t + 1000000 ≤ d.ns)) (fun d => d.deviceReset 3 pins)

/-! Keys, fuses and entropy (R377, R378, R380). -/

/-- KeyStore.KeyCheck follows the two stream keys. -/
def Dev.keyCheck (d : Dev) : Dev :=
  let part := fun (b : Bool) (k : List Byte) => if b then (aes256 k (zeros 16)).take 8 else zeros 8
  d.setOct O.keyStoreKeyCheck (part (d.nat O.keyStoreEfuseKeyState == 1) (d.octs O.keyStoreEfuseKey) ++
    part (d.nat O.keyStoreBbramState == 1) (d.octs O.keyStoreBbramKey))

/-- Fuses of a committed KeyStore value start to burn (R378). -/
def Dev.burn (d : Dev) (key : Nat) (v : Val) : Dev :=
  ({ d with boot := { d.boot with burning := d.boot.burning ++ [({ key := key, val := v } : Staged)], burnNs := d.ns } }).setNat O.keyStoreFuseStatus 1

/-- What burnt fuses say. -/
def Dev.burnt (d : Dev) (x : Staged) : Dev :=
  match lookup (x.key / 256) (x.key % 256) with
  | none => d
  | some y =>
    match y.o.eff with
    | .efuseKey => (d.storeVal y x.val).setNat O.keyStoreEfuseKeyState 1
    | .revoke => d.setNat O.keyStoreRevoked (Nat.lor (d.nat O.keyStoreRevoked) x.val.nat)
    | _ => d.storeVal y x.val

/-- Burning ends. -/
def fuseBurnEffect (ok : Bool) (d : Dev) : Dev :=
  d.when (d.nat O.keyStoreFuseStatus == 1) (fun d =>
    let d := if ok then (d.boot.burning.foldl Dev.burnt d).keyCheck else d
    ({ d with boot := { d.boot with burning := [] } }).setNat O.keyStoreFuseStatus (if ok then 2 else 3))

/-- VBAT_KEY falls below its retention limit. -/
def vbatEffect (d : Dev) : Dev := ((d.setOct O.keyStoreBbramKey (zeros 32)).setNat O.keyStoreBbramState 2).keyCheck

/-- A continuous health test fails. -/
def entropyFailEffect (d : Dev) : Dev := ((d.inc O.entropyFailures).setNat O.entropyState 1).occur 1503

/-- The tests pass again: links that wait in stage 4 draw their nonces. -/
def entropyPassEffect (d : Dev) : Dev :=
  let d := d.setNat O.entropyState 0
  (upTo 36).foldl (fun d q => if d.stage q = 4 then d.eachPort q (fun d i => if (d.spx i).nonce.isEmpty then d.linkNonce i else d) else d) d

/-! PERST_N (R444). -/

/-- PERST_N[0] low resets the Host endpoint alone, as a link down does. -/
def perstAssertEffect (d : Dev) : Dev :=
  d.when d.hasHost (fun d => ({ d with pins := { d.pins with hostReset := true } }).dropMailboxes.pcieDown 0)

/-- PERST_N[0] rises. -/
def perstDeassertEffect (d : Dev) : Dev := { d with pins := { d.pins with hostReset := false } }

/-- 100 ms after a Storage quad's reference is present its PERST_N is released, and the link's first training begins (R71, R444). -/
def perstReleaseEffect (q : Nat) (d : Dev) : Dev :=
  match SMap.find d.pins.refNs q with
  | none => d
  | some t =>
    d.when (d.role q == 4 && !d.pins.released.contains q && decide (t + 100000000 ≤ d.ns)) (fun d =>
      let d := { d with pins := { d.pins with released := q :: d.pins.released },
                        links := { d.links with retrainNs := SMap.ins d.links.retrainNs q d.ns, retried := SMap.ins d.links.retried q 1 } }
      d.send (.perst q false))

/-! DRAM training (R163, R164, R367). -/

/-- A channel's DIMMs are such as a board may fit: at most two RDIMMs of 1 or 2 ranks, from 16 GiB to 256 GiB each (R160, R163). -/
def dimmsFit (x : DimmSet) : Bool :=
  1 ≤ x.dimms && x.dimms ≤ 2 && 1 ≤ x.ranks && x.ranks ≤ 2 && 2 ^ 34 ≤ x.bytes && x.bytes ≤ 2 ^ 38

/-- An interleave set as R163 asks for: 1, 2 or 4 channels with the same number of DIMMs of one part type. -/
def setOk (l : List DimmSet) : Bool :=
  (l.length == 1 || l.length == 2 || l.length == 4) && l.all dimmsFit &&
  match l with
  | [] => false
  | x :: xs => xs.all (fun y => y.dimms == x.dimms && y.part == x.part && y.ranks == x.ranks && y.bytes == x.bytes)

/-- Sublists of a list, in the order of their members. -/
def sublistsOf {α : Type} : List α → List (List α)
  | [] => [[]]
  | x :: xs => (sublistsOf xs).map (fun l => x :: l) ++ sublistsOf xs

/-- The largest subset that obeys the rules, lowest-numbered channels first. -/
def interleaveSet (l : List DimmSet) : List DimmSet :=
  let good := (sublistsOf l).filter setOk
  match good.find? (fun s => s.length == 4), good.find? (fun s => s.length == 2), good.find? (fun s => s.length == 1) with
  | some s, _, _ => s
  | none, some s, _ => s
  | none, none, some s => s
  | none, none, none => []

/-- A channel becomes ABSENT: its objects read as defaults. -/
def Dev.absent (d : Dev) (ch : Nat) : Dev := (d.setChan ch {}).setCh O.memChannelState ch 0

/-- Start-up training of the channels ends. Channels without DIMMs raise no event (log entry 46). -/
def dramTrainingEffect (ok : List (Fin 136)) (dimms : List DimmSet) (d : Dev) : Dev :=
  d.when (!d.boot.trained) (fun d =>
    let passed := fun (ch : Nat) => ok.any (fun x => x.val == ch)
    let d := (upTo 2).foldl (fun d half =>
      let fitted := dimms.filter (fun x => x.chan.val / 4 == half && x.dimms != 0)
      let trained := fitted.filter (fun x => passed x.chan.val)
      let set := interleaveSet (sortBy (fun (x y : DimmSet) => x.chan.val < y.chan.val) trained)
      let d := (upTo 4).foldl (fun d i =>
        let ch := 4 * half + i
        if set.any (fun x => x.chan.val == ch) then d.setCh O.memChannelState ch 1
        else
          let d := d.absent ch
          if fitted.any (fun x => x.chan.val == ch) then d.occur 1503 else d) d
      let d := set.foldl (fun d x =>
        let d := { d with mem := { d.mem with ranks := SMap.ins d.mem.ranks x.chan (x.dimms, x.ranks, x.bytes) } }
        let d := d.setNat O.memChannelBytes (x.dimms * x.bytes) 0 x.chan
        d.setNat O.memDdrChannels (Nat.lor (d.nat O.memDdrChannels) (2 ^ x.chan.val))) d
      let n := sumBy (fun x => x.dimms * x.bytes) set
      (d.setNat (if half = 0 then O.memDdrBytesNorth else O.memDdrBytesSouth) n).setNat O.memStageSize (min 0x1000000000 n) half) d
    let d := (upTo 2).foldl (fun d half =>
      let chs := (upTo 64).map (fun i => 8 + 64 * half + i)
      if chs.all passed then chs.foldl (fun d ch => d.setCh O.memChannelBytes ch 0x90000000) d
      else
        let d := (chs.filter (fun ch => !passed ch)).foldl (fun d _ => d.occur 1503) d
        let d := chs.foldl Dev.absent d
        d.setNat O.memHbmBytes (d.nat O.memHbmBytes - 144 * 2 ^ 30)) d
    let d := (upTo 136).foldl (fun d ch => if d.chState ch = 0 then d else d.setChan ch { d.chan ch with sensorNs := some d.ns }) d
    { d with boot := { d.boot with trained := true } })

/-! The commands. -/

/-- DEVICE_RESET. -/
def execDeviceReset (dt : Nat) (cause : Fin 9) (mode : Fin 8) (s : State) : Host.Outcome State Fault Refusal :=
  run s dt (deviceResetEffect cause mode)

/-- PROGRAM_PIN. -/
def execProgramPin (dt : Nat) (mode : Fin 8) (low : Bool) (s : State) : Host.Outcome State Fault Refusal := run s dt (programPinEffect mode low)

/-- POWER_GOOD. -/
def execPowerGood (dt : Nat) (mode : Fin 8) (s : State) : Host.Outcome State Fault Refusal := run s dt (powerGoodEffect mode)

/-- ENTROPY_STARTUP_DONE. -/
def execEntropyStartupDone (dt : Nat) (ok : Bool) (s : State) : Host.Outcome State Fault Refusal := run s dt (entropyStartEffect ok)

/-- FIRMWARE_START. -/
def execFirmwareStart (dt : Nat) (ok0 ok1 : Bool) (v0 v1 : Nat) (s : State) : Host.Outcome State Fault Refusal :=
  run s dt (firmwareEffect ok0 ok1 v0 v1)

/-- PERSIST_RESTORE. -/
def execPersistRestore (dt : Nat) (badSeal : List (Nat × Nat)) (s : State) : Host.Outcome State Fault Refusal := run s dt (restoreEffect badSeal)

/-- STREAM_DATA. -/
def execStreamData (dt : Nat) (part : StreamPart) (s : State) : Host.Outcome State Fault Refusal := run s dt (streamEffect part)

/-- STREAM_TIMEOUT. -/
def execStreamTimeout (dt : Nat) (s : State) : Host.Outcome State Fault Refusal := run s dt streamTimeoutEffect

/-- LOAD_START. -/
def execLoadStart (dt : Nat) (s : State) : Host.Outcome State Fault Refusal := run s dt loadStartEffect

/-- LOAD_ABORT. -/
def execLoadAbort (dt : Nat) (s : State) : Host.Outcome State Fault Refusal := run s dt loadAbortEffect

/-- APERTURE_WRITE. -/
def execApertureWrite (dt : Nat) (bytes : Nat) (s : State) : Host.Outcome State Fault Refusal := run s dt (apertureEffect bytes)

/-- STARTUP_STEP. -/
def execStartupStep (dt : Nat) (s : State) : Host.Outcome State Fault Refusal := run s dt startupEffect

/-- PLL_WAIT_EXPIRY. -/
def execPllWaitExpiry (dt : Nat) (s : State) : Host.Outcome State Fault Refusal := run s dt pllWaitEffect

/-- BOOT_COMPLETE. -/
def execBootComplete (dt : Nat) (s : State) : Host.Outcome State Fault Refusal := run s dt bootCompleteEffect

/-- READBACK_FRAME. -/
def execReadbackFrame (dt : Nat) (frame : Nat) (find : FrameFind) (lastOfSweep : Bool) (mode : Fin 8) (s : State) :
    Host.Outcome State Fault Refusal :=
  run s dt (readbackEffect frame find lastOfSweep mode)

/-- WATCHDOG_EXPIRY. -/
def execWatchdogExpiry (dt : Nat) (mode : Fin 8) (s : State) : Host.Outcome State Fault Refusal := run s dt (watchdogEffect mode)

/-- RECONFIGURE_DELAY_EXPIRY. -/
def execReconfigureDelayExpiry (dt : Nat) (mode : Fin 8) (s : State) : Host.Outcome State Fault Refusal := run s dt (reconfigureDelayEffect mode)

/-- FUSE_BURN_DONE. -/
def execFuseBurnDone (dt : Nat) (ok : Bool) (s : State) : Host.Outcome State Fault Refusal := run s dt (fuseBurnEffect ok)

/-- VBAT_LOSS. -/
def execVbatLoss (dt : Nat) (s : State) : Host.Outcome State Fault Refusal := run s dt vbatEffect

/-- ENTROPY_HEALTH_FAILURE. -/
def execEntropyHealthFailure (dt : Nat) (s : State) : Host.Outcome State Fault Refusal := run s dt entropyFailEffect

/-- ENTROPY_HEALTH_PASS. -/
def execEntropyHealthPass (dt : Nat) (s : State) : Host.Outcome State Fault Refusal := run s dt entropyPassEffect

/-- PERST_ASSERT. -/
def execPerstAssert (dt : Nat) (s : State) : Host.Outcome State Fault Refusal := run s dt perstAssertEffect

/-- PERST_DEASSERT. -/
def execPerstDeassert (dt : Nat) (s : State) : Host.Outcome State Fault Refusal := run s dt perstDeassertEffect

/-- PERST_RELEASE_EXPIRY. -/
def execPerstReleaseExpiry (dt : Nat) (q : Fin 36) (s : State) : Host.Outcome State Fault Refusal := run s dt (perstReleaseEffect q)

/-- DRAM_TRAINING_DONE. -/
def execDramTrainingDone (dt : Nat) (ok : List (Fin 136)) (dimms : List DimmSet) (s : State) : Host.Outcome State Fault Refusal :=
  run s dt (dramTrainingEffect ok dimms)

end Sys2Proof.Machine
end

