-- ==== Sys2Proof/Machine/Clocks.lean ====
section
/-! DEFINITION. Clock sources, PLLs and the gating tree (R352 to R361). Sources are numbered 0 FOSC, 1 SOSC, 2 XA, 3 XB,
4 REF10M_IN, system PLLs as Clock.PllStatus orders them. -/

set_option Elab.async false

namespace Sys2Proof.Machine

/-- Clock.SourceStatus of a source. -/
def Dev.src (d : Dev) (i : Nat) : Nat := d.nat O.clockSourceStatus 0 0 i

/-- Set it. -/
def Dev.setSrc (d : Dev) (i st : Nat) : Dev := d.setNat O.clockSourceStatus st 0 0 i

/-- Clock.PllStatus of a system PLL. -/
def Dev.pll (d : Dev) (i : Nat) : Nat := d.nat O.clockPllStatus 0 0 i

/-- Set it. -/
def Dev.setPll (d : Dev) (i st : Nat) : Dev := d.setNat O.clockPllStatus st 0 0 i

/-- The source in use as system reference: Clock.SysRefInUse codes 0 XA, 1 XB, 2 FOSC. -/
def Dev.sysSrc (d : Dev) : Nat :=
  match d.nat O.clockSysRefInUse with
  | 0 => 2 | 1 => 3 | _ => 0

/-- The source in use as time reference: 0 XA, 1 XB, 2 REF10M_IN. -/
def Dev.timeSrc (d : Dev) : Nat := 2 + d.nat O.clockTimeRefInUse

/-- A PLL's reference is STABLE: the time-base PLL of IOS follows that of ION (R354). -/
def Dev.pllRefStable (d : Dev) (i : Nat) : Bool :=
  match i with
  | 0 => d.src d.timeSrc == 2
  | 1 => d.pll 0 == 2
  | _ => d.src d.sysSrc == 2

/-- The gate node of a system PLL, if it has one (table "Gate nodes"), as an offset from sub-index 0x01. -/
def pllGate (i : Nat) : Option Nat :=
  match i with
  | 4 => some 0 | 5 => some 1 | 6 => some 10 | 7 => some 11 | 8 => some 12 | 9 => some 13 | 10 => some 22 | _ => none

/-- The system PLL of a gate node. -/
def gatePll (node : Nat) : Option Nat := (upTo 11).find? (fun i => pllGate i == some node)

/-- The PLL's clock is not gated. -/
def Dev.pllOpen (d : Dev) (i : Nat) : Bool :=
  match pllGate i with
  | some n => d.on O.clockGate 0 0 n
  | none => true

/-- The other PLLs begin to lock: status OFF, ungated, and their reference STABLE (R361). -/
def Dev.pllsStart (d : Dev) : Dev :=
  (upTo 11).foldl (fun d i => if d.pll i = 0 && d.pllOpen i && d.pllRefStable i then d.setPll i 1 else d) d

/-- A PLL enters HOLDOVER (R359, R360). -/
def Dev.holdPll (d : Dev) (i : Nat) : Dev :=
  if d.pll i = 1 || d.pll i = 2 then
    let d := d.setPll i 3
    { d with clock := { d.clock with holdNs := SMap.ins d.clock.holdNs i d.ns } }
  else d

/-- The system reference is switched: to the other crystal if STABLE, otherwise to FOSC (R359). -/
def Dev.switchSys (d : Dev) : Dev :=
  let other := if d.sysSrc = 2 then 3 else 2
  if d.src other = 2 then d.setNat O.clockSysRefInUse (other - 2)
  else if d.sysSrc = 0 && d.src 3 = 2 then d.setNat O.clockSysRefInUse 1
  else if d.src 0 = 2 then d.setNat O.clockSysRefInUse 2
  else d

/-- The time reference is switched to the first STABLE source in the order XA, XB, REF10M_IN (R359). -/
def Dev.switchTime (d : Dev) : Dev :=
  match (upTo 3).find? (fun i => d.src (2 + i) == 2) with
  | some i => d.setNat O.clockTimeRefInUse i
  | none => d

/-- The ordering code EKX144-g-t-HC of a speed grade and a temperature grade, 0 E or 1 I (R1). -/
def orderingCode (g t : Nat) : List Byte :=
  asciiBytes "EKX144-" ++ leBytes 1 (48 + g) ++ asciiBytes (if t = 0 then "-E-HC" else "-I-HC")

/-- Fuses hold only the ordering codes and grades of the table "Ordering code fields" (R1, R285). -/
def fuseListed (x : Occurrence) (l : List Byte) : Bool :=
  if x.o.name == O.identityOrderingCode.name then [1, 2, 3].any (fun g => l == orderingCode g 0 || l == orderingCode g 1)
  else if x.o.name == O.identitySpeedGrade.name then 1 ≤ leNat l && leNat l ≤ 3
  else if x.o.name == O.identityTempGrade.name then leNat l ≤ 1
  else true

/-- A fused value as its object reads: reserved bits [26:16] and [11:8] of a die identity word read as zero (R11, R400). -/
def fusedBytes (x : Occurrence) (l : List Byte) : List Byte :=
  if x.o.name == O.diagDieIdentity.name then octAnd l ([255, 0xF0, 0, 0xF8] ++ (upTo 12).map (fun _ => 255)) else l

/-- Fused values as boot step 2 senses them: those of class CONFIG and Vane.MacAddress, which are the defaults of their objects. The ordering
code names the device's grades (R1). -/
def Dev.sense (d : Dev) (fuses : List (Nat × Nat × List Byte)) : Dev :=
  let d := fuses.foldl (fun d f =>
    match lookup f.1 f.2.1 with
    | some x =>
      if (x.o.cls = .config || x.o.base == O.vaneMacAddress.base && x.o.sub0 == 2) && fuseListed x f.2.2 then d.storeVal x (decodeVal x.o.ty (fusedBytes x f.2.2))
      else d
    | none => d) d
  let g := d.nat O.identitySpeedGrade
  if g = 0 then d else d.setOct O.identityOrderingCode (orderingCode g (d.nat O.identityTempGrade))

/-- A die identity word passes: CHECK, POSITION and TYPE (R399, R400). -/
def identityOk (x : Nat) (w : List Byte) : Bool :=
  w.length == 16 && crc32c (w.take 12) == fieldAt w 12 4 && bitsOf (fieldAt w 0 1) 7 4 == x && bitsOf (fieldAt w 0 1) 3 0 == (if x < 8 then 1 else 2)

/-- Boot step 2: the fuses are sensed and the identity words compared (R367, R398, R399). -/
def Dev.fuseSense (d : Dev) (fuses : Option (List (Nat × Nat × List Byte))) : Dev :=
  if d.boot.fuses then d
  else
    let d := { d with boot := { d.boot with fuses := true, fused := fuses.getD [] } }
    match fuses with
    | none => d.bootFault 15
    | some l =>
      let d := d.sense l
      if (upTo 10).all (fun x => identityOk x (d.octs O.diagDieIdentity 0 0 x)) then d else d.bootFault 15

/-- A source completes its stable count (R353). FOSC starts the other sources and lets step 2 begin; a source that is the only candidate
is selected (R359). -/
def sourceStableEffect (i : Nat) (fuses : Option (List (Nat × Nat × List Byte))) (d : Dev) : Dev :=
  d.when (if i = 0 then d.src 0 != 2 && !d.boot.pinLow && !d.boot.hot else d.src i == 1) (fun d =>
    let d := d.setSrc i 2
    let d := if i = 0 then
        let start := fun (d : Dev) (j : Nat) => if d.src j = 0 then d.setSrc j 1 else d
        let d := start (start (start d 1) 2) 4
        let d := if d.on O.clockXbEnable then start d 3 else d
        d.fuseSense fuses
      else d
    let d := if d.src d.sysSrc = 3 && i != 1 && i != 4 then d.switchSys else d
    let d := if d.src d.timeSrc = 3 && 2 ≤ i then d.switchTime else d
    d.pllsStart)

/-- What every detection of a missing clock or a lost lock does (R358). -/
def Dev.missing (d : Dev) : Dev := (d.inc O.clockMissingCount).occur 1502

/-- A monitor finds a source missing (R358, R359). -/
def clockMissingEffect (i : Nat) (d : Dev) : Dev :=
  d.when (d.src i == 1 || d.src i == 2) (fun d =>
    let d := (d.setSrc i 3).missing
    let d := if d.sysSrc = i then ((upTo 9).foldl (fun d j => d.holdPll (2 + j)) d).switchSys else d
    if d.timeSrc = i then (d.holdPll 0).switchTime else d)

/-- Edges return (R353). -/
def clockReturnEffect (i : Nat) (d : Dev) : Dev := d.when (d.src i == 3) (fun d => d.setSrc i 1)

/-- Status of a transmit PLL. -/
def Dev.txPll (d : Dev) (k : Nat) : Nat := SMap.getD d.clock.txPll k 0

/-- Set it. -/
def Dev.setTxPll (d : Dev) (k st : Nat) : Dev :=
  { d with clock := { d.clock with txPll := SMap.setD d.clock.txPll k 0 st } }

/-- A PLL loses lock (R358, R359): a system or transmit PLL holds, a fabric PLL is UNLOCKED; a Pattern port sees LOL (R156). -/
def pllLossEffect (p : Sum (Fin 11) (Sum (Fin 8 × Fin 16) (Fin 36 × Fin 2))) (d : Dev) : Dev :=
  match p with
  | .inl i => d.when (d.pll i == 2) (fun d => (d.missing).holdPll i)
  | .inr (.inl (f, k)) => d.when (d.nat O.clockFabPllStatus f 0 k == 2) (fun d => (d.missing).setNat O.clockFabPllStatus 3 f 0 k)
  | .inr (.inr (q, i)) =>
    let k := 2 * q.val + i.val
    d.when (d.txPll k == 2) (fun d =>
      let d := d.missing.setTxPll k 3
      let d := { d with clock := { d.clock with holdNs := SMap.ins d.clock.holdNs (16 + k) d.ns } }
      d.recheckQuad q)

/-- A PLL locks on a STABLE reference (R354, R355, R360). The system PLLs together end boot step 5's wait for them (R361). -/
def pllLockEffect (p : Sum (Fin 11) (Sum (Fin 8 × Fin 16) (Fin 36 × Fin 2))) (d : Dev) : Dev :=
  let free := fun (d : Dev) (k : Nat) => ({ d with clock := { d.clock with holdNs := SMap.del d.clock.holdNs k } } : Dev)
  match p with
  | .inl i =>
    d.when (d.pll i != 2 && d.pllOpen i && d.pllRefStable i) (fun d =>
      let d := (free (d.setPll i 2) i).pllsStart
      if (upTo 11).all (fun j => d.pll j == 2) then ({ d with boot := { d.boot with plls := true } }).bootGo else d)
  | .inr (.inl (f, k)) =>
    d.when (d.on O.clockFabPllEnable f 0 k && d.nat O.clockFabPllStatus f 0 k != 2) (fun d => d.setNat O.clockFabPllStatus 2 f 0 k)
  | .inr (.inr (q, i)) =>
    let k := 2 * q.val + i.val
    d.when (d.txPll k != 2 && d.nat O.quadRefClkStatus q == 1) (fun d => (free (d.setTxPll k 2) (16 + k)).recheckQuad q)

/-- A DRAM channel freezes because its PLL failed (R176, R360). -/
def Dev.frostTraining (d : Dev) (ch : Nat) : Dev :=
  if 1 ≤ d.chState ch && d.chState ch ≤ 3 then d.frost ch 3 4 0xFFFF 0 else d

/-- A port goes DOWN with reason LOL because its transmit PLL failed (R360). -/
def Dev.txPllDown (d : Dev) (q p : Nat) : Dev := d.portFall q p 2

/-- A PLL has not relocked within 1 ms of entering HOLDOVER (R360). -/
def pllHoldoverEffect (p : Sum (Fin 11) (Fin 36 × Fin 2)) (pins : Nat) (d : Dev) : Dev :=
  let late := fun (k : Nat) => match SMap.find d.clock.holdNs k with
    | some t => decide (t + 1000000 ≤ d.ns)
    | none => false
  match p with
  | .inl i =>
    d.when (d.pll i == 3 && late i) (fun d =>
      let d := d.setPll i 4
      if i.val < 4 then d.deviceReset 4 pins
      else if i.val < 6 then (upTo 4).foldl (fun d k => d.frostTraining (4 * (i.val - 4) + k)) d
      else if i.val < 10 then (upTo 32).foldl (fun d k => d.frostTraining (8 + 32 * (i.val - 6) + k)) d
      else (d.setNat O.vaneLinkState 0 0).setNat O.vaneLinkState 0 1)
  | .inr (q, i) =>
    let k := 2 * q.val + i.val
    d.when (d.txPll k == 3 && late (16 + k)) (fun d =>
      let d := d.setTxPll k 4
      let b := d.base q
      (upTo 4).foldl (fun d p => if txRole (d.role b) && d.hasPort b p && d.nat O.portTxPll b p == i.val then d.txPllDown b p else d) d)

/-- The system PLLs have not locked in time at boot step 5 (R367). -/
def pllLockTimeoutEffect (d : Dev) : Dev :=
  d.when (d.nat O.configState == 0 && d.boot.drawn && d.boot.restored && !(d.boot.plls && d.boot.links)) (fun d => d.bootFault 11)

/-! The gating tree (R356, R357). -/

/-- The parent of a gate node, among the nodes. -/
def gateParent (n : Nat) : Option Nat :=
  if 2 ≤ n && n < 6 then some 0 else if 6 ≤ n && n < 10 then some 1
  else if 14 ≤ n && n < 22 then some (10 + (n - 14) / 2) else if n = 23 || n = 24 then some 22 else none

/-- A leaf is in use; one whose power domain is off never is. -/
def Dev.leafUsed (d : Dev) (n : Nat) : Bool :=
  let dom := fun (i : Nat) => d.nat O.powerDomainState 0 0 i == 1
  let act := fun (ch : Nat) => 1 ≤ d.chState ch && d.chState ch ≤ 3
  if 2 ≤ n && n < 10 then act (n - 2) && dom (52 + (n - 2) / 2)
  else if 14 ≤ n && n < 22 then (upTo 16).any (fun c => act (8 + 16 * (n - 14) + c)) && dom (44 + (n - 14))
  else if n = 23 || n = 24 then d.vaneMode (n - 23) != 0
  else if 25 ≤ n && n < 37 then (d.nat O.coreState (4 + (n - 25)) == 2 || d.nat O.coreState (4 + (n - 25)) == 3) && dom 59
  else false

/-- A node is in use (table "Gate nodes"). -/
def Dev.nodeUsed (d : Dev) (n : Nat) : Bool :=
  d.leafUsed n || (upTo 37).any (fun c => gateParent c == some n && d.on O.clockGate 0 0 c && d.leafUsed c)

/-- A node or its parent is gated. -/
def Dev.nodeGated (d : Dev) (n : Nat) : Bool :=
  !d.on O.clockGate 0 0 n || (match gateParent n with
    | some p => !d.on O.clockGate 0 0 p
    | none => false)

/-- A committed Clock.Gate takes effect: a PLL node that closes stops its PLL, and one that opens lets it lock. -/
def Dev.gateChanged (d : Dev) (node : Nat) : Dev :=
  match gatePll node with
  | none => d
  | some i => if d.on O.clockGate 0 0 node then d.pllsStart else d.setPll i 0

/-- A committed Clock.XbEnable. -/
def Dev.xbChanged (d : Dev) : Dev :=
  if d.on O.clockXbEnable then (if d.src 3 = 0 then d.setSrc 3 1 else d) else d.setSrc 3 0

/-- Clock.SysRef in force (R251). -/
def Dev.sysRefNamed (d : Dev) : Nat := ((SMap.find d.inForce (O.clockSysRef.key 0 0 0)).getD (.num 0)).nat

/-- The sources that Clock.SysRef and Clock.TimeRef name are STABLE (R359). -/
def Dev.revertOk (d : Dev) : Bool := d.src (2 + d.sysRefNamed) == 2 && d.src (2 + d.nat O.clockTimeRef) == 2

/-- A committed Clock.Revert (R359). -/
def Dev.clockReverted (d : Dev) : Dev := (d.setNat O.clockSysRefInUse d.sysRefNamed).setNat O.clockTimeRefInUse (d.nat O.clockTimeRef)

/-- A committed Clock.FabPll.Enable. -/
def Dev.fabPllChanged (d : Dev) (f k : Nat) : Dev := d.setNat O.clockFabPllStatus (if d.on O.clockFabPllEnable f 0 k then 1 else 0) f 0 k

/-- A fabric PLL may not be disabled: it drives a spine line of a USED quadrant, or an enabled higher-numbered PLL of its die takes its
output (R356). -/
def Dev.fabPllBusy (d : Dev) (f k : Nat) : Bool :=
  (match d.boot.cfg with
   | some c => c.spines.any (fun s => s.region.val / 144 == f && bitOf (d.nat O.fabricQuadrantUsed) (usedBit s.region) && (match s.src with
      | .pll j _ => j.val == k
      | _ => false))
   | none => false) ||
  d.fab.plls.any (fun p => p.die.val == f && (match p.ref with
    | .pll r => r.val == k && k < p.pll.val && d.on O.clockFabPllEnable f 0 p.pll.val
    | _ => false))

/-- SOURCE_STABLE. -/
def execSourceStable (dt : Nat) (src : Fin 5) (fuses : Option (List (Nat × Nat × List Byte))) (s : State) :
    Host.Outcome State Fault Refusal :=
  run s dt (sourceStableEffect src fuses)

/-- CLOCK_MISSING. -/
def execClockMissing (dt : Nat) (src : Fin 5) (s : State) : Host.Outcome State Fault Refusal := run s dt (clockMissingEffect src)

/-- CLOCK_RETURN. -/
def execClockReturn (dt : Nat) (src : Fin 5) (s : State) : Host.Outcome State Fault Refusal := run s dt (clockReturnEffect src)

/-- PLL_LOSS_OF_LOCK. -/
def execPllLossOfLock (dt : Nat) (pll : Sum (Fin 11) (Sum (Fin 8 × Fin 16) (Fin 36 × Fin 2))) (s : State) :
    Host.Outcome State Fault Refusal :=
  run s dt (pllLossEffect pll)

/-- PLL_LOCK. -/
def execPllLock (dt : Nat) (pll : Sum (Fin 11) (Sum (Fin 8 × Fin 16) (Fin 36 × Fin 2))) (s : State) : Host.Outcome State Fault Refusal :=
  run s dt (pllLockEffect pll)

/-- PLL_HOLDOVER_EXPIRY. -/
def execPllHoldoverExpiry (dt : Nat) (pll : Sum (Fin 11) (Fin 36 × Fin 2)) (mode : Fin 8) (s : State) : Host.Outcome State Fault Refusal :=
  run s dt (pllHoldoverEffect pll mode)

/-- PLL_LOCK_TIMEOUT. -/
def execPllLockTimeout (dt : Nat) (s : State) : Host.Outcome State Fault Refusal := run s dt pllLockTimeoutEffect

end Sys2Proof.Machine
end

