-- ==== Sys2Proof/Machine/Network.lean ====
section
/-! DEFINITION. Network interfaces, posted-error queues and the cores (R314, R322 to R324, R329 to R331). -/

set_option Elab.async false

namespace Sys2Proof.Machine

/-- The core whose interface a number names (R314). -/
def niCore (ni : Nat) : Option Nat :=
  if ni % 4 != 0 then none else if ni < 32 then some (ni / 4) else if 576 ≤ ni && ni < 608 then some (8 + (ni - 576) / 4) else none

/-- The interface of a core. -/
def coreNi (c : Nat) : Nat := if c < 8 then 4 * c else 576 + 4 * (c - 8)

/-- The fabric die whose interface a number names: port 0 of the routers of rows 1 to 8 (R312, R314). -/
def niFabric (ni : Nat) : Option Nat :=
  if ni % 4 = 0 && 64 ≤ ni && ni < 576 then
    let row := ni / 64
    let col := ni % 64 / 4
    some ((if row < 5 then 0 else 4) + col / 4)
  else none

/-- The interface is in use (table "Network interface attachments"). -/
def niUsed (ni : Nat) : Bool :=
  let row := ni / 64
  let col := ni % 64 / 4
  let p := ni % 4
  if row = 0 then (p == 0 && col ≤ 12) || (p == 1 && (col < 4 || col == 8 || col == 9 || col == 12))
  else if row = 9 then (p == 0 && col ≤ 9) || (p == 1 && (col < 4 || col == 8 || col == 9))
  else row < 9 && (p == 0 || ((p == 1 || p == 2) && (col == 0 || col == 15)))

/-- What an interface holds. -/
def Dev.ni (d : Dev) (n : Nat) : NiAux := SMap.getD d.nis n {}

/-- Set it. -/
def Dev.setNi (d : Dev) (n : Nat) (x : NiAux) : Dev := { d with nis := SMap.setD d.nis n {} x }

/-- Records queued: TAIL − HEAD mod 128 (R331). -/
def NiAux.length (x : NiAux) : Nat := (x.tail + 128 - x.head) % 128

/-- The queued records, oldest first. -/
def NiAux.records (x : NiAux) : List (List Byte) :=
  (upTo (min 64 x.length)).map (fun i => SMap.getD x.slots ((x.head + i) % 64) (zeros 32))

/-- ekip of a core: bit 33 says that the posted-error queue is not empty (R331). -/
def Dev.ekip (d : Dev) (c : Nat) : Nat :=
  let x := d.ni (coreNi c)
  (d.core c).ekip + (if x.head = x.tail then 0 else 2 ^ 33)

/-- A request times out at its initiator: a bus error, and its tag may still be answered (R322). -/
def nocTimeoutEffect (n tag : Nat) (d : Dev) : Dev :=
  d.when (niUsed n) (fun d =>
    let d := d.inc O.noCTimeouts
    let x := d.ni n
    (d.setNi n { x with late := x.late ++ [tag] }).send (.noc n false []))

/-- The age clock: a count of every 40 ticks (R319). -/
def Dev.ageClock (d : Dev) : Nat := d.count / 40

/-- Age of a flit, in 10 ns (R319). -/
def Dev.flitAge (d : Dev) (birth : Nat) : Nat := (d.ageClock + 2 ^ 16 - birth % 2 ^ 16) % 2 ^ 16

/-- A response arrives, its flits ejected at their age: it completes its request, or comes too late and is discarded (R321, R322). -/
def nocResponseEffect (n tag : Nat) (ok : Bool) (birth : Nat) (d : Dev) : Dev :=
  d.when (niUsed n) (fun d =>
    let d := d.peak O.noCMaxWait (d.flitAge birth)
    let x := d.ni n
    if x.late.contains tag then (d.setNi n { x with late := x.late.erase tag }).inc O.noCLateResponses
    else d.send (.noc n ok []))

/-- A posted-error record reaches its initiator (R323, R324): the Host endpoint drains its own into Dictionary.WindowErrors; a read
that frees an entry in the same cycle is served first; a full queue discards the record. -/
def postedErrorEffect (n : Nat) (record : List Byte) (freed : Bool) (d : Dev) : Dev :=
  d.when (niUsed n) (fun d =>
    if n = niHost then d.inc O.dictionaryWindowErrors
    else
      let x := d.ni n
      let x := if freed && x.head != x.tail then { x with head := (x.head + 1) % 128 } else x
      if x.length = 64 then
        let d := (d.setNi n { x with overflows := x.overflows + 1 }).occur 1499
        match niCore n with
        | some c => d.inc O.coreOverflows c
        | none => d
      else
        let d := d.setNi n { x with tail := (x.tail + 1) % 128, queued := x.queued + 1, slots := SMap.ins x.slots (x.tail % 64) (fit 32 record) }
        match niCore n with
        | some c => d.inc O.corePostedErrors c
        | none => d)

/-- A FLUSH completes: every posted write before it has been performed or refused (R324). -/
def flushReqEffect (n target : Nat) (d : Dev) : Dev := d.when (niUsed n && niUsed target) (fun d => d.send (.noc n true []))

/-- A write of ekic: the bits written 1 clear, but a line whose occurrence falls in the same cycle stays pending (R331). Bit 33 follows
the queue. -/
def ekicEffect (c bits : Nat) (arriving : List (Fin 32)) (d : Dev) : Dev :=
  let x := d.core c
  let left := (upTo 33).foldl (fun n i => if bitOf x.ekip i && !bitOf bits i then n + 2 ^ i else n) 0
  let d := d.setCore c { x with ekip := left }
  arriving.foldl (fun (d : Dev) (l : Fin 32) => d.raiseLine c l.val) d

/-- A write of ekeq: HEAD (R331). -/
def ekeqEffect (c value : Nat) (d : Dev) : Dev :=
  let n := coreNi c
  d.setNi n { d.ni n with head := value % 128 }

/-- A committed Core.Control (R329): RUN releases a core that is in reset, 0 holds it in reset. A core whose domain is off stays OFF. -/
def Dev.coreControlled (d : Dev) (c v : Nat) : Dev :=
  let st := d.nat O.coreState c
  if c < 4 || st = 4 || d.nat O.powerDomainState 0 0 59 != 1 && st = 0 then d
  else if v = 1 then (if st = 1 then d.setNat O.coreState 2 c else d)
  else d.setNat O.coreState 1 c

/-- NOC_TIMEOUT. -/
def execNocTimeout (dt : Nat) (ni : Fin 640) (tag : Fin 4096) (s : State) : Host.Outcome State Fault Refusal := run s dt (nocTimeoutEffect ni tag)

/-- NOC_RESPONSE. -/
def execNocResponse (dt : Nat) (ni : Fin 640) (tag : Fin 4096) (fin : NocEnd) (s : State) : Host.Outcome State Fault Refusal :=
  run s dt (nocResponseEffect ni tag fin.ok fin.birth)

/-- POSTED_ERROR. -/
def execPostedError (dt : Nat) (ni : Fin 640) (record : List Byte) (freed : Bool) (s : State) : Host.Outcome State Fault Refusal :=
  run s dt (postedErrorEffect ni record freed)

/-- FLUSH. -/
def execFlush (dt : Nat) (ni target : Fin 640) (s : State) : Host.Outcome State Fault Refusal := run s dt (flushReqEffect ni target)

/-- EKIC_WRITE. -/
def execEkicWrite (dt : Nat) (c : Fin 16) (bits : Nat) (arriving : List (Fin 32)) (s : State) : Host.Outcome State Fault Refusal :=
  run s dt (ekicEffect c bits arriving)

/-- EKEQ_WRITE. -/
def execEkeqWrite (dt : Nat) (c : Fin 16) (value : Nat) (s : State) : Host.Outcome State Fault Refusal := run s dt (ekeqEffect c value)

end Sys2Proof.Machine
end

