-- ==== Sys2Proof/Machine/Fabric.lean ====
section
/-! DEFINITION. The fabric's interfaces, RAM blocks and banks (R338 to R347, R349). -/

set_option Elab.async false

namespace Sys2Proof.Machine

/-- One cycle of EVT[j] high is one occurrence of its event (R347). -/
def fabricEventEffect (f j : Nat) (d : Dev) : Dev := d.when d.fabricRuns (fun d => d.occur (1152 + 32 * f + j))

/-- A user mark request: at most one in 8 ns of each die (R347). -/
def markRequestEffect (f set value : Nat) (d : Dev) : Dev :=
  let free := match SMap.find d.fab.markNs f with
    | some t => decide (t + 8 ≤ d.ns)
    | none => true
  d.when (d.fabricRuns && free) (fun d =>
    let d := { d with fab := { d.fab with markNs := SMap.ins d.fab.markNs f d.ns } }
    (d.inc O.fabricMarkRequests).captureMark set d.count (value % 2 ^ 64) 0xFFFF 7 true)

/-- PE_POP removes the head of a fabric interface's queue (R347). -/
def pePopEffect (n : Nat) (d : Dev) : Dev :=
  match niFabric n with
  | none => d
  | some f =>
    let x := d.ni n
    d.when (d.fabricRuns && x.head != x.tail) (fun d =>
      (d.setNi n { x with head := (x.head + 1) % 128 }).send (.fabric f (SMap.getD x.slots (x.head % 64) (zeros 32))))

/-! RAM blocks (R339 to R341). -/

/-- How one port's access ends: its data, ERR, the cycles READY is low, and the word it leaves. -/
structure PortEnd where
  data : List Byte := []
  err : Bool := false
  wait : Nat := 0
  word : Option SramWord := none
deriving DecidableEq, Repr

/-- One port accesses a word: reads of a word whose valid bit is clear give zero, uncorrectable reads zero with ERR; a narrow write of a
valid word is a read-modify-write of 2 more cycles, refused with ERR when its read is uncorrectable (R184, R339, R340). -/
def ramPort (x : SramWord) (acc : RamAcc) (f : SramFind) : PortEnd :=
  let r := x.look 64 f
  let old := leBytes 8 r.2
  let bad := x.valid && r.1 == .uncorrectable
  match acc.wdata with
  | none => { data := if !x.valid || bad then zeros acc.size else slice old acc.off acc.size, err := bad }
  | some l =>
    if 8 ≤ acc.size then { word := some (SramWord.of (leNat (fit 8 l))) }
    else if bad then { err := true, wait := 2 }
    else
      let base := if x.valid then old else zeros 8
      let new := base.take acc.off ++ fit acc.size l ++ base.drop (acc.off + acc.size)
      { word := some (SramWord.of (leNat (fit 8 new))), wait := if x.valid then 2 else 0 }

/-- The access reads its word: ECC may find something there. -/
def ramReads (x : SramWord) (acc : RamAcc) : Bool := x.valid && (acc.wdata.isNone || acc.size < 8)

/-- What one port's access records. -/
def Dev.ramSeen (d : Dev) (inst : Nat) (x : SramWord) (acc : RamAcc) (f : SramFind) : Dev :=
  if ramReads x acc then d.sramSeen inst (x.look 64 f).1 else d

/-- The ports of a RAM block are used in one cycle (table "Port collisions"). A read against a write on another clock returns the old or the
new word: an open choice. -/
def ramEffect (blk : Nat) (a b : Option RamAcc) (sameClock : Bool) (fa fb : SramFind) (d : Dev) : Dev :=
  d.when (d.fabricRuns && blk < 36864) (fun d =>
    let inst := ramInstance blk
    let vote := fun (x : Option RamAcc) (f : SramFind) (d : Dev) => match x with
      | some r => d.sramVote inst r.word f
      | none => ({}, d)
    let va := vote a fa d
    let vb := vote b fb va.2
    let xa := va.1
    let xb := vb.1
    let d := vb.2
    let hit := match a, b with
      | some r, some s => r.word == s.word
      | _, _ => false
    let wa := a.any (fun r => r.wdata.isSome)
    let wb := b.any (fun r => r.wdata.isSome)
    let ea := match a with
      | some r => ramPort xa r fa
      | none => {}
    let eb := match b with
      | some r => if hit && wa && wb then { err := true } else ramPort xb r fb
      | none => {}
    let open_ := hit && !sameClock && wa != wb
    let new := open_ && d.draw % 2 == 1
    let reread := fun (e : PortEnd) (r : Option RamAcc) (w : Option SramWord) => match r, w with
      | some r, some x => if new && r.wdata.isNone then { e with data := slice (leBytes 8 x.data) r.off r.size, err := false } else e
      | _, _ => e
    let ea' := reread ea a eb.word
    let eb' := reread eb b ea.word
    let d := if open_ then d.drawn else d
    let d := match a with
      | some r => d.ramSeen inst xa r fa
      | none => d
    let d := match b with
      | some r => if hit && wa && wb then d else d.ramSeen inst xb r fb
      | none => d
    let put := fun (d : Dev) (r : Option RamAcc) (w : Option SramWord) => match r, w with
      | some r, some x => d.setSram inst r.word x
      | _, _ => d
    let d := put (put d b eb.word) a ea.word
    let out : RamOut := { dataA := ea'.data, errA := ea'.err, waitA := ea'.wait, dataB := eb'.data, errB := eb'.err, waitB := eb'.wait }
    { d with fab := { d.fab with rams := SMap.setD d.fab.rams blk {} out } })

/-! Banks (R344, R346). -/

/-- Declared VCCIO of a bank standard, in mV. -/
def bankMv (std : Nat) : Nat :=
  match std with
  | 1 => 1200 | 2 => 1500 | 3 => 1800 | 4 => 2500 | 5 => 3300 | _ => 0

/-- The supply is within 5 % of its declared value. -/
def bankGood (std mv : Nat) : Bool := 95 * bankMv std ≤ 100 * mv && 100 * mv ≤ 105 * bankMv std

/-- VCCIOb is measured: 100 µs outside its range put the bank out of range, and 1 ms inside brings its outputs back (R346). A bank declared
unused stays unpowered (log entry 47). -/
def bankEffect (b mv : Nat) (d : Dev) : Dev :=
  let std := d.nat O.fabricBankStandard 0 0 b
  let st := d.nat O.fabricBankStatus 0 0 b
  let d := d.setNat O.fabricBankVoltage (min mv 65535) 0 0 b
  if std = 0 then d
  else if bankGood std mv then
    let t := SMap.getD d.fab.bankIn b d.ns
    let d := { d with fab := { d.fab with bankIn := SMap.ins d.fab.bankIn b t, bankOut := SMap.del d.fab.bankOut b } }
    if st = 0 || (st = 2 && t + 1000000 ≤ d.ns) then d.setNat O.fabricBankStatus 1 0 0 b else d
  else
    let t := SMap.getD d.fab.bankOut b d.ns
    let d := { d with fab := { d.fab with bankOut := SMap.ins d.fab.bankOut b t, bankIn := SMap.del d.fab.bankIn b } }
    if st != 2 && t + 100000 ≤ d.ns then (d.setNat O.fabricBankStatus 2 0 0 b).occur 1501 else d

/-! User objects' shadows (R349). -/

/-- The exported logic acknowledges a staged value in its shadow. -/
def shadowAckEffect (index sub : Nat) (d : Dev) : Dev :=
  let k := index * 256 + sub
  d.when ((SMap.find d.fab.shadows k).isSome && d.fabricRuns) (fun d =>
    { d with fab := { d.fab with shadows := SMap.ins d.fab.shadows k true } })

/-- FABRIC_EVENT. -/
def execFabricEvent (dt : Nat) (f : Fin 8) (j : Fin 32) (s : State) : Host.Outcome State Fault Refusal := run s dt (fabricEventEffect f j)

/-- USER_MARK_REQUEST. -/
def execUserMarkRequest (dt : Nat) (f : Fin 8) (set : Fin 16) (value : Nat) (s : State) : Host.Outcome State Fault Refusal :=
  run s dt (markRequestEffect f set value)

/-- PE_POP. -/
def execPePop (dt : Nat) (ni : Fin 640) (s : State) : Host.Outcome State Fault Refusal := run s dt (pePopEffect ni)

/-- RAM_PORT_ACCESS. -/
def execRamPortAccess (dt : Nat) (blk : Nat) (a b : Option RamAcc) (sameClock : Bool) (finds : PortFinds) (s : State) :
    Host.Outcome State Fault Refusal :=
  run s dt (ramEffect blk a b sameClock finds.fa finds.fb)

/-- BANK_VOLTAGE_SAMPLE. -/
def execBankVoltageSample (dt : Nat) (b : Fin 8) (mv : Nat) (s : State) : Host.Outcome State Fault Refusal := run s dt (bankEffect b mv)

/-- FABRIC_SHADOW_ACK. -/
def execFabricShadowAck (dt : Nat) (index sub : Nat) (s : State) : Host.Outcome State Fault Refusal := run s dt (shadowAckEffect index sub)

end Sys2Proof.Machine
end

