-- ==== Sys2Proof/Machine/Duaxis.lean ====
section
/-! DEFINITION. Duaxis links: frame errors, training and repairs (R389 to R400). Edges are numbered by R439; a bundle of a
direction has the key edge·128 + direction·64 + bundle. -/

set_option Elab.async false

namespace Sys2Proof.Machine

/-- Bundles of a link of an edge (table "Duaxis edge budget"). -/
def edgeBundles (edge : Nat) : Nat := if edge < 8 then 32 else 64

/-- The edge has a control allocation. -/
def edgeControl (edge : Nat) : Bool := edge < 8 || 14 ≤ edge

/-- What a bundle holds. -/
def Dev.bundle (d : Dev) (key : Nat) : Bundle := SMap.getD d.bundles key {}

/-- Set it. -/
def Dev.setBundle (d : Dev) (key : Nat) (x : Bundle) : Dev := { d with bundles := SMap.setD d.bundles key {} x }

/-- Wires of a bundle marked SUSPECT in the Keep. -/
def Dev.suspects (d : Dev) (key : Nat) : Nat := SMap.getD d.diag.suspect key 0

/-- A wire becomes SUSPECT (R397). -/
def Dev.suspect (d : Dev) (key w : Nat) : Dev :=
  let m := d.suspects key
  if bitOf m w then d
  else ({ d with diag := { d.diag with suspect := SMap.setD d.diag.suspect key 0 (Nat.lor m (2 ^ w)) } }).writeArea 25600 key

/-- A frame with errors (table "Duaxis frame errors"): an error confined to one wire is corrected and counts towards its SUSPECT mark; any
other is replayed on the NoC allocation and, when both copies fail, on the control allocation, or marked with XERR. -/
def frameErrorEffect (edge dir b : Nat) (wire : Option (Fin 34)) (both : Bool) (d : Dev) : Dev :=
  d.when (b < edgeBundles edge && (d.bundle (bundleKey edge dir b)).state != 3 && d.boot.links) (fun d =>
    let k := bundleKey edge dir b
    let x := d.bundle k
    match wire with
    | some w =>
      let times := x.times.filter (fun e => decide (d.ns < e.2 + 1000000000)) ++ [(w.val, d.ns)]
      let d := d.setBundle k { x with corrected := x.corrected + 1, times := times }
      if 16 < (times.filter (fun e => e.1 == w.val)).length then d.suspect k w else d
    | none =>
      let x := { x with uncorrectable := x.uncorrectable + 1 }
      if b < 12 then d.setBundle k { x with replays := x.replays + 1 }
      else if edgeControl edge && b < 14 then
        if both then (d.setBundle k { x with replays := x.replays + 1 }).occur 1503 else d.setBundle k x
      else ((d.setBundle k { x with xerr := x.xerr + 1 }).crossError edge dir b).occur 1503)

/-- A wire, by its edge, direction, bundle and number. -/
abbrev WireName := Fin 18 × Fin 2 × Fin 64 × Fin 34

/-- Key of the bundle of a wire. -/
def wireBundle (w : WireName) : Nat := bundleKey w.1 w.2.1 w.2.2.1

/-- Training of one bundle (R398): the fuse repair, then a soft repair onto the spare, which is wire 33 and must be free and good. Wires 0 to 31
carry data, wire 32 the clock. -/
def Dev.trainBundle (d : Dev) (errs fuses : List WireName) (key : Nat) : Dev :=
  let fuse := (fuses.filter (fun w => wireBundle w == key && w.2.2.2.val < 33)).map (fun w => w.2.2.2.val)
  let bad := (upTo 34).filter (fun w => errs.any (fun e => wireBundle e == key && e.2.2.2.val == w) || bitOf (d.suspects key) w)
  let x := d.bundle key
  match fuse.head? with
  | some r =>
    if bad.all (fun w => w == r) then d.setBundle key { x with repair := r + 1, state := 1 }
    else (d.setBundle key { x with repair := r + 1, state := 3 }).occur 1503
  | none =>
    match bad with
    | [] => d.setBundle key { x with repair := 0, state := 0 }
    | [w] =>
      if w = 33 then (d.setBundle key { x with repair := 0, state := 0 })
      else (d.setBundle key { x with repair := w + 1, state := 2 }).occur 1503
    | _ => (d.setBundle key { x with repair := 0, state := 3 }).occur 1503

/-- Enough bundles work on each link of an edge (R399). -/
def Dev.edgeWorks (d : Dev) (edge : Nat) : Bool :=
  (upTo 2).all (fun dir =>
    11 ≤ d.bundlesUp edge dir 0 11 && (!edgeControl edge || 1 ≤ d.bundlesUp edge dir 12 13))

/-- REPAIRS of a die's identity word equals the repair fields of its edges that are not 0 (R400). One field stands for each bundle of each
direction. -/
def Dev.repairsAgree (d : Dev) (fuses : List WireName) (die : Nat) : Bool :=
  let mine := fuses.filter (fun w => (edgeDies w.1).1 == die || (edgeDies w.1).2 == die)
  fieldAt (d.octs O.diagDieIdentity 0 0 die) 10 2 == (mine.map wireBundle).eraseDups.length

/-- The full-rate phase ends (R398, R399): step 5 of the boot is complete once every link works, or fault FUSE. -/
def duaxisTrainingEffect (errs fuses : List WireName) (d : Dev) : Dev :=
  d.when (!d.boot.links && d.boot.fuses && d.pll 2 == 2 && d.pll 3 == 2 && d.nat O.configState == 0) (fun d =>
    let d := (upTo 18).foldl (fun d edge => (upTo 2).foldl (fun d dir => (upTo (edgeBundles edge)).foldl (fun d b =>
      d.trainBundle errs fuses (bundleKey edge dir b)) d) d) d
    if (upTo 18).all d.edgeWorks && (upTo 10).all (d.repairsAgree fuses) then
      ({ d with boot := { d.boot with links := true } }).bootGo
    else d.bootFault 15)

/-- Diag.DuaxisSelect as a bundle key. -/
def Dev.selectedBundle (d : Dev) : Nat :=
  let v := d.nat O.diagDuaxisSelect
  bundleKey (bitsOf v 12 8) (bitsOf v 6 6) (bitsOf v 5 0)

/-- Diag.DuaxisSelect names a bundle of its edge (R439). -/
def duaxisSelectOk (v : Nat) : Bool := bitsOf v 12 8 < 18 && bitsOf v 5 0 < edgeBundles (bitsOf v 12 8)

/-- Diag.DuaxisClearSuspect clears the marks of the bundle in the Keep (R439). -/
def Dev.clearSuspects (d : Dev) (key : Nat) : Dev :=
  if d.suspects key = 0 then d
  else ({ d with diag := { d.diag with suspect := SMap.del d.diag.suspect key } }).writeArea 25600 key

/-- DUAXIS_FRAME_ERROR. -/
def execDuaxisFrameError (dt : Nat) (edge : Fin 18) (dir : Fin 2) (bundle : Fin 64) (wire : Option (Fin 34)) (bothCopies : Bool) (s : State) :
    Host.Outcome State Fault Refusal :=
  run s dt (frameErrorEffect edge dir bundle wire bothCopies)

/-- DUAXIS_TRAINING. -/
def execDuaxisTraining (dt : Nat) (errs fuseRepairs : List (Fin 18 × Fin 2 × Fin 64 × Fin 34)) (s : State) :
    Host.Outcome State Fault Refusal :=
  run s dt (duaxisTrainingEffect errs fuseRepairs)

end Sys2Proof.Machine
end

