-- ==== Sys2Proof/Machine/Ageing.lean ====
section
/-! DEFINITION. What ages: powered time, junction averages, required voltages, the weekly history, the projection and the states
of the dies (R423 to R427). Dies are numbered 0 to 7 F0 to F7, 8 ION, 9 IOS. -/

set_option Elab.async false

namespace Sys2Proof.Machine

/-- What a die has gathered. -/
def Dev.age (d : Dev) (x : Nat) : DieAge := SMap.getD d.power.ages x {}

/-- Set it. -/
def Dev.setAge (d : Dev) (x : Nat) (a : DieAge) : Dev := { d with power := { d.power with ages := SMap.setD d.power.ages x {} a } }

/-- L of a die, in mV (R426). -/
def lifeLimit (x : Nat) : Nat := if x < 8 then 790 else 740

/-- A quotient whose rounding the spec leaves open: one of the two whole numbers around it (log entry 49). -/
def Dev.openDiv (d : Dev) (n : Int) (k : Nat) : Int × Dev :=
  if n % (k : Int) = 0 then (n / (k : Int), d) else (n / (k : Int) + ((d.draw % 2 : Nat) : Int), d.drawn)

/-- The state of a die (R427): 2 REPLACE, 1 PLAN, 0 NORMAL. -/
def Dev.lifeState (d : Dev) (x : Nat) : Nat :=
  if lifeLimit x < d.nat O.ageingRequiredVoltage 0 0 x || bitOf (d.nat O.selfTestPermanentDies) x then 2
  else if d.nat O.ageingProjectedLife 0 0 x < d.nat O.ageingPlanHorizon ||
    (950 < d.int O.ageingAvgJunction 0 0 x && 31557600 ≤ d.nat O.ageingPoweredSeconds) then 1
  else 0

/-- The states of the dies and their worst; entry to REPLACE raises EV1503 (R427). -/
def Dev.lifeStates (d : Dev) : Dev :=
  let d := (upTo 10).foldl (fun d x =>
    let s := d.lifeState x
    let old := d.nat O.ageingDieState 0 0 x
    let d := d.setNat O.ageingDieState s 0 0 x
    if s = 2 && old != 2 then d.occur 1503 else d) d
  d.setNat O.ageingState ((upTo 10).foldl (fun m x => max m (d.nat O.ageingDieState 0 0 x)) 0)

/-- One second of powered time (R423, R424, log entry 61). -/
def ageingSampleEffect (d : Dev) : Dev :=
  let d := d.inc O.ageingPoweredSeconds
  let d := (upTo 10).foldl (fun d x =>
    let t := d.int O.thermalDieMax 0 0 x
    let a := d.age x
    let a := { a with tempSum := a.tempSum + t, temps := a.temps + 1, hottest := max a.hottest t }
    let m := d.openDiv a.tempSum a.temps
    (m.2.setInt O.ageingAvgJunction m.1 0 0 x).setAge x a) d
  d.lifeStates

/-- The margin monitors are read: the required voltage of a die is the highest among its monitors (R425). -/
def marginEffect (l : List (Fin 10 × Fin 9 × Nat)) (d : Dev) : Dev :=
  let d := (upTo 10).foldl (fun d x =>
    let mine := l.filter (fun e => e.1.val == x && (x < 8 || e.2.1.val < 4))
    if mine.isEmpty then d
    else
      let v := min 65535 (mine.foldl (fun m e => max m e.2.2) 0)
      let a := d.age x
      (d.setNat O.ageingRequiredVoltage v 0 0 x).setAge x { a with reqSum := a.reqSum + v, reqs := a.reqs + 1 }) d
  d.lifeStates

/-- The projection of a die in whole hours (R426), from the sum of its last four weekly voltages. With A four times the headroom L − V0 and B four times dv,
t_end / t is (A / B) to the fourth power. -/
def Dev.projected (d : Dev) (x : Nat) (weeks : List Nat) : Nat × Dev :=
  let v0 : Int := d.nat O.ageingBaseVoltage 0 0 x
  let b : Int := (sumBy (fun n => n) (newest 4 weeks) : Nat) - 4 * v0
  if weeks.length < 4 || b ≤ 0 then (0xFFFFFFFF, d)
  else
    let a : Int := 4 * (lifeLimit x - v0)
    let n : Int := d.nat O.ageingPoweredSeconds * (a ^ 4 - b ^ 4)
    if n ≤ 0 then (0, d)
    else
      let h := d.openDiv n (3600 * b.toNat ^ 4)
      (min h.1.toNat 0xFFFFFFFF, h.2)

/-- A week of powered time ends: one entry per die, its projection, and the states (R425 to R427). -/
def weeklyEffect (d : Dev) : Dev :=
  let secs := d.nat O.ageingPoweredSeconds
  d.when ((upTo 10).all (fun x => ((d.age x).weeks.length + 1) * 604800 ≤ secs)) (fun d =>
    let d := (upTo 10).foldl (fun d x =>
      let a := d.age x
      let m : Int × Dev := if a.reqs = 0 then ((d.draw % 65536 : Nat), d.drawn) else d.openDiv a.reqSum a.reqs
      let d := m.2
      let v := m.1.toNat
      let entry := leBytes 4 (secs / 3600) ++ leBytes 1 x ++ zeros 1 ++ leBytes 2 v ++
        leBytes 2 (unsigned 16 (d.int O.ageingAvgJunction 0 0 x)) ++ leBytes 2 (unsigned 16 a.hottest) ++ leBytes 4 a.fails
      let weeks := a.weeks ++ [v]
      let d := d.setAge x { a with weeks := weeks, reqSum := 0, reqs := 0, hottest := -32768, fails := 0 }
      let d := { d with power := { d.power with history := d.power.history ++ [entry] } }
      let p := d.projected x weeks
      p.2.setNat O.ageingProjectedLife p.1 0 0 x) d
    (d.writeArea 21504 (O.ageingProjectedLife.key 0 0 0)).lifeStates)

/-- Powered time and the accumulators are written to the Keep, every hour (R423, R424). -/
def poweredTimeEffect (d : Dev) : Dev :=
  d.when (!d.keepHeld) (fun d =>
    let keys := O.ageingPoweredSeconds.key 0 0 0 :: (upTo 10).map (O.ageingAvgJunction.key 0 0)
    let vals := keys.foldl (fun m k => match SMap.find d.objs k with
      | some v => SMap.ins m k v
      | none => SMap.del m k) d.diag.vals
    ({ d with diag := { d.diag with vals := vals, ages := d.power.ages } }).writeArea 21504 (O.ageingPoweredSeconds.key 0 0 0))

/-- AGEING_SAMPLE. -/
def execAgeingSample (dt : Nat) (s : State) : Host.Outcome State Fault Refusal := run s dt ageingSampleEffect

/-- MARGIN_MEASURE. -/
def execMarginMeasure (dt : Nat) (monitors : List (Fin 10 × Fin 9 × Nat)) (s : State) : Host.Outcome State Fault Refusal :=
  run s dt (marginEffect monitors)

/-- WEEKLY_HISTORY. -/
def execWeeklyHistory (dt : Nat) (s : State) : Host.Outcome State Fault Refusal := run s dt weeklyEffect

/-- POWERED_TIME_PERSIST. -/
def execPoweredTimePersist (dt : Nat) (s : State) : Host.Outcome State Fault Refusal := run s dt poweredTimeEffect

end Sys2Proof.Machine
end

