-- ==== Sys2Proof/Machine/Routing.lean ====
section
/-! DEFINITION. The network's routers: where they lie, routes, forwarding, arbitration and latency (R311 to R321). Flits under way are not held: what
becomes of a request is reported by its command (log entry 90). -/

set_option Elab.async false

namespace Sys2Proof.Machine

/-- Column of a router, west to east (R312). -/
def routerCol (r : Nat) : Nat := r % 16

/-- Row of a router, north to south (R312). -/
def routerRow (r : Nat) : Nat := r / 16

/-- The die of a router: 8 ION, 9 IOS, else the fabric die (R312). -/
def routerDie (r : Nat) : Nat :=
  if routerRow r = 0 then 8 else if routerRow r = 9 then 9 else (if routerRow r < 5 then 0 else 4) + routerCol r / 4

/-- The router of a network interface (R314). -/
def niRouter (ni : Nat) : Nat := ni / 4

/-- Hops along a row: 2 EAST, 4 WEST. -/
def rowHops (src dst : Nat) : List Nat :=
  if routerCol src ≤ routerCol dst then List.replicate (routerCol dst - routerCol src) 2 else List.replicate (routerCol src - routerCol dst) 4

/-- Hops along a column: 1 NORTH, 3 SOUTH. -/
def colHops (src dst : Nat) : List Nat :=
  if routerRow src ≤ routerRow dst then List.replicate (routerRow dst - routerRow src) 3 else List.replicate (routerRow src - routerRow dst) 1

/-- The hops of a route: order 0 XY runs along the row first, 1 YX along the column first (R318). -/
def routeHops (order src dst : Nat) : List Nat :=
  if order = 0 then rowHops src dst ++ colHops src dst else colHops src dst ++ rowHops src dst

/-- The virtual channel of an order (R318). -/
def routeChannel (order : Nat) : Nat := if order = 0 then 0 else 1

/-- NoC.RouteOrder of a router as the route tables were built with it at reset (R251, R318). -/
def Dev.routeOrder (d : Dev) (r : Nat) : Nat :=
  ((SMap.find d.inForce (O.noCRouteOrder.key (r / 128) 0 (r % 128))).getD (O.noCRouteOrder.default (r / 128) 0 (r % 128))).nat

/-- The entry of an interface's route table for a destination router. -/
def Dev.route (d : Dev) (ni dst : Nat) : List Nat := routeHops (d.routeOrder dst) (niRouter ni) dst

/-- ROUTE of a header: 24 hops of 3 bits, hop 0 lowest; EJECT (0) after the last (R315). -/
def routeField (hops : List Nat) : Nat := ((upTo 24).map (fun i => hops.getD i 0 * 2 ^ (3 * i))).foldl (fun m n => m + n) 0

/-- A flit header (R315). -/
structure FlitHeader where
  route : Nat
  hop : Nat := 0
  cls : Nat
  origin : Nat
  srcNi : Nat
  dstPort : Nat
  tag : Nat
  birth : Nat
  op : Nat
deriving DecidableEq, Repr

/-- Its 128 bits (R315). -/
def FlitHeader.bits (h : FlitHeader) : Nat :=
  h.op + 2 ^ 4 * h.birth + 2 ^ 20 * h.tag + 2 ^ 32 * h.dstPort + 2 ^ 34 * h.srcNi + 2 ^ 44 * h.origin + 2 ^ 48 * h.cls + 2 ^ 51 * h.hop + 2 ^ 56 * h.route

/-- The address flit of a request (R316): the hint of R170 is absent where the predictor decides. -/
structure AddressFlit where
  streamEnd : Bool := false
  stream : Bool := false
  close : Option Bool := none
  bytes : Nat
  address : Nat
deriving DecidableEq, Repr

/-- Its 128 bits (R316). -/
def AddressFlit.bits (f : AddressFlit) : Nat :=
  f.address % 2 ^ 44 + 2 ^ 92 * (f.bytes % 2 ^ 13) + (if f.close.isSome then 2 ^ 105 else 0) + (if f.close = some true then 2 ^ 106 else 0) +
  (if f.stream then 2 ^ 107 else 0) + (if f.streamEnd then 2 ^ 108 else 0)

/-- A request of more than 4,096 bytes is split by its interface (R316). The fuel bounds the parts. -/
def splitRequest (f : AddressFlit) : Nat → List AddressFlit
  | 0 => []
  | n + 1 =>
    if f.bytes ≤ 4096 then [f]
    else { f with bytes := 4096, streamEnd := false } :: splitRequest { f with bytes := f.bytes - 4096, address := f.address + 4096 } n

/-- Class and origin that an interface fills into its headers (table "Traffic classes", R315, R327): cores 0 to 3 are service cores; core mailboxes
and service memory are of class SYSTEM, ring writers and promoters of CAPTURE, fetch of REPLAY, the Storage and Query Engines of STORE, the Host endpoint of
HOST, fabric interfaces of FABRIC; memory controllers answer with MAINT. -/
def niHeader (ni : Nat) : Nat × Nat :=
  match niCore ni with
  | some c => if c < 4 then (0, 5) else (4, 6)
  | none =>
    if (niFabric ni).isSome then (5, 7)
    else if ni = niHost then (6, 1)
    else if ni = niService || ni = niService + 1 then (0, 9)
    else if ni % 576 = 32 || ni % 576 = 33 then (1, 9)
    else if ni % 576 = 36 then (2, 9)
    else if ni % 576 = 37 || ni = niQuery then (3, 9)
    else (7, 9)

/-- The router one hop away; none off the grid, and for the reserved codes 5 to 7. -/
def hopTo (r code : Nat) : Option Nat :=
  match code with
  | 1 => if routerRow r = 0 then none else some (r - 16)
  | 2 => if routerCol r = 15 then none else some (r + 1)
  | 3 => if routerRow r = 9 then none else some (r + 16)
  | 4 => if routerCol r = 0 then none else some (r - 1)
  | _ => none

/-- What a router does with a flit: it leaves at DST_PORT, or goes on to the next router with HOP one higher (R317). -/
inductive Forward
  | eject (port : Nat)
  | to (router : Nat) (h : FlitHeader)
  | reserved
deriving DecidableEq, Repr

/-- One router's step (R317). -/
def FlitHeader.forward (h : FlitHeader) (r : Nat) : Forward :=
  let code := h.route / 2 ^ (3 * h.hop) % 8
  if h.hop = 24 ∨ code = 0 then .eject h.dstPort
  else match hopTo r code with
    | some n => .to n { h with hop := h.hop + 1 }
    | none => .reserved

/-- Where a list of hops leads from a router. -/
def walk (r : Nat) : List Nat → Option Nat
  | [] => some r
  | c :: cs => match hopTo r c with
    | some n => walk n cs
    | none => none

/-- Urgency of a flit of a class at an age (R320). -/
def Dev.urgency (d : Dev) (cls age : Nat) : Nat := min (d.nat O.noCClassBase 0 0 cls + age / d.nat O.noCAgeStep 0 0 cls) 15

/-- A flit that asks an arbiter for a grant: its input port, its urgency and its age. -/
structure Contender where
  port : Nat
  urgency : Nat
  age : Nat
deriving DecidableEq, Repr

/-- How far an input lies behind the one granted last, in ascending port order round n inputs. -/
def turn (n last port : Nat) : Nat := (port + n - last % n + n - 1) % n

/-- The first of two is granted before the second: by urgency, then by age, then by turn (R320). -/
def Contender.before (n last : Nat) (x y : Contender) : Bool :=
  y.urgency < x.urgency || (x.urgency == y.urgency && (y.age < x.age || (x.age == y.age && turn n last x.port ≤ turn n last y.port)))

/-- The grant of an arbiter with n inputs that granted `last` before (Gust, R320). -/
def gust (n last : Nat) : List Contender → Option Contender
  | [] => none
  | x :: l => match gust n last l with
    | none => some x
    | some y => some (if x.before n last y then x else y)

/-- Hops of a route that cross a die edge. -/
def crossings (r : Nat) : List Nat → Nat
  | [] => 0
  | c :: cs => match hopTo r c with
    | some n => (if routerDie n = routerDie r then 0 else 1) + crossings n cs
    | none => 0

/-- Latency of an uncontended route, in network cycles of 0.625 ns (R311, R313). -/
def routeCycles (src : Nat) (hops : List Nat) : Nat :=
  let x := crossings src hops
  3 + 2 * (hops.length - x) + 16 * x + 3

/-- The bound W on the time from injection to ejection of a packet of n flits, in eighths of a nanosecond (R321). -/
def Dev.waitBound (d : Dev) (cls n : Nat) : Nat :=
  80 * ((15 - d.nat O.noCClassBase 0 0 cls) * d.nat O.noCAgeStep 0 0 cls + 1) + 690 + 5 * (6400 + n - 1)

/-- What an address of the network names beside the memory of R161 (R325). -/
inductive NocTarget
  | dram | fabric (router : Nat) | service | mailbox (core : Nat) | doorbell (core : Nat) | queue (core : Nat) | timer (core : Nat) | reserved
deriving DecidableEq, Repr

/-- The target of a device physical address (R161, R325). -/
def targetOf (a : Nat) : NocTarget :=
  if a < 0x4800000000 then .dram
  else if a < 0x10000000000 then .reserved
  else if a < 0x20000000000 then
    let die := (a - 0x10000000000) / 0x2000000000
    let k := a % 0x2000000000 / 0x200000000
    .fabric (16 * (1 + 4 * (die / 4) + k / 4) + 4 * (die % 4) + k % 4)
  else if a < 0x20004000000 then .service
  else if 0x20010000000 ≤ a && a < 0x20010040000 then .mailbox ((a - 0x20010000000) / 0x4000)
  else if 0x20010040000 ≤ a && a < 0x20010040080 then .doorbell ((a - 0x20010040000) / 8)
  else if 0x20010050000 ≤ a && a < 0x20010058000 then .queue ((a - 0x20010050000) / 0x800)
  else if 0x20010060000 ≤ a && a < 0x20010060080 then .timer ((a - 0x20010060000) / 8)
  else if 0x40000000000 ≤ a && a < 0x80000000000 then .dram
  else .reserved

/-- A target admits an access of an origin that comes from an interface (R326). -/
def NocTarget.admits (t : NocTarget) (origin ni : Nat) : Bool :=
  match t with
  | .dram => true
  | .fabric _ => [1, 5, 6, 7, 8].contains origin
  | .service => origin == 5 || origin == 8
  | .mailbox c => origin == 8 || niCore ni == some c
  | .doorbell c => origin == 8 || niCore ni == some c
  | .queue c => origin == 8 || niCore ni == some c
  | .timer c => origin == 8 || niCore ni == some c
  | .reserved => false

/-- The interface of a memory channel (R314): Dd on port 1 of columns 0 to 3 of its I/O die's row; channel c of stack h on the outer column of its end
die, in the die's fabric row c div 4 + 1, port 1 for the lower-numbered stack of the die and 2 for the higher. -/
def chanNi (ch : Nat) : Nat :=
  if ch < 8 then (if ch < 4 then 0 else 576) + 4 * (ch % 4) + 1
  else
    let h := (ch - 8) / 16
    let row := (if h < 4 then 1 else 5) + (ch - 8) % 16 / 4
    64 * row + (if h / 2 % 2 = 0 then 0 else 60) + 1 + h % 2

/-- The interface that an address is reached through; none for a reserved one. -/
def Dev.targetNi (d : Dev) (a : Nat) : Option Nat :=
  match targetOf a with
  | .dram => (d.locate a).map (fun c => chanNi c.1)
  | .fabric r => some (4 * r)
  | .service => some niService
  | .mailbox _ | .doorbell _ | .queue _ | .timer _ => some (niService + 1)
  | .reserved => none

/-- Why a target cannot perform a posted write (R323, R325, R326), if so: 1 UNMAPPED, 2 RIGHTS, 4 FROST, 5 LULL, 6 POISON for a part of a listed
line, 7 NOT_READY for a target whose domain is off. What a check of the line finds (3) comes with its read. -/
def Dev.postedCause (d : Dev) (a origin ni bytes : Nat) : Option Nat :=
  let t := targetOf a
  if t = .reserved || (t = .dram && (d.locate a).isNone) then some 1
  else if !t.admits origin ni then some 2
  else
    match t, d.locate a with
    | .dram, some (ch, _) =>
      if d.nat O.powerDomainState 0 0 (if ch < 8 then 52 + ch / 2 else 44 + (ch - 8) / 16) != 1 then some 7
      else if d.chState ch = 2 || d.chState ch = 3 then some 4
      else if d.nat O.memLullState != 0 then some 5
      else if d.poisoned ch (a / 64) && (a % 64 != 0 || bytes % 64 != 0) then some 6
      else none
    | _, _ => none

/-- A posted-error record (table "Posted-error record"). -/
structure PostedRecord where
  tick : Nat
  address : Nat
  tag : Nat
  birth : Nat
  cause : Nat
  origin : Nat
  cls : Nat
  targetNi : Nat
  bytes : Nat
deriving DecidableEq, Repr

/-- Its 32 bytes (R323). -/
def PostedRecord.entry (r : PostedRecord) : List Byte :=
  leBytes 8 r.tick ++ leBytes 8 (r.address % 2 ^ 44) ++ leBytes 2 (r.tag % 4096) ++ leBytes 2 r.birth ++ leBytes 1 r.cause ++
  leBytes 1 (16 * (r.origin % 16) + r.cls % 8) ++ leBytes 2 (r.targetNi % 1024) ++ leBytes 4 (r.bytes % 8192) ++ zeros 4

/-- The record that a target returns to SRC_NI for a posted write that it cannot perform (R323). -/
def Dev.refusePosted (d : Dev) (h : FlitHeader) (f : AddressFlit) : Option PostedRecord :=
  (d.postedCause f.address h.origin h.srcNi f.bytes).map (fun c =>
    { tick := d.count, address := f.address, tag := h.tag, birth := h.birth, cause := c, origin := h.origin, cls := h.cls,
      targetNi := (d.targetNi f.address).getD 0, bytes := f.bytes })

end Sys2Proof.Machine
end

