-- ==== Sys2Proof/Machine/Cache.lean ====
section
/-! DEFINITION. The caches, fences, CSRs and timers of the control cores (R324 to R331): what a core's fetch, load and store and the Zicbom
instructions do to them and to memory. The cores' programs run outside the block, and no command of the table is an access by a core (log entry 101);
accesses by engines, fabric logic and the Host endpoint go by the caches unseen, as the rule says. -/

set_option Elab.async false

namespace Sys2Proof.Machine

/-- Coherence covers HBM, DDR and service memory (R325, R328); every other address is uncached. -/
def cacheable (a : Nat) : Bool :=
  a < 0x4800000000 || (0x20000000000 ≤ a && a < 0x20004000000) || (0x40000000000 ≤ a && a < 0x80000000000)

/-- Sets of a core's cache: 32 KiB in 8 ways of 64-byte lines. -/
def coreSets : Nat := 64

/-- Lines of a shared cache: 2 MiB. Its ways are not in the spec: it is taken as one set (log entry 101). -/
def sharedLines : Nat := 32768

/-- A line of memory, as the coherent network reads it; none is a bus error. -/
def Dev.readLine (d : Dev) (c line : Nat) : Option (List Byte) × Dev :=
  if 0x20000000000 ≤ 64 * line && 64 * line < 0x20004000000 then (some (d.peek (64 * line) 64), d)
  else d.fetch (coreNi c) (64 * line) 64

/-- A core has written a target since its last fence (R324). -/
def Dev.noteWrite (d : Dev) (c a : Nat) : Dev :=
  match d.targetNi a with
  | none => d
  | some n => if (d.core c).written.contains n then d else d.setCore c { d.core c with written := (d.core c).written ++ [n] }

/-- A fence of the FENCE or FENCE.I kind sends a FLUSH to every target that the core has written since its last one (R324): the targets, and the
core with none left. Each FLUSH completes by its command. -/
def Dev.coreFence (d : Dev) (c : Nat) : List Nat × Dev := ((d.core c).written, d.setCore c { d.core c with written := [] })

/-- A line goes back to memory. -/
def Dev.backLine (d : Dev) (c : Nat) (x : CacheLine) : Dev :=
  let d := d.noteWrite c (64 * x.line)
  if 0x20000000000 ≤ 64 * x.line && 64 * x.line < 0x20004000000 then d.poke (64 * x.line) x.data
  else d.postAt (coreNi c) (64 * x.line) x.data

/-- The line in a list. -/
def lineFind (l : List CacheLine) (n : Nat) : Option CacheLine := l.find? (fun x => x.line == n)

/-- The list without a line. -/
def lineDrop (l : List CacheLine) (n : Nat) : List CacheLine := l.filter (fun x => x.line != n)

/-- The I/O die of a core: the first eight are on ION. -/
def coreDie (c : Nat) : Nat := c / 8

/-- The shared cache of an I/O die. -/
def Dev.sharedOf (d : Dev) (e : Nat) : List CacheLine := SMap.getD d.mem.shared e []

/-- Set it. -/
def Dev.setShared (d : Dev) (e : Nat) (l : List CacheLine) : Dev :=
  { d with mem := { d.mem with shared := SMap.setD d.mem.shared e [] l } }

/-- Every cache gives up a line; a MODIFIED one goes to memory first where `write` says so. -/
def Dev.invalidate (d : Dev) (line : Nat) (write : Bool) (but : Option Nat) : Dev :=
  (upTo 16).foldl (fun d c =>
    if but == some c then d
    else
      let x := d.core c
      let d := match lineFind x.data line with
        | some y => if write && y.st = 3 then d.backLine c y else d
        | none => d
      d.setCore c { d.core c with data := lineDrop x.data line, inst := lineDrop x.inst line }) d

/-- Every other core's copy of a line becomes SHARED; a MODIFIED one goes to memory first. The answer says whether there is a copy. -/
def Dev.snoopShare (d : Dev) (line me : Nat) : Bool × Dev :=
  (upTo 16).foldl (fun (r : Bool × Dev) c =>
    if c = me then r
    else
      let x := r.2.core c
      match lineFind x.data line with
      | none => (r.1 || (lineFind x.inst line).isSome, r.2)
      | some y =>
        let d := if y.st = 3 then r.2.backLine c y else r.2
        let d := d.setShared (coreDie c) ((d.sharedOf (coreDie c)).map (fun z => if z.line = line then { z with data := y.data } else z))
        (true, d.setCore c { d.core c with data := x.data.map (fun z => if z.line = line then { z with st := 1 } else z) })) (false, d)

/-- Room in a shared cache: the line that leaves, an open choice, leaves the caches of the die's cores too, which the shared cache includes. -/
def Dev.sharedRoom (d : Dev) (e : Nat) : Dev :=
  let l := d.sharedOf e
  if l.length < sharedLines then d
  else
    match l[d.draw % sharedLines]? with
    | none => d
    | some v =>
      let d := (upTo 8).foldl (fun d i =>
        let c := 8 * e + i
        let x := d.core c
        let d := match lineFind x.data v.line with
          | some y => if y.st = 3 then d.backLine c y else d
          | none => d
        d.setCore c { d.core c with data := lineDrop x.data v.line, inst := lineDrop x.inst v.line }) d.drawn
      d.setShared e (lineDrop (d.sharedOf e) v.line)

/-- A core's cache takes a line; of a full set, one line leaves, an open choice, to memory first where it is MODIFIED. -/
def Dev.fill (d : Dev) (c : Nat) (inst : Bool) (y : CacheLine) : Dev :=
  let x := d.core c
  let l := lineDrop (if inst then x.inst else x.data) y.line
  let set := l.filter (fun z => z.line % coreSets == y.line % coreSets)
  if set.length < 8 then
    d.setCore c (if inst then { x with inst := l ++ [y] } else { x with data := l ++ [y] })
  else
    match set[d.draw % 8]? with
    | none => d
    | some v =>
      let d := if v.st = 3 then d.drawn.backLine c v else d.drawn
      d.setCore c (if inst then { d.core c with inst := lineDrop l v.line ++ [y] } else { d.core c with data := lineDrop l v.line ++ [y] })

/-- A core obtains a line under MESI: a hit keeps its state; a miss snoops the other cores, then the shared cache of its die, then memory, and
the line is EXCLUSIVE where no other core has it. To write, every other copy is given up and the line becomes MODIFIED. -/
def Dev.takeLine (d : Dev) (c line : Nat) (inst write : Bool) : Option CacheLine × Dev :=
  let x := d.core c
  match lineFind (if inst then x.inst else x.data) line with
  | some y =>
    if write && y.st != 3 then
      let d := d.invalidate line true (some c)
      let z : CacheLine := { y with st := 3 }
      (some z, d.setCore c { d.core c with data := x.data.map (fun w => if w.line = line then z else w) })
    else (some y, d)
  | none =>
    let own := inst && (lineFind x.data line).isSome
    let s := d.snoopShare line c
    let d := if write then s.2.invalidate line true (some c) else s.2
    let mine := lineFind (d.core c).data line
    let r := match mine, lineFind (d.sharedOf (coreDie c)) line with
      | some y, _ => (some y.data, d)
      | none, some y => (some y.data, d)
      | none, none => d.readLine c line
    match r.1 with
    | none => (none, r.2)
    | some data =>
      let z : CacheLine := { line := line, st := if write then 3 else if s.1 || own then 1 else 2, data := data }
      let d := r.2
      let d := if (lineFind (d.sharedOf (coreDie c)) line).isSome then d
        else
          let d := d.sharedRoom (coreDie c)
          d.setShared (coreDie c) (d.sharedOf (coreDie c) ++ [{ z with st := 1 }])
      (some z, d.fill c inst z)

/-- A core loads, or fetches, n bytes within a line; none is a bus error. -/
def Dev.coreRead (d : Dev) (c a n : Nat) (inst : Bool) : Option (List Byte) × Dev :=
  let r := d.takeLine c (a / 64) inst false
  (r.1.map (fun y => (y.data.drop (a % 64)).take n), r.2)

/-- A core stores bytes within a line. The answer says whether the line was there. -/
def Dev.coreWrite (d : Dev) (c a : Nat) (l : List Byte) : Bool × Dev :=
  let r := d.takeLine c (a / 64) false true
  match r.1 with
  | none => (false, r.2)
  | some y =>
    let z : CacheLine := { y with st := 3, data := y.data.take (a % 64) ++ l ++ y.data.drop (a % 64 + l.length) }
    let d := r.2
    let d := d.setCore c { d.core c with data := (d.core c).data.map (fun w => if w.line = y.line then z else w) }
    (true, d.setShared (coreDie c) ((d.sharedOf (coreDie c)).map (fun w => if w.line = y.line then { w with data := z.data } else w)))

/-! Uncached accesses and CSRs of a core (R325 to R327, R331). -/

/-- The core's own machine timer compare, by its address. -/
def timerAddr (c : Nat) : Nat := 0x20010060000 + 8 * c

/-- An uncached load of 8 bytes from the ranges of a core: an entry's bytes of its posted-error queue, or its machine timer compare. The mailbox's
areas are served as R264 says (R330). -/
def Dev.coreLoad (d : Dev) (c a : Nat) : Option (List Byte) :=
  match targetOf a with
  | .queue k =>
    if k = c then some (slice (SMap.getD (d.ni (coreNi c)).slots (a % 0x800 / 32) (zeros 32)) (a % 32 / 8 * 8) 8) else none
  | .timer k => if k = c then some (leBytes 8 (d.core c).timecmp) else none
  | _ => none

/-- An uncached store of a core to its machine timer compare; the target is noted for the next fence. -/
def Dev.coreTimer (d : Dev) (c value : Nat) : Dev :=
  (d.setCore c { d.core c with timecmp := value % 2 ^ 64 }).noteWrite c (timerAddr c)

/-- The core's machine timer interrupt: the count has reached the compare value (PRESUMED, log entry 109). -/
def Dev.timerPending (d : Dev) (c : Nat) : Bool := (d.core c).timecmp ≤ d.count

/-- The external interrupts of a core, machine and supervisor (R331): a bit set in both ekip and ekie raises the machine one, or, with its bit in
eksel set, the supervisor one. -/
def Dev.coreExternal (d : Dev) (c : Nat) : Bool × Bool :=
  let on := Nat.land (d.ekip c) (d.core c).ekie
  ((upTo 34).any (fun i => bitOf on i && !bitOf (d.core c).eksel i), (upTo 34).any (fun i => bitOf on i && bitOf (d.core c).eksel i))

/-- What a CSR of a core reads as (table "Core interrupt CSRs", R327): mhartid is the core number and time the count; their numbers are those of
RISC-V (PRESUMED, log entry 109). ekic has no value to read. -/
def Dev.coreCsr (d : Dev) (c csr : Nat) : Option Nat :=
  let x := d.ni (coreNi c)
  match csr with
  | 0x7C0 => some (d.ekip c)
  | 0x7C1 => some (d.core c).ekie
  | 0x7C3 => some (d.core c).eksel
  | 0x7C4 => some (x.head % 128 + 256 * (x.tail % 128))
  | 0xF14 => some c
  | 0xC01 => some d.count
  | _ => none

/-- A write of ekie or eksel keeps bits [33:0]; ekic and ekeq have rows of their own. -/
def Dev.coreCsrWrite (d : Dev) (c csr value : Nat) : Dev :=
  match csr with
  | 0x7C1 => d.setCore c { d.core c with ekie := value % 2 ^ 34 }
  | 0x7C3 => d.setCore c { d.core c with eksel := value % 2 ^ 34 }
  | _ => d

/-- CBO.CLEAN: a MODIFIED copy of the line goes to memory, and stays. -/
def Dev.cboClean (d : Dev) (line : Nat) : Dev :=
  (upTo 16).foldl (fun d c =>
    let x := d.core c
    match lineFind x.data line with
    | some y =>
      if y.st = 3 then
        let d := d.backLine c y
        d.setCore c { d.core c with data := x.data.map (fun z => if z.line = line then { z with st := 2 } else z) }
      else d
    | none => d) d

/-- CBO.INVAL: every copy of the line is given up, unwritten. -/
def Dev.cboInval (d : Dev) (line : Nat) : Dev :=
  let d := d.invalidate line false none
  (upTo 2).foldl (fun d e => d.setShared e (lineDrop (d.sharedOf e) line)) d

/-- CBO.FLUSH: clean, then invalidate. -/
def Dev.cboFlush (d : Dev) (line : Nat) : Dev := (d.cboClean line).cboInval line

end Sys2Proof.Machine
end

