-- ==== Sys2Proof/Machine/SelfTest.lean ====
section
/-! DEFINITION. Built-in self-test (R429 to R437). A unit has the code of the table "Self-test units"; an instance has the key
unit·65536 + instance. -/

set_option Elab.async false

namespace Sys2Proof.Machine

/-- Instances of a unit. -/
def unitInsts (u : Nat) : Nat :=
  match u with
  | 1 => 38 | 2 => 1 | 3 => 128 | 4 => 2 | 5 => 8 | 6 => 160 | 7 => 3 | 8 => 2 | 9 => 16 | 10 => 2 | _ => 0

/-- Slices of each instance. -/
def unitSlices (u : Nat) : Nat :=
  match u with
  | 1 => 16 | 2 => 256 | 3 => 64 | 4 => 1024 | 5 => 64 | 6 => 8 | 7 => 128 | 8 => 64 | 9 => 32 | 10 => 8 | _ => 0

/-- Class PRIVILEGED. -/
def unitPriv (u : Nat) : Bool := 1 ≤ u && u ≤ 4

/-- Key of an instance. -/
def testKey (u i : Nat) : Nat := u * 65536 + i

/-- The die of an instance. Event router and Vane ports are taken to lie on ION (log entry 50). -/
def testDie (u i : Nat) : Nat :=
  match u with
  | 1 => if i < 2 then 8 + i else 8 + dieOf (i - 2)
  | 3 => [0, 0, 3, 3, 4, 4, 7, 7].getD (i / 16) 0
  | 5 => if i < 4 then 8 else 9
  | 6 => if i / 16 = 0 then 8 else if i / 16 = 9 then 9 else (if i / 16 < 5 then 0 else 4) + i % 16 / 4
  | 4 => 8 + i
  | 7 => if i = 1 then 9 else 8
  | 8 => 8 + i
  | 9 => if i < 8 then 8 else 9
  | _ => 8

/-- The system PLL that clocks an ORDINARY unit (R354). -/
def testPll (u i : Nat) : Nat :=
  match u with
  | 5 => if i < 4 then 4 else 5
  | 6 => if i / 16 < 5 then 2 else 3
  | 10 => 10
  | _ => if testDie u i = 8 then 2 else 3

/-- The switched domain of an instance, if it has one (R415). -/
def testDomain (u i : Nat) : Option Nat :=
  match u with
  | 3 => some (44 + i / 16)
  | 4 => some (56 + i)
  | 5 => some (52 + i / 2)
  | 7 => some 58
  | 9 => if i < 4 then none else some 59
  | _ => none

/-- The instance is not skipped: its domain is ON and its DRAM channel ACTIVE (R433). -/
def Dev.testable (d : Dev) (u i : Nat) : Bool :=
  (match testDomain u i with
    | some n => d.nat O.powerDomainState 0 0 n == 1
    | none => true) &&
  (if u = 3 then d.chState (8 + i) == 1 && d.nat O.memLullState == 0
   else if u = 5 then d.chState i == 1 && d.nat O.memLullState == 0 else true)

/-- The clock and supply conditions of R431. -/
def Dev.testCalm (d : Dev) (u i : Nat) : Bool :=
  let x := testDie u i
  d.pll (testPll u i) == 2 && !(x < 8 && d.power.avsNs != 0 && d.ns < d.power.avsNs + 100000) &&
  d.int O.thermalDieMax 0 0 x < 10 * d.nat O.thermalThrottleLimit

/-- A unit that is quiesced under its own chapter needs no handshake (R432). -/
def Dev.testQuiet (d : Dev) (u i : Nat) : Bool :=
  (u == 7 && d.nat O.storeState == 0) || (u == 9 && 4 ≤ i && d.nat O.coreState i == 1)

/-- A core that may not be tested now: one of 4 to 15 outside RESET, or one of 0 to 3 while another is tested (R432). -/
def Dev.testBarred (d : Dev) (u i : Nat) : Bool :=
  u == 9 && (if 4 ≤ i then d.nat O.coreState i != 1 else d.test.running.any (fun s => s.unit == 9 && s.inst < 4 && s.inst != i && s.state < 2))

/-- The slice of an instance that is under way. -/
def Dev.sliceOf (d : Dev) (u i : Nat) : Option Slice_ := d.test.running.find? (fun s => s.unit == u && s.inst == i)

/-- Put a slice in place of the one of its instance. -/
def Dev.setSliceOf (d : Dev) (s : Slice_) : Dev :=
  { d with test := { d.test with running := d.test.running.filter (fun x => !(x.unit == s.unit && x.inst == s.inst)) ++ [s] } }

/-- No slice of the instance is under way any more. -/
def Dev.dropSlice (d : Dev) (u i : Nat) : Dev :=
  { d with test := { d.test with running := d.test.running.filter (fun x => !(x.unit == u && x.inst == i)) } }

/-- A slice is DEFERRED (R431, R432). -/
def Dev.deferSlice (d : Dev) (s : Slice_) : Dev := (d.setSliceOf { s with state := 3, ns := d.ns }).inc O.selfTestDeferred

/-- A slice is tried: a PRIVILEGED one runs; an ORDINARY one asks for its handshake, or runs at once, or is deferred. -/
def Dev.trySlice (d : Dev) (s : Slice_) : Dev :=
  let calm := d.testCalm s.unit s.inst
  if unitPriv s.unit then d.setSliceOf { s with state := 1, ns := d.ns, cond := s.cond || !calm }
  else if !calm || d.testBarred s.unit s.inst then d.deferSlice s
  else d.setSliceOf { s with state := if d.testQuiet s.unit s.inst then 1 else 0, ns := d.ns }

/-- ORDINARY slices that run or are about to. -/
def Dev.ordinaryRunning (d : Dev) : Nat := (d.test.running.filter (fun s => !unitPriv s.unit && s.state != 3)).length

/-- A commit of RunNow has the instance's slices run (R437). -/
def Dev.runningNow (d : Dev) (u i : Nat) : Bool := d.test.now.any (fun n => n.1 == u && n.2.1 == i)

/-- A slice falls due (R433). -/
def sliceDueEffect (u i : Nat) (d : Dev) : Dev :=
  let apart := match SMap.find d.test.lastNs (testKey u i) with
    | some t => !unitPriv u || decide (t + 1000000 ≤ d.ns)
    | none => true
  d.when (i < unitInsts u && (d.on O.selfTestEnable || d.runningNow u i) && !d.stopped && (d.sliceOf u i).isNone && apart &&
      d.testable u i && (unitPriv u || d.ordinaryRunning < 4)) (fun d =>
    d.trySlice { unit := u, inst := i, slice := SMap.getD d.test.next (testKey u i) 0 })

/-- A slice of the instance may start: the pass is enabled, or a RunNow runs; the repeat of a slice that has run belongs to that slice, which
completes (R434, R435). -/
def Dev.mayStart (d : Dev) (s : Slice_) : Bool := d.on O.selfTestEnable || d.runningNow s.unit s.inst || s.repeat_

/-- The unit acknowledges (R432): the slice starts while the conditions of R431 hold, and is deferred otherwise; none starts once the pass has
been disabled (R434). -/
def handshakeEffect (u i : Nat) (d : Dev) : Dev :=
  match d.sliceOf u i with
  | none => d
  | some s => d.when (s.state == 0) (fun d =>
      if !d.mayStart s then d.dropSlice u i
      else if d.testCalm u i then d.setSliceOf { s with state := 1, ns := d.ns } else d.deferSlice s)

/-- The unit has not acknowledged within 10 µs (R432). -/
def handshakeLateEffect (u i : Nat) (d : Dev) : Dev :=
  match d.sliceOf u i with
  | none => d
  | some s => d.when (s.state == 0 && decide (s.ns + 10000 ≤ d.ns)) (fun d => d.deferSlice s)

/-- A deferred slice is tried again 1 s later (R431), or dropped where the pass has been disabled (R434). -/
def retryEffect (u i : Nat) (d : Dev) : Dev :=
  match d.sliceOf u i with
  | none => d
  | some s => d.when (s.state == 3 && decide (s.ns + 1000000000 ≤ d.ns) && d.testable u i && d.ordinaryRunning < 4) (fun d =>
      if d.mayStart s then d.trySlice s else d.dropSlice u i)

/-- FAIL outcomes of a slice in the last 168 powered hours. -/
def Dev.failsOf (d : Dev) (s : Slice_) : List Nat :=
  (SMap.getD d.test.fails (testKey s.unit s.inst * 65536 + s.slice) []).filter (fun t => decide (d.nat O.ageingPoweredSeconds < t + 604800))

/-- A result entry (R436). Outcomes: 1 TRANSIENT, 2 FAIL, 3 PERMANENT, 4 ABORTED. -/
def Dev.testEntry (d : Dev) (s : Slice_) (outcome signature : Nat) : Dev :=
  let e := leBytes 8 d.count ++ leBytes 8 signature ++ leBytes 1 s.unit ++ leBytes 2 s.inst ++ leBytes 2 s.slice ++
    leBytes 1 (outcome + (if s.cond then 16 else 0)) ++ leBytes 1 (testDie s.unit s.inst) ++ zeros 1 ++ leBytes 2 (d.failsOf s).length ++ zeros 6
  let d := { d with test := { d.test with results := newest 256 (d.test.results ++ [e]) } }
  if outcome = 2 || outcome = 3 then
    ({ d with diag := { d.diag with entries := d.diag.entries ++ [e] } }).writeArea 25600 (testKey s.unit s.inst)
  else d

/-- Running slices that a test picks are ABORTED; those that only wait are dropped (R434). -/
def Dev.abortSlices (d : Dev) (p : Slice_ → Bool) : Dev :=
  d.test.running.foldl (fun d s =>
    if p s then
      let d := d.dropSlice s.unit s.inst
      if s.state = 1 then (d.testEntry s 4 (d.draw % 2 ^ 64)).drawn else d
    else d) d

/-- A die is recorded as permanently failed (R435, R436). -/
def Dev.permanent (d : Dev) (x : Nat) : Dev :=
  let m := d.nat O.selfTestPermanentDies
  ((d.setNat O.selfTestPermanentDies (Nat.lor m (2 ^ x))).keepDiag O.selfTestPermanentDies).lifeStates

/-- A FAIL, and PERMANENT at the third in 168 powered hours. -/
def Dev.sliceFail (d : Dev) (s : Slice_) (signature : Nat) : Dev :=
  let k := testKey s.unit s.inst * 65536 + s.slice
  let x := testDie s.unit s.inst
  let fs := d.failsOf s ++ [d.nat O.ageingPoweredSeconds]
  let d := { d with test := { d.test with fails := SMap.ins d.test.fails k fs } }
  let d := d.setAge x { d.age x with fails := (d.age x).fails + 1 }
  let d := ((d.testEntry s 2 signature).occur 1503).inc O.selfTestFailures
  if 3 ≤ fs.length then
    ((d.setAge x { d.age x with fails := (d.age x).fails + 1 }).testEntry s 3 signature).permanent x
  else d

/-- A slice is over: the next one of its instance is next; a RunNow counts it. -/
def Dev.sliceOver (d : Dev) (s : Slice_) : Dev :=
  let k := testKey s.unit s.inst
  let d := d.dropSlice s.unit s.inst
  let d := { d with test := { d.test with next := SMap.ins d.test.next k ((s.slice + 1) % max 1 (unitSlices s.unit)),
                                          lastNs := SMap.ins d.test.lastNs k d.ns } }
  match d.test.now with
  | some (u, i, left) =>
    if u = s.unit && i = s.inst then
      if left ≤ 1 then ({ d with test := { d.test with now := none } }).setNat O.selfTestRunState 2
      else { d with test := { d.test with now := some (u, i, left - 1) } }
    else d
  | none => d

/-- STEPPING of a die (R400). -/
def Dev.stepping (d : Dev) (x : Nat) : Nat := bitsOf (fieldAt (d.octs O.diagDieIdentity 0 0 x) 0 2) 15 12

/-- A slice ends (table "Slice timing"). A PRIVILEGED repeat follows at once; an ORDINARY one asks for its handshake again, under the conditions of
R431. -/
def sliceEndEffect (u i signature : Nat) (d : Dev) : Dev :=
  match d.sliceOf u i with
  | none => d
  | some s =>
    d.when (s.state == 1 && !d.stopped) (fun d =>
      let pass := signature % 2 ^ 64 == Config.sliceRef u s.slice (d.stepping (testDie u i)) % 2 ^ 64
      let calm := d.testCalm u i
      let s := { s with cond := s.cond || (unitPriv u && !calm) }
      if !s.repeat_ then
        if pass then (d.inc O.selfTestSlices).sliceOver s
        else d.trySlice { s with repeat_ := true }
      else
        let d := if pass || s.cond then (d.testEntry s 1 (signature % 2 ^ 64)).inc O.selfTestTransients else d.sliceFail s (signature % 2 ^ 64)
        d.sliceOver s)

/-- SelfTest.UnitSelect as a unit and an instance. -/
def Dev.selectedUnit (d : Dev) : Nat × Nat := (bitsOf (d.nat O.selfTestUnitSelect) 31 24, bitsOf (d.nat O.selfTestUnitSelect) 23 8)

/-- A committed SelfTest.RunNow (R437). -/
def Dev.runNow (d : Dev) : Dev :=
  let x := d.selectedUnit
  ({ d with test := { d.test with now := some (x.1, x.2, unitSlices x.1) } }).setNat O.selfTestRunState 1

/-- A committed SelfTest.ClearPermanent (R436). -/
def Dev.clearPermanent (d : Dev) (bits : Nat) : Dev :=
  let left := (upTo 10).foldl (fun n x => if bitOf (d.nat O.selfTestPermanentDies) x && !bitOf bits x then n + 2 ^ x else n) 0
  ((d.setNat O.selfTestPermanentDies left).keepDiag O.selfTestPermanentDies).lifeStates

/-- A committed object touches an ORDINARY unit (R434): the key lies among the unit's own objects. -/
def unitTouched (u i key : Nat) : Bool :=
  let ix := key / 256
  match u with
  | 5 => ix == O.memChannelThaw.base + i || ix == O.memLullControl.base
  | 7 => if i = 2 then 0x7800 ≤ ix && ix < 0x78A0 else 0x7000 ≤ ix && ix < 0x7800
  | 8 => O.txControl.base ≤ ix && ix < O.txControl.base + 36 * O.txControl.s1 && dieOf ((ix - O.txControl.base) / max 1 O.txControl.s1) == i
  | 9 => ix == O.coreControl.base + i
  | 10 => O.vaneMode.base + 64 * i ≤ ix && ix < O.vaneMode.base + 64 * (i + 1)
  | _ => false

/-- SLICE_DUE. -/
def execSliceDue (dt : Nat) (unit : Fin 16) (inst : Nat) (s : State) : Host.Outcome State Fault Refusal := run s dt (sliceDueEffect unit inst)

/-- HANDSHAKE_ACK. -/
def execHandshakeAck (dt : Nat) (unit : Fin 16) (inst : Nat) (s : State) : Host.Outcome State Fault Refusal := run s dt (handshakeEffect unit inst)

/-- HANDSHAKE_TIMEOUT. -/
def execHandshakeTimeout (dt : Nat) (unit : Fin 16) (inst : Nat) (s : State) : Host.Outcome State Fault Refusal :=
  run s dt (handshakeLateEffect unit inst)

/-- DEFERRAL_RETRY. -/
def execDeferralRetry (dt : Nat) (unit : Fin 16) (inst : Nat) (s : State) : Host.Outcome State Fault Refusal := run s dt (retryEffect unit inst)

/-- SLICE_END. -/
def execSliceEnd (dt : Nat) (unit : Fin 16) (inst : Nat) (signature : Nat) (s : State) : Host.Outcome State Fault Refusal :=
  run s dt (sliceEndEffect unit inst signature)

end Sys2Proof.Machine
end

