-- ==== Sys2Proof/Machine/Store.lean ====
section
/-! DEFINITION. The Storage Engine: NVMe controllers, extents, draining, Isobar, sessions, failures, mount and stop (chapter
"Far-Tier Store, Isobar and Query", R211 to R232 and R240 to R242). -/

set_option Elab.async false

namespace Sys2Proof.Machine

/-! Extents and namespaces (R215 to R219). -/

/-- Bytes of an extent's data area, and where its index block lies. -/
def dataArea : Nat := 16711680

/-- Extents of a namespace range, one past the last; 0 for an unmapped one. -/
def Dev.nsEnd (d : Dev) (n : Nat) : Nat :=
  if d.nat O.storeNsNsid n = 0 || d.nat O.storeNsExtents n = 0 then 0 else d.nat O.storeNsBaseExtent n + d.nat O.storeNsExtents n

/-- Store.TableBytes (R218). -/
def Dev.tableBytes (d : Dev) : Nat := 32 * (upTo 1024).foldl (fun m n => max m (d.nsEnd n)) 0

/-- An extent. -/
def Dev.ext (d : Dev) (n : Nat) : Ext := SMap.getD d.store.exts n {}

/-- Set what the engine holds of an extent. -/
def Dev.setExt (d : Dev) (n : Nat) (x : Ext) : Dev := { d with store := { d.store with exts := SMap.setD d.store.exts n {} x } }

/-- The 32 bytes of an extent entry (R218); those of an extent that was never allocated are zero (R240). -/
def Ext.entry (x : Ext) : List Byte :=
  if x.state = 0 && x.gen = 0 then zeros 32
  else
    leBytes 8 x.first ++ leBytes 8 x.last ++ leBytes 4 x.next ++ leBytes 4 x.used ++ leBytes 1 x.session ++ leBytes 1 x.die ++
    leBytes 1 x.state ++ leBytes 1 (b2n x.pin + 2 * b2n x.overrun + 4 * b2n x.recovered + 8 * b2n x.remapped) ++ leBytes 4 x.gen

/-- The entry that 32 bytes hold. -/
def Ext.parse (l : List Byte) : Ext :=
  let f := fieldAt l 27 1
  { first := fieldAt l 0 8, last := fieldAt l 8 8, next := fieldAt l 16 4, used := fieldAt l 20 4, session := fieldAt l 24 1,
    die := bitsOf (fieldAt l 25 1) 0 0, state := fieldAt l 26 1, pin := bitOf f 0, overrun := bitOf f 1, recovered := bitOf f 2,
    remapped := bitOf f 3, gen := fieldAt l 28 4, issued := fieldAt l 20 4 }

/-- The 32 bytes of a sub-entry (R224). -/
def SubEnt.entry (x : SubEnt) : List Byte :=
  leBytes 8 x.lo ++ leBytes 8 x.hi ++ leBytes 4 (b2n x.trig + 2 * b2n x.gap) ++ leBytes 4 x.off ++ leBytes 4 x.bytes ++ leBytes 4 x.records

/-- A change of an entry goes to the twin peer (R295). -/
def Dev.tellExt (d : Dev) (n : Nat) : Dev := if d.mirrors then d.mirror 6 0 1 0 (leBytes 8 n ++ (d.ext n).entry) else d

/-- An entry changes: in the extent table, and at the twin peer (R218, R295). -/
def Dev.putExt (d : Dev) (n : Nat) (x : Ext) : Dev :=
  ((d.setExt n x).postAt (niStore x.die) (d.nat O.storeTableBase + 32 * n) x.entry).tellExt n

/-- The run list of an extent goes into its place in the area that follows the table: each run is two absolute positions of 8 bytes (R231). -/
def Dev.putRuns (d : Dev) (n : Nat) : Dev :=
  let x := d.ext n
  if x.slot < 4096 && !x.runs.isEmpty then
    d.postAt (niStore x.die) (d.nat O.storeTableBase + d.tableBytes + 4096 * x.slot)
      (x.runs.flatMap (fun (r : Nat × Nat) => leBytes 8 r.1 ++ leBytes 8 r.2))
  else d

/-- A place for a run list that no extent has (R231). -/
def Dev.freeSlot (d : Dev) : Nat :=
  ((upTo 4096).find? (fun i => d.store.exts.all (fun p => p.2.slot != i))).getD 4096

/-- The namespace that serves an extent. -/
def Dev.nsOf (d : Dev) (n : Nat) : Option Nat :=
  (upTo 1024).find? (fun i => decide (n < d.nsEnd i) && d.nat O.storeNsBaseExtent i ≤ n)

/-- The extent is this device's own (R295, R305). -/
def Dev.ownExt (d : Dev) (n : Nat) : Bool :=
  match d.nsOf n with
  | some i => !d.store.peerNs.contains i
  | none => false

/-- A stream. -/
def Dev.strm (d : Dev) (s e : Nat) : Stream := SMap.getD d.store.streams (2 * s + e) {}

/-- Set it. -/
def Dev.setStrm (d : Dev) (s e : Nat) (x : Stream) : Dev :=
  { d with store := { d.store with streams := SMap.setD d.store.streams (2 * s + e) {} x } }

/-- What a controller holds. -/
def Dev.ctl (d : Dev) (c : Nat) : CtlAux := SMap.getD d.store.ctls c {}

/-- Set it. -/
def Dev.setCtl (d : Dev) (c : Nat) (x : CtlAux) : Dev := { d with store := { d.store with ctls := SMap.setD d.store.ctls c {} x } }

/-- What query slot j holds. -/
def Dev.query (d : Dev) (j : Nat) : QueryAux := SMap.getD d.store.queries j {}

/-- Set it. -/
def Dev.setQuery (d : Dev) (j : Nat) (x : QueryAux) : Dev :=
  { d with store := { d.store with queries := SMap.setD d.store.queries j {} x } }

/-- Extents of a session that count as Used (R226). -/
def Dev.sessionExts (d : Dev) (s : Nat) : List (Nat × Ext) :=
  d.store.exts.filter (fun p => p.2.session == s && 1 ≤ p.2.state && p.2.state ≤ 4 && d.ownExt p.1)

/-- StoreSession.Used. -/
def Dev.sessionUsed (d : Dev) (s : Nat) : Nat := (d.sessionExts s).length

/-! NVMe commands (R212). -/

/-- A command of the admin queue. -/
def NvmeUse.isAdmin : NvmeUse → Bool
  | .admin => true
  | .abort _ => true
  | _ => false

/-- The extent that a command is for. -/
def NvmeUse.ext? : NvmeUse → Option Nat
  | .data n _ _ => some n
  | .index n => some n
  | .meta_ n => some n
  | .trim n => some n
  | .read _ n => some n
  | _ => none

/-- A write of an extent's own data: a unit, its index block or its metadata copy. -/
def NvmeUse.writes (u : NvmeUse) (n : Nat) : Bool :=
  match u with
  | .data m _ _ => m == n
  | .index m => m == n
  | .meta_ m => m == n
  | _ => false

/-- Opcode of a command: 0 Flush, 1 Write, 2 Read, 9 Dataset Management, 8 Abort, or that of an admin entry. -/
def NvmeCmd.op (k : NvmeCmd) : Nat :=
  match k.use with
  | .flush _ _ => 0
  | .read _ _ => 2
  | .abort _ => 8
  | .trim _ => 9
  | .admin => fieldAt k.data 0 1
  | _ => 1

/-- What a command sends. -/
def NvmeCmd.out (k : NvmeCmd) : Out := .nvme k.ctl k.nsid k.op k.lba k.len k.data

/-- A controller takes one more command: it is READY with its link up, and a queue has room: one admin queue of depth 32, 16 I/O queue pairs of
depth 256 (R212). A queue of depth n holds n − 1 entries (PRESUMED, log entry 104). -/
def Dev.ctlRoom (d : Dev) (c : Nat) (admin : Bool) : Bool :=
  let n := (d.store.cmds.filter (fun k => k.ctl == c && !k.unsent && k.use.isAdmin == admin)).length
  d.nat O.storeCtlState c == 2 && !(d.ctl c).downed && n < (if admin then 31 else 4080)

/-- Commands that waited are sent, in order, while there is room. -/
def Dev.pumpCtl (d : Dev) (c : Nat) : Nat → Dev
  | 0 => d
  | n + 1 =>
    match d.store.cmds.find? (fun k => k.ctl == c && k.unsent && d.ctlRoom c k.use.isAdmin) with
    | none => d
    | some k =>
      let send := fun (j : NvmeCmd) => { j with unsent := false, startNs := d.ns }
      let d := { d with store := { d.store with cmds := updateFirst (fun j => j.ctl == c && j.unsent && j.cid == k.cid) send d.store.cmds } }
      (d.send k.out).pumpCtl c n

/-- Issue a command; one for a controller that is not READY, or whose queues are full, waits. -/
def Dev.nvme (d : Dev) (c nsid : Nat) (use : NvmeUse) (lba len : Nat) (data : List Byte) (retried : Bool := false) : Dev :=
  let x := d.ctl c
  let ready := d.ctlRoom c use.isAdmin
  let k : NvmeCmd := { ctl := c, cid := x.cid, nsid := nsid, use := use, lba := lba, len := len, data := data, startNs := d.ns,
                       retried := retried, unsent := !ready }
  let d := d.setCtl c { x with cid := (x.cid + 1) % 65536 }
  let d := { d with store := { d.store with cmds := d.store.cmds ++ [k] } }
  if ready then d.send k.out else d

/-- Issue a command again (R222, R232). -/
def Dev.again (d : Dev) (k : NvmeCmd) : Dev := d.nvme k.ctl k.nsid k.use k.lba k.len k.data true

/-- A command to namespace i. -/
def Dev.nsCmd (d : Dev) (i : Nat) (use : NvmeUse) (lba len : Nat) (data : List Byte) : Dev :=
  d.nvme (d.nat O.storeNsController i) (d.nat O.storeNsNsid i) use lba len data

/-- A command at an offset of an extent, in its namespace's logical blocks of 4,096 bytes (R216). -/
def Dev.extCmd (d : Dev) (n off : Nat) (use : NvmeUse) (len : Nat) (data : List Byte) : Dev :=
  match d.nsOf n with
  | none => d
  | some i => d.nsCmd i use (262144 + 4096 * (n - d.nat O.storeNsBaseExtent i) + off / 4096) len data

/-- A write at an offset of an extent. -/
def Dev.extWrite (d : Dev) (n off : Nat) (use : NvmeUse) (data : List Byte) : Dev := d.extCmd n off use data.length data

/-- The drive that holds an extent has no volatile write cache (R223). -/
def Dev.cacheless (d : Dev) (n : Nat) : Bool :=
  match d.nsOf n with
  | some i => (d.ctl (d.nat O.storeNsController i)).cacheless
  | none => false

/-- An extent as its metadata copy and its index block show it: one that closes as it stands once closed (R217, R223). -/
def Dev.asStored (d : Dev) (n : Nat) : Ext :=
  let x := d.ext n
  if x.closing then { x with state := if d.cacheless n then 3 else 2 } else x

/-- The metadata copy of an extent's entry, in its logical block with its neighbours (R216). -/
def Dev.metaWrite (d : Dev) (n : Nat) : Dev :=
  match d.nsOf n with
  | none => d
  | some i =>
    let b := d.nat O.storeNsBaseExtent i
    let blk := (n - b) / 128
    d.nsCmd i (.meta_ n) (1 + blk) 4096 ((upTo 128).flatMap (fun k => (d.asStored (b + 128 * blk + k)).entry))

/-- Zero-fill to the next 4 KiB boundary. -/
def pad4k (l : List Byte) : List Byte := l ++ zeros ((4096 - l.length % 4096) % 4096)

/-- Writes of an extent have not all ended, or its relocation waits. -/
def Dev.extBusy (d : Dev) (n : Nat) : Bool := d.store.cmds.any (fun k => k.use.writes n) || d.store.relocs.contains n

/-! Draining (R220 to R225). -/

/-- Every write that carries bytes lo to hi of an extent has completed: of an OPEN extent the last unit, which is written again when more bytes arrive,
does not count (R222). -/
def Dev.written (d : Dev) (n lo hi : Nat) : Bool :=
  let x := d.ext n
  let w := d.nat O.storeWriteSize
  hi ≤ (if x.state = 1 && !x.closing then x.issued / w * w else x.issued) && !d.store.relocs.contains n &&
  !d.store.cmds.any (fun k => match k.use with
    | .data e a b => e == n && decide (a < hi ∧ lo < b)
    | _ => false)

/-- The stage of die e has been emptied up to its first packet. -/
def Dev.restage (d : Dev) (e : Nat) : Dev :=
  let x := d.eng e
  d.setEng e { x with drainAbs := match x.staged with
    | p :: _ => p.abs
    | [] => x.stageAbs }

/-- Stage packets whose every write has completed are released (R222). -/
def Dev.release (d : Dev) (e : Nat) : Dev :=
  let h := (SMap.getD d.store.held e []).filter (fun p => !d.written p.2.1 p.2.2 (p.2.2 + p.1.bytes))
  let d := { d with store := { d.store with held := SMap.setD d.store.held e [] h } }
  let x := d.eng e
  let pos := SMap.getD d.store.take e 0
  (d.setEng e { x with staged := x.staged.filter (fun p => decide (pos ≤ p.abs) || h.any (fun q => q.1.abs == p.abs)) }).restage e

/-- The open sub-entry of an extent closes (R224). -/
def Dev.closeSub (d : Dev) (n : Nat) : Dev :=
  let x := d.ext n
  match x.sub with
  | none => d
  | some s =>
    let d := d.setExt n { x with subs := x.subs ++ [s], sub := none }
    if d.mirrors then d.mirror 7 0 1 0 (leBytes 8 n ++ s.entry) else d

/-- Write the units of an extent that are full; with `all`, the bytes of the last one too, zero-filled (R222). -/
def Dev.writeUnits (d : Dev) (n : Nat) (all : Bool) : Nat → Dev
  | 0 => d
  | k + 1 =>
    let w := d.nat O.storeWriteSize
    let x := d.ext n
    let start := x.issued / w * w
    if w ≤ x.buf.length then
      let d := d.setExt n { x with buf := x.buf.drop w, bufNs := d.ns, issued := start + w }
      Dev.writeUnits (d.extWrite n start (.data n start (start + w)) (x.buf.take w)) n all k
    else if all && !x.buf.isEmpty && x.issued != start + x.buf.length then
      (d.setExt n { x with issued := start + x.buf.length }).extWrite n start (.data n start (start + x.buf.length)) (pad4k x.buf)
    else d

/-- A tick range meets an extent's. -/
def Ext.meets (x : Ext) (lo hi : Nat) : Bool := x.first ≤ hi && lo ≤ x.last

/-- An extent closes: it takes the pins that it meets, and the rest of its data with the zero word, the index block and the metadata copy are
written (R217, R223, R227). -/
def Dev.closeExt (d : Dev) (n : Nat) : Dev :=
  let d := d.closeSub n
  let x := d.ext n
  if x.state != 1 || x.closing then d
  else
    let pin := x.pin || d.store.pins.any (fun p => p.1 == x.session && x.meets p.2.1 p.2.2)
    let d := d.putExt n { x with pin := pin, buf := if x.used + 8 ≤ dataArea then x.buf ++ zeros 8 else x.buf }
    let d := d.writeUnits n true (dataArea / 4096)
    let d := d.setExt n { d.ext n with closing := true, issued := dataArea, buf := [] }
    let subs := x.subs.take 2046
    let blk := (d.asStored n).entry ++ leBytes 4 subs.length ++ zeros 28 ++ subs.flatMap SubEnt.entry
    (d.extWrite n dataArea (.index n) (fit 65536 blk)).metaWrite n

/-- When all writes of a closing extent have completed it is CLOSED, or DURABLE where no drive cache holds them; its packets are the drive's now
(R223). -/
def Dev.settleExt (d : Dev) (n : Nat) : Dev :=
  let x := d.ext n
  if x.closing && !d.extBusy n then
    let x : Ext := { d.asStored n with closing := false, pkts := [], oks := [], before := none }
    d.putExt n (if x.state = 3 then { x with runs := [], slot := 4096 } else x)
  else d

/-- The predecessor of an extent in its stream takes another NEXT; both metadata copies are rewritten (R221, R228). -/
def Dev.relink (d : Dev) (n next : Nat) : Dev := (d.putExt n { d.ext n with next := next }).metaWrite n

/-- Remove an extent from its stream. -/
def Dev.unchain (d : Dev) (n : Nat) : Dev :=
  let x := d.ext n
  let st := d.strm x.session x.die
  let d := match st.chain.find? (fun m => (d.ext m).next == n) with
    | some m => d.relink m x.next
    | none => d
  d.setStrm x.session x.die { st with chain := st.chain.filter (fun m => m != n) }

/-- Reclaim an extent (R228). -/
def Dev.reclaimExt (d : Dev) (n : Nat) : Dev :=
  let x := d.ext n
  let d := (d.unchain n).putExt n { state := if x.state = 4 then 5 else 0, gen := x.gen }
  let d := { d with store := { d.store with toFree := d.store.toFree.filter (fun m => m != n), remaps := d.store.remaps.filter (fun m => m != n) } }
  let d := if d.on O.storeTrim then d.extCmd n 0 (.trim n) 16777216 [] else d
  d.metaWrite n

/-- A query read of the extent is in flight (R228). -/
def Dev.inFlight (d : Dev) (n : Nat) : Bool :=
  d.store.cmds.any (fun k => match k.use with
    | .read _ m => m == n
    | _ => false)

/-- The oldest unpinned extent of a session that is not OPEN. The oldest is the one with the lowest FIRST_TICK (DESIGN CHOICE, log entry 114). -/
def Dev.oldestExt (d : Dev) (s : Nat) : Option Nat :=
  ((d.sessionExts s).filter (fun p => !p.2.pin && p.2.state != 1)).foldl (fun b p =>
    match b with
    | none => some p.1
    | some m => if p.2.first < (d.ext m).first then some p.1 else b) none

/-- The lowest FREE extent of a namespace (log entry 39). -/
def Dev.freeIn (d : Dev) (i : Nat) : Option Nat :=
  let b := d.nat O.storeNsBaseExtent i
  let n := d.nat O.storeNsExtents i
  let k := (d.store.exts.filter (fun p => b ≤ p.1 && p.1 < b + n && p.2.state != 0)).length
  ((upTo (min n (k + 1))).map (fun j => b + j)).find? (fun m => (d.ext m).state == 0)

/-- Round robin over some namespaces, in ascending order from the one after the last used. -/
def Dev.robinFind (d : Dev) (key : Nat) (ns : List Nat) : Option (Nat × Nat) :=
  let last := SMap.find d.store.robin key
  let order := match last with
    | some l => ns.filter (fun i => decide (l < i)) ++ ns.filter (fun i => decide (i ≤ l))
    | none => ns
  order.findSome? (fun i => (d.freeIn i).map (fun n => (i, n)))

/-- ONLINE namespaces that may be allocated from. -/
def Dev.onlineNs (d : Dev) : List Nat := (upTo 1024).filter (fun i => d.nat O.storeNsState i == 1 && !d.store.peerNs.contains i)

/-- A FREE extent for die e (R221). -/
def Dev.pickFree (d : Dev) (e : Nat) : Option (Nat × Dev) :=
  let all := d.onlineNs
  let near := all.filter (fun i => dieOf (d.nat O.storeCtlQuad (d.nat O.storeNsController i)) == e)
  match d.robinFind e near with
  | some (i, n) => some (n, { d with store := { d.store with robin := SMap.ins d.store.robin e i } })
  | none => match d.robinFind 2 all with
    | some (i, n) => some (n, { d with store := { d.store with robin := SMap.ins d.store.robin 2 i } })
    | none => none

/-- How a stream's need for an extent ends: it waits for a reclaim that a query read holds up, it stalls, or it has one. -/
inductive Obtain
  | wait | stall | got (n : Nat) (d : Dev)

/-- A stream needs an extent (R228, R229). -/
def Dev.obtain (d : Dev) (s e : Nat) : Nat → Obtain
  | 0 => .stall
  | k + 1 =>
    if d.nat O.storeSessionQuota s ≤ d.sessionUsed s then
      if d.nat O.storeSessionPolicy s = 1 then .stall
      else match d.oldestExt s with
        | none => .stall
        | some n =>
          if d.inFlight n then .wait
          else
            let d := (d.reclaimExt n).inc O.storeSessionReclaimed s
            if (d.ext n).state = 0 then .got n d else Dev.obtain d s e k
    else match d.pickFree e with
      | some (n, d) => .got n d
      | none => .stall

/-- Ring packets that were promoted whole into an extent leave its run list: their last records go elsewhere (R231). -/
def Dev.splitRun (d : Dev) (n : Nat) (src : List (Nat × Nat)) : Dev :=
  let x := d.ext n
  match x.runs.getLast? with
  | none => d
  | some (a, b) => match src.find? (fun p => p.1 == b) with
    | none => d
    | some p => (d.setExt n { x with runs := x.runs.dropLast ++ (if a = b then [] else [(a, p.2)]) }).putRuns n

/-- What a stall tells of (R229): StoreSession.Stalled, Stalls and EV1506. -/
def Dev.stallTold (d : Dev) (s : Nat) : Dev := ((d.setNat O.storeSessionStalled 1 s).inc O.storeSessionStalls s).occur 1506

/-- A stream stops taking packets (R229): those in the stage are discarded. -/
def Dev.stallBody (d : Dev) (s e : Nat) : Dev :=
  let st := d.strm s e
  let d := d.setStrm s e { st with stalled := true }
  let x := d.eng e
  let pos := SMap.getD d.store.take e 0
  let mine := fun (p : StageIx) => p.session == s && decide (pos ≤ p.abs)
  let gone := x.staged.filter mine
  let d := d.add O.storeSessionDiscarded (sumBy (fun p => p.bytes) gone) s
  let d := (d.setEng e { x with staged := x.staged.filter (fun p => !mine p) }).restage e
  match st.chain.getLast? with
  | some n => d.splitRun n (gone.flatMap (fun p => p.src))
  | none => d

/-- A stream stalls (R229). -/
def Dev.stallStream (d : Dev) (s e : Nat) : Dev := (d.stallTold s).stallBody s e

/-- Both streams of a session stall at once (R230): one stall. -/
def Dev.stallSession (d : Dev) (s : Nat) : Dev := ((d.stallTold s).stallBody s 0).stallBody s 1

/-- Sessions that have a stream. -/
def Dev.streamSessions (d : Dev) : List Nat :=
  (upTo 256).filter (fun s => !((d.strm s 0).chain.isEmpty && (d.strm s 1).chain.isEmpty))

/-- A read of the extent table completes with a bus error: the store is in FAULT, and every stream stalls (R218). -/
def Dev.tableFault (d : Dev) : Dev :=
  d.streamSessions.foldl (fun d s => if d.on O.storeSessionStalled s then d else d.stallSession s) (d.setNat O.storeState 4)

/-- The engine reads the entry of an extent from its table in DDR (R218). The answer says whether it could. -/
def Dev.tableRead (d : Dev) (e n : Nat) : Bool × Dev :=
  let r := d.fetch (niStore e) (d.nat O.storeTableBase + 32 * n) 32
  if r.1.isSome then (true, r.2) else (false, r.2.tableFault)

/-- The stall of a session ends: each port's first promoted record follows a RING_OVERRUN gap record from the last record written
(R229, R230 step 5). A store that stops ends no stall (R241). -/
def Dev.unstall (d : Dev) (s : Nat) : Dev :=
  if d.on O.storeSessionStalled s && d.sessionUsed s < d.nat O.storeSessionQuota s && (d.nat O.storeState == 1 || d.nat O.storeState == 2) then
    let w := d.win s
    let wr := (d.strm s 0).written ++ (d.strm s 1).written
    let d := d.setWin s { w with broken := (w.promoted.map (fun p => p.1)) ++ w.broken.filter (fun i => (SMap.find w.promoted i).isNone),
                                 promoted := wr.foldl (fun m p => SMap.ins m p.1 (p.2, 0)) w.promoted }
    let d := (d.setStrm s 0 { d.strm s 0 with stalled := false }).setStrm s 1 { d.strm s 1 with stalled := false }
    d.setNat O.storeSessionStalled 0 s
  else d

/-- A FREE extent is allocated: GEN counts it, and its run list has a place (R221, R231). -/
def Dev.allotExt (d : Dev) (n : Nat) (x : Ext) : Dev :=
  ((d.putExt n { x with state := 1, gen := ((d.ext n).gen + 1) % 2 ^ 32, slot := d.freeSlot }).putRuns n).metaWrite n

/-- A new extent opens for a stream (R221). -/
def Dev.openExt (d : Dev) (s e n : Nat) : Dev :=
  let st := d.strm s e
  let d := match st.chain.getLast? with
    | some m => d.relink m n
    | none => d
  (d.setStrm s e { st with chain := st.chain ++ [n] }).allotExt n { session := s, die := e, before := st.lastSrc }

/-- The last extent of a stream, where it is OPEN and not closing. -/
def Dev.openOf (d : Dev) (s e : Nat) : Option Nat :=
  match (d.strm s e).chain.getLast? with
  | some n => if (d.ext n).state = 1 && !(d.ext n).closing then some n else none
  | none => none

/-- A stream's last extent has not yet closed: it is the stream's one OPEN extent (R220). -/
def Dev.stillOpen (d : Dev) (s e : Nat) : Bool :=
  match (d.strm s e).chain.getLast? with
  | some n => (d.ext n).state == 1
  | none => false

/-- Join the ring packets of a stage packet to a run list (R231). -/
def joinRuns (runs : List (Nat × Nat)) (src : List (Nat × Nat)) : List (Nat × Nat) :=
  src.foldl (fun (rs : List (Nat × Nat)) p =>
    match rs.getLast? with
    | some (a, b) => if b = p.1 then rs else if b = p.2 then rs.dropLast ++ [(a, p.1)] else rs ++ [(p.1, p.1)]
    | none => [(p.1, p.1)]) runs

/-- What a record adds to a sub-entry. -/
def SubEnt.take (x : SubEnt) (r : Rec) : SubEnt :=
  { x with lo := min x.lo r.tick, hi := max x.hi r.tick, trig := x.trig || r.type == 0x14, gap := x.gap || r.type == 0x11,
           records := x.records + 1 }

/-- The run list of an extent with the ring packets of one more stage packet; one that began in the extent before is not among them. -/
def Ext.runsWith (x : Ext) (p : StageIx) : List (Nat × Nat) := joinRuns x.runs (p.src.filter (fun a => some a.1 != x.before))

/-- An extent with one more packet: its tick range, its open sub-entry, its runs (R218, R224, R231). -/
def Ext.with_ (x : Ext) (p : StageIx) (rs : List Rec) (bytes now : Nat) : Ext :=
  let t0 := match rs with
    | r :: _ => r.tick
    | [] => 0
  let sub0 : SubEnt := x.sub.getD { lo := t0, hi := t0, trig := false, gap := false, off := x.used, bytes := 0, records := 0, openTick := now }
  { x with first := rs.foldl (fun m r => min m r.tick) (if x.used = 0 then t0 else x.first), last := rs.foldl (fun m r => max m r.tick) x.last,
           used := x.used + bytes, overrun := x.overrun || p.gapSet, sub := some (rs.foldl SubEnt.take { sub0 with bytes := sub0.bytes + bytes }),
           runs := x.runsWith p }

/-- The records of a packet. -/
def packetRecs (bytes : List Byte) : List Rec := recsOf (fieldAt bytes 4 2) (bytes.drop 8)

/-- The open sub-entry closes once it spans 262,144 bytes (R224). -/
def Dev.fullSub (d : Dev) (n : Nat) : Dev :=
  match (d.ext n).sub with
  | some s => if 262144 ≤ s.bytes then d.closeSub n else d
  | none => d

/-- Append a packet to an extent, and write the units it fills (R220, R222). -/
def Dev.appendExt (d : Dev) (n : Nat) (p : StageIx) (bytes : List Byte) : Dev :=
  let x := d.ext n
  let y := x.with_ p (packetRecs bytes) bytes.length d.count
  let d := d.putExt n { y with buf := x.buf ++ bytes, bufNs := if x.buf.isEmpty then d.ns else x.bufNs, pkts := x.pkts ++ [(p, bytes)] }
  let d := if y.runs == x.runs then d else d.putRuns n
  (d.fullSub n).writeUnits n false (bytes.length / 4096 + 2)

/-- Pin the extents of a session that a drained trigger mark asks for (R227). -/
def Dev.pinFor (d : Dev) (s n : Nat) (r : Rec) : Dev :=
  if r.type != 0x14 || bitOf (fieldAt r.payload 24 1) 3 then d
  else
    let t := fieldAt r.payload 0 8
    let span := 4 * d.nat O.storeSessionPinSpan s
    if span = 0 then d.putExt n { d.ext n with pin := true }
    else
      let d := { d with store := { d.store with pins := d.store.pins ++ [(s, t - span, t + span)] } }
      (d.sessionExts s).foldl (fun d p =>
        if p.2.meets (t - span) (t + span) && !p.2.pin then (d.putExt p.1 { d.ext p.1 with pin := true }).metaWrite p.1 else d) d

/-- Bit of a source in StoreSession.Sources (R245). -/
def sourceBit (src : Nat) : Nat := 144 * bitsOf src 15 15 + 4 * bitsOf src 13 8 + bitsOf src 7 6

/-- A packet of the stage is appended to an extent of its stream: the session's sources, the last records written and the pins follow. -/
def Dev.appendPkt (d : Dev) (s e n : Nat) (p : StageIx) (bytes : List Byte) : Dev :=
  let rs := packetRecs bytes
  let off := (d.ext n).used
  let d := d.setOct O.storeSessionSources (rs.foldl (fun l r => if (r.source / 256) % 64 < 36 then octSet l (sourceBit r.source) else l) (d.octs O.storeSessionSources s)) s
  let st := d.strm s e
  let d := d.setStrm s e { st with written := rs.foldl (fun m r => SMap.ins m r.port r.tick) st.written,
                                   lastSrc := ((p.src.getLast?).map (fun a => a.1)).or st.lastSrc }
  let d := { d with store := { d.store with held := SMap.ins d.store.held e (SMap.getD d.store.held e [] ++ [(p, n, off)]) } }
  let d := d.appendExt n p bytes
  rs.foldl (fun d r => d.pinFor s n r) d

/-- OPEN and CLOSED extents (R223). -/
def Dev.unsettled (d : Dev) : Nat := (d.store.exts.filter (fun p => p.2.state == 1 || p.2.state == 2)).length

/-- Namespaces that hold CLOSED extents, with those extents. -/
def Dev.closedIn (d : Dev) (i : Nat) : List Nat :=
  (d.store.exts.filter (fun p => p.2.state == 2 && d.nsOf p.1 == some i)).map (fun p => p.1)

/-- A Flush to a namespace, covering its CLOSED extents (R223). -/
def Dev.flushNs (d : Dev) (i : Nat) : Dev := d.nsCmd i (.flush i (d.closedIn i)) 0 0 []

/-! Store failures (R222, R232). -/

/-- An extent is LOST. -/
def Dev.markLost (d : Dev) (n : Nat) : Dev :=
  let x := d.ext n
  let d := (d.putExt n { x with state := 4, closing := false, runs := [], slot := 4096, pkts := [], oks := [] }).metaWrite n
  let d := (d.occur 1505).logNote 4 3 (leBytes 8 n) (leBytes 8 x.first ++ leBytes 8 x.last) 1505
  d.inc O.storeLostExtents

/-- Ring packets of a session in a run. -/
def Dev.runPkts (d : Dev) (x : Ext) : List RingPkt :=
  x.runs.flatMap (fun r => (d.eng x.die).pkts.filter (fun p => p.session == x.session && r.1 ≤ p.abs && p.abs ≤ r.2))

/-- The ring copy of an extent still exists. -/
def Dev.ringCopy (d : Dev) (x : Ext) : Bool :=
  let w := (d.eng x.die).writeAbs
  !x.overrun && !x.runs.isEmpty && x.runs.all (fun r => decide (w ≤ r.1 + d.ringSize x.die) &&
    (d.eng x.die).pkts.any (fun p => p.abs == r.1) && (d.eng x.die).pkts.any (fun p => p.abs == r.2))

/-- A store failure whose retry has failed: copied from the ring, or LOST. -/
def Dev.storeFailure (d : Dev) (n : Nat) : Dev :=
  if d.store.remaps.contains n || (d.ext n).state = 4 || (d.ext n).state = 5 || (d.ext n).state = 0 then d
  else if d.ringCopy (d.ext n) then { d with store := { d.store with remaps := d.store.remaps ++ [n] } }
  else d.markLost n

/-- Pack records into packets of a session (R107, R232). -/
def packRecs (lim s : Nat) (rs : List Rec) : List Packet :=
  rs.foldl (fun (acc : List Packet) r =>
    match acc.getLast? with
    | some p => if p.size + r.size ≤ lim then acc.dropLast ++ [{ p with recs := p.recs ++ [r] }] else acc ++ [{ session := s, recs := [r] }]
    | none => [{ session := s, recs := [r] }]) []

/-- One extent takes the place of another in its stream, in Isobar and for the queries; the other is RETIRED (R222, R232). -/
def Dev.replaceExt (d : Dev) (old new : Nat) : Dev :=
  let x := d.ext old
  let st := d.strm x.session x.die
  let d := match st.chain.find? (fun m => (d.ext m).next == old) with
    | some m => d.relink m new
    | none => d
  let d := d.setStrm x.session x.die { st with chain := (st.chain.filter (fun m => m != new)).map (fun m => if m = old then new else m) }
  let swap := fun (g : Nat × Nat) => if g.1 = old then (new, (d.ext new).gen) else g
  let d := { d with store := { d.store with queries := d.store.queries.map (fun (q : Nat × QueryAux) =>
    (q.1, { q.2 with seen := q.2.seen.map swap, next := q.2.next.map swap })) } }
  (d.putExt old { state := 5, gen := x.gen, session := x.session, die := x.die }).metaWrite old

/-- The writes of an extent are given up. -/
def Dev.dropWrites (d : Dev) (n : Nat) : Dev :=
  { d with store := { d.store with cmds := d.store.cmds.filter (fun k => !k.use.writes n) } }

/-- An extent is built from packets in place of another, and closes: relocation has ended (R222, R223, R232). -/
def Dev.rebuildExt (d : Dev) (old new : Nat) (x : Ext) (ps : List (StageIx × List Byte)) : Dev :=
  let d := (d.dropWrites old).setExt old { d.ext old with slot := 4096 }
  let d := d.allotExt new x
  let d := d.replaceExt old new
  (ps.foldl (fun d p => d.appendExt new p.1 p.2) d).closeExt new

/-- An extent whose writing failed is written anew into a FREE extent; its packets are kept until it has closed (log entry 41). With none FREE it
waits. -/
def Dev.moveExt (d : Dev) (n : Nat) : Dev :=
  let x := d.ext n
  match d.pickFree x.die with
  | none => d
  | some (m, d) =>
    let d := { d with store := { d.store with
      relocs := d.store.relocs.filter (fun i => i != n),
      held := SMap.setD d.store.held x.die [] ((SMap.getD d.store.held x.die []).map (fun (p : StageIx × Nat × Nat) =>
        if p.2.1 = n then (p.1, m, p.2.2) else p)) } }
    d.rebuildExt n m { session := x.session, die := x.die, next := x.next, before := x.before, pin := x.pin, recovered := x.recovered } x.pkts

/-- A write of an extent that has not closed has failed twice (R222): its bytes go into a new extent in its place; where no extent is FREE, the stream
stalls and they wait (R229). A copy that REMAPPED made fails as R232 step 5 has it. -/
def Dev.relocate (d : Dev) (n : Nat) : Dev :=
  let x := d.ext n
  if x.state != 1 || d.store.relocs.contains n || d.store.remaps.contains n then d
  else if x.remapped then (d.dropWrites n).storeFailure n
  else
    let d := (d.dropWrites n).setExt n { x with closing := true }
    let d := ({ d with store := { d.store with relocs := d.store.relocs ++ [n] } }).moveExt n
    if d.store.relocs.contains n && !d.on O.storeSessionStalled x.session then d.stallStream x.session x.die else d

/-- Relocations that waited for a FREE extent. -/
def Dev.retryRelocs (d : Dev) : Dev := d.store.relocs.foldl (fun d n => d.moveExt n) d

/-- The Read of a query has failed twice: its extent has a store failure, and the query comes back to it (R232, R239). -/
def Dev.readFailed (d : Dev) (j n : Nat) : Dev :=
  let d := d.storeFailure n
  let x := d.query j
  match x.cur with
  | some g => d.setQuery j { x with cur := none, next := some g, seen := x.seen.filter (fun h => h != g) }
  | none => d

/-- A command has failed: it is retried once; then its extent is relocated, or has a store failure. -/
def Dev.failCmd (d : Dev) (k : NvmeCmd) : Dev :=
  let last := k.retried || d.nat O.storeCtlState k.ctl == 4
  match k.use with
  | .data n _ _ => if last then d.relocate n else d.again k
  | .index n => if last then d.relocate n else d.again k
  | .meta_ n => if last then d.relocate n else d.again k
  | .flush _ ns => if last then ns.foldl (fun d n => if (d.ext n).state = 2 then d.storeFailure n else d) d else d.again k
  | .read j n => if last then d.readFailed j n else d.again k
  | _ => d

/-- Commands that wait for a controller that is FAILED fail too (R214). -/
def Dev.failDead (d : Dev) : Nat → Dev
  | 0 => d
  | n + 1 =>
    match d.store.cmds.find? (fun k => k.unsent && d.nat O.storeCtlState k.ctl == 4) with
    | none => d
    | some k =>
      Dev.failDead (({ d with store := { d.store with cmds := removeFirst (fun j => j.ctl == k.ctl && j.cid == k.cid && j.unsent) d.store.cmds } }).failCmd k) n

/-! A stop, and what every event of the store ends with. -/

/-- Commands that a stop waits for: the writes of extents, Flushes and deallocations. -/
def Dev.storeBusy (d : Dev) : Bool :=
  d.store.cmds.any (fun k => match k.use with
    | .data _ _ _ => true
    | .index _ => true
    | .meta_ _ => true
    | .flush _ _ => true
    | .trim _ => true
    | _ => false)

/-- The store is STOPPED once nothing of it is under way. -/
def Dev.stopEnds (d : Dev) : Dev :=
  if d.storeBusy then d else { d.setNat O.storeState 0 with store := { d.store with stopFlush := false } }

/-- A stop goes on (R241): with the stage drained, OPEN extents close; with all of them closed, one Flush goes to each namespace; when
those end the store is STOPPED. -/
def Dev.stopGoesOn (d : Dev) : Dev :=
  let drained := [0, 1].all (fun e => (d.eng e).stageOut.isEmpty && (d.eng e).staged.all (fun (p : StageIx) => decide (p.abs < SMap.getD d.store.take e 0)))
  if d.nat O.storeState != 3 || !drained then d
  else
    let d := (d.store.exts.filter (fun p => p.2.state == 1 && d.ownExt p.1)).foldl (fun d p => d.closeExt p.1) d
    if d.store.exts.any (fun p => p.2.state == 1 && d.ownExt p.1) then d
    else if d.store.stopFlush then d.stopEnds
    else
      let d := { d with store := { d.store with stopFlush := true } }
      (((upTo 1024).filter (fun i => d.nat O.storeNsState i == 1)).foldl (fun d i => d.flushNs i) d).stopEnds

/-- What an event of the store may let go on: commands of a FAILED controller, relocations that wait, a stop. -/
def Dev.storeTick (d : Dev) : Dev :=
  ((d.failDead (8 * (d.store.cmds.length + d.store.exts.length + 8))).retryRelocs).stopGoesOn

/-! The events of draining (R220 to R224). -/

/-- A packet goes into an extent of its stream, which is opened first where it is new; the table entry is read before it changes (R218, R220). -/
def Dev.drainInto (d : Dev) (s e n : Nat) (fresh : Bool) (p : StageIx) (bytes : List Byte) : Dev :=
  let t := d.tableRead e n
  if t.1 then
    let d := { t.2 with store := { t.2.store with take := SMap.ins t.2.store.take e (p.abs + p.bytes) } }
    let d := if fresh then
        (match (d.strm s e).chain.getLast? with
         | some m => d.splitRun m p.src
         | none => d).openExt s e n
      else d
    (d.appendPkt s e n p bytes).release e
  else t.2

/-- A packet needs a new extent: draining waits while the stream's last one closes, at the limit of R223, and for a reclaim that a query read holds
up (R228); the stream stalls where none can be obtained (R229). -/
def Dev.drainNew (d : Dev) (s e : Nat) (p : StageIx) (bytes : List Byte) : Dev :=
  if d.stillOpen s e || 4096 ≤ d.unsettled then d
  else match d.obtain s e (d.sessionUsed s + 1) with
    | .got m d => d.drainInto s e m true p bytes
    | .wait => d
    | .stall => (d.stallStream s e).release e

/-- The Storage Engine takes the next stage packet (R220 to R224, R229). A stage packet that reads with a bus error waits (log
entry 40). -/
def stageDrainEffect (e : Nat) (d : Dev) : Dev :=
  d.when ((d.nat O.storeState == 2 || d.nat O.storeState == 3) && !d.stopped) (fun d => d.orHold (fun d =>
    let d := d.flushStage e
    let pos := SMap.getD d.store.take e 0
    (match (d.eng e).staged.find? (fun (p : StageIx) => decide (pos ≤ p.abs)) with
    | none => d
    | some p =>
      let s := p.session
      let past := fun (d : Dev) => { d with store := { d.store with take := SMap.ins d.store.take e (p.abs + p.bytes) } }
      if (d.strm s e).stalled then ((past d).add O.storeSessionDiscarded p.bytes s).release e
      else
        let r := d.fetch (niStore e) (d.nat O.memStageBase e + p.abs % d.nat O.memStageSize e) p.bytes
        match r.1 with
        | none => r.2
        | some bytes =>
          let d := r.2
          let fits := fun n => let x := d.ext n
                               x.used + p.bytes ≤ dataArea && (x.subs.length < 2046 || x.sub.isSome) && (x.runsWith p).length ≤ 256
          match d.openOf s e with
          | some n => if fits n then d.drainInto s e n false p bytes else (d.closeExt n).drainNew s e p bytes
          | none => d.drainNew s e p bytes).storeTick))

/-- Store.DrainAge has passed since a unit's first byte: the bytes present are written (R222). -/
def drainAgeEffect (e s : Nat) (d : Dev) : Dev :=
  match d.openOf s e with
  | none => d
  | some n =>
    let x := d.ext n
    d.when (!x.buf.isEmpty && decide (x.bufNs + 1000000 * d.nat O.storeDrainAge ≤ d.ns)) (fun d => (d.writeUnits n true 1).storeTick)

/-- Store.FlushInterval has passed (R223): at the limit of 4,096 extents a stop waits for a Flush too. -/
def flushIntervalEffect (d : Dev) : Dev :=
  d.when ((d.nat O.storeState == 2 || d.nat O.storeState == 3) && d.store.flushNs + 1000000 * d.nat O.storeFlushInterval ≤ d.ns) (fun d =>
    let d := { d with store := { d.store with flushNs := d.ns } }
    (((upTo 1024).filter (fun i => d.nat O.storeNsState i == 1 && !(d.closedIn i).isEmpty)).foldl (fun d i => d.flushNs i) d).storeTick)

/-- A sub-entry has been open for 1 ms and holds a packet (R224). -/
def subAgeEffect (e s : Nat) (d : Dev) : Dev :=
  match d.openOf s e with
  | none => d
  | some n => match (d.ext n).sub with
    | none => d
    | some x => d.when (0 < x.bytes && x.openTick + 4000000 ≤ d.count) (fun d => d.closeSub n)

/-! Reclamation on request (R227, R228, R230). -/

/-- A RING session whose oldest extents are to be reclaimed: one above its quota (R230 step 2), and a stalled one at it, since its stall ends below it (step 5). -/
def Dev.overQuota (d : Dev) (s : Nat) : Bool :=
  d.nat O.storeSessionPolicy s == 0 &&
    (d.nat O.storeSessionQuota s < d.sessionUsed s || d.on O.storeSessionStalled s && d.nat O.storeSessionQuota s ≤ d.sessionUsed s)

/-- One extent of a session is reclaimed: one that a Release named, or the oldest of a RING session above its quota, which waits while a query read
of it is in flight; with none left the session stalls. -/
def reclaimEffect (s : Nat) (d : Dev) : Dev :=
  d.orHold (fun d =>
    (match d.store.toFree.find? (fun n => (d.ext n).session == s && !(d.ext n).pin && !d.inFlight n) with
    | some n =>
      let t := d.tableRead (d.ext n).die n
      if t.1 then (t.2.reclaimExt n).unstall s else t.2
    | none =>
      d.when (d.overQuota s) (fun d =>
        match d.oldestExt s with
        | some n => d.when (!d.inFlight n) (fun d => ((d.reclaimExt n).inc O.storeSessionReclaimed s).unstall s)
        | none => d.when (!d.on O.storeSessionStalled s) (fun d => d.stallSession s))).storeTick)

/-- A committed quota (R230): a KEEP session above it stalls at once. -/
def Dev.quotaChanged (d : Dev) (s : Nat) : Dev :=
  if d.nat O.storeSessionQuota s < d.sessionUsed s && d.nat O.storeSessionPolicy s = 1 && !d.on O.storeSessionStalled s then
    d.stallSession s
  else d.unstall s

/-- A pin is cleared. -/
def Dev.unpinExt (d : Dev) (n : Nat) : Dev :=
  let x := d.ext n
  if x.pin then ((d.putExt n { x with pin := false }).metaWrite n).unstall x.session else d

/-- A committed Store.Unpin. -/
def Dev.unpin (d : Dev) (n : Nat) : Dev := (d.unpinExt n).storeTick

/-- A committed StoreSession.UnpinAll: the spans of earlier trigger marks are forgotten too (DESIGN CHOICE, log entry 114). -/
def Dev.unpinSession (d : Dev) (s : Nat) : Dev :=
  let d := (d.sessionExts s).foldl (fun d p => d.unpinExt p.1) d
  ({ d with store := { d.store with pins := d.store.pins.filter (fun p => p.1 != s) } }).storeTick

/-- A committed StoreSession.Release: every unpinned extent of the session that is not OPEN is to be reclaimed (R245). -/
def Dev.releaseSession (d : Dev) (s : Nat) : Dev :=
  let ns := ((d.sessionExts s).filter (fun p => !p.2.pin && p.2.state != 1)).map (fun p => p.1)
  { d with store := { d.store with toFree := d.store.toFree ++ ns.filter (fun n => !d.store.toFree.contains n) } }

/-- A committed StoreSession.Enable of 0 closes the session's OPEN extents (R223). -/
def Dev.sessionDisabled (d : Dev) (s : Nat) : Dev :=
  ([0, 1].foldl (fun d e => match d.openOf s e with
    | some n => d.closeExt n
    | none => d) d).storeTick

/-- The ring copy of a failed extent is copied into a new one (R232 step 3); a copy that is gone or does not read leaves it LOST (step
4), and so does one for which no extent is FREE (DESIGN CHOICE, log entry 114). -/
def remapEffect (n : Nat) (d : Dev) : Dev :=
  d.when (d.store.remaps.contains n) (fun d => d.orHold (fun d =>
    let d := { d with store := { d.store with remaps := d.store.remaps.filter (fun m => m != n) } }
    let x := d.ext n
    (if !d.ringCopy x then d.markLost n
    else
      let r := (d.runPkts x).foldl (fun (acc : Option (List Rec) × Dev) p =>
        let b := acc.2.fetch (niPromoter x.die) (acc.2.ringAddr x.die p.abs + 8) (p.bytes - 8)
        match acc.1, b.1 with
        | some rs, some l => (some (rs ++ recsOf p.ix.length l), b.2)
        | _, _ => (none, b.2)) (some [], d)
      match r.1 with
      | none => r.2.markLost n
      | some rs =>
        match r.2.pickFree x.die with
        | none => r.2.markLost n
        | some (m, d) =>
          let ps := (packRecs (d.nat O.captureEnginePacketSize x.die) x.session rs).map (fun p =>
            (({ abs := 0, bytes := p.size, session := x.session } : StageIx), p.bytes))
          let d := d.rebuildExt n m { session := x.session, die := x.die, remapped := true, next := x.next, runs := x.runs, pin := x.pin } ps
          (d.inc O.storeRemaps).logNote 4 3 (leBytes 8 n) (leBytes 8 x.first ++ leBytes 8 x.last) 0xFFFF).storeTick))

/-! Drive faults (R214). -/

/-- Every command that a controller holds fails. -/
def Dev.failAll (d : Dev) (c : Nat) : Dev :=
  let ks := d.store.cmds.filter (fun k => k.ctl == c && !k.unsent)
  let d := { d with store := { d.store with cmds := d.store.cmds.filter (fun k => !(k.ctl == c && !k.unsent)) } }
  ks.foldl Dev.failCmd d

/-- The controller is FAILED: its namespaces go OFFLINE, outstanding and new commands fail, and a Logbook entry names it. -/
def Dev.ctlFailed (d : Dev) (c : Nat) : Dev :=
  let d := (d.setNat O.storeCtlState 4 c).setCtl c { d.ctl c with phase := 0 }
  let d := (upTo 1024).foldl (fun d i =>
    if d.nat O.storeNsState i != 0 && d.nat O.storeNsController i = c then d.setNat O.storeNsState 2 i else d) d
  (d.logNote 4 4 (leBytes 2 (d.nat O.storeCtlBdf c) ++ leBytes 1 (d.nat O.storeCtlQuad c)) [] 0xFFFF).failAll c

/-- Controller reset: the third within 60 s makes it FAILED. -/
def Dev.ctlReset (d : Dev) (c : Nat) : Dev :=
  let x := d.ctl c
  let ts := x.resets.filter (fun t => decide (d.ns < t + 60000000000)) ++ [d.ns]
  let d := (d.setCtl c { x with resets := ts, phase := 1 }).inc O.storeCtlResets c
  if 3 ≤ ts.length then d.ctlFailed c else (d.setNat O.storeCtlState 3 c).failAll c

/-- A controller is in use. -/
def Dev.ctlUsed (d : Dev) (c : Nat) : Bool := let st := d.nat O.storeCtlState c; 1 ≤ st && st ≤ 3

/-- CSTS.CFS is found set. -/
def fatalEffect (c : Nat) (d : Dev) : Dev := d.when (d.ctlUsed c) (fun d => (d.ctlReset c).storeTick)

/-- No admin completion within Store.AdminTimeout. -/
def adminTimeoutEffect (c : Nat) (d : Dev) : Dev :=
  d.when (d.ctlUsed c && d.store.cmds.any (fun k => k.ctl == c && k.use.isAdmin && !k.unsent &&
      decide (k.startNs + 1000000 * d.nat O.storeAdminTimeout ≤ d.ns)))
    (fun d => ((d.inc O.storeCtlTimeouts c).ctlReset c).storeTick)

/-- No I/O completion within Store.IoTimeout: an abort, and after as long again, with neither completed, a controller reset. -/
def ioTimeoutEffect (c cid : Nat) (d : Dev) : Dev :=
  let t := 1000000 * d.nat O.storeIoTimeout
  match d.store.cmds.find? (fun k => k.ctl == c && k.cid == cid && !k.use.isAdmin && !k.unsent) with
  | none => d
  | some k => match k.abortNs with
    | none => d.when (decide (k.startNs + t ≤ d.ns)) (fun d =>
        let d := { d with store := { d.store with cmds := updateFirst (fun j => j.ctl == c && j.cid == cid) (fun j => { j with abortNs := some d.ns }) d.store.cmds } }
        (d.inc O.storeCtlTimeouts c).nvme c 0 (.abort cid) 0 0 [])
    | some a => d.when (decide (a + t ≤ d.ns)) (fun d => (d.ctlReset c).storeTick)

/-- CSTS.RDY reaches the value awaited, or CAP.TO runs out: reset goes on to initialisation, and that to READY, where commands that
waited are sent. -/
def ctlReadyEffect (c : Nat) (rdy : Option Bool) (d : Dev) : Dev :=
  let x := d.ctl c
  match rdy with
  | none => d.when (x.phase != 0) (fun d => (d.ctlFailed c).storeTick)
  | some false => d.when (x.phase == 1) (fun d => (d.setCtl c { x with phase := 2 }).setNat O.storeCtlState 1 c)
  | some true => d.when (x.phase == 2) (fun d =>
      let d := (d.setCtl c { x with phase := 0 }).setNat O.storeCtlState 2 c
      d.pumpCtl c d.store.cmds.length)

/-- A committed StoreCtl.Reset re-initialises a controller, FAILED or not. -/
def Dev.ctlRestart (d : Dev) (c : Nat) : Dev :=
  if d.nat O.storeCtlState c = 0 then d
  else (((d.setNat O.storeCtlState 3 c).setCtl c { d.ctl c with phase := 1, resets := [], unknownNs := none }).failAll c).storeTick

/-- A completion that names no command, or breaks the phase or head rules, is discarded and counted; a second within 1 s resets the
controller (R214). -/
def Dev.badCompletion (d : Dev) (c : Nat) : Dev :=
  d.when (d.ctlUsed c) (fun d =>
    let x := d.ctl c
    let again := match x.unknownNs with
      | some t => decide (d.ns < t + 1000000000)
      | none => false
    let d := (d.inc O.storeCtlUnknownCompletions c).setCtl c { x with unknownNs := some d.ns }
    if again then d.ctlReset c else d)

/-- What a successful completion does. What a Read brings is kept for its query (R235). -/
def Dev.cmdDone (d : Dev) (k : NvmeCmd) (data : List Byte) (dw3 : Nat) : Dev :=
  match k.use with
  | .data n lo hi =>
    let d := d.setExt n { d.ext n with oks := (d.ext n).oks ++ [(lo, hi)] }
    (((d.add O.storeDrainBytes (hi - lo)).release 0).release 1).settleExt n
  | .index n => d.settleExt n
  | .meta_ n => d.settleExt n
  | .flush _ ns => ns.foldl (fun d n =>
      if (d.ext n).state = 2 then d.putExt n { d.ext n with state := 3, runs := [], slot := 4096 } else d) d
  | .read j n =>
    let x := d.query j
    match x.cur with
    | some g => if g.1 = n then d.setQuery j { x with got := some data } else d
    | none => d
  | .admin =>
    let d := d.setNat O.storeCtlAdminStatus (dw3 % 2 ^ 32) k.ctl
    if data.isEmpty then d else d.setOct O.storeCtlAdminData (fit 4096 data) k.ctl
  | _ => d

/-- The abort of a command has completed: the command counts as failed (R214). -/
def Dev.abortDone (d : Dev) (c cid : Nat) : Dev :=
  match d.store.cmds.find? (fun k => k.ctl == c && k.cid == cid && !k.use.isAdmin && !k.unsent) with
  | none => d
  | some k => ({ d with store := { d.store with cmds := removeFirst (fun j => j.ctl == c && j.cid == cid && !j.unsent) d.store.cmds } }).failCmd k

/-- A completion arrives: a media error is counted, a denied access makes the namespace LOCKED (R212). -/
def Dev.complete (d : Dev) (c cid : Nat) (fin : NvmeEnd) (data : List Byte) (dw3 : Nat) : Dev :=
  match d.store.cmds.find? (fun k => fin != .broken && k.ctl == c && k.cid == cid && !k.unsent) with
  | none => d.badCompletion c
  | some k =>
    let d := { d with store := { d.store with cmds := removeFirst (fun j => j.ctl == c && j.cid == cid && !j.unsent) d.store.cmds } }
    let d := d.pumpCtl c 1
    let d := if fin = .media then d.inc O.storeCtlMediaErrors c else d
    let d := if fin = .denied then
        (match k.use with
         | .flush i _ => some i
         | .label i => some i
         | u => u.ext?.bind d.nsOf).elim d (fun i => d.setNat O.storeNsState 3 i)
      else d
    match k.use with
    | .abort i => d.abortDone c i
    | .admin => if fin = .ok then d.cmdDone k data dw3 else d.setNat O.storeCtlAdminStatus (dw3 % 2 ^ 32) c
    | _ => if fin = .ok then d.cmdDone k data dw3 else d.failCmd k

/-- A completion arrives. -/
def completionEffect (c cid : Nat) (fin : NvmeEnd) (data : List Byte) (dw3 : Nat) (d : Dev) : Dev :=
  (d.complete c cid fin data dw3).storeTick

/-- A committed StoreCtl.AdminCmd goes to its controller (R213): the engine puts an address of its own, an open value, into the entry's data pointer.
One for a controller that is absent or FAILED fails at once. -/
def Dev.adminCmd (d : Dev) (c : Nat) (entry : List Byte) : Dev :=
  if d.nat O.storeCtlState c = 0 || d.nat O.storeCtlState c = 4 then d
  else
    let data := d.octs O.storeCtlAdminData c
    (d.nvme c (fieldAt entry 4 4) .admin 0 data.length (entry.take 24 ++ leBytes 8 d.draw ++ zeros 8 ++ entry.drop 40 ++ data)).drawn

/-- A Storage link goes down: outstanding commands fail, and controllers behind it are reset when it returns (R71, R214). -/
def surpriseEffect (q : Nat) (d : Dev) : Dev :=
  d.when (d.role q == 4) (fun d =>
    let d := d.surpriseDown q
    ((upTo 64).foldl (fun d c =>
      if d.nat O.storeCtlState c != 0 && d.nat O.storeCtlQuad c = q then
        (d.setCtl c { d.ctl c with downed := true }).failAll c
      else d) d).storeTick)

/-- A PCIe link completes training (R70, R71); while its reset pin is low it cannot (R444). -/
def linkUpEffect (q speed width : Nat) (d : Dev) : Dev :=
  d.when (!d.stopped && ((d.role q == 3 && !d.pins.hostReset) || (d.role q == 4 && d.pins.released.contains q))) (fun d =>
    let d := d.pcieUp q speed width
    ((upTo 64).foldl (fun d c =>
      if (d.ctl c).downed && d.nat O.storeCtlQuad c = q then
        let d := d.setCtl c { d.ctl c with downed := false }
        if d.nat O.storeCtlState c = 4 then d else d.ctlReset c
      else d) d).storeTick)

/-! Mount and stop (R211, R216, R240 to R242). -/

/-- The peer's identity, as the twin port's CAPS gave it. -/
def Dev.peerIdentity (d : Dev) : List Byte := d.octs O.quadSpapaxPeerIdentity 34

/-- What the label of a mapped namespace makes of it: 1 ONLINE, 5 BLANK, 6 FOREIGN. -/
def Dev.labelState (d : Dev) (n : Nat) (l : NsLabel) : Nat :=
  if !l.magicOk then 5
  else if l.version = 1 && l.index = n && l.base = d.nat O.storeNsBaseExtent n && l.extents = d.nat O.storeNsExtents n &&
      (l.owner == d.octs O.identityDeviceId || (d.twin.known && l.owner == d.peerIdentity)) then 1
  else 6

/-- The bytes of the records at the front of some bytes, at most n, as they stand. -/
def recSlices : Nat → List Byte → List (List Byte)
  | 0, _ => []
  | n + 1, l =>
    let m := 32 + fieldAt l 12 3 + fieldAt l 15 1
    if l.length < 32 then [] else l.take m :: recSlices n (l.drop m)

/-- Whole packets at the front of an extent's data area, each with every HCRC good (R242). -/
def goodPackets : Nat → List Byte → Nat → List (List Byte)
  | 0, _, _ => []
  | n + 1, l, room =>
    let b := bitsOf (fieldAt l 0 8) 18 0
    if b % 8 = 0 && 40 ≤ b && b ≤ 262144 && b ≤ room && b ≤ l.length &&
        recsGood (fieldAt l 4 2) ((l.take b).drop 8) then
      l.take b :: goodPackets n (l.drop b) (room - b)
    else []
where
  recsGood : Nat → List Byte → Bool
    | 0, l => l.isEmpty
    | n + 1, l =>
      let m := 32 + fieldAt l 12 3 + fieldAt l 15 1
      32 ≤ l.length && hcrcOk l && m ≤ l.length && recsGood n (l.drop m)

/-- What the scan of an OPEN extent accepts (R242): USED, the tick range and the sub-entries are made anew. -/
def Dev.scanExt (d : Dev) (n : Nat) (data : List Byte) : Dev :=
  let ps := goodPackets (data.length / 40 + 1) (data.take dataArea) dataArea
  let x := d.ext n
  let d := d.setExt n { x with first := 0, last := 0, used := 0, recovered := true, sub := none, subs := [], buf := [], issued := 0, pkts := [] }
  ps.foldl (fun d b =>
    let x := d.ext n
    let p : StageIx := { abs := 0, bytes := b.length, session := x.session, gapSet := x.overrun }
    (d.setExt n { x.with_ p (packetRecs b) b.length d.count with issued := x.used + b.length, pkts := x.pkts ++ [(p, b)] }).fullSub n) d

/-- Recover an OPEN extent (R242): what its drive holds of it stays, and the rest is written as it closes. -/
def Dev.recoverExt (d : Dev) (n : Nat) (data : List Byte) : Dev :=
  let d := d.scanExt n data
  let y := d.ext n
  let w := d.nat O.storeWriteSize
  let d := d.setExt n { y with buf := (data.take y.used).drop (y.used / w * w) }
  (d.closeExt n).inc O.storeRecovered

/-- Recover an OPEN extent of the peer: of it only the entry and its metadata copy are written (R305). -/
def Dev.recoverPeer (d : Dev) (n : Nat) (data : List Byte) : Dev :=
  let d := (d.scanExt n data).closeSub n
  ((d.putExt n { d.ext n with closing := true }).metaWrite n).inc O.storeRecovered

/-- Controllers in discovery order (R211). -/
def ctlOrder (l : List CtlFound) : List CtlFound :=
  sortBy (fun a b => decide (a.quad.val < b.quad.val) || (a.quad == b.quad && decide (a.bdf < b.bdf))) l

/-- Initialise the controllers that enumeration found behind the Storage quads; a function beyond the 64th is left disabled and named in a Logbook
entry. The ranges that a root port is assigned are the engine's to choose (log entry 39). -/
def Dev.mountCtls (d : Dev) (l : List CtlFound) : Dev :=
  let l := ctlOrder (l.filter (fun f => d.role f.quad == 4))
  let d := (upTo 64).foldl (fun d c => (d.setNat O.storeCtlState 0 c).setCtl c {}) d
  let d := ((l.take 64).zip (upTo 64)).foldl (fun (d : Dev) p =>
    let c := p.2
    let f := p.1
    let d := ((d.setNat O.storeCtlQuad f.quad c).setNat O.storeCtlBdf f.bdf c).setOct O.storeCtlIdentity f.identity c
    let d := (d.setNat O.storeCtlNamespaces f.namespaces c).setCtl c { cacheless := f.cacheless }
    let d := ({ d with links := { d.links with assigned := SMap.ins d.links.assigned f.quad (d.draw, Config.freeNat (d.free + 1)) } }).drawn.drawn
    if f.ok then d.setNat O.storeCtlState 2 c
    else (d.setNat O.storeCtlState 4 c).logNote 4 4 (leBytes 2 f.bdf ++ leBytes 1 f.quad) [] 0xFFFF) d
  (l.drop 64).foldl (fun (d : Dev) f => d.logNote 4 4 (leBytes 2 f.bdf ++ leBytes 1 f.quad) [] 0xFFFF) d

/-- What the mount finds of namespace n. -/
def Dev.nsFound (d : Dev) (n : Nat) (l : List NsFound) : Option NsFound :=
  l.find? (fun f => f.ctl.val == d.nat O.storeNsController n && f.nsid == d.nat O.storeNsNsid n)

/-- Set the state of each mapped namespace (R212, R240 step 3). -/
def Dev.mountNs (d : Dev) (l : List NsFound) : Dev :=
  (upTo 1024).foldl (fun d n =>
    if d.nat O.storeNsNsid n = 0 || d.nat O.storeNsExtents n = 0 then d.setNat O.storeNsState 0 n
    else match d.nsFound n l with
      | none => d.setNat O.storeNsState 2 n
      | some f =>
        if d.nat O.storeCtlState f.ctl != 2 then d.setNat O.storeNsState 2 n
        else if !f.fmtOk then d.setNat O.storeNsState 4 n
        else if f.locked then d.setNat O.storeNsState 3 n
        else
          let d := d.setNat O.storeNsState (d.labelState n f.label) n
          if f.label.owner == d.octs O.identityDeviceId then d
          else { d with store := { d.store with peerNs := d.store.peerNs.filter (fun i => i != n) ++ [n] } }) d

/-- Load the entry copies of a namespace (R240 step 4). -/
def Dev.loadNs (d : Dev) (f : NsFound) : Dev := f.entries.foldl (fun d e => (d.setExt e.1 (Ext.parse e.2)).tellExt e.1) d

/-- The table in DDR takes the entries of a namespace's extents, FREE ones too (R218). -/
def Dev.putTable (d : Dev) (i : Nat) : Dev :=
  let b := d.nat O.storeNsBaseExtent i
  d.postAt (niStore 0) (d.nat O.storeTableBase + 32 * b) ((upTo (d.nat O.storeNsExtents i)).flatMap (fun k => (d.ext (b + k)).entry))

/-- Rebuild the streams of this device from NEXT: a stream begins at the extent that no other names. -/
def Dev.rebuild (d : Dev) : Dev :=
  let mine := d.store.exts.filter (fun p => 1 ≤ p.2.state && p.2.state ≤ 4 && d.ownExt p.1)
  let d := { d with store := { d.store with streams := [] } }
  let heads := mine.filter (fun p => !mine.any (fun q => q.2.next == p.1 && q.2.session == p.2.session && q.2.die == p.2.die))
  heads.foldl (fun (d : Dev) h =>
    let st := d.strm h.2.session h.2.die
    d.setStrm h.2.session h.2.die { st with chain := st.chain ++ follow d mine.length h.1 }) d
where
  follow (d : Dev) : Nat → Nat → List Nat
    | 0, n => [n]
    | k + 1, n =>
      let m := (d.ext n).next
      if m < 2 ^ 28 && 1 ≤ (d.ext m).state && (d.ext m).state ≤ 4 then n :: follow d k m else [n]

/-- The extent table and the run lists that follow it lie in populated DDR and clear of both stages (R218, R231). -/
def Dev.tableOk (d : Dev) : Bool :=
  let a := d.nat O.storeTableBase
  let n := d.tableBytes + 16777216
  let clear := fun e => let b := d.nat O.memStageBase e
                        let m := d.nat O.memStageSize e
                        m == 0 || a + n ≤ b || b + m ≤ a
  d.ddrSpan a n && clear 0 && clear 1

/-- What the store holds is forgotten at a mount, but for the peer's extents and the labels that still wait to be written; those wait for their
controllers again. -/
def Dev.clearStore (d : Dev) (nss : List NsFound) : Dev :=
  let label := fun (k : NvmeCmd) => match k.use with
    | .label _ => true
    | _ => false
  { d with store := { d.store with
      exts := d.store.exts.filter (fun p => !d.ownExt p.1), streams := [], held := [], pins := [], toFree := [], remaps := [], relocs := [], peerNs := [],
      cmds := (d.store.cmds.filter label).map (fun k => { k with unsent := true }),
      lbas := nss.foldl (fun m (f : NsFound) => SMap.ins m (f.ctl.val * 2 ^ 32 + f.nsid) f.lbas) [] } }

/-- Steps 1 to 5 of the table "Mount timing", with what enumeration and the reads of the drives find. -/
def Dev.mount (d : Dev) (ctls : List CtlFound) (nss : List NsFound) : Dev :=
  d.when (d.nat O.storeState == 1) (fun d =>
    if !d.tableOk then d.setNat O.storeState 4
    else
      let d := ((d.clearStore nss).mountCtls ctls).mountNs nss
      let ns := (upTo 1024).filter (fun n => d.nat O.storeNsState n == 1)
      let on := ns.filterMap (fun n => d.nsFound n nss)
      let d := ns.foldl Dev.putTable (on.foldl Dev.loadNs d)
      let d := d.rebuild
      let d := (d.store.exts.filter (fun p => p.2.state == 1 && d.ownExt p.1)).foldl (fun d p =>
        d.recoverExt p.1 ((on.flatMap (fun f => f.openData)).lookup p.1 |>.getD [])) d
      let d := (upTo 256).foldl (fun d s => d.setOct O.storeSessionSources (zeros 36) s) d
      let d := on.foldl (fun d f => f.sources.foldl (fun d x => d.setOct O.storeSessionSources
        (fit 36 (List.zipWith (fun a b => a ||| b) (d.octs O.storeSessionSources x.1) (fit 36 x.2))) x.1) d) d
      let d := (upTo 256).foldl (fun d s => d.unstall s) d
      let d := (upTo 64).foldl (fun d c => d.pumpCtl c d.store.cmds.length) d
      ({ d.setNat O.storeState 2 with store := { d.store with flushNs := d.ns } }).storeTick)

/-- The promoter's open packets close because the store stops (R168). -/
def Dev.closeStages (d : Dev) : Dev := (((d.closeStage 0 1).closeStage 1 1).flushStage 0).flushStage 1

/-- A committed Store.Control: 1 begins a mount from STOPPED; 0 stops: every stream stalls, but the stage is drained (R241); and in FAULT, where nothing
can be drained, the store is STOPPED at once (log entry 42). -/
def Dev.storeControl (d : Dev) (v : Nat) : Dev :=
  let st := d.nat O.storeState
  if v = 1 then (if st = 0 then d.setNat O.storeState 1 else d)
  else if st = 1 || st = 2 then
    let d := d.streamSessions.foldl (fun d s => if d.on O.storeSessionStalled s then d else d.stallTold s) d
    ((d.setNat O.storeState 3).closeStages).storeTick
  else if st = 4 then (d.setNat O.storeState 0).closeStages
  else d

/-- The label of namespace i, with the bytes of its LABEL_TICK (R216). -/
def Dev.label (d : Dev) (i : Nat) (tick : List Byte) : List Byte :=
  fit 4096 ([0x45, 0x4B, 0x58, 0x53, 0x54, 0x4F, 0x52, 0x45] ++ leBytes 4 1 ++ leBytes 2 i ++ zeros 2 ++ leBytes 4 (d.nat O.storeNsBaseExtent i) ++
    leBytes 4 (d.nat O.storeNsExtents i) ++ fit 32 (d.octs O.identityDeviceId) ++ tick)

/-- A committed StoreNs.Initialise: a new label and zero entry copies, every extent FREE with GEN 0 (R216, R240). -/
def Dev.nsInitialise (d : Dev) (n : Nat) : Dev :=
  let b := d.nat O.storeNsBaseExtent n
  let m := d.nat O.storeNsExtents n
  let gone := (d.store.exts.filter (fun p => b ≤ p.1 && p.1 < b + m && d.ownExt p.1)).map (fun p => p.1)
  let d := gone.foldl (fun d k => (d.setExt k {}).tellExt k) d
  let d := { d with store := { d.store with streams := d.store.streams.map (fun (s : Nat × Stream) =>
    (s.1, { s.2 with chain := s.2.chain.filter (fun k => !gone.contains k) })) } }
  let d := d.nsCmd n (.label n) 0 4096 (d.label n (leBytes 8 d.count))
  let copies := 4096 * ((m + 127) / 128)
  d.nsCmd n (.label n) 1 copies (zeros copies)

/-- NVME_COMPLETION. -/
def execNvmeCompletion (dt : Nat) (c : Fin 64) (cid : Nat) (fin : NvmeEnd) (data : List Byte) (dw3 : Nat) (s : State) :
    Host.Outcome State Fault Refusal :=
  run s dt (completionEffect c cid fin data dw3)

/-- ADMIN_TIMEOUT. -/
def execAdminTimeout (dt : Nat) (c : Fin 64) (s : State) : Host.Outcome State Fault Refusal := run s dt (adminTimeoutEffect c)

/-- IO_TIMEOUT. -/
def execIoTimeout (dt : Nat) (c : Fin 64) (cid : Nat) (s : State) : Host.Outcome State Fault Refusal := run s dt (ioTimeoutEffect c cid)

/-- CONTROLLER_FATAL. -/
def execControllerFatal (dt : Nat) (c : Fin 64) (s : State) : Host.Outcome State Fault Refusal := run s dt (fatalEffect c)

/-- CONTROLLER_READY. -/
def execControllerReady (dt : Nat) (c : Fin 64) (rdy : Option Bool) (s : State) : Host.Outcome State Fault Refusal :=
  run s dt (ctlReadyEffect c rdy)

/-- PCIE_SURPRISE_DOWN. -/
def execPcieSurpriseDown (dt : Nat) (q : Fin 36) (s : State) : Host.Outcome State Fault Refusal := run s dt (surpriseEffect q)

/-- PCIE_LINK_UP. -/
def execPcieLinkUp (dt : Nat) (q : Fin 36) (speed : Fin 7) (width : Nat) (s : State) : Host.Outcome State Fault Refusal :=
  run s dt (linkUpEffect q speed width)

/-- STAGE_DRAIN. -/
def execStageDrain (dt : Nat) (e : Fin 2) (s : State) : Host.Outcome State Fault Refusal := run s dt (stageDrainEffect e)

/-- DRAIN_AGE_EXPIRY. -/
def execDrainAgeExpiry (dt : Nat) (e : Fin 2) (n : Fin 256) (s : State) : Host.Outcome State Fault Refusal := run s dt (drainAgeEffect e n)

/-- FLUSH_INTERVAL. -/
def execFlushInterval (dt : Nat) (s : State) : Host.Outcome State Fault Refusal := run s dt flushIntervalEffect

/-- SUBENTRY_AGE_EXPIRY. -/
def execSubentryAgeExpiry (dt : Nat) (e : Fin 2) (n : Fin 256) (s : State) : Host.Outcome State Fault Refusal := run s dt (subAgeEffect e n)

/-- RECLAIM. -/
def execReclaim (dt : Nat) (n : Fin 256) (s : State) : Host.Outcome State Fault Refusal := run s dt (reclaimEffect n)

/-- REMAP_COPY. -/
def execRemapCopy (dt : Nat) (extent : Nat) (s : State) : Host.Outcome State Fault Refusal := run s dt (remapEffect extent)

end Sys2Proof.Machine
end

