-- ==== Sys2Proof/Machine/Power.lean ====
section
/-! DEFINITION. The fabric rail, supply supervision, power domains and thermal protection (R408 to R422). -/

set_option Elab.async false

namespace Sys2Proof.Machine

/-! The fabric rail (R410). -/

/-- The setpoint that AUTO gives, in mV; none before every fabric die's margin has been measured (log entry 51). -/
def Dev.autoTarget (d : Dev) : Option Nat :=
  if (upTo 8).any (fun f => d.nat O.ageingDieState 0 0 f == 2) then some 800
  else if (upTo 8).all (fun f => d.nat O.ageingRequiredVoltage 0 0 f != 0) then
    let v := (upTo 8).foldl (fun m f => max m (d.nat O.ageingRequiredVoltage 0 0 f)) 0
    some (min 800 (max 650 ((v + 10 + 4) / 5 * 5)))
  else none

/-- The setpoint aimed at. -/
def Dev.avsTarget (d : Dev) : Nat :=
  if d.nat O.powerAvsMode = 1 then
    (if (upTo 8).any (fun f => d.nat O.ageingDieState 0 0 f == 2) then 800 else d.nat O.powerAvsFixed)
  else d.autoTarget.getD (d.nat O.powerAvsSetpoint)

/-- The regulator answers. -/
def Dev.avsAnswer (d : Dev) : Dev := { d with power := { d.power with silent := 0, noLower := false } }

/-- A voltage command is sent to the regulator, which answers or not: 5 mV towards the target, at most once in 1 ms upwards and once in 10 s
downwards (R410). -/
def avsEffect (answered : Bool) (d : Dev) : Dev :=
  let v := d.nat O.powerAvsSetpoint
  let t := d.avsTarget
  let up := v < t
  let due := d.power.avsNs = 0 || decide (d.power.avsNs + (if up then 1000000 else 10000000000) ≤ d.ns)
  d.when (d.boot.fuses && !d.power.tripped && v != t && due) (fun d =>
    if !up && d.power.noLower then (if answered then d.avsAnswer else d)
    else if answered then
      let d := d.avsAnswer.setNat O.powerAvsSetpoint (if up then v + 5 else v - 5)
      { d with power := { d.power with avsNs := d.ns } }
    else
      let n := d.power.silent + 1
      let d := { d with power := { d.power with silent := n % 3 } }
      if n = 3 then (({ d with power := { d.power with noLower := true } }).inc O.powerAvsFaults).occur 1501 else d)

/-! Supervision (R411, R412). -/

/-- A monitored rail has left its window for 5 µs: a device reset with cause SUPPLY, and the rail is kept (R411). Rails are numbered from 1. -/
def railEffect (rail pins : Nat) (d : Dev) : Dev := (d.setNat O.powerSupplyFaultRail (rail + 1)).deviceReset 5 pins

/-- PWR_FAIL_N has been low for 1 µs (table "Power-fail timing", steps 1 to 3). -/
def failWarnEffect (d : Dev) : Dev :=
  d.when (!d.on O.powerFailWarn) (fun d =>
    let d := (d.setNat O.powerFailWarn 1).inc O.powerFailWarnings
    let d := ({ d with power := { d.power with warnNs := some d.ns } }).checkpoint
    (upTo 1024).foldl (fun d i => if (d.closedIn i).isEmpty then d else d.flushNs i) d)

/-- PWR_FAIL_N has been high for 1 ms (step 5). -/
def failClearEffect (d : Dev) : Dev :=
  d.when (d.on O.powerFailWarn) (fun d => ({ d with power := { d.power with warnNs := none } }).setNat O.powerFailWarn 0)

/-! THROTTLE (R414, R421). -/

/-- A threshold of a die, stack or DIMM channel: die x, stack 16 + h, channel 32 + d; kinds 0 warn, 1 throttle, 2 trip, 3 HBM, 4 DDR. -/
def Dev.thresh (d : Dev) (x kind : Nat) : Thresh := SMap.getD d.power.thresholds (64 * x + kind) {}

/-- Thermal.Throttling: bit f while an assertion holds for F f. -/
def Dev.throttling (d : Dev) : Dev :=
  let bit := fun (f : Nat) => bitOf d.power.powerThrottle f || (d.thresh f 1).on || (d.thresh (if f < 4 then 8 else 9) 1).on
  d.setNat O.thermalThrottling ((upTo 8).foldl (fun n f => if bit f then n + 2 ^ f else n) 0)

/-- The power of a die is measured (R414). -/
def diePowerEffect (x mw : Nat) (d : Dev) : Dev :=
  let d := d.setNat O.powerDiePower (min mw (2 ^ 32 - 1)) 0 0 x
  if 8 ≤ x then d
  else
    let lim := d.nat O.powerDieLimit 0 0 x
    let p := d.power
    let above := lim < mw
    let under := mw + 5000 ≤ lim
    let o := SMap.getD p.overNs x d.ns
    let u := SMap.getD p.underNs x d.ns
    let hot := bitOf p.powerThrottle x
    let set := above && !hot && o + 10000000 ≤ d.ns
    let clear := under && hot && u + 10000000 ≤ d.ns
    let p := { p with overNs := if above then SMap.ins p.overNs x o else SMap.del p.overNs x,
                      underNs := if under then SMap.ins p.underNs x u else SMap.del p.underNs x,
                      powerThrottle := if set then p.powerThrottle + 2 ^ x else if clear then p.powerThrottle - 2 ^ x else p.powerThrottle }
    let d := ({ d with power := p }).throttling
    if set then d.occur 1500 else d

/-! Power domains (R415 to R419). -/

/-- Power.DomainState of a domain: 0 OFF, 1 ON, 2 SWITCHING, 3 FAULT. -/
def Dev.dom (d : Dev) (n : Nat) : Nat := d.nat O.powerDomainState 0 0 n

/-- Set it. -/
def Dev.setDom (d : Dev) (n st : Nat) : Dev := d.setNat O.powerDomainState st 0 0 n

/-- Switch-on bound in ns (table "Domain switching"); that of the DRAM domains is under Lull. -/
def onBound (n : Nat) : Nat := if n < 32 then 50000 else if n < 44 then 100000 else 20000

/-- Quadrant of a RAM block's region (R6, R339). R185 gives no order of the blocks within a die: they are taken to be numbered 32 to a region, region (X, Y)
being the 12Y + X-th (DESIGN CHOICE, log entry 103). -/
def blockQuadrant (blk : Nat) : Nat :=
  let r := blk % 4608 / 32
  (if 6 ≤ r % 12 then 1 else 0) + (if 72 ≤ r then 2 else 0)

/-- A quadrant loses the contents of its RAM and its logic (R418). -/
def Dev.quadrantLost (d : Dev) (n : Nat) : Dev :=
  let keep := fun (e : Nat × SramWord) =>
    let inst := e.1 / 2 ^ 32
    !(instKind inst == 0 && instDie inst == n / 4 && blockQuadrant (inst % 2 ^ 24) == n % 4)
  ({ d with mem := { d.mem with sram := d.mem.sram.filter keep } } : Dev).logicLost n

/-- A lane group loses its lanes and PLLs: the ports that any of its quads serves go DOWN (log entry 52). -/
def Dev.groupLost (d : Dev) (g reason : Nat) : Dev :=
  let quads := (upTo 3).map (fun i => 3 * g + i)
  let bases := (quads.map d.base).eraseDups
  let d := quads.foldl (fun d q => ((d.setNat O.quadRefClkStatus 0 q).setTxPll (2 * q) 0).setTxPll (2 * q + 1) 0) d
  let d := bases.foldl (fun d b =>
    (upTo 4).foldl (fun d p => if d.hasPort b p && d.nat O.portState b p != 0 then d.portFall b p reason else d) d) d
  let d := quads.foldl (fun d q => (upTo 4).foldl (fun d k => d.setNat O.laneStatus 0 q k) d) d
  bases.foldl (fun d b => (upTo 4).foldl (fun d p => d.updPort (4 * b + p) (fun a => { a with upNs := none, downNs := none })) d) d

/-- A Capture Engine loses its buffers and table; it reads QUIESCED (R418). What its stage holds is in DRAM. -/
def Dev.engineLost (d : Dev) (e : Nat) : Dev :=
  let d := d.ringMoved e
  let x := d.eng e
  let d := d.setEng e { overw := x.overw, writeAbs := x.writeAbs, ackAbs := x.ackAbs, stageAbs := x.stageAbs, drainAbs := x.drainAbs, staged := x.staged }
  let d := (upTo 18).foldl (fun d i => (d.setIngest (18 * e + i) {}).setFifo (18 * e + i) {}) d
  d.setNat O.captureEngineState 2 e

/-- The Storage and Query Engines lose what they hold: STOPPED, with no controller, namespace or query (R241, R418). -/
def Dev.storeLost (d : Dev) : Dev :=
  let d := ({ d with store := {} }).setNat O.storeState 0
  let d := (upTo 64).foldl (fun d c => d.setNat O.storeCtlState 0 c) d
  let d := (upTo 1024).foldl (fun d i => d.setNat O.storeNsState 0 i) d
  (upTo 8).foldl (fun d j => d.setNat O.queryState 0 j) d

/-- What a domain loses when it goes off (R418). -/
def Dev.domainLost (d : Dev) (n reason : Nat) : Dev :=
  if n < 32 then d.quadrantLost n
  else if n < 44 then d.groupLost (n - 32) reason
  else if n = 56 || n = 57 then d.engineLost (n - 56)
  else if n = 58 then d.storeLost
  else if n = 59 then (upTo 12).foldl (fun d i => (d.setNat O.coreState 0 (4 + i)).setCore (4 + i) {}) d
  else d

/-- The first domain that may switch on next: ons wait until every off is done, and go one at a time in ascending number (R417). -/
def Dev.nextOn (d : Dev) : Option Nat :=
  if d.power.switching.any (fun e => !e.2.on || e.2.since.isSome) then none
  else (d.power.switching.find? (fun e => e.2.on)).map (fun e => e.1)

/-- Start the next switching-on. -/
def Dev.pumpDomains (d : Dev) : Dev :=
  match d.nextOn with
  | some n => { d with power := { d.power with switching := SMap.ins d.power.switching n { on := true, since := some d.ns } } }
  | none => d

/-- A committed Power.DomainControl (R416, R417). `pump` follows once all of a commit's domains are in. -/
def Dev.domainSet (d : Dev) (n v : Nat) : Dev :=
  let st := d.dom n
  if v = 1 then
    if st = 1 then d
    else ({ d with power := { d.power with switching := SMap.ins d.power.switching n { on := true } } }).setDom n 2
  else if st = 0 || st = 3 then d
  else
    let d := d.abortSlices (fun s => testDomain s.unit s.inst == some n)
    ({ d with power := { d.power with switching := SMap.ins d.power.switching n { on := false, since := some d.ns } } }).setDom n 2

/-- A use of a domain that waited for it starts (R417, R418): Capture Engine and store controls. -/
def Dev.useStarts (d : Dev) (n : Nat) (v : Val) : Dev :=
  if n = 58 then d.storeControl v.nat else d.engineControl (n - 56) v.nat

/-- A domain is ON: its committed values apply, then what waited for it (R417, R418). Cores 4 to 15 are in reset, or run where Core.Control
is 1. -/
def Dev.domainUp (d : Dev) (n : Nat) : Dev :=
  let d := d.setDom n 1
  let d := if n = 59 then (upTo 12).foldl (fun d i =>
      let d := d.setNat O.coreState 1 (4 + i)
      if d.on O.coreControl (4 + i) then d.coreControlled (4 + i) 1 else d) d
    else if 32 ≤ n && n < 44 then (upTo 3).foldl (fun d i => d.recheckQuad (3 * (n - 32) + i)) d
    else d
  let ws := d.power.waiting.filter (fun w => w.1 == n)
  let d := { d with power := { d.power with waiting := d.power.waiting.filter (fun w => w.1 != n) } }
  ws.foldl (fun d w => d.useStarts n w.2.2) d

/-- A domain enters FAULT (R419). -/
def Dev.domainFault (d : Dev) (n : Nat) : Dev :=
  let d := { d with power := { d.power with switching := SMap.del d.power.switching n } }
  let d := ((d.domainLost n 2).setDom n 3).inc O.powerDomainFaults
  (d.occur 1501).pumpDomains

/-- A domain ends its switching. -/
def switchDoneEffect (n : Nat) (d : Dev) : Dev :=
  match SMap.find d.power.switching n with
  | none => d
  | some s => d.when s.since.isSome (fun d =>
      let d := { d with power := { d.power with switching := SMap.del d.power.switching n } }
      (if s.on then d.domainUp n else (d.domainLost n 8).setDom n 0).pumpDomains)

/-- A domain has not reached ON within twice its switch-on bound (R419). -/
def switchLateEffect (n : Nat) (d : Dev) : Dev :=
  match SMap.find d.power.switching n with
  | some { on := true, since := some t } => d.when (decide (t + 2 * onBound n ≤ d.ns)) (fun d => d.domainFault n)
  | _ => d

/-- The switched supply has been below 90 % for 1 µs while the domain is ON, or in the cycle of the commit that switches it off
(R419). -/
def droopEffect (n : Nat) (d : Dev) : Dev :=
  let now := match SMap.find d.power.switching n with
    | some s => !s.on && s.since == some d.ns
    | none => false
  d.when (d.dom n == 1 || now) (fun d => d.domainFault n)

/-- Power.DomainControl of a domain may not be committed (table "Domain switching"). `enable` reads CapturePort.Enable as the commit would
leave it. -/
def Dev.domainLocked (d : Dev) (n v : Nat) (enable : Nat → Nat → Bool) : Bool :=
  let used := bitOf (d.nat O.fabricQuadrantUsed) n
  let quads := (upTo 3).map (fun i => 3 * (n - 32) + i)
  if n < 32 then (if v = 0 then used else used && d.dom n == 3)
  else if n < 44 then
    if v = 1 then quads.all (fun q => d.role q == 0)
    else quads.any (fun q => let r := d.role q
      r == 3 || r == 4 || r == 5 || (upTo 4).any (fun p => d.hasPort q p && (enable q p || d.txActive q p)))
  else if n < 56 then true
  else if v = 1 then false
  else if n < 58 then d.nat O.captureEngineState (n - 56) != 2
  else if n = 58 then d.nat O.storeState != 0 || (upTo 8).any (fun j => let s := d.nat O.queryState j; s == 1 || s == 2)
  else (upTo 12).any (fun i => 1 < d.nat O.coreState (4 + i))

/-! Temperatures (R420 to R422). -/

/-- One more sample of a threshold, in 0.1 °C: it asserts at the second in a row at or above the limit, and deasserts at the second in a row at
least 3 °C below it. The answer says whether it has just asserted. -/
def Dev.sampleThresh (d : Dev) (x kind : Nat) (lim t : Int) : Bool × Dev :=
  let h := d.thresh x kind
  let n : Thresh :=
    if h.on then
      (let b := if t ≤ lim - 30 then h.below + 1 else 0
       if 2 ≤ b then {} else { on := true, below := b })
    else
      (let a := if lim ≤ t then h.above + 1 else 0
       if 2 ≤ a then { on := true } else { above := a })
  (n.on && !h.on, { d with power := { d.power with thresholds := SMap.setD d.power.thresholds (64 * x + kind) {} n } })

/-- A warning threshold. -/
def Dev.warnThresh (d : Dev) (x kind : Nat) (lim t : Int) : Dev :=
  let r := d.sampleThresh x kind lim t
  if r.1 then (r.2.occur 1500).inc O.thermalWarnings else r.2

/-- A thermal trip (table "Trip timing"). Domain switching is abandoned; whether such a domain is then on or off is open. -/
def Dev.trip (d : Dev) (source sensor : Nat) (t : Int) : Dev :=
  if d.power.tripped then d
  else
    let rec_ := leBytes 8 d.count ++ leBytes 4 (d.nat O.identityBootCount) ++ leBytes 1 source ++ leBytes 1 sensor ++ leBytes 2 (unsigned 16 t)
    let d := (d.setOct O.thermalTripRecord rec_).inc O.thermalTrips
    let d := (d.keepDiag O.thermalTripRecord).keepDiag O.thermalTrips
    let d := d.power.switching.foldl (fun d e => (d.setDom e.1 (d.draw % 2)).drawn) d
    let d := { d with power := { d.power with tripped := true, tripPin := true, switching := [], waiting := [] },
                      test := { d.test with running := [] } }
    let d := (upTo 12).foldl (fun d i => if d.nat O.coreState (4 + i) = 0 then d else d.setNat O.coreState 1 (4 + i)) d
    let d := d.dropMailboxes.pcieDown 0
    ((upTo 32) ++ [56, 57, 58]).foldl (fun d n => if d.dom n = 0 || d.dom n = 3 then d else (d.domainLost n 2).setDom n 0) d

/-- The sensors of a die, once sampled, against its three thresholds. -/
def Dev.dieThresholds (d : Dev) (x : Nat) : Dev :=
  let n := if x < 8 then 9 else 4
  let t := (upTo n).foldl (fun (m : Int) s => max m (d.int O.thermalSensor x 0 s)) (-32768)
  let sensor := ((upTo n).find? (fun s => d.int O.thermalSensor x 0 s == t)).getD 0
  let d := d.setInt O.thermalDieMax t 0 0 x
  let d := d.warnThresh x 0 (10 * d.nat O.thermalWarnLimit) t
  let r := d.sampleThresh x 1 (10 * d.nat O.thermalThrottleLimit) t
  let d := if r.1 then r.2.occur 1500 else r.2
  let r := d.sampleThresh x 2 (10 * d.nat O.thermalTripLimit) t
  if r.1 then r.2.trip x sensor t else r.2

/-- Sensors, stacks and DIMMs are sampled (R420, R421). A stack's one readout has no sensor number in the spec: an open value in the trip
record. -/
def thermalEffect (sensors : List (Fin 10 × Fin 9 × Int)) (hbms dimms : List (Fin 8 × Int)) (d : Dev) : Dev :=
  let d := sensors.foldl (fun d e => if e.1.val < 8 || e.2.1.val < 4 then d.setInt O.thermalSensor e.2.2 e.1 0 e.2.1 else d) d
  let d := (upTo 10).foldl (fun d x => if sensors.any (fun e => e.1.val == x) then d.dieThresholds x else d) d
  let d := hbms.foldl (fun d e =>
    let d := d.warnThresh (16 + e.1) 3 (10 * d.nat O.thermalHbmLimit) e.2
    let r := d.sampleThresh (16 + e.1) 2 1050 e.2
    if r.1 then (r.2.drawn).trip (16 + e.1) (r.2.draw % 256) e.2 else r.2) d
  let d := dimms.foldl (fun d e => d.warnThresh (32 + e.1) 4 (10 * d.nat O.thermalDdrLimit) e.2) d
  d.throttling

/-! The commands. -/

/-- AVS_STEP. -/
def execAvsStep (dt : Nat) (answered : Bool) (s : State) : Host.Outcome State Fault Refusal := run s dt (avsEffect answered)

/-- RAIL_FAULT. -/
def execRailFault (dt : Nat) (rail : Fin 10) (mode : Fin 8) (s : State) : Host.Outcome State Fault Refusal := run s dt (railEffect rail mode)

/-- POWER_FAIL_WARNING. -/
def execPowerFailWarning (dt : Nat) (s : State) : Host.Outcome State Fault Refusal := run s dt failWarnEffect

/-- POWER_FAIL_CLEAR. -/
def execPowerFailClear (dt : Nat) (s : State) : Host.Outcome State Fault Refusal := run s dt failClearEffect

/-- DIE_POWER_SAMPLE. -/
def execDiePowerSample (dt : Nat) (die : Fin 10) (mw : Nat) (s : State) : Host.Outcome State Fault Refusal := run s dt (diePowerEffect die mw)

/-- DOMAIN_SWITCH_DONE. -/
def execDomainSwitchDone (dt : Nat) (n : Fin 60) (s : State) : Host.Outcome State Fault Refusal := run s dt (switchDoneEffect n)

/-- DOMAIN_SWITCH_TIMEOUT. -/
def execDomainSwitchTimeout (dt : Nat) (n : Fin 60) (s : State) : Host.Outcome State Fault Refusal := run s dt (switchLateEffect n)

/-- DOMAIN_DROOP. -/
def execDomainDroop (dt : Nat) (n : Fin 60) (s : State) : Host.Outcome State Fault Refusal := run s dt (droopEffect n)

/-- THERMAL_SAMPLE. -/
def execThermalSample (dt : Nat) (sensors : List (Fin 10 × Fin 9 × Int)) (hbms dimms : List (Fin 8 × Int)) (s : State) :
    Host.Outcome State Fault Refusal :=
  run s dt (thermalEffect sensors hbms dimms)

end Sys2Proof.Machine
end

