-- ==== Sys2Proof/Machine/Query.lean ====
section
/-! DEFINITION. The Query Engine (R233 to R239). The scan follows each stream as it stands; a QUERY_SCAN is a Read that completes, or a
slot that goes on, and writes what of the result is decided. -/

set_option Elab.async false

namespace Sys2Proof.Machine

/-! Matching (R234 to R236). -/

/-- The 64 payload bytes at an offset, masked, equal the masked pattern (R234). -/
def windowMatch64 (payload : List Byte) (off : Nat) (pattern mask : List Byte) : Bool :=
  off + 64 ≤ payload.length && octAnd (slice payload off 64) mask == octAnd pattern mask

/-- A record satisfies alternative i of slot j (R234). -/
def Dev.altMatch (d : Dev) (j i : Nat) (r : Rec) : Bool :=
  let f := d.nat O.queryAltFlags j i
  let m := d.nat O.queryAltMatch j i
  let l := d.nat O.queryAltLengths j i
  let sm := d.nat O.queryAltSourceMask j i
  Nat.land r.source sm == Nat.land (d.nat O.queryAltSourceValue j i) sm && bitOf (d.nat O.queryAltTypeMask j i) r.type &&
  Nat.land r.flags (bitsOf f 26 16) == bitsOf f 10 0 && Nat.land r.mtag (bitsOf m 31 16) == bitsOf m 15 0 &&
  bitsOf l 14 0 ≤ r.payload.length && r.payload.length ≤ bitsOf l 30 16 &&
  windowMatch64 r.payload (d.nat O.queryAltOffset j i) (d.octs O.queryAltPattern j i) (d.octs O.queryAltMask j i)

/-- A record matches the query (R234). -/
def Dev.queryMatch (d : Dev) (j : Nat) (r : Rec) : Bool :=
  let n := d.nat O.queryAlternatives j
  let hi := d.nat O.queryToTick j
  d.nat O.queryFromTick j ≤ r.tick && (hi == 0 || r.tick < hi) && (n == 0 || (upTo n).any (fun i => d.altMatch j i r))

/-- The scan counts no further match (R235). -/
def Dev.queryFull (d : Dev) (j : Nat) (x : QueryAux) : Bool :=
  d.nat O.queryMaxMatches j != 0 && d.nat O.queryMaxMatches j ≤ x.counted

/-- One record is scanned (R235, R236). -/
def Dev.scanRec (d : Dev) (j e : Nat) (r : Rec) (bytes : List Byte) : Dev :=
  let x := d.query j
  let x := { x with items := x.items ++ [.record e r bytes] }
  if d.queryMatch j r && !d.queryFull j x then
    let d := d.inc O.queryMatches j
    if x.skipped < d.nat O.querySkipMatches j then d.setQuery j { x with skipped := x.skipped + 1 }
    else
      let w : QWin := { e := e, lo := (r.tick : Int) - 4 * d.nat O.queryBefore j, hi := r.tick + 4 * d.nat O.queryAfter j, source := r.source }
      d.setQuery j { x with counted := x.counted + 1, wins := x.wins ++ [w] }
  else d.setQuery j x

/-- The records of the packets at the front of a data area, length word by length word, as they stand. -/
def areaRecs : Nat → List Byte → List (List Byte)
  | 0, _ => []
  | n + 1, l =>
    let b := bitsOf (fieldAt l 0 8) 18 0
    if b = 0 || l.length < b then [] else recSlices (fieldAt l 4 2) ((l.take b).drop 8) ++ areaRecs n (l.drop b)

/-- A window admits a record of a stream. -/
def QWin.admits (w : QWin) (wide : Bool) (e : Nat) (r : Rec) : Bool :=
  w.e == e && decide (w.lo ≤ (r.tick : Int)) && r.tick < w.hi && (wide || w.source / 64 == r.source / 64)

/-! The result (R236 to R239). -/

/-- A gap record of REASON STORE_LOST (R238). -/
def lostGap (s source seq lo hi : Nat) : Rec :=
  { type := 0x11, tick := lo, session := s, source := source, seq := seq, payload := gapPayload lo hi 0 seq 0 5 false }

/-- The stored bytes of a record with GAP set and HCRC made anew (R78, R238). -/
def withGap (r : Rec) (bytes : List Byte) : List Byte := (r.setFlag flagGap).bytes.take 32 ++ bytes.drop 32

/-- Sources of a die, by their bit in StoreSession.Sources, for which a window admits a LOST span. -/
def Dev.lostSources (d : Dev) (j s e lo hi : Nat) : List Nat :=
  let ws := (d.query j).wins.filter (fun w => w.e == e && decide (w.lo ≤ (hi : Int)) && decide (lo < w.hi))
  (upTo 288).filter (fun b => octBit (d.octs O.storeSessionSources s) b && dieOf (b % 144 / 4) == e &&
    ws.any (fun w => d.nat O.queryWidenScope j == 1 || sourceBit w.source == b))

/-- The items at the front on which the result is decided: a record that a window admits goes into it, with the gap records of LOST extents ahead of
it; one that none admits is left out once the scan has `ended`, for a later match may still widen to it (R236, R238, log entry 65). -/
def Dev.queryDecide (d : Dev) (j : Nat) (ended : Bool) : Nat → Dev
  | 0 => d
  | n + 1 =>
    let x := d.query j
    let s := d.nat O.querySession j
    match x.items with
    | [] => d
    | .lost e lo hi :: its =>
      if ended then
        Dev.queryDecide (d.setQuery j { x with items := its, lost := x.lost ++ (d.lostSources j s e lo hi).map (fun b => (b, lo, hi)) }) j ended n
      else d
    | .record e r bytes :: its =>
      if x.wins.any (fun w => w.admits (d.nat O.queryWidenScope j == 1) e r) then
        let b := sourceBit r.source
        let mine := x.lost.filter (fun g => g.1 == b)
        let gaps := mine.map (fun g => (lostGap s r.source ((r.seq + 2 ^ 32 - 1) % 2 ^ 32) g.2.1 g.2.2).bytes)
        Dev.queryDecide (d.setQuery j { x with
          items := its, lost := x.lost.filter (fun g => g.1 != b), lastOf := SMap.ins x.lastOf b (r.source, r.seq),
          out := x.out ++ gaps ++ [if mine.isEmpty then bytes else withGap r bytes] }) j ended n
      else if ended then Dev.queryDecide (d.setQuery j { x with items := its }) j ended n
      else d

/-- Gap records of LOST extents whose source has no later record end the result; a source with none in it takes an open SEQ (R238, log entry 65). -/
def Dev.queryTail (d : Dev) (j : Nat) : Dev :=
  let s := d.nat O.querySession j
  let x := d.query j
  if x.lost.isEmpty then d
  else
    let gap := fun (g : Nat × Nat × Nat) => (match SMap.find x.lastOf g.1 with
      | some (src, seq) => lostGap s src ((seq + 1) % 2 ^ 32) g.2.1 g.2.2
      | none => lostGap s (g.1 / 144 * 2 ^ 15 + g.1 % 144 / 4 * 256 + g.1 % 4 * 64) (d.draw % 2 ^ 32) g.2.1 g.2.2).bytes
    (d.drawn).setQuery j { x with out := x.out ++ x.lost.map gap, lost := [] }

/-- The slot ends: 3 DONE, 5 FAULT (R239). Its result stream ends too (R190). -/
def Dev.queryEnd (d : Dev) (j st : Nat) : Dev :=
  (((d.setNat O.queryState st j).setQuery j {}).endStream (niQuery + 1024 * j)).occur 1507

/-- Write result records while they fit; the next that does not makes the slot FULL, a write that fails FAULT (R237, R239). -/
def Dev.queryWrite (d : Dev) (j : Nat) (hostOk : Bool) : Nat → Dev
  | 0 => d
  | n + 1 =>
    let x := d.query j
    match x.out with
    | [] => d
    | r :: rs =>
      let w := d.nat O.queryWritten j
      if d.nat O.queryResultBytes j < w + r.length then d.setNat O.queryState 2 j
      else
        let a := d.nat O.queryResultAddr j + w
        let y := if d.on O.queryResultHost j then (hostOk, d.send (.dma a r)) else d.storeAt niQuery a r (strm := j)
        if y.1 then Dev.queryWrite ((y.2.setQuery j { x with out := rs }).setNat O.queryWritten (w + r.length) j) j hostOk n
        else y.2.queryEnd j 5

/-! The scan (R235, R238). -/

/-- The extents of a stream, of this device or of its twin peer (R305). -/
def Dev.queryChain (d : Dev) (peer : Bool) (s e : Nat) : List Nat :=
  if peer then
    let es := d.store.exts.filter (fun p => p.2.session == s && p.2.die == e && 1 ≤ p.2.state && p.2.state ≤ 4 && !d.ownExt p.1)
    (sortBy (fun (a b : Nat × Ext) => decide (a.2.first < b.2.first)) es).map (fun p => p.1)
  else (d.strm s e).chain

/-- Ticks before this one are of no use to the query: windows reach back from FromTick (R235, R236, log entry 65). -/
def Dev.queryFrom (d : Dev) (j : Nat) : Int := (d.nat O.queryFromTick j : Int) - 4 * d.nat O.queryBefore j

/-- The extents of the stream being scanned, each with its GEN. -/
def Dev.queryHere (d : Dev) (j : Nat) : List (Nat × Nat) :=
  match (d.query j).es with
  | [] => []
  | e :: _ => (d.queryChain (d.on O.twinQueryPeer 0 0 j) (d.nat O.querySession j) e).map (fun n => (n, (d.ext n).gen))

/-- Those that the scan has not reached. -/
def Dev.queryAhead (d : Dev) (j : Nat) : List (Nat × Nat) := (d.queryHere j).filter (fun g => !(d.query j).seen.contains g)

/-- The scan of a stream begins at its first extent that can hold a record of the result (R235). -/
def Dev.queryStream (d : Dev) (j : Nat) : Dev :=
  let past := (d.queryHere j).takeWhile (fun g => decide (((d.ext g.1).last : Int) < d.queryFrom j))
  let d := d.setQuery j { d.query j with seen := past }
  d.setQuery j { d.query j with next := (d.queryAhead j).head? }

/-- Data-area bytes of an extent that a query reads: of an OPEN one, up to the last write that has completed (R238). -/
def Dev.readable (d : Dev) (n : Nat) : Nat :=
  let y := d.ext n
  if y.state = 1 then min y.used (coverTo (y.oks.length + 1) y.oks 0) else y.used
where
  coverTo : Nat → List (Nat × Nat) → Nat → Nat
    | 0, _, p => p
    | k + 1, l, p =>
      match l.find? (fun i => i.1 ≤ p && p < i.2) with
      | some i => coverTo k l i.2
      | none => p

/-- What is left of some bytes without the spans named, which sub-entries let the engine skip (R235). -/
def withoutSpans (spans : List (Nat × Nat)) (l : List Byte) : List Byte :=
  spans.foldr (fun s (l : List Byte) => l.take s.1 ++ l.drop (s.1 + s.2)) l

/-- No more matches are counted, and what lies ahead begins after the last window. -/
def Dev.queryOver (d : Dev) (j : Nat) : Bool :=
  let x := d.query j
  d.queryFull j x && (d.queryAhead j).all (fun g => x.wins.all (fun w => decide (w.hi ≤ (d.ext g.1).first)))

/-- The scan has ended. -/
def Dev.scanEnded (d : Dev) (j : Nat) : Bool := (d.query j).es.isEmpty && (d.query j).cur.isNone

/-- The scan goes on to the next extent and has it read. One reclaimed since the scan reached its predecessor is passed over and counted; a LOST one is
noted; one whose ring copy is being made is waited for (R238, R239). -/
def Dev.queryAdvance (d : Dev) (j : Nat) : Nat → Dev
  | 0 => d
  | n + 1 =>
    let x := d.query j
    match x.es with
    | [] => d
    | e :: es =>
      if d.queryOver j then d.setQuery j { x with es := [], next := none }
      else
        let ahead := fun (seen : List (Nat × Nat)) => ((d.queryHere j).filter (fun g => !seen.contains g)).head?
        match x.next.or (ahead x.seen) with
        | none => Dev.queryAdvance ((d.setQuery j { x with es := es, seen := [], next := none }).queryStream j) j n
        | some g =>
          let y := d.ext g.1
          let seen := x.seen ++ [g]
          let x' := { x with seen := seen, next := ahead seen }
          if y.gen != g.2 || y.state = 0 || y.state = 5 then Dev.queryAdvance ((d.setQuery j x').inc O.queryReclaimed j) j n
          else if d.store.remaps.contains g.1 then d
          else if y.state = 4 then Dev.queryAdvance (d.setQuery j { x' with items := x.items ++ [.lost e y.first y.last] }) j n
          else
            let len := d.readable g.1
            if len = 0 then Dev.queryAdvance (d.setQuery j x') j n
            else
              let skip := (y.subs.filter (fun (s : SubEnt) => decide ((s.hi : Int) < d.queryFrom j) && s.off + s.bytes ≤ len)).map
                (fun (s : SubEnt) => (s.off, s.bytes))
              (d.setQuery j { x' with cur := some g, spans := skip, got := none }).extCmd g.1 0 (.read j g.1) len []

/-- Steps the scan takes at most without a Read. -/
def Dev.scanFuel (d : Dev) : Nat := 2 * d.store.exts.length + 8

/-- What a Read has brought is scanned (R235); an extent whose Read a mount has dropped is read again. -/
def Dev.queryTake (d : Dev) (j : Nat) : Dev :=
  let x := d.query j
  match x.es, x.cur, x.got with
  | e :: _, some _, some data =>
    let l := withoutSpans x.spans data
    let d := (d.setQuery j { x with cur := none, got := none, spans := [] }).add O.queryBytesRead l.length j
    (areaRecs (l.length / 8 + 1) l).foldl (fun d b => d.scanRec j e (Rec.parse b) b) d
  | _, some g, none => d.setQuery j { x with cur := none, next := some g, seen := x.seen.filter (fun h => h != g) }
  | _, _, _ => d

/-- A slot writes what is decided of its result, and is DONE once the scan has ended and all is written. -/
def Dev.queryPut (d : Dev) (j : Nat) (hostOk : Bool) : Dev :=
  let ended := d.scanEnded j
  let d := d.queryDecide j ended ((d.query j).items.length + 1)
  let d := if ended then d.queryTail j else d
  let d := d.queryWrite j hostOk ((d.query j).out.length + 1)
  if d.nat O.queryState j = 1 && ended then d.queryEnd j 3 else d

/-- A slot goes on: it writes what it can, and reads on while it is RUNNING. -/
def Dev.queryGo (d : Dev) (j : Nat) (hostOk : Bool) : Dev :=
  let d := d.queryPut j hostOk
  if d.nat O.queryState j != 1 then d
  else
    let d := d.queryAdvance j d.scanFuel
    if d.scanEnded j then d.queryPut j hostOk else d

/-- The Read of a slot that is under way. -/
def Dev.readOf (d : Dev) (j : Nat) : Option NvmeCmd :=
  d.store.cmds.find? (fun k => match k.use with
    | .read i _ => i == j
    | _ => false)

/-- A read of the store completes, or a slot that awaits none goes on (R235 to R239): with a Read under way, the operands say how it ends. The entry of
the extent is read from the table first (R218). -/
def queryScanEffect (j : Nat) (fin : NvmeEnd) (data : List Byte) (hostOk : Bool) (d : Dev) : Dev :=
  d.when (d.nat O.queryState j == 1) (fun d => d.orHold (fun d =>
    let d := match d.readOf j with
      | some k => if k.unsent then d else d.complete k.ctl k.cid fin data 0
      | none => d
    let t := match (d.query j).got, (d.query j).cur with
      | some _, some g => d.tableRead (d.ext g.1).die g.1
      | _, _ => (true, d)
    (if !t.1 then t.2
     else if (t.2.readOf j).isSome then t.2
     else (t.2.queryTake j).queryGo j hostOk).storeTick))

/-- A committed START (R233, R235): the scan begins, with its counts at 0 (DESIGN CHOICE, log entry 114). -/
def Dev.queryBegin (d : Dev) (j : Nat) : Dev :=
  let es := match d.nat O.queryStream j with
    | 0 => [0]
    | 1 => [1]
    | _ => [0, 1]
  let d := (d.setNat O.queryState 1 j).setQuery j { es := es }
  let d := ((d.setNat O.queryWritten 0 j).setNat O.queryMatches 0 j).setNat O.queryBytesRead 0 j
  let d := ((d.setNat O.queryReclaimed 0 j).queryStream j).queryAdvance j d.scanFuel
  (if d.scanEnded j && (d.query j).items.isEmpty then d.queryEnd j 3 else d).storeTick

/-- An aborted query: a Read of it that is under way brings it nothing more. -/
def Dev.queryAbort (d : Dev) (j : Nat) : Dev :=
  let orphan := fun (k : NvmeCmd) => match k.use with
    | .read i n => if i = j then { k with use := .read 8 n } else k
    | _ => k
  ((({ d with store := { d.store with cmds := d.store.cmds.map orphan } }).setNat O.queryState 4 j).setQuery j {}).endStream (niQuery + 1024 * j)

/-- A committed Query.Control: 0 ABORT, 1 START, 2 CONTINUE into a new buffer (R233, R239). -/
def Dev.queryControl (d : Dev) (j v : Nat) : Dev :=
  let st := d.nat O.queryState j
  if v = 1 then (if st = 1 || st = 2 then d else d.queryBegin j)
  else if v = 2 then
    if st = 2 then ((d.setNat O.queryWritten 0 j).setNat O.queryState 1 j).endStream (niQuery + 1024 * j) else d
  else if st = 1 || st = 2 then d.queryAbort j
  else d

/-- QUERY_SCAN. -/
def execQueryScan (dt : Nat) (j : Fin 8) (fin : NvmeEnd) (data : List Byte) (hostOk : Bool) (s : State) : Host.Outcome State Fault Refusal :=
  run s dt (queryScanEffect j fin data hostOk)

end Sys2Proof.Machine
end

