-- ==== Sys2Proof/Machine/Access.lean ====
section
/-! DEFINITION. Reading the dictionary: what an index and a sub-index name, rights, unused objects, values and descriptors
(R12, R76, R247 to R255, R267). -/

set_option Elab.async false

namespace Sys2Proof.Machine

/-! Origins and rights (R8, R12, R267). -/

/-- Code of an origin (R8). -/
def originCode (og : Origin) : Nat :=
  match og with
  | .pcie => 1 | .vaneA => 2 | .vaneB => 3 | .twin => 4 | .service => 5 | .user => 6 | .fabric => 7 | .jtag => 8 | .auto => 9

/-- The index ranges, in the order of the bits of Rights.Read and Rights.Write (R12, R267). -/
def indexRanges : List (Nat × Nat) :=
  [(0x1000, 0x10FF), (0x1100, 0x11FF), (0x1200, 0x12FF), (0x1800, 0x18FF), (0x2000, 0x23FF), (0x2400, 0x2FFF),
   (0x3000, 0x38FF), (0x4000, 0x4FFF), (0x5000, 0x57FF), (0x5800, 0x5FFF), (0x6000, 0x6FFF), (0x7000, 0x7FFF),
   (0x8000, 0x8FFF), (0x9000, 0x97FF), (0x9800, 0x9FFF), (0xA000, 0xEFFF), (0xF000, 0xFFFF)]

/-- The group of an index. -/
def groupOf (index : Nat) : Option Nat := indexRanges.findIdx? (fun r => r.1 ≤ index && index ≤ r.2)

/-- An origin's rights entry grants a group. -/
def Dev.grants (d : Dev) (write : Bool) (og g : Nat) : Bool :=
  1 ≤ og && og ≤ 9 && bitOf (d.nat (if write then O.rightsWrite else O.rightsRead) og) g

/-- An origin may read, or write, an index. -/
def Dev.mayAccess (d : Dev) (write : Bool) (og index : Nat) : Bool :=
  match groupOf index with
  | some g => d.grants write og g
  | none => false

/-! Names (R247). -/

/-- What an index and a sub-index name: sub-index 0x00 of an index, with the highest sub-index present; an object of the
device; or an object that the stream exports. -/
inductive Target
  | top (hi : Nat) | obj (x : Occurrence) | user (u : UserObj)
deriving DecidableEq, Repr

/-- The highest sub-index that one row has under an index; 0 for none. -/
def ObjDef.topAt (o : ObjDef) (index : Nat) : Nat :=
  match o.locate index o.sub0 with
  | none => 0
  | some x =>
    let n := match o.hole with
      | .sensor => if x.a < 8 then 9 else 4
      | .router => if x.a = 0 then 128 else 32
      | _ => o.subs
    o.sub0 + n - 1

/-- The highest sub-index present under an index; 0 where the index does not exist. -/
def Dev.topSub (d : Dev) (index : Nat) : Nat :=
  let m := objTable.foldl (fun m o => max m (o.topAt index)) 0
  (d.fab.user.filter (fun u => u.index == index)).foldl (fun m u => max m u.sub) m

/-- What an index and a sub-index name; none is NO_OBJECT. -/
def Dev.target (d : Dev) (index sub : Nat) : Option Target :=
  if sub = 0 then
    let hi := d.topSub index
    if hi = 0 then none else some (.top hi)
  else
    match lookup index sub with
    | some x => some (.obj x)
    | none => (d.fab.user.find? (fun u => u.index == index && u.sub == sub)).map Target.user

/-! Objects that the role or layout does not use (R76, R104, R159, R181, R287, R454). -/

/-- The object is used; objects of a port are those of its base quad, and objects of a link likewise; what only a Tap port does, or only a port
of the table "Port state timing" or one that makes records, only its objects set (R40, R41, R49, R51, R75, R79; log entry 70). -/
def Dev.used (d : Dev) (x : Occurrence) : Bool :=
  let r := d.role x.a
  let sub := x.o.sub0 + x.c
  match x.o.base with
  | 0x3004 =>
    (if sub = 4 || sub = 0xC || (0xF ≤ sub && sub ≤ 0x11) then r == 1 else if sub = 3 || sub = 9 || sub = 0xA then r == 1 || r == 2 || r == 6 else r != 0) &&
    d.hasPort x.a x.b
  | 0x4100 => (r == 1 || ((r == 2 || r == 6) && sub != 3)) && d.hasPort x.a x.b
  | 0x5800 | 0x5900 => r == 2 && d.hasPort x.a x.b
  | 0x3010 =>
    if (0x10 ≤ sub && sub ≤ 0x14) || sub = 0x16 then txRole r
    else if 0x18 ≤ sub then r != 0 else rxRole r
  | 0x3020 => rxRole r
  | 0x3028 => r == 5 && d.base x.a == x.a
  | 0x3030 => ((r == 3 && sub != 8) || r == 4) && d.base x.a == x.a
  | 0x4020 => r == 1 && d.base x.a == x.a
  | 0x6040 => d.nat O.memChannelState x.a x.b != 0
  | b => if 0x9800 ≤ b && b ≤ 0x9FFF then d.hasTwin else true

/-! Values (R249, R250, R255). -/

/-- A rate that Port.LaneRate reads back in modes other than 0x40 and 0x41 (R39, R42): kb/s. -/
def Dev.rateInUse (d : Dev) (q p : Nat) : Nat :=
  let std := d.nat O.portStandard q p
  let pcie := fun (s : Nat) => [0, 2500000, 5000000, 8000000, 16000000, 32000000, 64000000].getD s 0
  if std = 0x40 || std = 0x41 then d.nat O.portLaneRate q p
  else if std = 0x20 then pcie (d.nat O.portPcieSpeed q p)
  else if std = 0x50 then pcie (d.nat O.pcieCurrentSpeed q)
  else modeRate std

/-- The next open value of an object, within its range. -/
def Dev.openVal (d : Dev) (x : Occurrence) : Val :=
  let lo : Int := if x.o.chk = .dfe then (if x.c = 0 then -63 else -31) else x.o.lo
  let hi : Int := if x.o.chk = .dfe then (if x.c = 0 then 63 else 31) else x.o.hi
  .num (lo + ((d.draw : Int) % (hi - lo + 1)))

/-- The entries of a transaction in Dictionary.Txns (R286). -/
def Dev.txnEntry (d : Dev) (t : Txn) : List Byte :=
  let st := match t.state with
    | .open_ => 1 | .queued => 2 | .validating => 3 | .scheduled => 4
  leBytes 4 t.txn ++ leBytes 1 t.origin ++ leBytes 1 st ++ leBytes 2 t.items.length ++
    leBytes 4 ((d.ns - t.sinceNs) / 1000000) ++ zeros 4

/-- Dictionary.Txns: SCHEDULED, VALIDATING, QUEUED in their order, then OPEN by slot. -/
def Dev.txnList (d : Dev) : List Txn :=
  let is := fun (s : TxnState) => d.dict.txns.filter (fun (t : Txn) => t.state == s)
  is .scheduled ++ is .validating ++ is .queued ++
    (upTo 8).filterMap (fun i => d.dict.txns.find? (fun t => t.state == .open_ && t.slot == some i))

/-- Twin.LocalOnly: an object that the peer lacks, or of another TYPE or COMMIT (R309). -/
def Dev.localOnly (d : Dev) : List (List Byte) :=
  if d.twin.common then
    let words := d.catalogue.filter (fun w => !d.twin.catalogue.contains w)
    let words := sortBy (fun (a b : Nat) => a < b) words
    words.map (fun w => leBytes 4 (w / 256 * 256 + (if d.twin.catalogue.any (fun v => v / 256 == w / 256) then 2 else 1)))
  else []

/-- Entries that lie in a ring of 65,536 by their ENTRY_SEQ (R277). -/
def ringEntry (l : List (Nat × List Byte)) (i : Nat) : List Byte :=
  match l.find? (fun e => e.1 % 65536 == i) with
  | some e => e.2
  | none => zeros 64

/-- Ring positions up to the highest that holds an entry. -/
def ringCount (l : List Nat) : Nat := l.foldl (fun m s => max m (s % 65536 + 1)) 0

/-- Entries that a RECORD object holds. -/
def Dev.recCount (d : Dev) (x : Occurrence) : Nat :=
  match x.o.rd with
  | .eyeResult => (SMap.getD d.links.eyes x.a {}).entries.length
  | .flowTable => 262144
  | .snapshot | .extentEntry => 1
  | .poison => 16
  | .overflowLog => 64
  | .txns => d.txnList.length
  | .logEntries => ringCount (d.dict.log.map (fun (e : LogEntry) => e.seq))
  | .peerLog => ringCount (d.twin.log.map (fun (l : List Byte) => fieldAt l 8 4))
  | .localOnly => d.localOnly.length
  | .niQueue => (d.ni (d.nat O.noCNiSelect)).records.length
  | .history => d.power.history.length
  | .results => d.test.results.length
  | _ => 0

/-- Entry i of a RECORD object. -/
def Dev.recEntry (d : Dev) (x : Occurrence) (i : Nat) : List Byte :=
  match x.o.rd with
  | .eyeResult => (SMap.getD d.links.eyes x.a {}).entries.getD i []
  | .flowTable =>
    match SMap.find (d.eng x.a).flow i with
    | some y => leBytes 2 y.source ++ fit 46 y.key ++ leBytes 2 y.tag ++ zeros 6 ++ leBytes 8 y.lastHit
    | none => zeros 64
  | .snapshot => (d.chan (if x.a = 0 then x.b else 8 + x.b)).snap.bytes
  | .poison =>
    match SMap.find (d.chan (if x.a = 0 then x.b else 8 + x.b)).poison i with
    | some p => leBytes 8 (p.line * 64 + 1) ++ leBytes 8 p.tick
    | none => zeros 16
  | .extentEntry =>
    match SMap.find d.store.exts (d.nat O.storeExtentSelect) with
    | some e => e.entry
    | none => zeros 32
  | .overflowLog => SMap.getD d.mem.overflows i (zeros 16)
  | .txns => d.txnEntry (d.txnList.getD i { slot := none, txn := 0, origin := 0 })
  | .logEntries => ringEntry (d.dict.log.map (fun (e : LogEntry) => (e.seq, e.bytes))) i
  | .peerLog => ringEntry (d.twin.log.map (fun (l : List Byte) => (fieldAt l 8 4, l))) i
  | .localOnly => d.localOnly.getD i []
  | .niQueue => (d.ni (d.nat O.noCNiSelect)).records.getD i []
  | .history => d.power.history.getD i []
  | .results => d.test.results.getD i []
  | _ => []

/-- Longest value of a RECORD object, in bytes. -/
def recMax (r : RdKind) : Nat :=
  match r with
  | .eyeResult => 130048 | .flowTable => 16777216 | .snapshot => 64 | .poison => 256 | .overflowLog => 1024 | .extentEntry => 32
  | .txns => 9344 | .logEntries | .peerLog => 4194304 | .localOnly => 1048576 | .niQueue => 2048 | .history => 16777216
  | .results => 8192 | _ => 0

/-- Which write the selected page of the Keep holds: 0 for an erased page (log entry 43). -/
def Dev.rawVersion (d : Dev) : Nat :=
  match SMap.find d.keep.pages (d.nat O.keepRawSelect) with
  | some k => k.wseq + 1
  | none => 0

/-- FREE extents of a namespace. -/
def Dev.freeExtents (d : Dev) (i : Nat) : Nat :=
  let b := d.nat O.storeNsBaseExtent i
  let n := d.nat O.storeNsExtents i
  if d.nat O.storeNsState i = 1 then n - (d.store.exts.filter (fun e => b ≤ e.1 && e.1 < b + n && e.2.state != 0)).length else 0

/-- What Twin.ShadowSelect names (R310). -/
def Dev.shadowKey (d : Dev) : Nat := d.nat O.twinShadowSelect / 256

/-- Twin.ShadowSelect names an object in the SHADOW scope. -/
def Dev.shadowNamed (d : Dev) : Bool :=
  match d.target (d.shadowKey / 256) (d.shadowKey % 256) with
  | some (.obj x) => x.o.shadowed
  | some (.user u) => u.access == 1 && u.cls != 2
  | _ => false

/-- IDCODE: STEPPING of the die identity word of ION, less 1, above the part, the manufacturer and a 1. -/
def Dev.idcodeWord (d : Dev) : Nat := (bitsOf (fieldAt (d.octs O.diagDieIdentity 0 0 8) 0 2) 15 12 - 1) * 2 ^ 28 + 0x001445AB

/-- The value of an object that is in use, without its side effects; drawn values use up an open value. The always-on domains AON0 to AON3 read ON in
Power.DomainState (R415). -/
def Dev.liveVal (d : Dev) (x : Occurrence) : Val :=
  let q := x.a
  let p := x.b
  let n := fun (k : Nat) => Val.num k
  match x.o.rd with
  | .now => n d.count
  | .ingestLevel => n (d.bufferOf q).level
  | .credit => .num ((d.bufferOf q).credit / 8000)
  | .nextSeq => n (d.port (4 * q + p)).seq
  | .settling => n (b2n (d.port (4 * q + p)).settle.isSome)
  | .flowEntries => n (d.eng q).flow.length
  | .routesActive => n (d.objs.filter (fun e => 0x506001 ≤ e.1 && e.1 < 0x508000 && routeEnable e.2.nat)).length
  | .lag => n (d.promoterLag q)
  | .queueLevel => n (d.txch (4 * q + p)).level
  | .oldestTick =>
    match (d.eng q).pkts with
    | k :: _ => n ((k.ix.map (fun (r : RingIx) => r.tick)).headD 0)
    | [] => n 0
  | .stageLevel => n (d.stageLevel q)
  | .reencryptActive => n d.mem.jobs.length
  | .maxEpoch => n (d.mem.regions.foldl (fun m e => max m e.2.epoch) 0)
  | .tableBytes => n d.tableBytes
  | .freeExtents => n (sumBy (fun i => d.freeExtents i) d.onlineNs)
  | .nsFree => n (d.freeExtents q)
  | .used => n (d.sessionUsed q)
  | .pinned => n ((d.sessionExts q).filter (fun e => e.2.pin)).length
  | .sessFirst => n ((d.sessionExts q).foldl (fun (m : Option Nat) e => some (min (m.getD e.2.first) e.2.first)) none |>.getD 0)
  | .sessLast => n ((d.sessionExts q).foldl (fun m e => max m e.2.last) 0)
  | .vendor => .oct (asciiBytes "Moaden Devices")
  | .part => .oct (asciiBytes "EKX144")
  | .openTxns => n (d.dict.txns.filter (fun t => t.slot.isSome)).length
  | .logNext => n d.dict.logSeq
  | .rawPage => .oct (if d.keep.rawOn then fit 4160 (Config.keepBytes (d.nat O.keepRawSelect) d.rawVersion) else zeros 4160)
  | .spareBlocks => n d.spareBlocks
  | .rawStatus => n (d.rawStatus (d.nat O.keepRawSelect))
  | .shadow => .oct ((SMap.find d.twin.shadows d.shadowKey).map (fun (s : ShadowVal) => s.bytes) |>.getD [])
  | .shadowTick => n ((SMap.find d.twin.shadows d.shadowKey).map (fun (s : ShadowVal) => s.tick) |>.getD 0)
  | .niErrors => n (d.ni (d.nat O.noCNiSelect)).queued
  | .niOverflows => n (d.ni (d.nat O.noCNiSelect)).overflows
  | .measured => d.openVal x
  | .corePending => n (d.ekip q)
  | .duaxisState => n (d.bundle d.selectedBundle).state
  | .duaxisRepair => n (d.bundle d.selectedBundle).repair
  | .duaxisSuspect => n (d.suspects d.selectedBundle)
  | .duaxisCorrected => n (d.bundle d.selectedBundle).corrected
  | .duaxisUncorrectable => n (d.bundle d.selectedBundle).uncorrectable
  | .duaxisReplays => n (d.bundle d.selectedBundle).replays
  | _ =>
    if x.o.base = 0x3010 && x.o.eff = .laneEq && x.o.sub0 < 0x10 && x.o.sub0 != 1 then
      match d.nat O.laneRxEqMode q p with
      | 0 => d.openVal x
      | 1 => (SMap.find d.links.frozen x.key).getD (d.stored x)
      | _ => d.stored x
    else if x.o.base = 0x3010 && x.o.sub0 = 0x18 then n (Nat.lor (d.stored x).nat (8 * b2n (d.laneAdapts (4 * q + p))))
    else if x.o.base = 0x3004 && x.o.sub0 = 2 then n (d.rateInUse q p)
    else if x.o.base = 0xF020 then n d.idcodeWord
    else if x.o.base = 0x2401 && 60 ≤ x.c then n 1
    else d.stored x

/-- Reading the object used up an open value: a measured one, or an equaliser value that adapts (log entry 3). -/
def Dev.readDraws (d : Dev) (x : Occurrence) : Bool :=
  x.o.rd == .measured || (x.o.base == 0x3010 && x.o.eff == .laneEq && x.o.sub0 < 0x10 && x.o.sub0 != 1 && d.nat O.laneRxEqMode x.a x.b == 0)

/-- A read of a read-clear object sets it to zero; of one of type OCTETS, only the n bytes read from offset o (R250). The
highest level of an ingest buffer since the read is at once that which it holds (R112). -/
def Dev.readClear (d : Dev) (x : Occurrence) (o n : Nat) : Dev :=
  let s := d.nat O.noCNiSelect
  let b := d.selectedBundle
  match x.o.rd with
  | .niErrors => d.setNi s { d.ni s with queued := 0 }
  | .niOverflows => d.setNi s { d.ni s with overflows := 0 }
  | .duaxisCorrected => d.setBundle b { d.bundle b with corrected := 0 }
  | .duaxisUncorrectable => d.setBundle b { d.bundle b with uncorrectable := 0 }
  | .duaxisReplays => d.setBundle b { d.bundle b with replays := 0 }
  | .measured => d
  | _ =>
    if x.o.name = O.captureAdmissionIngestPeak.name then d.storeVal x (.num (d.ingest x.a).level) else
    if x.o.ty = .octets then
      let l := d.stored x |>.bytes
      d.storeVal x (.oct (l.take o ++ zeros (min n (l.length - o)) ++ l.drop (o + n)))
    else d.storeVal x (.num 0)

/-- A read-only object whose default the spec gives as from the fuses, the stream, the firmware, training, a test or the Keep: its default
is the value it was given (log entry 29). -/
def ObjDef.sourced (o : ObjDef) : Bool :=
  [O.quadRole.name, O.quadRefClkSelect.name, O.quadSpapaxUse.name, O.memChannelBytes.name, O.identityOrderingCode.name,
   O.identityDeviceId.name, O.identitySpeedGrade.name, O.identityTempGrade.name, O.identityFirmwareVersion.name,
   O.identitySchemaVersion.name, O.twinSide.name, O.fabricQuadrantUsed.name, O.fabricBankStandard.name,
   O.fabricObjectCount.name, O.clockFabPllConfig.name, O.ageingPoweredSeconds.name, O.ageingAvgJunction.name, O.ageingBaseVoltage.name,
   O.selfTestPermanentDies.name, O.diagDieIdentity.name].contains o.name

/-- The DEFAULT that a descriptor shows (R248): the default of the object's table, or what its source has given (log entry 29). -/
def Dev.dfltOf (d : Dev) (x : Occurrence) : Val :=
  if x.o.sourced then d.stored x
  else if x.o.base = 0xF020 then .num d.idcodeWord
  else if x.o.name = O.keepSpareBlocks.name then .num (Config.keepSpare % 8193)
  else if x.o.name = O.vaneMacAddress.name then
    match d.boot.fused.find? (fun f => ((lookup f.1 f.2.1).map (fun (y : Occurrence) => y.key)) == some x.key) with
    | some f => decodeVal x.o.ty f.2.2
    | none => x.default
  else if x.o.name = O.clockFabPllEnable.name then .num (b2n (d.fab.plls.any (fun p => p.die.val == x.a && p.pll.val == x.c && p.enable)))
  else if x.o.name = O.powerDomainControl.name then .num (b2n (d.domainUsed x.c))
  else x.default

/-- The bytes of an object that a read returns (R76, R250, R255): a scalar whole; a segment of a string of bytes; whole entries of a
RECORD, whose LENGTH is rounded down. The status is NO_OBJECT for a shadow out of scope and RANGE for an offset that is no
multiple of ENTRY. -/
def Dev.readObj (d : Dev) (x : Occurrence) (o n : Nat) : (Nat × List Byte) × Dev :=
  let use := d.used x
  if !use && x.o.base = 0x6040 && x.o.sub0 = 1 then ((0, [0]), d)
  else if (x.o.rd = .shadow || x.o.rd = .shadowTick) && use && !d.shadowNamed then ((1, []), d)
  else if x.o.ty = .record then
    if o % x.o.entry != 0 then ((4, []), d)
    else
      let i := o / x.o.entry
      let have_ := if use then d.recCount x else if x.o.base = 0x6040 then recMax x.o.rd / x.o.entry else 0
      let k := min (n / x.o.entry) (have_ - i)
      ((0, (upTo k).flatMap (fun j => if use then d.recEntry x (i + j) else zeros x.o.entry)), d)
  else
    let v := if use then d.liveVal x else d.dfltOf x
    let d := if use && d.readDraws x then d.drawn else d
    if x.o.ty.bytes = 0 then
      let seg := (v.bytes.drop o).take n
      ((0, seg), if use && x.o.acc = .rc then d.readClear x o seg.length else d)
    else ((0, encodeVal x.o.ty v), if use && x.o.acc = .rc then d.readClear x 0 0 else d)

/-! Descriptors (R248). -/

/-- The access code of R248. -/
def accessCode (a : Access) : Nat :=
  match a with
  | .ro => 0 | .rw => 1 | .wo => 2 | .rc => 3

/-- The 80 bytes of a descriptor. -/
def descriptor (ty acc cls flags maxLen entry : Nat) (dflt : List Byte) (name : String) : List Byte :=
  leBytes 1 ty ++ leBytes 1 acc ++ leBytes 1 cls ++ leBytes 1 flags ++ leBytes 4 maxLen ++ leBytes 2 entry ++ zeros 6 ++
    fit 16 dflt ++ fit 48 (asciiBytes name)

/-- The descriptor of what an index and a sub-index name. -/
def Dev.describe (d : Dev) (t : Target) : List Byte :=
  match t with
  | .top hi => descriptor 2 0 0 0 1 0 (leBytes 1 hi) ""
  | .obj x =>
    let dflt := match x.o.rd with
      | .vendor => asciiBytes "Moaden Devices"
      | .part => asciiBytes "EKX144"
      | _ => if x.o.acc = .wo then [] else encodeVal x.o.ty (d.dfltOf x)
    let maxLen := if x.o.ty = .record then recMax x.o.rd else if x.o.ty.bytes = 0 then x.o.len else x.o.ty.bytes
    descriptor x.o.ty.code (accessCode x.o.acc) (classCode x.o.cls) (b2n x.o.persist + 2 * b2n x.o.secret + 4 * b2n x.o.fixed)
      maxLen x.o.entry dflt x.o.name
  | .user u => descriptor u.type u.access u.cls (b2n (u.cls == 3) + 4 * b2n u.fixed) u.len u.entry u.dflt u.name

end Sys2Proof.Machine
end

