-- ==== Sys2Proof/Machine/Check.lean ====
section
/-! DEFINITION. The checks of a write (R249, R250, R267, R271, R378) and of a commit (R253, R273), with the joint rules of every
chapter. A status of 0 is OK. -/

set_option Elab.async false

namespace Sys2Proof.Machine

/-! Checks of one write. -/

/-- The type of a type code. -/
def codeType (n : Nat) : Option ObjType :=
  [ObjType.bool, .u8, .u16, .u32, .u64, .i8, .i16, .i32, .i64, .tick64, .csa52, .octets, .string, .record].find? (fun t => t.code == n)

/-- The length of a value suits a type: exact for a type or FIXED, at most MAX_LENGTH otherwise. -/
def lengthOk (t : ObjType) (fixed : Bool) (max n : Nat) : Bool :=
  if t.bytes = 0 then (if fixed then n == max else decide (n ≤ max)) else n == t.bytes

/-- Lowest and highest value of each FFE coefficient, in the order of Lane.Ffe (R45). -/
def ffeSpan (c : Nat) : Int × Int := [((-8 : Int), (8 : Int)), (-16, 16), (16, 63), (-24, 24), (-8, 8)].getD c (0, 0)

/-- Modes that Port.Standard lists (R39). -/
def modeListed (n : Nat) : Bool := (0x10 ≤ n && n ≤ 0x19) || [0x20, 0x30, 0x40, 0x41, 0x50, 0x60].contains n

/-- The object's own layout beyond its range, mask and multiple. -/
def ObjDef.layoutOk (o : ObjDef) (c : Nat) (v : Val) : Bool :=
  let n := v.nat
  match o.chk with
  | .portStd => modeListed n
  | .dfe => let m : Int := if c = 0 then 63 else 31
            decide (-m ≤ v.int) && decide (v.int ≤ m)
  | .ffe => decide ((ffeSpan c).1 ≤ v.int) && decide (v.int ≤ (ffeSpan c).2)
  | .keyWindow => bitsOf n 4 0 ≤ 16
  | .branch => bitsOf n 37 36 != 3 && bitsOf n 35 34 != 3 && bitsOf n 33 32 != 3 && bitsOf n 31 30 != 3
  | .route => routeOk n
  | .matchControl => bitsOf n 31 16 ≤ 16368
  | .lengths => bitsOf n 14 0 ≤ bitsOf n 30 16
  | .pow2 => 2 ^ Nat.log2 n == n
  | .adminCmd => [0x06, 0x02, 0x0A, 0x81, 0x82].contains (fieldAt v.bytes 0 1)
  | .duaxisSelect => duaxisSelectOk n
  | .sramNumber => numberListed n
  | .testUnit => bitsOf n 23 8 < unitInsts (bitsOf n 31 24)
  | .none | .oneTier => true

/-- Bytes are UTF-8: each character in its shortest form, no surrogates, none above 0x10FFFF (R249). -/
def utf8Ok : Nat → List Byte → Bool
  | 0, l => l.isEmpty
  | n + 1, l =>
    let b := (l.getD 0 0).toNat
    let c := (l.getD 1 0).toNat
    let more := fun k => (l.drop 1).take k |>.all (fun (x : Byte) => x.toNat / 64 == 2)
    if l.isEmpty then true
    else if b < 0x80 then utf8Ok n (l.drop 1)
    else if 0xC2 ≤ b && b ≤ 0xDF && 2 ≤ l.length && more 1 then utf8Ok n (l.drop 2)
    else if 0xE0 ≤ b && b ≤ 0xEF && 3 ≤ l.length && more 2 && (b != 0xE0 || 0xA0 ≤ c) && (b != 0xED || c < 0xA0) then utf8Ok n (l.drop 3)
    else if 0xF0 ≤ b && b ≤ 0xF4 && 4 ≤ l.length && more 3 && (b != 0xF0 || 0x90 ≤ c) && (b != 0xF4 || c < 0x90) then utf8Ok n (l.drop 4)
    else false

/-- A value keeps the encoding of its type (R249): STRING is UTF-8, a CSA52 has bits 63 to 52 zero. -/
def ObjType.encodingOk (t : ObjType) (v : Val) : Bool :=
  match t with
  | .string => utf8Ok v.bytes.length v.bytes
  | .csa52 => decide (v.nat < 2 ^ 52)
  | .bool => decide (v.nat ≤ 1)
  | _ => true

/-- A value lies in the object's own range. -/
def ObjDef.rangeOk (o : ObjDef) (c : Nat) (v : Val) : Bool :=
  o.ty.encodingOk v &&
  match v with
  | .oct _ => o.layoutOk c v
  | .num n =>
    o.also.contains n ||
    (decide (o.lo ≤ n) && decide (n ≤ o.hi) && n % o.mult == 0 &&
      (match o.mask with
       | some m => Nat.land n.toNat m == n.toNat
       | none => true) && o.layoutOk c v)

/-- A secret, which only the PCIe host, the service cores and JTAG may write (R378); the twin peer passes on what its own side has
checked (R291). -/
def ObjDef.secretPath (o : ObjDef) : Bool :=
  (0x9020 ≤ o.base && o.base ≤ 0x9022) || o.eff == .linkPairing || o.eff == .authKey

/-- Objects that only the service cores and JTAG may write. -/
def ObjDef.servicePath (o : ObjDef) : Bool := o.eff == .clearSuspect || o.eff == .clearPermanent || o.eff == .chkLine

/-- The access code, the class, the use and the rights allow an origin to write an object of the device. -/
def Dev.writable (d : Dev) (og : Nat) (x : Occurrence) : Bool :=
  (x.o.acc == .rw || x.o.acc == .wo) && x.o.cls != .config && d.used x && d.mayAccess true og (x.key / 256) &&
  !(x.o.base == O.rightsRead.base && (x.a == 4 || x.a == 5 || x.a == 8 || x.a == 9)) &&
  !(x.o.base == O.coreControl.base && x.a < 4) && !(x.o.base == O.pcieTargetSpeed.base && x.o.sub0 == O.pcieTargetSpeed.sub0 && d.role x.a == 3) &&
  (!x.o.secretPath || og == 1 || og == 4 || og == 5 || og == 8) &&
  (!x.o.servicePath || og == 5 || og == 8)

/-- The lower two statuses: NO_OBJECT and NO_ACCESS. -/
def Dev.accessStatus (d : Dev) (og index sub : Nat) : Nat :=
  match d.target index sub with
  | none => 1
  | some (.top _) => 2
  | some (.obj x) => if d.writable og x then 0 else 2
  | some (.user u) => if (u.access = 1 || u.access = 2) && u.cls != 2 && d.mayAccess true og index then 0 else 2

/-- A user object's value lies in its declared span (R348). -/
def userRange (u : UserObj) (t : ObjType) (v : Val) : Bool :=
  t.encodingOk v && (t.bytes == 0 || (decide (u.min ≤ v.int) && decide (v.int ≤ u.max)))

/-- Objects of a unit whose state locks them: a Front in RUN (R121), a transmit channel that is ARMED, RUNNING or HOLDING (R146), a
query slot that is RUNNING or FULL (R233). `cont` says that the commit also writes CONTINUE, which takes a new buffer (R239). -/
def Dev.unitLocked (d : Dev) (x : Occurrence) (cont : Bool) : Bool :=
  let sub := x.o.sub0 + x.c
  let q := fun (j : Nat) => d.nat O.queryState j == 1 || d.nat O.queryState j == 2
  match x.o.base with
  | 0x5020 => sub != 1 && d.on O.frontControl x.a
  | 0x5800 => sub != 1 && sub != 7 && sub != 9 && sub != 0xA && d.txActive x.a x.b
  | 0x5900 => d.txActive x.a x.b
  | 0x7800 => sub != 1 && !((sub == 0xD || sub == 0xE) && cont && d.nat O.queryState x.a == 2) && q x.a
  | 0x7880 => q x.a
  | _ => false

/-- A write of a value: its status, the lowest that applies, and the decoded value (R261, R271). -/
def Dev.checkWrite (d : Dev) (og index sub type : Nat) (value : List Byte) : Nat × Val :=
  let st := d.accessStatus og index sub
  if st != 0 then (st, .num 0)
  else
    match d.target index sub with
    | some (.obj x) =>
      if type != x.o.ty.code || !lengthOk x.o.ty x.o.fixed x.o.len value.length then (3, .num 0)
      else
        let v := decodeVal x.o.ty value
        if !x.o.rangeOk x.c v then (4, v) else if d.unitLocked x true then (5, v) else (0, v)
    | some (.user u) =>
      match codeType u.type with
      | none => (3, .num 0)
      | some t =>
        if type != u.type || !lengthOk t u.fixed u.len value.length then (3, .num 0)
        else
          let v := decodeVal t value
          if userRange u t v then (0, v) else (4, v)
    | _ => (2, .num 0)

/-! Staged values. -/

/-- The staged value of a key. -/
def stagedVal (l : List Staged) (key : Nat) : Option Val := (l.find? (fun s => s.key == key)).map (fun s => s.val)

/-- Stage a value: in rising order of key, in place of an earlier one. -/
def stagePut (l : List Staged) (key : Nat) (v : Val) : List Staged :=
  match l with
  | [] => [{ key := key, val := v }]
  | s :: l => if key < s.key then { key := key, val := v } :: s :: l
              else if key = s.key then { key := key, val := v } :: l
              else s :: stagePut l key v

/-- The device as its objects would read after the values are committed; cores stop and start (R357). -/
def Dev.overlay (d : Dev) (l : List Staged) : Dev :=
  l.foldl (fun d s =>
    match lookup (s.key / 256) (s.key % 256) with
    | none => d
    | some x =>
      let d := d.storeVal x s.val
      if x.o.eff = .coreControl then
        if s.val.nat = 0 then (if d.nat O.coreState x.a = 2 || d.nat O.coreState x.a = 3 then d.setNat O.coreState 1 x.a else d)
        else (if d.nat O.coreState x.a = 1 then d.setNat O.coreState 2 x.a else d)
      else d) d

/-! Quiesce conditions (R253). -/

/-- Both engines QUIESCED and no transmit channel active (R25). -/
def Dev.allQuiet (d : Dev) : Bool :=
  d.nat O.captureEngineState 0 == 2 && d.nat O.captureEngineState 1 == 2 && d.allPorts.all (fun i => !d.txActive (i / 4) (i % 4))

/-- Every port of a quad has CapturePort.Enable 0 and no active transmit channel; a Storage quad also needs the store STOPPED. -/
def Dev.quadQuiet (d : Dev) (q : Nat) : Bool :=
  (upTo 4).all (fun p => !d.on O.capturePortEnable q p && !d.txActive q p) && (d.role q != 4 || d.nat O.storeState == 0)

/-- The owning unit of a QUIESCE-class object is quiesced. -/
def Dev.quiet (d : Dev) (x : Occurrence) : Bool :=
  let stopped := d.nat O.storeState == 0
  let eng := fun (e : Nat) => d.nat O.captureEngineState e == 2
  match x.o.base with
  | 0x2200 | 0x9801 => d.allQuiet
  | 0x3000 | 0x3030 => d.quadQuiet x.a
  | 0x4000 | 0x4300 => eng x.a
  | 0x6010 | 0x6012 => eng x.a && stopped
  | 0x9802 => stopped && d.nat O.twinState == 7
  | _ => stopped

/-- The instance that ChkTest names is a fabric RAM block, or its owning unit is quiesced (R208, log entry 71): a Capture Engine is
QUIESCED, the cores of the die are in reset or off, the memory is in Lull; the network and the other tables of an I/O die are when everything on the
die that uses them is, and those of a fabric die while its logic does not run. -/
def Dev.chkQuiet (d : Dev) : Bool :=
  let inst := d.nat O.chkTestInstance
  let die := instDie inst
  match instKind inst with
  | 0 => true
  | 1 => d.nat O.captureEngineState (die - 8) == 2
  | 2 => (upTo 8).all (fun c => d.nat O.coreState (if die = 9 then 8 + c else c) ≤ 1)
  | 4 => d.nat O.memLullState == 2
  | _ =>
    if die < 8 then !d.fabricRuns
    else
      d.nat O.captureEngineState (die - 8) == 2 && (upTo 8).all (fun c => d.nat O.coreState (8 * (die - 8) + c) ≤ 1) &&
      d.nat O.storeState == 0 && (upTo 8).all (fun j => d.nat O.queryState j != 1 && d.nat O.queryState j != 2) &&
      (upTo 72).all (fun i => !d.txActive (18 * (die - 8) + i / 4) (i % 4))

/-! Memory spans. -/

/-- A span lies wholly within one memory tier (R160); an empty one does. -/
def oneTier (a n : Nat) : Bool :=
  n == 0 || a + n ≤ 0x4800000000 || (0x40000000000 ≤ a && a + n ≤ 0x80000000000)

/-- A span lies within HBM that is available: both of its halves, as far as it touches them. -/
def Dev.hbmSpan (d : Dev) (a n : Nat) : Bool :=
  let half := 0x2400000000
  a + n ≤ 2 * half && (half ≤ a || d.hbmUp 0) && (a + n ≤ half || d.hbmUp 1)

/-- A span lies within one tier's populated memory. -/
def Dev.populated (d : Dev) (a n : Nat) : Bool :=
  n == 0 || d.hbmSpan a n || d.ddrSpan a n

/-! Joint rules. -/

/-- Lanes of a mode (R39); 0 for a mode that takes its port's width. -/
def modeLanes (std : Nat) : Nat :=
  match std with
  | 0x10 | 0x11 | 0x12 | 0x14 => 1
  | 0x13 | 0x16 => 2
  | 0x15 | 0x18 => 4
  | 0x17 | 0x19 => 8
  | _ => 0

/-- A mode suits a role and a port's width (R39). -/
def modeFits (role std width : Nat) : Bool :=
  (if 0x10 ≤ std && std ≤ 0x19 then role == 1 || role == 2
   else if std = 0x20 then role == 1
   else if std = 0x30 then role == 1 && width ≤ 8
   else if std = 0x40 || std = 0x41 then role == 1 || role == 2 || role == 6
   else if std = 0x50 then role == 3 || role == 4
   else role == 5 && width ≤ 8) &&
  (modeLanes std == 0 || modeLanes std == width)

/-- The commit stages the object. -/
def staged (items : List Staged) (o : ObjDef) (a : Nat) (b : Nat := 0) (c : Nat := 0) : Bool := items.any (fun s => s.key == o.key a b c)

/-- Port.Standard of every port of a quad suits the quad's role and layout (R35). -/
def Dev.modesFit (d : Dev) (q : Nat) : Bool :=
  let r := d.role q
  !(r == 1 || r == 2 || r == 6) ||
  (upTo 4).all (fun p => !d.hasPort q p || modeFits r (d.nat O.portStandard q p) (layoutWidth (d.nat O.quadLayout q)))

/-- Distinct transmit rates that a quad would need are at most two (R37). -/
def Dev.ratesFit (d : Dev) (q : Nat) : Bool :=
  let r := d.role q
  !(r == 2 || r == 6) ||
  (((upTo 4).filter (fun p => d.hasPort q p)).map (fun p => d.txRate q p)).eraseDups.length ≤ 2

/-- Port.LaneRate suits the mode (R42): in kb/s, within the span of the lane's modulation (R37). -/
def laneRateOk (std rate : Nat) : Bool :=
  if std = 0x40 then 1250000 ≤ rate && rate ≤ 32500000
  else if std = 0x41 then 20000000 ≤ rate && rate ≤ 116000000
  else false

/-- The absolute values of the FFE coefficients sum to at most 63 (R45). -/
def Dev.ffeFits (d : Dev) (q k : Nat) : Bool := sumBy (fun c => (d.int O.laneFfe q k c).natAbs) (upTo 5) ≤ 63

/-- The guarantees of a die's Tap quads sum to at most 6,000,000 Mb/s (R104). The guarantee of a quad that a layout makes a member of a group is
kept, and counts again when a commit ungroups it (DESIGN CHOICE, log entry 105). -/
def Dev.guaranteesFit (d : Dev) (die : Nat) : Bool :=
  sumBy (fun q => if d.role q = 1 && d.base q == q then d.nat O.captureAdmissionGuarantee q else 0) ((upTo 18).map (fun i => 18 * die + i)) ≤ 6000000

/-- The key windows of an engine take at most 46 bytes together (R93). -/
def Dev.windowsFit (d : Dev) (e : Nat) : Bool := sumBy (fun i => bitsOf (d.nat O.captureFlowKeyWindow e 0 i) 4 0) (upTo 4) ≤ 46

/-- A namespace's range keeps the rules of R216, and of R295 against the peer's shadow while the peer is part of the pair: in SURVIVOR its
namespaces are this device's to map (R305). -/
def Dev.nsFits (d : Dev) (n : Nat) : Bool :=
  let b := fun (i : Nat) => d.nat O.storeNsBaseExtent i
  let m := fun (i : Nat) => d.nat O.storeNsExtents i
  let lbas := SMap.find d.store.lbas (d.nat O.storeNsController n * 2 ^ 32 + d.nat O.storeNsNsid n)
  let peer := fun (o : ObjDef) (i : Nat) => leNat ((SMap.find d.twin.shadows (o.key i 0 0)).map (fun (s : ShadowVal) => s.bytes) |>.getD [])
  let apart := fun (c l : Nat) => m n = 0 || l = 0 || b n + m n ≤ c || c + l ≤ b n
  let inPair := 2 ≤ d.nat O.twinState && d.nat O.twinState ≤ 6
  (m n = 0 || (m n ≤ 33554304 && b n + m n ≤ 2 ^ 28 && (match lbas with
    | some l => decide (262144 + 4096 * m n ≤ l)
    | none => true))) &&
  (upTo 1024).all (fun i => i == n || apart (b i) (m i)) &&
  (!inPair || ((!d.on O.storeNsNsid n || peer O.storeNsNsid n == 0) &&
    (upTo 1024).all (fun i => apart (peer O.storeNsBaseExtent i) (peer O.storeNsExtents i))))

/-- The temperature limits stand in strictly ascending order, and the throttle limit is not within 5 °C of the trip limit (R428). -/
def Dev.limitsFit (d : Dev) : Bool :=
  decide (d.int O.thermalWarnLimit < d.int O.thermalThrottleLimit) && decide (d.int O.thermalThrottleLimit + 5 < d.int O.thermalTripLimit)

/-- A device that steers by the peer: the Secondary of a pair (R23). -/
def Dev.secondary (d : Dev) : Bool := d.hasTwin && d.nat O.twinRole == 2

/-- Channels that a return from Lull retrains and whose gates, or whose parents' gates, are closed (R357). -/
def Dev.lullGated (d : Dev) : Bool :=
  (upTo 136).any (fun ch => d.chState ch != 0 && d.nodeGated (if ch < 8 then 2 + ch else 14 + (ch - 8) / 16))

/-- The Storage and Query Engines are stopped (R241). -/
def Dev.storageStopped (d : Dev) : Bool :=
  d.nat O.storeState == 0 && (upTo 8).all (fun j => !(d.nat O.queryState j == 1 || d.nat O.queryState j == 2))

/-- A status when a condition holds. -/
def fails (c : Bool) (st : Nat) : List Nat := if c then [st] else []

/-- Statuses of one object's own joint rules: `d` is the device, `n` the device as it would be after the commit, and `tc` the commit tick, or
the earliest that the commit may take. -/
def Dev.jointStatus (d n : Dev) (items : List Staged) (x : Occurrence) (v : Val) (tc : Nat) : List Nat :=
  let a := x.a
  let b := x.b
  let w := v.nat
  match x.o.eff with
  | .discMode => fails (w = 2 && !n.on O.timeBaseScale) 4 ++ fails (w = 3 && !d.secondary) 4
  | .layout =>
    let r := d.role a
    fails (!n.modesFit a) 4 ++ fails (!n.ratesFit a) 4 ++ fails (!n.guaranteesFit (dieOf a)) 4 ++
    fails ((r = 3 || r = 4 || r = 5) && w != d.nat O.quadLayout a) 4
  | .portMode =>
    let std := n.nat O.portStandard a b
    let r := n.role a
    (if x.o.sub0 = 1 then
       fails (!modeFits r std (layoutWidth (n.nat O.quadLayout a))) 4 ++ fails (!n.ratesFit a) 4 ++
       fails ((std = 0x40 || std = 0x41) && !staged items O.portLaneRate a b && !laneRateOk std (n.nat O.portLaneRate a b)) 4
     else fails (!laneRateOk std w) 4 ++ fails (!n.ratesFit a) 4)
  | .laneEq =>
    if 2 ≤ x.o.sub0 && x.o.sub0 < 0x10 then fails (n.nat O.laneRxEqMode a b != 2) 5
    else if x.o.chk = .ffe then fails (!n.ffeFits a b) 4 else []
  | .eyeStart => fails (w = 1 && d.nat O.quadEyeScanStatus a = 1) 10
  | .txControl =>
    let st := d.nat O.txState a b
    let start := n.nat O.txStartTick a b
    if w = 1 then fails (1 ≤ st && st ≤ 3) 5 ++ fails (start != 0 && decide (start < tc + 4000 * n.nat O.txLead a b)) 4
    else if w = 2 then fails (st != 4) 4 ++ fails (start != 0 && decide (start < tc + 4000 * n.nat O.txLead a b)) 4 else []
  | .lullControl =>
    if w = 1 then
      fails (!(d.nat O.captureEngineState 0 == 2 && d.nat O.captureEngineState 1 == 2 && d.storageStopped &&
        d.allPorts.all (fun i => !d.txActive (i / 4) (i % 4)))) 6 ++
      fails ((upTo 136).any (fun ch => d.chState ch == 2 || d.chState ch == 3)) 10
    else fails (d.nat O.memLullState != 0 && n.lullGated) 5
  | .ringMove => fails (!n.hbmSpan (n.nat O.memRingBase a) (n.nat O.memRingSize a)) 4
  | .stageMove => fails (!n.populated (n.nat O.memStageBase a) (n.nat O.memStageSize a)) 4
  | .thaw =>
    let ch := if a = 0 then b else 8 + b
    if w = 1 then
      fails (d.chState ch != 2) 4 ++ fails ((d.chan ch).snap.cause == 1 && 16 ≤ (d.chan ch).poison.length) 10
    else []
  | .chkOp => if w ≤ 3 then fails (!n.chkQuiet) 6 else []
  | .adminCmd => fails (d.store.cmds.any (fun (k : NvmeCmd) => k.ctl == a && (match k.use with
      | .admin => true
      | _ => false))) 10
  | .queryControl =>
    if w = 1 then fails ((n.on O.querySkipMatches a || n.on O.queryMaxMatches a) && n.nat O.queryStream a = 2) 4 else []
  | .coreControl =>
    if w = 1 then
      fails (!(d.nat O.powerDomainState 0 0 59 == 1 || (staged items O.powerDomainControl 0 0 59 && n.on O.powerDomainControl 0 0 59))) 5 ++
      fails (4 ≤ a && n.nodeGated (25 + (a - 4))) 5
    else []
  | .timeRef => fails (d.src (2 + w) != 2) 10
  | .xbEnable => fails (w = 0 && (d.nat O.clockSysRefInUse = 1 || d.nat O.clockTimeRefInUse = 1)) 5
  | .clkRevert => fails (w = 1 && !n.revertOk) 10
  | .fabEnable => fails (w = 0 && n.fabPllBusy a x.c) 5
  | .clkGate => fails (w = 0 && n.nodeUsed x.c) 5
  | .efuseKey => fails (d.nat O.keyStoreEfuseKeyState = 1 || d.boot.burning.any (fun s => s.key == x.key)) 5
  | .pubKeyHash => fails ((d.stored x).bytes != zeros 48 || d.boot.burning.any (fun s => s.key == x.key)) 5
  | .secVersion => fails (w < d.nat O.keyStoreSecurityVersion) 4
  | .policy => fails (Nat.land w (d.nat O.keyStorePolicy) != d.nat O.keyStorePolicy) 4
  | .fwUpdate => fails (w = 1 && d.nat O.fwUpdateStatus = 1) 10
  | .domainControl => fails (n.domainLocked x.c w (fun q p => n.on O.capturePortEnable q p)) 5
  | .runNow =>
    if w = 1 then
      fails (!(n.selectedUnit.2 < unitInsts n.selectedUnit.1)) 4 ++
      fails (d.test.now.isSome || (d.sliceOf n.selectedUnit.1 n.selectedUnit.2).isSome) 10
    else []
  | .nsMap => fails (!n.nsFits a) 4
  | .nsInit => fails (w = 1 && !n.on O.storeNsNsid a) 4 ++ fails (!n.nsFits a) 4
  | _ =>
    match x.o.base with
    | 0x2200 => if x.o.sub0 = 2 then fails (w = 0 && (n.nat O.timeDisciplineMode = 2 || n.nat O.twinFallbackMode = 2)) 4 else []
    | 0x7100 => if x.o.cls = .quiesce then fails (!n.nsFits a) 4 else []
    | 0x1100 => if x.o.sub0 = 8 then
        fails (w % max 1 ((SMap.find d.inForce (O.dictionaryWindowSize.key 0 0 0)).getD (O.dictionaryWindowSize.default 0 0 0)).nat != 0) 4 else []
    | 0x9802 => if x.o.sub0 = 2 then fails (w = 2 && !n.on O.timeBaseScale) 4 else []
    | _ =>
      if x.o.base = O.captureAdmissionGuarantee.base && x.o.sub0 = O.captureAdmissionGuarantee.sub0 then fails (!n.guaranteesFit (dieOf a)) 4
      else if x.o.chk = .keyWindow then fails (!n.windowsFit a) 4
      else if x.o.chk = .oneTier || (x.o.base = 0x5900 && x.o.sub0 = 1) || (x.o.base = 0x7800 && (x.o.sub0 = 0xD || x.o.sub0 = 0xF)) then
        if x.o.base = 0x5900 then fails (!oneTier (n.nat O.replayBufferAddr a b) (n.nat O.replayBufferBytes a b)) 4
        else fails (!n.on O.queryResultHost a && !oneTier (n.nat O.queryResultAddr a) (n.nat O.queryResultBytes a)) 4
      else if x.o.base = O.powerAvsFixed.base && x.o.sub0 = O.powerAvsFixed.sub0 then fails (match d.autoTarget with
        | some t => decide (w < t)
        | none => false) 4
      else if x.o.base = O.thermalWarnLimit.base && x.o.sub0 ≤ 3 then fails (!n.limitsFit) 4
      else []

/-! Validation. -/

/-- Every status that applies to one staged object, at validation (R273) or, with `late`, at the commit tick, where only the conditions of
R253 and the like are checked again. -/
def Dev.commitStatus (d n : Dev) (og : Nat) (items : List Staged) (s : Staged) (tc : Nat) (late : Bool) : List Nat :=
  match lookup (s.key / 256) (s.key % 256) with
  | none =>
    let st := d.accessStatus og (s.key / 256) (s.key % 256)
    if late then [] else fails (st != 0) st ++ fails (!d.fabricRuns) 10
  | some x =>
    let st := d.accessStatus og (s.key / 256) (s.key % 256)
    let cont := items.any (fun (t : Staged) => t.key == O.queryControl.key x.a 0 0 && t.val.nat == 2)
    let quiesce := fails (x.o.cls = .quiesce && !(x.o.eff = .twinAlign && !d.secondary) && !d.quiet x) 6
    let joint := d.jointStatus n items x s.val tc
    if late then
      quiesce ++ (match x.o.eff with
        | .discMode | .txControl | .chkOp | .lullControl | .thaw | .eyeStart | .clkRevert | .timeRef => joint
        | _ => [])
    else
      fails (st != 0) st ++ fails (d.unitLocked x cont) 5 ++ quiesce ++ joint ++
      fails (x.o.eff = .chkOp && 4 ≤ s.val.nat && og != 5 && og != 8) 2 ++
      fails (d.on O.powerFailWarn && (x.o.persist || x.o.cls = .reset)) 10

/-- The lowest of the statuses that apply; 0 for none. -/
def lowest (l : List Nat) : Nat := l.foldl (fun m n => if m = 0 || n < m then n else m) 0

/-- Validation: the lowest index:sub that fails, and its lowest status (R273, R261). Placement is reported on the Quad.Layout of the
lowest-numbered quad involved (R35). After a thermal trip every write fails with BUSY (R422). -/
def Dev.validate (d : Dev) (og : Nat) (items : List Staged) (tc : Nat) (late : Bool) : Option (Nat × Nat) :=
  let n := d.overlay items
  let moved := (upTo 36).any (fun q => staged items O.quadLayout q)
  let place := if moved && !late then n.firstMisplaced.map (fun q => (O.quadLayout.key q 0 0, 4)) else none
  let own := items.findSome? (fun s =>
    let st := lowest (d.commitStatus n og items s tc late ++ fails d.power.tripped 10)
    if st = 0 then none else some (s.key, st))
  match place, own with
  | some p, some o => if o.1 ≤ p.1 then some (o.1, if o.1 = p.1 then min o.2 4 else o.2) else some p
  | some p, none => some p
  | none, o => o

end Sys2Proof.Machine
end

