-- ==== Sys2Proof/Machine/Apply.lean ====
section
/-! DEFINITION. What committed values do at their commit tick, beyond being stored (R252, R274), and what the twin objects do (R296, R301,
R304, R306, R307). -/

set_option Elab.async false

namespace Sys2Proof.Machine

/-! Twin objects. -/

/-- Twin.Align := 1 on the Secondary: its count steps to the Primary's, by the offset last measured in whole ticks (R301, log entry 54). -/
def Dev.twinAlign (d : Dev) : Dev :=
  if d.secondary then
    let d := d.step (unsigned 64 ((d.count : Int) - d.twin.offset / 256))
    { d with twin := { d.twin with holdSteer := false, good := 0 } }
  else d

/-- Twin.Leave := 1: LEAVING in the next beat, and the LEAVE message (R307). -/
def Dev.twinLeave (d : Dev) : Dev :=
  if d.hasTwin then ({ d with twin := { d.twin with leaving := true } }).mirror 0xC 0 0 0 [] else d

/-- Twin.Takeover := 1 in SUSPECT, SPLIT or PEER_AWAY (R304). -/
def Dev.twinTakeover (d : Dev) : Dev :=
  let st := d.nat O.twinState
  if 4 ≤ st && st ≤ 6 then d.failover 4 else d

/-- Twin.FrontSide changes while the pair shares the Fronts: a Front that becomes owned takes up its last FRONT message, and one that
becomes a shadow gives up its timers (R296, log entry 55). `old` is the value before. -/
def Dev.frontSideChanged (d : Dev) (old : Nat) : Dev :=
  if d.twin.ownAll then d
  else
    (upTo 16).foldl (fun d n =>
      let was := b2n (bitOf old n) == d.side
      let is := d.ownsFront n
      if was && !is then
        let e := d.frontEntry n d.count
        let d := (d.setTimer n 0 none).setTimer n 1 none
        { d with twin := { d.twin with fronts := SMap.ins d.twin.fronts n e } }
      else if !was && is then
        match SMap.find d.twin.fronts n with
        | none => d
        | some e =>
          let d := (d.shadowTimer n e 0).shadowTimer n e 1
          { d with twin := { d.twin with fronts := SMap.del d.twin.fronts n } }
      else d) d

/-- Twin.AdoptStorage := 1: the label of every namespace taken over names this device (R306). Bytes of the label that the device does not
hold keep what the drive has, an open value here (log entry 56). -/
def Dev.adoptStorage (d : Dev) : Dev :=
  d.store.peerNs.foldl (fun d i =>
    (d.nsCmd i (.label i) 0 4096 (d.label i (fit 8 (Config.freeBytes d.free)))).drawn) d

/-! Firmware (R381). -/

/-- An image is verified and written to a slot, whose pages in the Firmware area wait for the Keep: Fw.UpdateStatus is 2, or 3 where its
signature does not verify. -/
def Dev.firmwareWrite (d : Dev) (slot : Nat) (image : List Byte) : Dev :=
  match Config.fwVersion image with
  | none => d.setNat O.fwUpdateStatus 3
  | some v =>
    let pages := (upTo ((image.length + 4095) / 4096)).map (fun i => 5120 + 8192 * slot + i)
    let d := { d with keep := { d.keep with groups := d.keep.groups ++ [({ pages := pages, ns := d.ns } : KeepGroup)] } }
    (d.setNat O.fwSlotVersion (v % 2 ^ 32) 0 0 slot).setNat O.fwUpdateStatus 2

/-- What writes that wait will leave in some bytes (R174). -/
def Dev.withWaiting (d : Dev) (a : Nat) (l : List Byte) : List Byte :=
  (d.mem.deferred.filter (fun x => x.write)).foldl (fun l x =>
    l.zipIdx.map (fun y => let p := a + y.2
                           if x.addr ≤ p && p < x.addr + x.data.length then x.data.getD (p - x.addr) 0 else y.1)) l

/-- A committed Fw.Update: the image in device memory goes to the other slot; 4 where a read fails. It is read as it stands once the writes that
wait have been performed (log entry 30). -/
def Dev.firmwareUpdate (d : Dev) : Dev :=
  let a := d.nat O.fwUpdateAddr
  let n := d.nat O.fwUpdateBytes
  if !d.admits then (d.refused a n niService).setNat O.fwUpdateStatus 4
  else
    let y := d.readSpan { ni := niService } (n + 1) a n []
    match y.1 with
    | none => y.2.setNat O.fwUpdateStatus 4
    | some l => y.2.firmwareWrite (1 - d.nat O.fwActiveSlot) (d.withWaiting a l)

/-! Changes. -/

/-- An object of the device that a commit writes: its value before and after. -/
structure Change where
  x : Occurrence
  old : Val
  new_ : Val

/-- Values that the commit does not store: what burns into fuses is read from them once it has (R378). -/
def ObjDef.burns (o : ObjDef) : Bool :=
  o.eff == .efuseKey || o.eff == .pubKeyHash || o.eff == .revoke || o.eff == .secVersion || o.eff == .policy

/-- Write-only values that the device holds. -/
def ObjDef.held (o : ObjDef) : Bool := o.acc != .wo || o.eff == .authKey || o.eff == .linkPairing || o.eff == .bbramKey

/-- The order in which the effects of one commit follow each other: uses stop, STOP after ForceDown (R145), gates close, domains go off
and on, gates open, and the rest (R357, R416). -/
def Change.phase (c : Change) : Nat :=
  let off := c.new_.nat == 0
  match c.x.o.eff with
  | .engControl => if off then 6 else 0
  | .coreControl | .storeControl | .queryControl => if off then 0 else 6
  | .txForceDown => 0
  | .txControl => if off then 1 else 6
  | .clkGate | .xbEnable | .fabEnable => if off then 2 else 5
  | .domainControl => if off then 3 else 4
  | _ => 6

/-- What comes before any value is stored: a port's records end under the old values (R110, R252), and entries that waited for a stream
session that changes are dropped (R280, log entry 72). -/
def Dev.applyBefore (d : Dev) (tc : Nat) (c : Change) : Dev :=
  let q := c.x.a
  let p := c.x.b
  match c.x.o.eff with
  | .capEnable => if c.old.nat = 1 && c.new_.nat = 0 && d.capturing q p then d.captureStop q p else d
  | .capSession | .direction => if c.old ≠ c.new_ && d.capturing q p then d.boundary q p else d
  | .chkLine => { d with mem := { d.mem with testLine := none } }
  | .streamSession =>
    if c.old ≠ c.new_ then { d with dict := { d.dict with toStream := [], streamLost := false, streamTick := tc } } else d
  | _ => d

/-- Store the value, or give it to the fuses. -/
def Dev.applyStore (d : Dev) (c : Change) : Dev :=
  if c.x.o.burns then d.burn c.x.key c.new_ else if c.x.o.held then d.storeVal c.x c.new_ else d

/-- A use of a domain that is off waits while it switches on (R417). -/
def Dev.useDomain (d : Dev) (n key : Nat) (v : Val) (f : Dev → Dev) : Dev :=
  if d.dom n = 1 then f d
  else if d.dom n = 2 then { d with power := { d.power with waiting := d.power.waiting ++ [(n, key, v)] } }
  else d

/-- FREEZE holds the equaliser values in use: those that AUTO had reached, which are open, or the values written in MANUAL (R43). -/
def Dev.eqFreeze (d : Dev) (q k old : Nat) : Dev :=
  let keys := O.laneCtlePeak.key q k 0 :: O.laneCtleGain.key q k 0 :: (upTo 12).map (O.laneDfeTap.key q k)
  keys.foldl (fun d key =>
    match lookup (key / 256) (key % 256) with
    | none => d
    | some x =>
      let v := if old = 0 then d.openVal x else d.stored x
      let d := { d with links := { d.links with frozen := SMap.ins d.links.frozen key v } }
      if old = 0 then d.drawn else d) d

/-- Objects of one commit that change. -/
def changed (cs : List Change) (o : ObjDef) (a b : Nat) : Bool :=
  cs.any (fun (c : Change) => c.x.key == o.key a b 0 && c.old != c.new_)

/-- The effect of one value committed at tc. -/
def Dev.applyOne (d : Dev) (tc : Nat) (cs : List Change) (c : Change) : Dev :=
  let a := c.x.a
  let b := c.x.b
  let n := c.new_.nat
  let key := c.x.key
  let moved : Bool := c.old != c.new_
  let one : Bool := n == 1
  match c.x.o.eff with
  | .plain | .layout | .direction | .portMode | .chkLine | .ckptInterval | .efuseKey | .pubKeyHash | .revoke | .secVersion | .policy
  | .streamSession => d
  | .timeSet => d.step n
  | .discMode => d.modeCommitted n
  | .laneEq =>
    let d := if c.x.o.sub0 = 1 && moved && n = 1 then d.eqFreeze a b c.old.nat else d
    if moved then d.abortEye (4 * a + b) else d
  | .eyeStart => if one then d.eyeBegin a else d
  | .spapaxEnable => if moved || (d.spx (4 * a)).lockout then d.spxEnabled a one else d
  | .engControl => d.useDomain (56 + a) key c.new_ (fun d => d.engineControl a n)
  | .engFlush => if one then d.flushEngine a else d
  | .capEnable => if one && moved then d.captureStart a b else d.tryClose (d.nat O.capturePortSession a b)
  | .capSession => if moved then d.tryClose c.old.nat else d
  | .flowScan => if moved then d.setEng a { d.eng a with scanSet := 0, scanNs := d.ns } else d
  | .flowClear => if one then d.setEng a { d.eng a with flow := [] } else d
  | .frontControl => d.frontControl a n
  | .retMode => if moved then d.retModeChanged a n else d
  | .retTrigger => if one then d.commitTrigger a tc else d
  | .txControl => d.txControl a b n tc
  | .txForceDown =>
    d.txForced a b one (cs.any (fun (c : Change) => c.x.key == O.txControl.key a b 0 && c.new_.nat == 0))
  | .lullControl =>
    if one then (if d.nat O.memLullState = 0 then d.setNat O.memLullState 1 else d)
    else if d.nat O.memLullState = 2 then d.setNat O.memLullState 3 else d
  | .ringMove => if moved then d.ringMoved a else d
  | .stageMove => if moved then d.stageMoved a else d
  | .thaw => if one then d.thawBegin (if a = 0 then b else 8 + b) tc else d
  | .poisonClear =>
    let ch := if a = 0 then b else 8 + b
    let x := d.chan ch
    d.setChan ch { x with poison := SMap.del x.poison n }
  | .chkOp => d.chkOp n
  | .storeControl => d.useDomain 58 key c.new_ (fun d => d.storeControl n)
  | .storeUnpin => d.unpin n
  | .ctlReset => if one then d.ctlRestart a else d
  | .adminCmd => d.adminCmd a c.new_.bytes
  | .nsMap => if n = 0 then d.setNat O.storeNsState 0 a else d
  | .nsInit => if one then d.nsInitialise a else d
  | .sessEnable => if n = 0 && moved then d.sessionDisabled a else d
  | .quota => d.quotaChanged a
  | .unpinAll => if one then d.unpinSession a else d
  | .release => if one then d.releaseSession a else d
  | .queryControl => d.queryControl a n
  | .authKey =>
    let d := d.setNat O.authKeyValid (b2n (c.new_.bytes != zeros 32)) a 0 c.x.c
    { d with dict := { d.dict with seqs := SMap.del d.dict.seqs (4 * a + c.x.c) } }
  | .logCheckpoint => if one then d.checkpoint else d
  | .twinAlign => if one then d.twinAlign else d
  | .frontSide => d.frontSideChanged c.old.nat
  | .twinLeave => if one then d.twinLeave else d
  | .twinTakeover => if one then d.twinTakeover else d
  | .twinAdopt => if one then d.adoptStorage else d
  | .coreControl => d.coreControlled a n
  | .timeRef => d.setNat O.clockTimeRefInUse n
  | .xbEnable => d.xbChanged
  | .clkRevert => if one then d.clockReverted else d
  | .fabEnable => if moved then d.fabPllChanged a c.x.c else d
  | .clkGate => if moved then d.gateChanged c.x.c else d
  | .reconfigure => if one then { d with boot := { d.boot with reconfNs := some d.ns } } else d
  | .bbramKey => (d.setNat O.keyStoreBbramState 1).keyCheck
  | .bbramErase => if one then ((d.setOct O.keyStoreBbramKey (zeros 32)).setNat O.keyStoreBbramState 0).keyCheck else d
  | .linkPairing => d.setNat O.keyLinkPairingValid
      (b2n (d.octs O.keyLinkPairing 0 0 0 != zeros 32) + 2 * b2n (d.octs O.keyLinkPairing 0 0 1 != zeros 32))
  | .fwUpdate => if one then d.firmwareUpdate else d
  | .domainControl => d.domainSet c.x.c n
  | .runNow => if one then d.runNow else d
  | .clearPermanent => d.clearPermanent n
  | .rawSelect => { d with keep := { d.keep with rawOn := true } }
  | .clearSuspect => if one then d.clearSuspects d.selectedBundle else d

/-- Effects of one phase, in rising order of key. -/
def Dev.applyPhase (d : Dev) (tc : Nat) (cs : List Change) (ph : Nat) : Dev :=
  let d := (cs.filter (fun (c : Change) => c.phase == ph)).foldl (fun d c => d.applyOne tc cs c) d
  if ph = 4 then d.pumpDomains else d

/-- Quad.Layout of every quad that the commit changes, before and after. -/
def layoutPairs (cs : List Change) (new : Bool) : List (Nat × Nat) :=
  (cs.filter (fun (c : Change) => c.x.o.eff == .layout && c.old != c.new_)).map (fun c => (c.x.a, (if new then c.new_ else c.old).nat))

/-- Ports, as 4q + p, whose mode or rate the commit changes. -/
def modePorts (cs : List Change) : List Nat :=
  ((cs.filter (fun (c : Change) => c.x.o.eff == .portMode && c.old != c.new_)).map (fun (c : Change) => 4 * c.x.a + c.x.b)).eraseDups

/-- Equaliser and FFE values of one commit are one settle cause for each port, with every lane they touch (R46, R95). -/
def Dev.applySettle (d : Dev) (cs : List Change) : Dev :=
  let eq := cs.filter (fun (c : Change) => c.x.o.eff == .laneEq && c.old != c.new_)
  (upTo 144).foldl (fun d i =>
    let mask := eq.foldl (fun m (c : Change) => if d.portOfLane c.x.a c.x.b = i then Nat.lor m (2 ^ d.laneWithin c.x.a c.x.b) else m) 0
    if mask = 0 then d else d.settleCause (i / 4) (i % 4) 1 mask) d

/-- Slices of ORDINARY units that the commit's objects touch end (R434). -/
def Dev.applyTests (d : Dev) (cs : List Change) : Dev :=
  d.abortSlices (fun s => !unitPriv s.unit && cs.any (fun (c : Change) => unitTouched s.unit s.inst c.x.key))

/-- The values of a commit are stored. -/
def Dev.storeAll (d : Dev) (cs : List Change) (tc : Nat) : Dev :=
  let d := d.applyTests cs
  let d := cs.foldl (fun d c => d.applyBefore tc c) d
  cs.foldl Dev.applyStore d

/-- And take effect. -/
def Dev.applyAll (d : Dev) (cs : List Change) (tc : Nat) : Dev :=
  let lo := layoutPairs cs false
  let d := if lo.isEmpty then d else d.layoutChanged lo (layoutPairs cs true)
  let d := d.modesChanged (modePorts cs)
  let d := (cs.filter (fun (c : Change) => c.x.o.key 0 0 0 == O.patternRawFill.key 0 0 0)).foldl (fun d c => d.sendFill c.x.a c.x.b) d
  ((upTo 7).foldl (fun d ph => d.applyPhase tc cs ph) d).applySettle cs

end Sys2Proof.Machine
end

