-- ==== Sys2Proof/Machine/Commit.lean ====
section
/-! DEFINITION. Responses, transactions and commits (R259 to R262, R270 to R278, R291, R456). -/

set_option Elab.async false

namespace Sys2Proof.Machine

/-! Responses (R257, R262, R264, R330, R347, R438). -/

/-- A mailbox slot of the Host endpoint. -/
def Dev.box (d : Dev) (k : Nat) : Mailbox := SMap.getD d.dict.boxes k {}

/-- Set it. -/
def Dev.setBox (d : Dev) (k : Nat) (x : Mailbox) : Dev := { d with dict := { d.dict with boxes := SMap.setD d.dict.boxes k {} x } }

/-- A core's mailbox slot. -/
def Dev.coreBox (d : Dev) (c : Nat) : Mailbox := SMap.getD d.dict.cores c {}

/-- Set it. -/
def Dev.setCoreBox (d : Dev) (c : Nat) (x : Mailbox) : Dev := { d with dict := { d.dict with cores := SMap.setD d.dict.cores c {} x } }

/-- A mailbox slot is served: DONE with its response, and the MSI-X message (R264). -/
def Dev.boxDone (d : Dev) (k : Nat) (resp : List Byte) : Dev :=
  let d := d.setBox k { d.box k with state := 3, respLen := resp.length, response := resp }
  { d with events := { d.events with msix := SMap.ins d.events.msix (d.nat O.dictionaryMailboxVector) 1 } }

/-- A core's slot is served: bit 32 of ekip in place of the message (R330). -/
def Dev.coreDone (d : Dev) (c : Nat) (resp : List Byte) : Dev :=
  (d.setCoreBox c { d.coreBox c with state := 3, respLen := resp.length, response := resp }).raiseLine c 32

/-- Size of an entry of a RECORD object. -/
def Dev.entryOf (d : Dev) (index sub : Nat) : Nat :=
  match lookup index sub with
  | some x => x.o.entry
  | none => (d.fab.user.find? (fun u => u.index == index && u.sub == sub)).elim 0 (fun u => u.entry)

/-- An item of a response with so many bytes of room for its value: a segment is cut to it, in whole entries (R255, R257); any other value that does not
fit makes the item BUSY (DESIGN CHOICE, log entry 115). -/
def Dev.fitItem (d : Dev) (room : Nat) (i : RItem) : RItem :=
  if i.value.length ≤ room then i
  else if i.op = 1 && (i.type = 0xC || i.type = 0xD) then { i with value := i.value.take room }
  else if i.op = 1 && i.type = 0xE then
    let e := max 1 (d.entryOf i.index i.sub)
    { i with value := i.value.take (room / e * e) }
  else { i with status := 10, value := [] }

/-- The items of a response in so many bytes, each header with room of its own. -/
def Dev.fitItems (d : Dev) : Nat → List RItem → List RItem
  | _, [] => []
  | room, i :: is =>
    let j := d.fitItem ((room - 12 * (is.length + 1)) / 4 * 4) i
    j :: d.fitItems (room - 12 - (j.value.length + 3) / 4 * 4) is

/-- A response leaves on the path that its request came by. A slot that has been reset meanwhile discards it (R264). -/
def Dev.sendReply (d : Dev) (r : Reply) (tick : Nat) : Dev :=
  let tag := match r.path with
    | .vane .. => 32
    | _ => 0
  let items := (d.fitItems (8192 - 40 - tag) r.items).flatMap (fun (i : RItem) => itemBytes i.op i.status i.index i.sub i.type i.off i.value)
  let n := r.items.length
  let plain := d.pduBody 2 r.status 0 r.reqId r.seq r.txn n items tick 0
  match r.path with
  | .direct => r.items.foldl (fun d (i : RItem) => d.send (.answer r.origin i.status i.value)) d
  | .vane v src own => d.sendPdu v own src (d.pdu v 2 r.status r.keyId r.reqId r.seq r.txn n items tick)
  | .mailbox k => if (d.box k).state = 2 then d.boxDone k plain else d
  | .core c => if (d.coreBox c).state = 2 then d.coreDone c plain else d
  | .jtag => { d with jtag := { d.jtag with outstanding := false, ready := true, response := plain } }
  | .fabric f => ({ d with fab := { d.fab with busy := d.fab.busy.filter (fun x => x != f) } }).send (.fabric f plain)

/-- A response is complete, or waits under its number. -/
def Dev.putReply (d : Dev) (n : Nat) (r : Reply) (tick : Nat) : Dev :=
  if r.items.any (fun (i : RItem) => i.wait != 0) then { d with dict := { d.dict with replies := SMap.ins d.dict.replies n r } }
  else ({ d with dict := { d.dict with replies := SMap.del d.dict.replies n } }).sendReply r tick

/-- The items of a response that wait for a commit are answered. -/
def Dev.settleReply (d : Dev) (n : Nat) (f : RItem → RItem) (tick : Nat) : Dev :=
  match SMap.find d.dict.replies n with
  | none => d
  | some r => d.putReply n { r with items := r.items.map (fun (i : RItem) => if i.wait = 1 then f { i with wait := 0 } else i) } tick

/-! Transactions. -/

/-- The one commit that is VALIDATING or SCHEDULED. -/
def Dev.activeTxn (d : Dev) : Option Txn := d.dict.txns.find? (fun (t : Txn) => t.state == .validating || t.state == .scheduled)

/-- A commit waits, validates or is scheduled. -/
def Dev.commitsBusy (d : Dev) : Bool := d.dict.txns.any (fun (t : Txn) => t.state != .open_)

/-- Put a transaction in the place of another. -/
def Dev.swapTxn (d : Dev) (t u : Txn) : Dev := { d with dict := { d.dict with txns := updateFirst (fun (x : Txn) => x == t) (fun _ => u) d.dict.txns } }

/-- A transaction ends: its staged values and locks go, and its slot is free. -/
def Dev.dropTxn (d : Dev) (t : Txn) : Dev := { d with dict := { d.dict with txns := removeFirst (fun (x : Txn) => x == t) d.dict.txns } }

/-- The exported object of a key. -/
def Dev.userAt (d : Dev) (key : Nat) : Option UserObj := d.fab.user.find? (fun u => u.index * 256 + u.sub == key)

/-- Type of an exported object. -/
def userType (u : UserObj) : ObjType := (codeType u.type).getD .octets

/-- Type code and bytes of a value of a key. -/
def Dev.valBytes (d : Dev) (key : Nat) (v : Val) : Nat × List Byte :=
  match lookup (key / 256) (key % 256) with
  | some x => (x.o.ty.code, encodeVal x.o.ty v)
  | none =>
    match d.userAt key with
    | some u => (u.type, encodeVal (userType u) v)
    | none => (0, v.bytes)

/-- Dictionary.LastCommitFail (R272, R275). -/
def Dev.failNote (d : Dev) (key status : Nat) : Dev := d.setNat O.dictionaryLastCommitFail (256 * key + status)

/-- First multiple of 4 at or after a tick. -/
def nextQuad (n : Nat) : Nat := (n + 3) / 4 * 4

/-! Items and messages of a pair commit (R291, R297). -/

/-- The word of an object in the device's catalogue. -/
def Dev.catWord (d : Dev) (key : Nat) : Nat :=
  match lookup (key / 256) (key % 256) with
  | some x => key * 256 + x.o.ty.code * 8 + classCode x.o.cls
  | none =>
    match d.userAt key with
    | some u => key * 256 + u.type * 8 + u.cls
    | none => 0

/-- The object is in the common schema (R309). -/
def Dev.commonKey (d : Dev) (key : Nat) : Bool := d.twin.common && d.twin.catalogue.contains (d.catWord key)

/-- A key is SHARED, in the common schema. -/
def Dev.sharedKey (d : Dev) (key : Nat) : Bool :=
  (match lookup (key / 256) (key % 256) with
   | some x => x.o.shared
   | none => false) && d.commonKey key

/-- A key is in the SHADOW scope, in the common schema. -/
def Dev.shadowKeyOk (d : Dev) (key : Nat) : Bool :=
  (match lookup (key / 256) (key % 256) with
   | some x => x.o.shadowed
   | none => match d.userAt key with
     | some u => u.access == 1 && u.cls != 2
     | none => false) && d.commonKey key

/-- A staged value as an item with its value. -/
def Dev.twinItem (d : Dev) (s : Staged) : List Byte :=
  let b := d.valBytes s.key s.val
  itemBytes 2 0 (s.key / 256) (s.key % 256) b.1 0 b.2

/-- VERDICT: OK, or the failing object and its status. -/
def Dev.sendVerdict (d : Dev) (txn key status : Nat) : Dev :=
  d.mirror 2 status 1 txn (itemBytes 2 status (key / 256) (key % 256) 0 0 [])

/-- SHADOW messages of values and their commit tick, which comes before the items (log entry 57). -/
def Dev.sendShadows (d : Dev) (l : List Staged) (tc : Nat) : Dev :=
  let l := l.filter (fun s => d.shadowKeyOk s.key)
  if l.isEmpty then d
  else (packEntries 4064 (l.map d.twinItem) 0 []).foldl (fun d m => d.mirror 4 0 m.1 0 (leBytes 8 tc ++ m.2)) d

/-! Logbook entries of a commit (R276 to R278). -/

/-- A value in OLD or NEW. -/
def logValue (long : Bool) (l : List Byte) : List Byte := if long then fit 12 l ++ leBytes 4 (crc32c l) else fit 16 l

/-- An object-change entry. -/
def changeEntry (t : Txn) (tc key type : Nat) (secret : Bool) (old new : List Byte) (wo : Bool) : LogEntry :=
  let long := 16 < old.length || 16 < new.length
  { tick := tc, seq := 0, boot := 0, kind := 1, origin := t.origin, keyId := t.keyId, flags := b2n long + 2 * b2n secret, txn := t.txn,
    index := key / 256, sub := key % 256, type := type,
    old := if secret || wo then [] else logValue long old, new_ := if secret then [] else logValue long new }

/-- The entry of one staged value, before it is applied: OLD is the value in use, as a read would give it (R42, R43, R276). -/
def Dev.itemEntry (d : Dev) (t : Txn) (tc : Nat) (s : Staged) : LogEntry :=
  match lookup (s.key / 256) (s.key % 256) with
  | some x =>
    changeEntry t tc s.key x.o.ty.code x.o.secret (if x.o.acc = .wo then [] else encodeVal x.o.ty (d.liveVal x)) (encodeVal x.o.ty s.val) (x.o.acc == .wo)
  | none =>
    match d.userAt s.key with
    | some u =>
      let old := match SMap.find d.fab.values s.key with
        | some v => encodeVal (userType u) v
        | none => u.dflt
      changeEntry t tc s.key u.type false (if u.access = 2 then [] else old) (encodeVal (userType u) s.val) (u.access == 2)
    | none => changeEntry t tc s.key 0 false [] [] false

/-- The open value that the OLD of an entry holds is used up (log entry 3). -/
def Dev.usedOld (d : Dev) (key : Nat) : Dev :=
  match lookup (key / 256) (key % 256) with
  | some x => if d.readDraws x then d.drawn else d
  | none => d

/-- The entries of the staged values of a commit. -/
def Dev.itemEntries (d : Dev) (t : Txn) (tc : Nat) : List LogEntry × Dev :=
  t.items.foldl (fun (x : List LogEntry × Dev) s => (x.1 ++ [x.2.itemEntry t tc s], x.2.usedOld s.key)) ([], d)

/-- Key slots that a commit writes (table "Logbook codes"). -/
def keySlotEntries (t : Txn) (tc : Nat) : List LogEntry :=
  t.items.filterMap (fun s =>
    match lookup (s.key / 256) (s.key % 256) with
    | some x =>
      if x.o.eff = .authKey then
        some { tick := tc, seq := 0, boot := 0, kind := 3, code := 3, origin := t.origin, keyId := t.keyId, txn := t.txn, index := 0,
               old := leBytes 1 x.a ++ leBytes 1 x.c }
      else none
    | none => none)

/-! Applying (R272 step 6). -/

/-- The values of a commit that the Keep takes: PERSIST and RESET-class ones (R251, R254, R282). -/
def Dev.keptItems (d : Dev) (l : List Staged) : SMap Val :=
  (l.filter (fun s => match lookup (s.key / 256) (s.key % 256) with
    | some x => x.o.persist || x.o.cls == .reset
    | none => match d.userAt s.key with
      | some u => u.cls == 3
      | none => false)).map (fun s => (s.key, s.val))

/-- Values of exported objects become active (R349). -/
def Dev.applyUser (d : Dev) (l : List Staged) : Dev :=
  l.foldl (fun d s =>
    if (lookup (s.key / 256) (s.key % 256)).isNone && (d.userAt s.key).isSome then
      { d with fab := { d.fab with values := SMap.ins d.fab.values s.key s.val, shadows := SMap.del d.fab.shadows s.key } }
    else d) d

/-- The changes of a commit to the device's objects. -/
def Dev.changesOf (d : Dev) (l : List Staged) : List Change :=
  l.filterMap (fun s => (lookup (s.key / 256) (s.key % 256)).map (fun x => { x := x, old := d.stored x, new_ := s.val }))

/-- A commit applies at its tick: every value is stored, one Logbook entry for each in rising order, one for the commit, EV1514; then the
values take effect, and shadows go to the peer. -/
def Dev.applyCommit (d : Dev) (t : Txn) (tc : Nat) : Dev :=
  let cs := d.changesOf t.items
  let ed := d.itemEntries t tc
  let es := ed.1
  let d := ed.2
  let kept := d.keptItems t.items
  let d := ((d.storeAll cs tc).applyUser t.items).keepVals kept
  let done : LogEntry := { tick := tc, seq := 0, boot := 0, kind := 2, code := 1, origin := t.origin, keyId := t.keyId, txn := t.txn, index := 0,
                           old := leBytes 2 t.items.length }
  let d := (es ++ done :: keySlotEntries t tc).foldl Dev.logEntry d
  let d := { d with dict := { d.dict with tcs := t.items.foldl (fun m (s : Staged) => SMap.ins m s.key tc) d.dict.tcs } }
  let d := ((d.inc O.dictionaryCommits).setNat O.dictionaryLastCommitTick tc).occurAs { ev := 1514, tick := tc }
  let d := d.applyAll cs tc
  if d.mirrors then d.sendShadows t.items tc else d

/-! Failing (R272 steps 4 and 7, R275). -/

/-- A commit of this device that fails: TimeDiscipline.Mode := 0 takes the place of a fallback mode (R303 step 3). -/
def Dev.autoFallback (d : Dev) (t : Txn) : Dev :=
  match t.items with
  | [s] =>
    if t.origin = 9 && t.reply = 0 && s.key = O.timeDisciplineMode.key 0 0 0 && s.val.nat != 0 && s.val.nat != 3 then d.autoMode 0 else d
  | _ => d

/-- A commit fails on an object with a status, at validation or, `late`, at its commit tick. -/
def Dev.txnFail (d : Dev) (t : Txn) (key status tick : Nat) (late : Bool) : Dev :=
  match t.slot with
  | some _ =>
    let d := d.swapTxn t { t with state := .open_, sinceNs := d.ns, want := none, mirror := none, reply := 0 }
    if late then d.failNote key status
    else d.settleReply t.reply (fun i => { i with status := status, index := key / 256, sub := key % 256 }) tick
  | none =>
    let d := d.dropTxn t
    match t.mirror with
    | some 0 => d.sendVerdict t.txn key status
    | some 1 => d.failNote key status
    | _ => ((d.failNote key status).settleReply t.reply (fun i => { i with status := status }) tick).autoFallback t

/-! Validation and the commit tick (R272 to R274, R349). -/

/-- VALIDATION_START: the first QUEUED commit leaves the queue; its values for exported objects go to their shadows. -/
def validationStartEffect (d : Dev) : Dev :=
  if d.activeTxn.isSome then d
  else match d.dict.txns.find? (fun (t : Txn) => t.state == .queued) with
    | none => d
    | some t =>
      let d := d.swapTxn t { t with state := .validating, sinceNs := d.ns }
      t.items.foldl (fun d s =>
        if (lookup (s.key / 256) (s.key % 256)).isNone then
          { d with fab := { d.fab with shadows := SMap.ins d.fab.shadows s.key false } }
        else d) d

/-- The lowest exported object that has not acknowledged its value. -/
def Dev.unacked (d : Dev) (l : List Staged) : Option Nat :=
  (l.find? (fun s => (lookup (s.key / 256) (s.key % 256)).isNone && !SMap.getD d.fab.shadows s.key false)).map (fun s => s.key)

/-- The lowest object of a commit that the peer proposes which a transaction of this side has staged (R271, R291). -/
def Dev.lockedHere (d : Dev) (t : Txn) : Option Nat :=
  if t.mirror = some 0 then
    (t.items.find? (fun s => d.dict.txns.any (fun (u : Txn) => u != t && u.items.any (fun y => y.key == s.key)))).map (fun s => s.key)
  else none

/-- The finding on the lower object, and of two on one object the lower status (R261, R273). -/
def firstFail (a b : Option (Nat × Nat)) : Option (Nat × Nat) :=
  match a, b with
  | some x, some y => some (if y.1 < x.1 || (y.1 = x.1 && y.2 < x.2) then y else x)
  | some x, none => some x
  | none, y => y

/-- What validation finds: the failing object and its status. -/
def Dev.judge (d : Dev) (t : Txn) : Option (Nat × Nat) :=
  firstFail (d.validate t.origin t.items (nextQuad (d.count + 4000)) false)
    (firstFail ((d.lockedHere t).map (fun k => (k, 5))) ((d.unacked t.items).map (fun k => (k, 10))))

/-- The commit is SCHEDULED, at least `lead` ticks from now; a COMMIT is answered with tc (R274). A requested tick outside its span fails. -/
def Dev.scheduleTxn (d : Dev) (t : Txn) (lead : Nat) : Dev :=
  let tc := match t.want with
    | none => some (nextQuad (d.count + lead) % 2 ^ 64)
    | some w =>
      let ahead := (w + 2 ^ 64 - d.count) % 2 ^ 64
      if w % 4 = 0 && w < 2 ^ 64 && lead ≤ ahead && ahead ≤ 4000000000 then some w else none
  match tc with
  | none => d.txnFail t 0 4 d.count false
  | some tc =>
    let pair := t.mirror == some 2
    let d := d.swapTxn t { t with state := .scheduled, sinceNs := d.ns, tc := tc, era := d.time.era, reply := if t.slot.isSome then 0 else t.reply }
    let d := if pair then d.mirror 3 0 1 t.txn (leBytes 8 tc) else d
    if t.slot.isSome then d.settleReply t.reply (fun i => { i with type := 0xA, value := leBytes 8 tc }) d.count else d

/-- VALIDATION_END: the commit fails, or is scheduled; a pair commit goes to the peer first, or its verdict does (R272, R291). A commit that
waits for a peer that is no longer joined goes on alone (log entry 58). -/
def validationEndEffect (d : Dev) : Dev :=
  match d.dict.txns.find? (fun (t : Txn) => t.state == .validating) with
  | none => d
  | some t =>
    let joined := d.nat O.twinState == 3
    match t.mirror with
    | some 1 => if joined then d else d.dropTxn t
    | some 2 => if joined then d else
      let alone := { t with mirror := none }
      (d.swapTxn t alone).scheduleTxn alone 4000
    | m =>
      match d.judge t with
      | some f => d.txnFail t f.1 f.2 d.count false
      | none =>
        if m = some 0 then (d.sendVerdict t.txn 0 0).swapTxn t { t with mirror := some 1 }
        else
          let sh := t.items.filter (fun s => d.sharedKey s.key)
          if joined && !sh.isEmpty && t.origin != 4 then
            (d.swapTxn t { t with mirror := some 2 }).mirror 1 0 sh.length t.txn (sh.flatMap d.twinItem)
          else d.scheduleTxn t 4000

/-- A tick has been reached, on a count modulo 2^64. -/
def reached (tc count : Nat) : Bool := decide ((count + 2 ^ 64 - tc % 2 ^ 64) % 2 ^ 64 < 2 ^ 63)

/-- COMMIT_TICK: the scheduled commit applies, or fails where its conditions no longer hold. A tick that a step has passed gives way to the
first multiple of 4 after it (R274). -/
def commitTickEffect (d : Dev) : Dev :=
  match d.dict.txns.find? (fun (t : Txn) => t.state == .scheduled) with
  | none => d
  | some t =>
    d.when (!d.halted && reached t.tc d.count) (fun d =>
      let tc := if (d.count + 2 ^ 64 - t.tc) % 2 ^ 64 < 4 || t.era = d.time.era then t.tc else nextQuad d.count % 2 ^ 64
      match d.validate t.origin t.items tc true with
      | some f => d.txnFail t f.1 f.2 tc true
      | none => ((d.dropTxn t).applyCommit t tc).settleReply t.reply (fun i => i) tc)

/-! Items of requests (R259, R260, R271, R275, R456). -/

/-- One item of a request. -/
structure ReqItem where
  op : Nat
  index : Nat := 0
  sub : Nat := 0
  type : Nat := 0
  off : Nat := 0
  len : Nat := 0
  value : List Byte := []
deriving DecidableEq, Repr

/-- Another transaction has staged the object (R271). -/
def Dev.lockedBy (d : Dev) (t : Txn) (key : Nat) : Bool :=
  d.dict.txns.any (fun (u : Txn) => (u.slot == none || u.slot != t.slot) && u.items.any (fun s => s.key == key))

/-- Stage one value: its status, and the transaction after it. The twin peer stages only through its own messages (R267). -/
def Dev.stageItem (d : Dev) (t : Txn) (it : ReqItem) : Nat × Txn :=
  let key := it.index * 256 + it.sub
  let c := d.checkWrite t.origin it.index it.sub it.type it.value
  let user := (lookup it.index it.sub).isNone
  let have_ := t.items.any (fun s => s.key == key)
  let st := if t.origin = 4 then (if c.1 = 1 then 1 else 2) else lowest
    (fails (c.1 != 0) c.1 ++
     (if c.1 != 0 then [] else fails (d.lockedBy t key) 5 ++ fails (!have_ && 4096 ≤ t.items.length) 7 ++
       fails (d.power.tripped || (user && !d.fabricRuns)) 10))
  if st = 0 then (0, { t with items := Sys2Proof.Machine.stagePut t.items key c.2 }) else (st, t)

/-- A segment of a value's bytes, whole for a scalar. -/
def segment (scalar : Bool) (l : List Byte) (o n : Nat) : List Byte := if scalar then l else (l.drop o).take n

/-- Read an item: against a transaction's staged values first (R250, R255, R267, R271, R350). An exported object is sampled: its item waits. -/
def Dev.readItem (d : Dev) (og : Nat) (t : Option Txn) (it : ReqItem) : RItem × Dev :=
  let r : RItem := { op := it.op, index := it.index, sub := it.sub, off := it.off }
  let right := d.mayAccess false og it.index
  let staged_ := t.bind (fun (t : Txn) => stagedVal t.items (it.index * 256 + it.sub))
  match d.target it.index it.sub with
  | none => ({ r with status := 1 }, d)
  | some (.top hi) => (if right then { r with type := 2, value := leBytes 1 hi } else { r with type := 2, status := 2 }, d)
  | some (.obj x) =>
    let r := { r with type := x.o.ty.code }
    if x.o.acc = .wo || !right then ({ r with status := 2 }, d)
    else match staged_ with
      | some v => ({ r with value := segment (x.o.ty.bytes != 0) (encodeVal x.o.ty v) it.off it.len }, d)
      | none =>
        let y := d.readObj x it.off it.len
        ({ r with status := y.1.1, value := y.1.2 }, y.2)
  | some (.user u) =>
    let r := { r with type := u.type }
    if u.access = 2 || !right then ({ r with status := 2 }, d)
    else match staged_ with
      | some v => ({ r with value := segment ((userType u).bytes != 0) (encodeVal (userType u) v) it.off it.len }, d)
      | none =>
        if userType u = .record && (u.entry = 0 || it.off % u.entry != 0) then ({ r with status := 4 }, d)
        else if d.fabricRuns then ({ r with wait := 2 }, d) else ({ r with status := 10 }, d)

/-- Describe an item (R248). -/
def Dev.describeItem (d : Dev) (og : Nat) (it : ReqItem) : RItem :=
  let r : RItem := { op := it.op, index := it.index, sub := it.sub }
  match d.target it.index it.sub with
  | none => { r with status := 1 }
  | some t =>
    let r := { r with type := match t with
      | .top _ => 2
      | .obj x => x.o.ty.code
      | .user u => u.type }
    if d.mayAccess false og it.index then { r with value := d.describe t } else { r with status := 2 }

/-- What serving the items of a request leaves: the items of its response, the transaction and the block. -/
structure Served where
  items : List RItem := []
  txn : Txn
  dev : Dev

/-- Serve READ, WRITE and DESCRIBE items in item order; items not listed fail with RANGE. -/
def serveItems (n : Nat) (og : Nat) (named : Bool) (l : List ReqItem) (s : Served) : Served :=
  l.foldl (fun (s : Served) it =>
    let d := s.dev
    let plain : RItem := { op := it.op, index := it.index, sub := it.sub }
    match it.op with
    | 1 =>
      let y := d.readItem og (some s.txn) it
      let d := y.2
      let d := if y.1.wait = 2 then
          let x : Sample := { key := it.index * 256 + it.sub, ns := d.ns, reply := n, item := s.items.length, len := it.len }
          { d with fab := { d.fab with samples := d.fab.samples ++ [x] } }
        else d
      { s with items := s.items ++ [y.1], dev := d }
    | 2 =>
      let y := d.stageItem s.txn it
      if named && s.txn.state != .open_ then { s with items := s.items ++ [{ plain with status := if y.1 = 0 then 10 else y.1 }] }
      else
        { s with items := s.items ++ [{ plain with status := y.1, wait := if y.1 = 0 && !named then 1 else 0 }], txn := y.2 }
    | 3 => { s with items := s.items ++ [d.describeItem og it] }
    | _ => { s with items := s.items ++ [{ plain with status := 4 }] }) s

/-- BEGIN (R270, R272 steps 1 and 2). -/
def Dev.beginOp (d : Dev) (og keyId : Nat) : RItem × Dev :=
  match (upTo 8).find? (fun k => !d.dict.txns.any (fun (t : Txn) => t.slot == some k)) with
  | none => ({ op := 4, status := 7 }, d)
  | some k =>
    let n := SMap.getD d.dict.counts k 0 + 1
    let n := if 2 ^ 29 ≤ n then 1 else n
    let t : Txn := { slot := some k, txn := 8 * n + k, origin := og, keyId := keyId, sinceNs := d.ns }
    ({ op := 4, type := 4, value := leBytes 4 (8 * n + k) },
     { d with dict := { d.dict with counts := SMap.ins d.dict.counts k n, txns := d.dict.txns ++ [t] } })

/-- COMMIT (R272 step 3): the transaction goes to the end of the queue, and its response waits. -/
def Dev.commitOp (d : Dev) (t : Txn) (n keyId : Nat) (it : ReqItem) : RItem × Dev :=
  if it.value.length ≠ 0 ∧ it.value.length ≠ 8 then ({ op := 5, status := 3 }, d)
  else if t.state ≠ .open_ then ({ op := 5, status := 10 }, d)
  else
    let u := { t with state := .queued, sinceNs := d.ns, want := if it.value.isEmpty then none else some (leNat it.value), keyId := keyId, reply := n }
    let d := d.dropTxn t
    ({ op := 5, wait := 1 }, { d with dict := { d.dict with txns := d.dict.txns ++ [u] } })

/-- Discard a transaction with its Logbook entry: CODE 2 rolled back by a request, 3 by the idle timer. -/
def Dev.rollBack (d : Dev) (t : Txn) (code og keyId : Nat) : Dev :=
  (d.dropTxn t).logEntry { tick := d.count, seq := 0, boot := 0, kind := 2, code := code, origin := og, keyId := keyId, txn := t.txn, index := 0,
                           old := leBytes 2 t.items.length }

/-- ROLLBACK (R272 steps 8 to 10). A COMMIT that waits in QUEUED is answered TXN_UNKNOWN: its transaction is gone (log entry 59). -/
def Dev.rollbackOp (d : Dev) (t : Txn) (keyId : Nat) : RItem × Dev :=
  let far := decide (4000 ≤ (t.tc + 2 ^ 64 - d.count) % 2 ^ 64) && !reached t.tc d.count
  if t.state = .open_ || t.state = .queued || (t.state = .scheduled && far) then
    let d := d.rollBack t 2 t.origin keyId
    ({ op := 6 }, if t.state = .queued then d.settleReply t.reply (fun i => { i with status := 8 }) d.count else d)
  else ({ op := 6, status := 10 }, d)

/-- Operations that must stand alone in a request (R260). -/
def controlOp (op : Nat) : Bool := op == 4 || op == 5 || op == 6

/-- The transaction that a request names, when it is one of its origin (R270). -/
def Dev.namedTxn (d : Dev) (og txn : Nat) : Option Txn :=
  if txn = 0 then none else d.dict.txns.find? (fun (t : Txn) => t.slot.isSome && t.txn == txn && t.origin == og)

/-- In Integrity Halt the Vane ports and JTAG may read the identity and the Integrity.Halt objects (R206). -/
def haltServes (og : Nat) (it : ReqItem) : Bool :=
  it.op == 1 && (og == 2 || og == 3 || og == 8) && ((0x1000 ≤ it.index && it.index ≤ 0x10FF) || it.index == 0x6100)

/-- A request in Integrity Halt: every item but those reads is answered HALTED, and so is the PDU where it holds one. -/
def Dev.haltedRequest (d : Dev) (r : Reply) (l : List ReqItem) : Dev :=
  let y := l.foldl (fun (s : List RItem × Dev) it =>
    if haltServes r.origin it then
      let z := s.2.readItem r.origin none it
      (s.1 ++ [z.1], z.2)
    else (s.1 ++ [{ op := it.op, status := 0xB, index := it.index, sub := it.sub }], s.2)) ([], d)
  y.2.sendReply { r with items := y.1, status := if l.all (haltServes r.origin) then 0 else 0xB } d.count

/-- Requests of an origin that are not answered yet (R262). -/
def Dev.unanswered (d : Dev) (og : Nat) : Nat := (d.dict.replies.filter (fun e => e.2.origin == og)).length

/-- One control operation of a request. -/
def Dev.controlRequest (d : Dev) (n : Nat) (r : Reply) (t : Option Txn) (it : ReqItem) : RItem × Dev :=
  if it.op = 4 then d.beginOp r.origin r.keyId
  else match t with
    | none => ({ op := it.op, status := 8 }, d)
    | some t => if it.op = 5 then d.commitOp t n r.keyId it else d.rollbackOp t r.keyId

/-- The items of a request without a control operation; without a transaction, its WRITE items are one implicit transaction (R275). -/
def Dev.itemRequest (d : Dev) (n : Nat) (r : Reply) (t : Option Txn) (l : List ReqItem) : Dev :=
  let t0 : Txn := t.getD { slot := none, txn := 0, origin := r.origin, keyId := r.keyId, state := .queued, sinceNs := d.ns, reply := n }
  let s := serveItems n r.origin t.isSome l { txn := t0, dev := d }
  let d := match t with
    | some t => s.dev.swapTxn t s.txn
    | none => if s.txn.items.isEmpty then s.dev
              else { s.dev with dict := { s.dev.dict with txns := s.dev.dict.txns ++ [s.txn] } }
  d.putReply n { r with items := s.items } d.count

/-- The answer to an item of a request that names no transaction of its origin: the lowest of TXN_UNKNOWN and what else applies to the item (R261). -/
def Dev.unknownTxn (d : Dev) (og : Nat) (it : ReqItem) : RItem :=
  let own := match it.op with
    | 1 => (d.readItem og none it).1.status
    | 2 => (d.stageItem { slot := none, txn := 0, origin := og } it).1
    | 3 => (d.describeItem og it).status
    | 5 => if it.value.length = 0 || it.value.length = 8 then 0 else 3
    | _ => if 4 ≤ it.op && it.op ≤ 6 then 0 else 4
  { op := it.op, status := if own = 0 then 8 else min own 8, index := it.index, sub := it.sub }

/-- A request is served: `r` is its response, empty as yet; the transaction that it names is in `r.txn`. -/
def Dev.request (d : Dev) (r : Reply) (l : List ReqItem) : Dev :=
  let n := d.dict.replyNo + 1
  let d := { d with dict := { d.dict with replyNo := n } }
  let each := fun (st : Nat) => l.map (fun it => ({ op := it.op, status := st, index := it.index, sub := it.sub } : RItem))
  if d.halted then d.haltedRequest r l
  else
  let d := match d.namedTxn r.origin r.txn with
    | some (t : Txn) => if t.state = TxnState.open_ then d.swapTxn t { t with sinceNs := d.ns } else d
    | none => d
  if 64 ≤ d.unanswered r.origin then d.sendReply { r with status := 0xA } d.count
  else if l.any (fun it => controlOp it.op) && 1 < l.length then d.sendReply { r with items := each 4 } d.count
  else
    let t := d.namedTxn r.origin r.txn
    if r.txn ≠ 0 ∧ t.isNone then
      d.sendReply { r with items := l.map (d.unknownTxn r.origin) } d.count
    else
      match l with
      | [it] =>
        if controlOp it.op then
          let y := d.controlRequest n r t it
          y.2.putReply n { r with items := [y.1] } d.count
        else d.itemRequest n r t l
      | _ => d.itemRequest n r t l

/-! A write that is committed at once. -/

/-- A WRITE item of a value; a value that its type cannot carry has no bytes. -/
def Dev.writeReq (d : Dev) (key : Nat) (v : Val) : ReqItem :=
  let b := d.valBytes key v
  let ok := match lookup (key / 256) (key % 256) with
    | some x => decodeVal x.o.ty b.2 == v
    | none => true
  { op := 2, index := key / 256, sub := key % 256, type := b.1, value := if ok then b.2 else [] }

/-- The last commit in the queue is validated and applies at this tick, a multiple of 4 (R274, log entry 60), unless it holds exported objects or belongs to the pair, which take
their own time. -/
def Dev.rush (d : Dev) : Dev :=
  match d.dict.txns.getLast? with
  | none => d
  | some t =>
    let slow := t.items.any (fun s => (lookup (s.key / 256) (s.key % 256)).isNone || (d.nat O.twinState == 3 && d.sharedKey s.key))
    if t.state != .queued || slow then d
    else
      let d := d.swapTxn t { t with state := .validating, sinceNs := d.ns }
      let t : Txn := { t with state := .validating, sinceNs := d.ns }
      match d.judge t with
      | some f => d.txnFail t f.1 f.2 d.count false
      | none =>
        let tc := nextQuad d.count % 2 ^ 64
        ((d.dropTxn t).applyCommit t tc).settleReply t.reply (fun i => i) tc

/-- A write of some objects without a transaction, whose commit tick is now: what a row that names a committed write stands for. Where other
commits wait, it waits its turn behind them (R272, R274, log entry 60). -/
def Dev.commitItems (d : Dev) (og : Origin) (l : List ReqItem) : Dev :=
  if d.boot.monitor then d
  else
    let idle := !d.commitsBusy
    let d := d.request { origin := originCode og } l
    if idle then d.rush else d

/-- As `commitItems`, of values under their keys. -/
def Dev.commitNow (d : Dev) (og : Origin) (l : List (Nat × Val)) : Dev := d.commitItems og (l.map (fun e => d.writeReq e.1 e.2))

end Sys2Proof.Machine
end

