-- ==== Sys2Proof/Machine/Dictionary.lean ====
section
/-! DEFINITION. The paths of the dictionary: Vane datagrams, mailboxes, the fabric ports, the recovery monitor, single operations, the
samples of exported objects, and the memory window (R255 to R269, R330, R347, R350, R381). -/

set_option Elab.async false

namespace Sys2Proof.Machine

/-! Requests as bytes (R257, R259). -/

/-- Bytes of a value and of the zeros after it. -/
def padded (n : Nat) : Nat := (n + 3) / 4 * 4

/-- The items of a request, `n` of them, which must end exactly at the end of the bytes. A READ carries no value: its LENGTH is the most
bytes wanted. -/
def parseItems : Nat → List Byte → Option (List ReqItem)
  | 0, l => if l.isEmpty then some [] else none
  | n + 1, l =>
    let op := fieldAt l 0 1
    let len := fieldAt l 6 2
    let take := if op = 1 then 0 else len
    if l.length < 12 + padded take then none
    else
      let it : ReqItem := { op := op, index := fieldAt l 2 2, sub := fieldAt l 4 1, type := fieldAt l 5 1, off := fieldAt l 8 4, len := len,
                            value := slice l 12 take }
      (parseItems n (l.drop (12 + padded take))).map (fun r => it :: r)

/-- MAGIC, VERSION and KIND of a request, and its LENGTH. -/
def headerOk (pdu : List Byte) (length : Nat) : Bool :=
  40 ≤ pdu.length && fieldAt pdu 0 3 == 0x014445 && fieldAt pdu 3 1 == 1 && fieldAt pdu 4 2 == length

/-- The items of a request in the layout of R257, with `tag` bytes of tag after them; none where it is malformed. -/
def pduItems (pdu : List Byte) (tag : Nat) : Option (List ReqItem) :=
  parseItems (fieldAt pdu 28 2) ((pdu.take (pdu.length - tag)).drop 40)

/-! The recovery monitor (R381). -/

/-- Objects that the recovery monitor reads. -/
def monitorReads (index sub : Nat) : Bool :=
  match lookup index sub with
  | some x => x.o.base == 0x1000 || x.o == O.configState || x.o == O.configFault || x.o == O.configResetCause || x.o == O.fwActiveSlot ||
      x.o == O.fwSlotVersion || x.o == O.fwUpdateStatus
  | none => false

/-- One item that the recovery monitor serves; the flag says that a new image has been written. -/
def Dev.monitorItem (d : Dev) (it : ReqItem) : RItem × Bool × Dev :=
  let refused : RItem := { op := it.op, status := 2, index := it.index, sub := it.sub }
  if it.op = 1 && monitorReads it.index it.sub then
    let y := d.readItem 8 none it
    (y.1, false, y.2)
  else if it.op = 2 then
    match lookup it.index it.sub with
    | none => (refused, false, d)
    | some x =>
      if x.o = O.fwUpdateBytes || x.o = O.fwUpdate then
        let c := d.checkWrite 8 it.index it.sub it.type it.value
        let done : RItem := { refused with status := c.1 }
        if c.1 != 0 then (done, false, d)
        else if x.o = O.fwUpdateBytes then
          let d := d.storeVal x c.2
          (done, false, { d with boot := { d.boot with image := [] } })
        else if c.2.nat = 1 then
          let image := d.boot.image.take (d.nat O.fwUpdateBytes)
          (done, (Config.fwVersion image).isSome, d.firmwareWrite 0 image)
        else (done, false, d)
      else (refused, false, d)
  else (refused, false, d)

/-- A request that the recovery monitor serves: every write is applied at once; a new image is started by a reset with cause JTAG, whose
mode pins are those of the moment, an open value. -/
def Dev.monitorRequest (d : Dev) (r : Reply) (l : List ReqItem) : Dev :=
  let s := l.foldl (fun (s : List RItem × Bool × Dev) it =>
    let y := s.2.2.monitorItem it
    (s.1 ++ [y.1], s.2.1 || y.2.1, y.2.2)) (([], false, d) : List RItem × Bool × Dev)
  let d := s.2.2.sendReply { r with items := s.1 } s.2.2.count
  if s.2.1 then d.drawn.deviceReset 7 (d.draw % 8) else d

/-- A request is served: by the dictionary service, or in FAULT FIRMWARE by the recovery monitor, which serves JTAG alone. -/
def Dev.serve (d : Dev) (r : Reply) (l : List ReqItem) : Dev :=
  if d.boot.monitor then (if r.origin = 8 then d.monitorRequest r l else d) else d.request r l

/-- A request without a tag, in the layout of R257: its items and what its response echoes; none where R265 refuses it. -/
def plainRequest (path : Path) (og : Nat) (req : List Byte) : Option (Reply × List ReqItem) :=
  if headerOk req req.length && req.length % 4 == 0 && req.length ≤ 8192 then
    (pduItems req 0).map (fun l =>
      (({ path := path, origin := og, reqId := fieldAt req 12 4, seq := fieldAt req 16 8, txn := fieldAt req 24 4 } : Reply), l))
  else none

/-! Vane datagrams (R73, R257, R258). -/

/-- What a port knows of a source. -/
def Dev.vaneSource (d : Dev) (v : Nat) (src : List Byte) : VaneSource :=
  (d.links.sources.find? (fun (x : VaneSource) => x.vane == v && x.source == src)).getD { vane := v, source := src }

/-- Set it. -/
def Dev.setVaneSource (d : Dev) (x : VaneSource) : Dev :=
  { d with links := { d.links with sources := d.links.sources.filter (fun (y : VaneSource) => !(y.vane == x.vane && y.source == x.source)) ++ [x] } }

/-- A source address as 16 bytes: IPv6, or IPv4 mapped into it (R278). -/
def ipMapped (src : List Byte) : List Byte := if src.length = 4 then zeros 10 ++ [0xFF, 0xFF] ++ src else fit 16 src

/-- A PDU fails authentication: it is counted, and the 65th of a source within 1 s locks the source out for 10 s (R73). -/
def Dev.authFailed (d : Dev) (v : Nat) (src : List Byte) : Dev :=
  let d := d.inc O.vaneAuthFailures v
  let x := d.vaneSource v src
  let fails := x.fails.filter (fun t => decide (d.ns < t + 1000000000)) ++ [d.ns]
  if 64 < fails.length then
    let d := (d.setVaneSource { x with fails := [], untilNs := some (d.ns + 10000000000) }).inc O.vaneLockouts v
    (d.logNote 3 1 (ipMapped src) (leBytes 1 v)).occur 1504
  else d.setVaneSource { x with fails := fails }

/-- A SEQ is accepted on a key (R258). -/
def seqOk (h : SeqHist) (seq : Nat) : Bool := h.hi < seq || (h.hi ≤ seq + 64 && !h.seen.contains seq)

/-- And recorded as seen. -/
def seqSeen (h : SeqHist) (seq : Nat) : SeqHist :=
  let hi := max h.hi seq
  { hi := hi, seen := (seq :: h.seen).filter (fun n => decide (hi ≤ n + 64)) }

/-- A PDU whose fields and tag are right: a stale BOOT or SEQ is answered AUTH, any other request is served. -/
def Dev.vaneServe (d : Dev) (v : Nat) (src pdu : List Byte) (l : List ReqItem) : Dev :=
  let key := fieldAt pdu 6 1 % 4
  let seq := fieldAt pdu 16 8
  let r : Reply := { path := .vane v src (d.vaneOwn v), origin := 2 + v, reqId := fieldAt pdu 12 4, seq := seq, keyId := key, txn := fieldAt pdu 24 4 }
  let h := SMap.getD d.dict.seqs (4 * v + key) {}
  if fieldAt pdu 8 4 = d.nat O.identityBootCount && seqOk h seq then
    ({ d with dict := { d.dict with seqs := SMap.ins d.dict.seqs (4 * v + key) (seqSeen h seq) } }).serve r l
  else d.sendReply { r with status := 9 } d.count

/-- A PDU of a source that is not locked out: its fields, then its key and tag, then its items. -/
def Dev.vaneCheck (d : Dev) (v : Nat) (src pdu : List Byte) : Dev :=
  let n := pdu.length
  let key := fieldAt pdu 6 1 % 4
  if !(headerOk pdu n && 72 ≤ n && n ≤ 8192 && n % 4 == 0) then d.inc O.vaneDroppedFrames v
  else if !d.on O.authKeyValid v 0 key || hmacSha256 (d.octs O.authKey v 0 key) (pdu.take (n - 32)) != pdu.drop (n - 32) then d.authFailed v src
  else match pduItems pdu 32 with
    | none => d.inc O.vaneDroppedFrames v
    | some l => d.vaneServe v src pdu l

/-- The source is locked out. -/
def Dev.lockedOut (d : Dev) (v : Nat) (src : List Byte) : Bool := (d.vaneSource v src).untilNs.any (fun t => decide (d.ns < t))

/-- A datagram arrives whole, or completes a reassembly that is still pending; over IPv4 only where the port has an address (R74). -/
def vanePduEffect (v : Nat) (src : List Byte) (frag : Option Nat) (pdu : List Byte) (d : Dev) : Dev :=
  let mine := fun (r : Reassembly) => r.vane == v && frag == some r.id
  d.when (d.on O.vaneLinkState v && !d.boot.monitor && (src.length != 4 || (d.vaneOwn v).v4On) && (frag.isNone || d.dict.reass.any mine)) (fun d =>
    let d := { d with dict := { d.dict with reass := d.dict.reass.filter (fun r => !mine r) } }
    if d.lockedOut v src then d.inc O.vaneDroppedFrames v else d.vaneCheck v src pdu)

/-- A reassembly has been incomplete for 1 s. -/
def reassemblyEffect (v id : Nat) (d : Dev) : Dev :=
  { d with dict := { d.dict with reass := d.dict.reass.filter (fun (r : Reassembly) =>
      !(r.vane == v && r.id == id && decide (r.ns + 1000000000 ≤ d.ns))) } }

/-! Mailboxes (R264, R265, R330). -/

/-- A slot: of the Host endpoint, or of a core. -/
abbrev BoxId := Sum (Fin 8) (Fin 16)

/-- The slot's content. -/
def Dev.boxOf (d : Dev) : BoxId → Mailbox
  | .inl k => d.box k
  | .inr c => d.coreBox c

/-- Set it. -/
def Dev.setBoxOf (d : Dev) (k : BoxId) (x : Mailbox) : Dev :=
  match k with
  | .inl k => d.setBox k x
  | .inr c => d.setCoreBox c x

/-- Who writes the doorbell can: the Host link is up, or the core runs. -/
def Dev.boxUsable (d : Dev) : BoxId → Bool
  | .inl _ => d.hasHost && d.portUp 0 0
  | .inr c => d.nat O.coreState c == 2

/-- A doorbell write with STATE 1: an IDLE or DONE slot is POSTED. -/
def postEffect (k : BoxId) (len : Nat) (req : List Byte) (d : Dev) : Dev :=
  d.when (d.boxUsable k && ((d.boxOf k).state == 0 || (d.boxOf k).state == 3)) (fun d =>
    d.setBoxOf k { state := 1, reqLen := len % 65536, request := fit 8192 req })

/-- A doorbell write with STATE 0: a POSTED request is withdrawn, a DONE response discarded. -/
def releaseEffect (k : BoxId) (d : Dev) : Dev :=
  d.when (d.boxUsable k && ((d.boxOf k).state == 1 || (d.boxOf k).state == 3)) (fun d => d.setBoxOf k {})

/-- Origin of a slot: the host, a service core or a user core (R8, R327). -/
def boxOrigin : BoxId → Nat
  | .inl _ => 1
  | .inr c => if c.val < 4 then 5 else 6

/-- The path of its response. -/
def boxPath : BoxId → Path
  | .inl k => .mailbox k
  | .inr c => .core c

/-- A slot goes to DONE with a response. -/
def Dev.boxOfDone (d : Dev) (k : BoxId) (resp : List Byte) : Dev :=
  match k with
  | .inl k => d.boxDone k resp
  | .inr c => d.coreDone c resp

/-- The device takes a POSTED request: BUSY, and served; or DONE with RESP_LENGTH 0 where it is refused. -/
def takeEffect (k : BoxId) (d : Dev) : Dev :=
  let x := d.boxOf k
  d.when (x.state == 1 && !d.boot.monitor) (fun d =>
    let d := d.setBoxOf k { x with state := 2 }
    match if x.reqLen < 40 then none else plainRequest (boxPath k) (boxOrigin k) (x.request.take x.reqLen) with
    | some y => if x.reqLen ≤ 8192 then d.serve y.1 y.2 else d.boxOfDone k []
    | none => d.boxOfDone k [])

/-! The fabric's dictionary ports (R347). -/

/-- Fabric logic sends a request: one is outstanding per die. A refused one is answered with a beat of zero. -/
def fabricRequestEffect (f : Nat) (req : List Byte) (d : Dev) : Dev :=
  d.when (d.fabricRuns && !d.fab.busy.contains f && !d.boot.monitor) (fun d =>
    match plainRequest (.fabric f) 7 req with
    | none => d.send (.fabric f (zeros 8))
    | some y => ({ d with fab := { d.fab with busy := d.fab.busy ++ [f] } }).serve y.1 y.2)

/-! Single operations. -/

/-- One item from an origin, outside any of the paths with framing. -/
def oneEffect (og : Origin) (txn : Nat) (it : ReqItem) (d : Dev) : Dev := d.serve { origin := originCode og, txn := txn } [it]

/-- An OPEN transaction that no request has named for 30 s (R272 step 11). -/
def txnIdleEffect (slot : Nat) (d : Dev) : Dev :=
  match d.dict.txns.find? (fun (t : Txn) => t.slot == some slot && t.state == .open_) with
  | none => d
  | some t => d.when (decide (t.sinceNs + 30000000000 ≤ d.ns)) (fun d => d.rollBack t 3 9 0)

/-! Samples of exported objects (R250, R255, R350). -/

/-- An item that waits for a sample is answered. -/
def Dev.sampleReply (d : Dev) (x : Sample) (f : RItem → RItem) : Dev :=
  let d := { d with fab := { d.fab with samples := removeFirst (fun (y : Sample) => y == x) d.fab.samples } }
  match SMap.find d.dict.replies x.reply with
  | none => d
  | some r => d.putReply x.reply { r with items := r.items.mapIdx (fun i (y : RItem) => if i = x.item then f { y with wait := 0 } else y) } d.count

/-- The value that a sample of an exported object returns: what the logic answers, or, for one that a commit writes, the value that it
copied at OBJ_APPLY (R350). -/
def Dev.sampled (d : Dev) (u : UserObj) (value : List Byte) : List Byte :=
  let t := userType u
  let given := if t.bytes = 0 then (if u.fixed then fit u.len value else value.take u.len) else fit t.bytes value
  match if u.access = 1 then SMap.find d.fab.values (u.index * 256 + u.sub) else none with
  | some v => encodeVal t v
  | none => given

/-- Whole entries of a RECORD, a segment of a string of bytes, or a scalar (R255). -/
def userSegment (u : UserObj) (l : List Byte) (o n : Nat) : Nat × List Byte :=
  let t := userType u
  if t = .record then
    if u.entry = 0 || o % u.entry != 0 then (4, []) else (0, (l.drop o).take (n / u.entry * u.entry))
  else (0, segment (t.bytes != 0) l o n)

/-- Exported logic answers a sample. An RC object's logic clears its value in the cycle of the sample; `again` is what it then holds. -/
def sampleEffect (index sub : Nat) (value : List Byte) (again : Nat) (d : Dev) : Dev :=
  let key := index * 256 + sub
  match d.fab.samples.find? (fun (x : Sample) => x.key == key), d.userAt key with
  | some x, some u =>
    d.when d.fabricRuns (fun d =>
      let v := d.sampled u value
      let d := if u.access = 3 then { d with fab := { d.fab with values := SMap.ins d.fab.values key (.num again) } } else d
      d.sampleReply x (fun r =>
        let y := userSegment u v r.off x.len
        { r with status := y.1, value := y.2 }))
  | _, _ => d

/-- Exported logic has not answered within 10 µs. -/
def sampleTimeoutEffect (index sub : Nat) (d : Dev) : Dev :=
  match d.fab.samples.find? (fun (x : Sample) => x.key == index * 256 + sub) with
  | none => d
  | some x =>
    d.when (decide (x.ns + 10000 ≤ d.ns)) (fun d => (d.inc O.fabricObjectTimeouts).sampleReply x (fun r => { r with status := 10, value := [] }))

/-! The host's registers (R137, R264, R265). -/

/-- A byte of BAR0. What a slot's areas hold while its request or response is gone reads zero (DESIGN CHOICE, log entry 34). -/
def Dev.bar0Byte (d : Dev) (o : Nat) : Byte :=
  if o < 0x40 then
    let x := d.box (o / 8)
    (leBytes 8 (x.state * 2 ^ 62 + x.respLen * 2 ^ 32 + x.reqLen)).getD (o % 8) 0
  else if 0x1000 ≤ o && o < 0x1100 then
    BitVec.ofNat 8 ((upTo 8).foldl (fun n k => n + b2n (SMap.find d.events.msix (8 * (o - 0x1000) + k)).isSome * 2 ^ k) 0)
  else if 0x8000 ≤ o && o < 0x10000 then (d.msixEntry ((o - 0x8000) / 16)).getD (o % 16) 0
  else if 0x10000 ≤ o && o < 0x30000 then
    let x := d.box ((o - 0x10000) / 0x4000)
    let k := o % 0x4000
    if k < 8192 then x.request.getD k 0 else x.response.getD (k - 8192) 0
  else 0

/-- A byte that the host writes to BAR0: the MSI-X table and the request areas take it; the pending bits and what is reserved do not. -/
def Dev.bar0Put (d : Dev) (o : Nat) (b : Byte) : Dev :=
  if 0x8000 ≤ o && o < 0x10000 then
    let v := (o - 0x8000) / 16
    { d with events := { d.events with msixTable := SMap.ins d.events.msixTable v ((d.msixEntry v).set (o % 16) b) } }
  else if 0x10000 ≤ o && o < 0x30000 && o % 0x4000 < 8192 then
    let k := (o - 0x10000) / 0x4000
    let x := d.box k
    d.setBox k { x with request := (fit 8192 x.request).set (o % 0x4000) b }
  else d

/-- A doorbell write (R265); the host writes a doorbell whole (DESIGN CHOICE, log entry 34). -/
def Dev.doorbell (d : Dev) (k : Fin 8) (w : Nat) : Dev :=
  match bitsOf w 63 62 with
  | 0 => releaseEffect (.inl k) d
  | 1 => postEffect (.inl k) (bitsOf w 15 0) (d.box k).request d
  | _ => d

/-- The host writes bytes of BAR0: the doorbells among them act after the rest. -/
def Dev.bar0Write (d : Dev) (o : Nat) (l : List Byte) : Dev :=
  let d := (l.zipIdx).foldl (fun d x => d.bar0Put (o + x.2) x.1) d
  (List.finRange 8).foldl (fun d k =>
    if o ≤ 8 * k.val && 8 * k.val + 8 ≤ o + l.length then d.doorbell k (leNat (slice l (8 * k.val - o) 8)) else d) d

/-! The memory window (R266). -/

/-- Dictionary.WindowSize in force: RESET class. -/
def Dev.windowSize (d : Dev) : Nat :=
  ((SMap.find d.inForce (O.dictionaryWindowSize.key 0 0 0)).getD (O.dictionaryWindowSize.default 0 0 0)).nat

/-- A host access at an offset of BAR2. -/
def Dev.bar2Access (d : Dev) (offset : Nat) (op : WinOp) (find : LineFind) : Dev :=
  d.when (decide (offset < d.windowSize)) (fun d =>
    if !d.on O.dictionaryWindowEnable then d.send (.window false true [])
    else
      let a := d.nat O.dictionaryWindowBase + offset
      match op with
      | .read len =>
        if !d.grants false 1 10 then d.send (.window false false [])
        else
          (d.disturb find).ask { addr := a, write := false, len := len, req := { ni := niHost }, reply := .window }
      | .write data =>
        if !d.grants true 1 10 then d.inc O.dictionaryWindowErrors
        else
          (d.disturb find).ask { addr := a, write := true, data := data, req := { ni := niHost }, reply := .window }
      | .malformed => d)

/-- A host access to BAR0, which is 256 KiB (R264). -/
def Dev.bar0Access (d : Dev) (o : Nat) (op : WinOp) : Dev :=
  d.when (decide (o < 0x40000)) (fun d =>
    match op with
    | .read len => d.send (.window true false ((upTo len).map (fun k => d.bar0Byte (o + k))))
    | .write data => d.bar0Write o data
    | .malformed => d)

/-- A host access to Message Control of MSI-X, whose low bits give the size of the table less 1. -/
def Dev.msixControlAccess (d : Dev) (op : WinOp) : Dev :=
  match op with
  | .read len => d.send (.window true false (fit len (leBytes 2 (d.events.msixControl + 2047))))
  | .write data => { d with events := { d.events with msixControl := Nat.land (fieldAt data 0 2) 0xC000 } }
  | .malformed => d

/-- A host access. A malformed TLP is logged in AER, as bit 18 of the Uncorrectable Error Status of PCIe 6.0, and has no answer (R69, log entry
98). -/
def windowEffect (offset : BarAddr) (op : WinOp) (find : LineFind) (d : Dev) : Dev :=
  d.when (d.hasHost && d.portUp 0 0) (fun d =>
    if op = .malformed then { d with links := { d.links with aer := Nat.lor d.links.aer (2 ^ 18) } }
    else match offset with
      | .bar0 o => d.bar0Access o op
      | .bar2 o => d.bar2Access o op find
      | .msixControl => d.msixControlAccess op)

/-! The commands. -/

/-- VANE_PDU. -/
def execVanePdu (dt : Nat) (v : Fin 2) (source : List Byte) (frag : Option Nat) (pdu : List Byte) (s : State) :
    Host.Outcome State Fault Refusal := run s dt (vanePduEffect v source frag pdu)

/-- REASSEMBLY_TIMEOUT. -/
def execReassemblyTimeout (dt : Nat) (v : Fin 2) (id : Nat) (s : State) : Host.Outcome State Fault Refusal := run s dt (reassemblyEffect v id)

/-- MAILBOX_POST. -/
def execMailboxPost (dt : Nat) (slot : Sum (Fin 8) (Fin 16)) (reqLength : Nat) (request : List Byte) (s : State) :
    Host.Outcome State Fault Refusal := run s dt (postEffect slot reqLength request)

/-- MAILBOX_RELEASE. -/
def execMailboxRelease (dt : Nat) (slot : Sum (Fin 8) (Fin 16)) (s : State) : Host.Outcome State Fault Refusal := run s dt (releaseEffect slot)

/-- MAILBOX_TAKE. -/
def execMailboxTake (dt : Nat) (slot : Sum (Fin 8) (Fin 16)) (s : State) : Host.Outcome State Fault Refusal := run s dt (takeEffect slot)

/-- READ. -/
def execRead (dt : Nat) (og : Origin) (txn index sub offset length : Nat) (s : State) : Host.Outcome State Fault Refusal :=
  run s dt (oneEffect og txn { op := 1, index := index, sub := sub, off := offset, len := length })

/-- WRITE. -/
def execWrite (dt : Nat) (og : Origin) (txn index sub type : Nat) (value : List Byte) (s : State) : Host.Outcome State Fault Refusal :=
  run s dt (oneEffect og txn { op := 2, index := index, sub := sub, type := type, value := value })

/-- DESCRIBE. -/
def execDescribe (dt : Nat) (og : Origin) (index sub : Nat) (s : State) : Host.Outcome State Fault Refusal :=
  run s dt (oneEffect og 0 { op := 3, index := index, sub := sub })

/-- BEGIN. -/
def execBeginTxn (dt : Nat) (og : Origin) (s : State) : Host.Outcome State Fault Refusal := run s dt (oneEffect og 0 { op := 4 })

/-- COMMIT. -/
def execCommit (dt : Nat) (og : Origin) (txn : Nat) (tick : Option Nat) (s : State) : Host.Outcome State Fault Refusal :=
  run s dt (oneEffect og txn { op := 5, value := match tick with
    | some t => leBytes 8 t
    | none => [] })

/-- ROLLBACK. -/
def execRollback (dt : Nat) (og : Origin) (txn : Nat) (s : State) : Host.Outcome State Fault Refusal := run s dt (oneEffect og txn { op := 6 })

/-- VALIDATION_START. -/
def execValidationStart (dt : Nat) (s : State) : Host.Outcome State Fault Refusal := run s dt validationStartEffect

/-- VALIDATION_END. -/
def execValidationEnd (dt : Nat) (s : State) : Host.Outcome State Fault Refusal := run s dt validationEndEffect

/-- COMMIT_TICK. -/
def execCommitTick (dt : Nat) (s : State) : Host.Outcome State Fault Refusal := run s dt commitTickEffect

/-- TXN_IDLE_TIMEOUT. -/
def execTxnIdleTimeout (dt : Nat) (slot : Fin 8) (s : State) : Host.Outcome State Fault Refusal := run s dt (txnIdleEffect slot)

/-- WINDOW_ACCESS. -/
def execWindowAccess (dt : Nat) (offset : BarAddr) (op : WinOp) (find : LineFind) (s : State) : Host.Outcome State Fault Refusal :=
  run s dt (windowEffect offset op find)

/-- FABRIC_DICTIONARY_REQUEST. -/
def execFabricDictionaryRequest (dt : Nat) (d : Fin 8) (request : List Byte) (s : State) : Host.Outcome State Fault Refusal :=
  run s dt (fabricRequestEffect d request)

/-- OBJECT_SAMPLE. -/
def execObjectSample (dt : Nat) (index sub : Nat) (value : List Byte) (again : Nat) (s : State) : Host.Outcome State Fault Refusal :=
  run s dt (sampleEffect index sub value again)

/-- OBJECT_SAMPLE_TIMEOUT. -/
def execObjectSampleTimeout (dt : Nat) (index sub : Nat) (s : State) : Host.Outcome State Fault Refusal :=
  run s dt (sampleTimeoutEffect index sub)

end Sys2Proof.Machine
end

