-- ==== Sys2Proof/Machine/Commands.lean ====
section
/-! DEFINITION. The commands that stand for a committed write of one or a few objects: each is a write of origin `og`, checked like any
other (R267 to R275) and committed at this tick where no other commit waits (log entry 60). Beside them, loss of signal and of lock, the
blocks and frames of Spapax links, and MOUNT. -/

set_option Elab.async false

namespace Sys2Proof.Machine

/-- One object is written. -/
def Dev.write1 (d : Dev) (og : Origin) (key : Nat) (v : Int) : Dev := d.commitNow og [(key, .num v)]

/-- One object is written with bytes. -/
def Dev.writeOct (d : Dev) (og : Origin) (key : Nat) (l : List Byte) : Dev := d.commitNow og [(key, .oct l)]

/-- An item that writes bytes under the object's own type. -/
def Dev.ownTypeItem (d : Dev) (index sub : Nat) (value : List Byte) : ReqItem :=
  let t := match d.target index sub with
    | some (.obj x) => x.o.ty.code
    | some (.user u) => u.type
    | _ => 0
  { op := 2, index := index, sub := sub, type := t, value := value }

/-- The values that LANE_EQ_SET writes. -/
def eqWrites (q k : Nat) (mode : Option Nat) (ctle : Option (Nat × Nat)) (taps : List (Fin 12 × Int)) (ffe : List (Fin 5 × Int)) :
    List (Nat × Val) :=
  (match mode with
   | some m => [(O.laneRxEqMode.key q k 0, Val.num m)]
   | none => []) ++
  (match ctle with
   | some c => [(O.laneCtlePeak.key q k 0, Val.num c.1), (O.laneCtleGain.key q k 0, Val.num c.2)]
   | none => []) ++
  taps.map (fun t => (O.laneDfeTap.key q k t.1, Val.num t.2)) ++ ffe.map (fun t => (O.laneFfe.key q k t.1, Val.num t.2))

/-- The values that PORT_MODE_SET writes. -/
def modeWrites (q p : Nat) (standard rate : Option Nat) : List (Nat × Val) :=
  (match standard with
   | some n => [(O.portStandard.key q p 0, Val.num n)]
   | none => []) ++
  (match rate with
   | some n => [(O.portLaneRate.key q p 0, Val.num n)]
   | none => [])

/-- Loss of signal or of lock on a lane of a Native port that is ACTIVE is a loss of the link (R66); on a lane of the twin port it may end
the pair (R303, R304). -/
def Dev.linkLoss (d : Dev) (q down : Nat) : Dev :=
  let b := d.base q
  let d := if d.role b = 5 && d.stage b = 5 then d.spxLost b down else d
  if d.hasTwin && 34 ≤ q then d.twinCheck else d

/-- Store.Control := 1, and what the mount then finds (R240). -/
def Dev.storeMount (d : Dev) (og : Origin) (ctls : List CtlFound) (nss : List NsFound) : Dev :=
  let d := if d.nat O.storeState = 0 then d.write1 og (O.storeControl.key 0 0 0) 1 else d
  d.when (d.nat O.storeState == 1) (fun d => d.mount ctls nss)

/-- A ChkTest operation on a DRAM line. -/
def Dev.chkDram (d : Dev) (og : Origin) (line op : Nat) : Dev :=
  d.commitNow og [(O.chkTestDramLine.key 0 0 0, .num line), (O.chkTestOp.key 0 0 0, .num op)]

/-- A value that fuses take (R378). -/
def Dev.fuseWrite (d : Dev) (og : Origin) (index sub : Nat) (value : List Byte) : Dev :=
  match lookup index sub with
  | some x => d.when x.o.burns (fun d => d.commitItems og [d.ownTypeItem index sub value])
  | none => d

/-! The commands. -/

/-- DISCIPLINE_MODE_SET. -/
def execDisciplineModeSet (dt : Nat) (og : Origin) (mode : Nat) (s : State) : Host.Outcome State Fault Refusal :=
  run s dt (fun d => d.write1 og (O.timeDisciplineMode.key 0 0 0) mode)

/-- TIMEBASE_SET. -/
def execTimebaseSet (dt : Nat) (og : Origin) (value : Nat) (s : State) : Host.Outcome State Fault Refusal :=
  run s dt (fun d => d.write1 og (O.timeBaseSet.key 0 0 0) value)

/-- LOS_ASSERT. -/
def execLosAssert (dt : Nat) (q : Fin 36) (k : Fin 4) (s : State) : Host.Outcome State Fault Refusal :=
  run s dt (fun d => d.when (d.rxOn q && !bitOf (d.laneStat (4 * q + k)) 0) (fun d => (losAssertEffect q k d).linkLoss q 1))

/-- LOL_ASSERT. -/
def execLolAssert (dt : Nat) (q : Fin 36) (k : Fin 4) (s : State) : Host.Outcome State Fault Refusal :=
  run s dt (fun d => d.when (d.rxOn q && !bitOf (d.laneStat (4 * q + k)) 1) (fun d => (lolAssertEffect q k d).linkLoss q 2))

/-- QUAD_LAYOUT_SET. -/
def execQuadLayoutSet (dt : Nat) (og : Origin) (layouts : List (Fin 36 × Nat)) (s : State) : Host.Outcome State Fault Refusal :=
  run s dt (fun d => d.commitNow og (layouts.map (fun l => (O.quadLayout.key l.1 0 0, .num l.2))))

/-- PORT_MODE_SET. -/
def execPortModeSet (dt : Nat) (og : Origin) (q : Fin 36) (p : Fin 4) (standard rate : Option Nat) (s : State) :
    Host.Outcome State Fault Refusal :=
  run s dt (fun d => d.commitNow og (modeWrites q p standard rate))

/-- PORT_DIRECTION_SET. -/
def execPortDirectionSet (dt : Nat) (og : Origin) (q : Fin 36) (p : Fin 4) (dir : Bool) (s : State) : Host.Outcome State Fault Refusal :=
  run s dt (fun d => d.write1 og (O.portDirection.key q p 0) (b2n dir))

/-- LANE_EQ_SET. -/
def execLaneEqSet (dt : Nat) (og : Origin) (q : Fin 36) (k : Fin 4) (mode : Option Nat) (ctle : Option (Nat × Nat))
    (taps : List (Fin 12 × Int)) (ffe : List (Fin 5 × Int)) (s : State) :
    Host.Outcome State Fault Refusal :=
  run s dt (fun d => d.commitNow og (eqWrites q k mode ctle taps ffe))

/-- EYESCAN_START. -/
def execEyescanStart (dt : Nat) (og : Origin) (q : Fin 36) (s : State) : Host.Outcome State Fault Refusal :=
  run s dt (fun d => d.write1 og (O.quadEyeScanStart.key q 0 0) 1)

/-- SPAPAX_ENABLE. -/
def execSpapaxEnable (dt : Nat) (og : Origin) (q : Fin 36) (on : Bool) (s : State) : Host.Outcome State Fault Refusal :=
  run s dt (fun d => d.write1 og (O.quadSpapaxEnable.key q 0 0) (b2n on))

/-- CAPTURE_FLUSH. -/
def execCaptureFlush (dt : Nat) (og : Origin) (e : Fin 2) (s : State) : Host.Outcome State Fault Refusal :=
  run s dt (fun d => d.write1 og (O.captureEngineFlush.key e 0 0) 1)

/-- FLOW_CLEAR. -/
def execFlowClear (dt : Nat) (og : Origin) (e : Fin 2) (s : State) : Host.Outcome State Fault Refusal :=
  run s dt (fun d => d.write1 og (O.captureFlowClear.key e 0 0) 1)

/-- CAPTURE_ENABLE. -/
def execCaptureEnable (dt : Nat) (og : Origin) (q : Fin 36) (p : Fin 4) (s : State) : Host.Outcome State Fault Refusal :=
  run s dt (fun d => d.write1 og (O.capturePortEnable.key q p 0) 1)

/-- CAPTURE_DISABLE. -/
def execCaptureDisable (dt : Nat) (og : Origin) (q : Fin 36) (p : Fin 4) (s : State) : Host.Outcome State Fault Refusal :=
  run s dt (fun d => d.write1 og (O.capturePortEnable.key q p 0) 0)

/-- CAPTURE_QUIESCE. -/
def execCaptureQuiesce (dt : Nat) (og : Origin) (e : Fin 2) (s : State) : Host.Outcome State Fault Refusal :=
  run s dt (fun d => d.write1 og (O.captureEngineControl.key e 0 0) 1)

/-- CAPTURE_RESUME. -/
def execCaptureResume (dt : Nat) (og : Origin) (e : Fin 2) (s : State) : Host.Outcome State Fault Refusal :=
  run s dt (fun d => d.write1 og (O.captureEngineControl.key e 0 0) 0)

/-- FRONT_RUN. -/
def execFrontRun (dt : Nat) (og : Origin) (n : Fin 16) (s : State) : Host.Outcome State Fault Refusal :=
  run s dt (fun d => d.write1 og (O.frontControl.key n 0 0) 1)

/-- FRONT_IDLE. -/
def execFrontIdle (dt : Nat) (og : Origin) (n : Fin 16) (s : State) : Host.Outcome State Fault Refusal :=
  run s dt (fun d => d.write1 og (O.frontControl.key n 0 0) 0)

/-- RETENTION_TRIGGER. -/
def execRetentionTrigger (dt : Nat) (og : Origin) (s0 : Fin 256) (s : State) : Host.Outcome State Fault Refusal :=
  run s dt (fun d => d.write1 og (O.retentionTrigger.key s0 0 0) 1)

/-- TX_START. -/
def execTxStart (dt : Nat) (og : Origin) (q : Fin 36) (p : Fin 4) (s : State) : Host.Outcome State Fault Refusal :=
  run s dt (fun d => d.write1 og (O.txControl.key q p 0) 1)

/-- TX_STOP. -/
def execTxStop (dt : Nat) (og : Origin) (q : Fin 36) (p : Fin 4) (s : State) : Host.Outcome State Fault Refusal :=
  run s dt (fun d => d.write1 og (O.txControl.key q p 0) 0)

/-- TX_RESUME. -/
def execTxResume (dt : Nat) (og : Origin) (q : Fin 36) (p : Fin 4) (s : State) : Host.Outcome State Fault Refusal :=
  run s dt (fun d => d.write1 og (O.txControl.key q p 0) 2)

/-- TX_FORCE_DOWN. -/
def execTxForceDown (dt : Nat) (og : Origin) (q : Fin 36) (p : Fin 4) (down : Bool) (s : State) : Host.Outcome State Fault Refusal :=
  run s dt (fun d => d.write1 og (O.txForceDown.key q p 0) (b2n down))

/-- LULL_ENTER. -/
def execLullEnter (dt : Nat) (og : Origin) (s : State) : Host.Outcome State Fault Refusal :=
  run s dt (fun d => d.write1 og (O.memLullControl.key 0 0 0) 1)

/-- LULL_EXIT. -/
def execLullExit (dt : Nat) (og : Origin) (s : State) : Host.Outcome State Fault Refusal :=
  run s dt (fun d => d.write1 og (O.memLullControl.key 0 0 0) 0)

/-- THAW. -/
def execThaw (dt : Nat) (og : Origin) (ch : Fin 136) (s : State) : Host.Outcome State Fault Refusal :=
  run s dt (fun d => d.write1 og (O.memChannelThaw.key (chA ch) (chB ch) 0) 1)

/-- POISON_CLEAR. -/
def execPoisonClear (dt : Nat) (og : Origin) (ch : Fin 136) (i : Fin 16) (s : State) : Host.Outcome State Fault Refusal :=
  run s dt (fun d => d.write1 og (O.memChannelPoisonClear.key (chA ch) (chB ch) 0) i)

/-- CHKTEST_WRITE_RAW. -/
def execChktestWriteRaw (dt : Nat) (og : Origin) (s : State) : Host.Outcome State Fault Refusal :=
  run s dt (fun d => d.write1 og (O.chkTestOp.key 0 0 0) 1)

/-- CHKTEST_READ_RAW. -/
def execChktestReadRaw (dt : Nat) (og : Origin) (s : State) : Host.Outcome State Fault Refusal :=
  run s dt (fun d => d.write1 og (O.chkTestOp.key 0 0 0) 2)

/-- CHKTEST_READ_DECODED. -/
def execChktestReadDecoded (dt : Nat) (og : Origin) (s : State) : Host.Outcome State Fault Refusal :=
  run s dt (fun d => d.write1 og (O.chkTestOp.key 0 0 0) 3)

/-- CHKTEST_DRAM_WRITE. -/
def execChktestDramWrite (dt : Nat) (og : Origin) (line : Fin (2 ^ 44)) (s : State) : Host.Outcome State Fault Refusal :=
  run s dt (fun d => d.chkDram og line 4)

/-- CHKTEST_DRAM_READ. -/
def execChktestDramRead (dt : Nat) (og : Origin) (line : Fin (2 ^ 44)) (s : State) : Host.Outcome State Fault Refusal :=
  run s dt (fun d => d.chkDram og line 5)

/-- STORE_MOUNT. -/
def execStoreMount (dt : Nat) (og : Origin) (ctls : List CtlFound) (nss : List NsFound) (s : State) : Host.Outcome State Fault Refusal :=
  run s dt (fun d => d.storeMount og ctls nss)

/-- STORE_STOP. -/
def execStoreStop (dt : Nat) (og : Origin) (s : State) : Host.Outcome State Fault Refusal :=
  run s dt (fun d => d.write1 og (O.storeControl.key 0 0 0) 0)

/-- QUOTA_CUT. -/
def execQuotaCut (dt : Nat) (og : Origin) (s0 : Fin 256) (quota : Nat) (s : State) : Host.Outcome State Fault Refusal :=
  run s dt (fun d => d.write1 og (O.storeSessionQuota.key s0 0 0) quota)

/-- STORE_UNPIN. -/
def execStoreUnpin (dt : Nat) (og : Origin) (extent : Nat) (s : State) : Host.Outcome State Fault Refusal :=
  run s dt (fun d => d.write1 og (O.storeUnpin.key 0 0 0) extent)

/-- UNPIN_ALL. -/
def execUnpinAll (dt : Nat) (og : Origin) (s0 : Fin 256) (s : State) : Host.Outcome State Fault Refusal :=
  run s dt (fun d => d.write1 og (O.storeSessionUnpinAll.key s0 0 0) 1)

/-- SESSION_RELEASE. -/
def execSessionRelease (dt : Nat) (og : Origin) (s0 : Fin 256) (s : State) : Host.Outcome State Fault Refusal :=
  run s dt (fun d => d.write1 og (O.storeSessionRelease.key s0 0 0) 1)

/-- CONTROLLER_RESET. -/
def execControllerReset (dt : Nat) (og : Origin) (c : Fin 64) (s : State) : Host.Outcome State Fault Refusal :=
  run s dt (fun d => d.write1 og (O.storeCtlReset.key c 0 0) 1)

/-- ADMIN_COMMAND. -/
def execAdminCommand (dt : Nat) (og : Origin) (c : Fin 64) (entry : List Byte) (s : State) : Host.Outcome State Fault Refusal :=
  run s dt (fun d => d.writeOct og (O.storeCtlAdminCmd.key c 0 0) entry)

/-- NAMESPACE_INITIALISE. -/
def execNamespaceInitialise (dt : Nat) (og : Origin) (n : Fin 1024) (s : State) : Host.Outcome State Fault Refusal :=
  run s dt (fun d => d.write1 og (O.storeNsInitialise.key n 0 0) 1)

/-- QUERY_START. -/
def execQueryStart (dt : Nat) (og : Origin) (j : Fin 8) (s : State) : Host.Outcome State Fault Refusal :=
  run s dt (fun d => d.write1 og (O.queryControl.key j 0 0) 1)

/-- QUERY_CONTINUE. -/
def execQueryContinue (dt : Nat) (og : Origin) (j : Fin 8) (addr bytes : Nat) (s : State) : Host.Outcome State Fault Refusal :=
  run s dt (fun d => d.commitNow og
    [(O.queryResultAddr.key j 0 0, .num addr), (O.queryResultBytes.key j 0 0, .num bytes), (O.queryControl.key j 0 0, .num 2)])

/-- QUERY_ABORT. -/
def execQueryAbort (dt : Nat) (og : Origin) (j : Fin 8) (s : State) : Host.Outcome State Fault Refusal :=
  run s dt (fun d => d.write1 og (O.queryControl.key j 0 0) 0)

/-- OBJECT_WRITE. -/
def execObjectWrite (dt : Nat) (og : Origin) (index sub : Nat) (value : List Byte) (s : State) : Host.Outcome State Fault Refusal :=
  run s dt (fun d => d.commitItems og [d.ownTypeItem index sub value])

/-- LOGBOOK_CHECKPOINT. -/
def execLogbookCheckpoint (dt : Nat) (og : Origin) (s : State) : Host.Outcome State Fault Refusal :=
  run s dt (fun d => d.write1 og (O.logbookCheckpoint.key 0 0 0) 1)

/-- AUTH_KEY_WRITE. -/
def execAuthKeyWrite (dt : Nat) (og : Origin) (v : Fin 2) (slot : Fin 4) (key : List Byte) (s : State) :
    Host.Outcome State Fault Refusal :=
  run s dt (fun d => d.writeOct og (O.authKey.key v 0 slot) key)

/-- TWIN_ALIGN. -/
def execTwinAlign (dt : Nat) (og : Origin) (s : State) : Host.Outcome State Fault Refusal :=
  run s dt (fun d => d.write1 og (O.twinAlign.key 0 0 0) 1)

/-- TWIN_LEAVE. -/
def execTwinLeave (dt : Nat) (og : Origin) (s : State) : Host.Outcome State Fault Refusal :=
  run s dt (fun d => d.write1 og (O.twinLeave.key 0 0 0) 1)

/-- TWIN_TAKEOVER. -/
def execTwinTakeover (dt : Nat) (og : Origin) (s : State) : Host.Outcome State Fault Refusal :=
  run s dt (fun d => d.write1 og (O.twinTakeover.key 0 0 0) 1)

/-- ADOPT_STORAGE. -/
def execAdoptStorage (dt : Nat) (og : Origin) (s : State) : Host.Outcome State Fault Refusal :=
  run s dt (fun d => d.write1 og (O.twinAdoptStorage.key 0 0 0) 1)

/-- CORE_RUN. -/
def execCoreRun (dt : Nat) (og : Origin) (c : Fin 16) (s : State) : Host.Outcome State Fault Refusal :=
  run s dt (fun d => d.write1 og (O.coreControl.key c 0 0) 1)

/-- CORE_RESET. -/
def execCoreReset (dt : Nat) (og : Origin) (c : Fin 16) (s : State) : Host.Outcome State Fault Refusal :=
  run s dt (fun d => d.write1 og (O.coreControl.key c 0 0) 0)

/-- CLOCK_REVERT. -/
def execClockRevert (dt : Nat) (og : Origin) (s : State) : Host.Outcome State Fault Refusal :=
  run s dt (fun d => d.write1 og (O.clockRevert.key 0 0 0) 1)

/-- CLOCK_GATE. -/
def execClockGate (dt : Nat) (og : Origin) (node : Fin 37) (open_ : Bool) (s : State) : Host.Outcome State Fault Refusal :=
  run s dt (fun d => d.write1 og (O.clockGate.key 0 0 node) (b2n open_))

/-- FW_UPDATE. -/
def execFwUpdate (dt : Nat) (og : Origin) (s : State) : Host.Outcome State Fault Refusal :=
  run s dt (fun d => d.write1 og (O.fwUpdate.key 0 0 0) 1)

/-- RECONFIGURE. -/
def execReconfigure (dt : Nat) (og : Origin) (s : State) : Host.Outcome State Fault Refusal :=
  run s dt (fun d => d.write1 og (O.configReconfigure.key 0 0 0) 1)

/-- FUSE_PROGRAM. -/
def execFuseProgram (dt : Nat) (og : Origin) (index sub : Nat) (value : List Byte) (s : State) : Host.Outcome State Fault Refusal :=
  run s dt (fun d => d.fuseWrite og index sub value)

/-- BBRAM_ERASE. -/
def execBbramErase (dt : Nat) (og : Origin) (s : State) : Host.Outcome State Fault Refusal :=
  run s dt (fun d => d.write1 og (O.keyStoreBbramErase.key 0 0 0) 1)

/-- KEY_REVOKE. -/
def execKeyRevoke (dt : Nat) (og : Origin) (bits : Nat) (s : State) : Host.Outcome State Fault Refusal :=
  run s dt (fun d => d.write1 og (O.keyStoreRevoke.key 0 0 0) bits)

/-- DOMAIN_ON. -/
def execDomainOn (dt : Nat) (og : Origin) (n : Fin 60) (s : State) : Host.Outcome State Fault Refusal :=
  run s dt (fun d => d.write1 og (O.powerDomainControl.key 0 0 n) 1)

/-- DOMAIN_OFF. -/
def execDomainOff (dt : Nat) (og : Origin) (n : Fin 60) (s : State) : Host.Outcome State Fault Refusal :=
  run s dt (fun d => d.write1 og (O.powerDomainControl.key 0 0 n) 0)

/-- RUN_NOW. -/
def execRunNow (dt : Nat) (og : Origin) (unit : Fin 16) (inst : Nat) (s : State) : Host.Outcome State Fault Refusal :=
  run s dt (fun d => d.commitNow og
    [(O.selfTestUnitSelect.key 0 0 0, .num (unit * 2 ^ 24 + inst * 2 ^ 8)), (O.selfTestRunNow.key 0 0 0, .num 1)])

/-- CLEAR_PERMANENT. -/
def execClearPermanent (dt : Nat) (og : Origin) (dies : Nat) (s : State) : Host.Outcome State Fault Refusal :=
  run s dt (fun d => d.write1 og (O.selfTestClearPermanent.key 0 0 0) dies)

/-- CLEAR_SUSPECT. -/
def execClearSuspect (dt : Nat) (og : Origin) (edge : Fin 18) (dir : Fin 2) (bundle : Fin 64) (s : State) :
    Host.Outcome State Fault Refusal :=
  run s dt (fun d => d.commitNow og
    [(O.diagDuaxisSelect.key 0 0 0, .num (edge * 256 + dir * 64 + bundle)), (O.diagDuaxisClearSuspect.key 0 0 0, .num 1)])

end Sys2Proof.Machine
end

