-- ==== Sys2Proof/Machine/Jtag.lean ====
section
/-! DEFINITION. The test access port (R438). -/

set_option Elab.async false

namespace Sys2Proof.Machine

/-- Bits of a number, least significant first, as they leave TDO. -/
def bitList (w n : Nat) : List Bool := (upTo w).map (fun i => bitOf n i)

/-- Bits of bytes, as they leave TDO. -/
def byteBits (l : List Byte) : List Bool := l.flatMap (fun b => bitList 8 b.toNat)

/-- The instruction register takes an opcode: balls are driven from the boundary cells only under the EXTEST instructions and CLAMP, and are at
high impedance only under HIGHZ. -/
def Dev.setIr (d : Dev) (code drive : Nat) : Dev := { d with jtag := { d.jtag with ir := code, drive := drive } }

/-- BYPASS: one bit, 0 at Capture-DR. -/
def Dev.bypassed (d : Dev) : Dev := (d.setIr 0xFF 0).send (.jtag [false])

/-- IDCODE. -/
def idcodeEffect (d : Dev) : Dev := (d.setIr 1 0).send (.jtag (bitList 32 d.idcodeWord))

/-- SAMPLE/PRELOAD: the balls as they stand are shifted out; what is shifted in goes to the boundary cells. -/
def sampleEffectJ (balls : List Bool) (shiftIn : Option (List Bool)) (d : Dev) : Dev :=
  let d := (d.setIr 2 0).send (.jtag balls)
  match shiftIn with
  | some l => { d with jtag := { d.jtag with cells := l } }
  | none => d

/-- Config.State is RESET, FAULT or HOLD. -/
def Dev.boundaryFree (d : Dev) : Bool :=
  let st := d.nat O.configState
  st == 0 || st == 5 || st == 6

/-- An instruction that takes the balls: only while Config.State allows it, otherwise BYPASS. -/
def boundaryEffect (code drive : Nat) (d : Dev) : Dev := if d.boundaryFree then d.setIr code drive else d.bypassed

/-- CFG_LOAD: bytes of a stream in mode JTAG, or of a firmware image for the recovery monitor, as many as Fw.UpdateBytes says; BYPASS while
JTAG_LOAD_DISABLE is set. The first bytes begin the load; what they hold comes with STREAM_DATA. -/
def cfgLoadEffect (bytes : List Byte) (d : Dev) : Dev :=
  if d.boot.monitor then
    let d := d.setIr 0x20 0
    { d with boot := { d.boot with image := (d.boot.image ++ bytes).take (d.nat O.fwUpdateBytes) } }
  else if bitOf (d.nat O.keyStorePolicy) 3 then d.bypassed
  else
    let d := d.setIr 0x20 0
    let d := if d.loadReady 3 && !bytes.isEmpty then d.loadBegin 3 else d
    if d.nat O.configState = 1 && d.nat O.configMode = 3 && !bytes.isEmpty then { d with boot := { d.boot with lastNs := d.ns } } else d

/-- POST: a request with origin 0x8; ignored while one is outstanding. A refused one leaves READY with a response of length 0 (R265). -/
def dictPostEffect (req : List Byte) (d : Dev) : Dev :=
  let d := d.setIr 0x21 0
  d.when (!d.jtag.outstanding) (fun d =>
    match plainRequest .jtag 8 req with
    | none => { d with jtag := { d.jtag with ready := true, response := [] } }
    | some y => ({ d with jtag := { d.jtag with outstanding := true, ready := false, response := [] } }).serve y.1 y.2)

/-- POLL: READY and the response length. -/
def dictPollEffect (d : Dev) : Dev :=
  let d := d.setIr 0x21 0
  d.send (.jtag (bitList 32 (b2n d.jtag.ready * 2 ^ 31 + d.jtag.response.length % 2 ^ 14)))

/-- READ: bytes of the response. -/
def dictReadEffect (count : Nat) (d : Dev) : Dev :=
  let d := d.setIr 0x21 0
  d.send (.jtag (byteBits (d.jtag.response.take count)))

/-- DEBUG: cores 4 to 15 halt and resume; cores 0 to 3 are not reachable. -/
def debugEffect (c : Nat) (halt : Bool) (d : Dev) : Dev :=
  let d := d.setIr 0x22 0
  d.when (4 ≤ c) (fun d =>
    if halt && d.nat O.coreState c = 2 then d.setNat O.coreState 3 c
    else if !halt && d.nat O.coreState c = 3 then d.setNat O.coreState 2 c else d)

/-- DEVRESET. -/
def devresetEffect (pins : Nat) (d : Dev) : Dev := (d.setIr 0x23 0).deviceReset 7 pins

/-! The commands. -/

/-- IDCODE. -/
def execIdcode (dt : Nat) (s : State) : Host.Outcome State Fault Refusal := run s dt idcodeEffect

/-- SAMPLE_PRELOAD. -/
def execSamplePreload (dt : Nat) (pins : List Bool) (shiftIn : Option (List Bool)) (s : State) : Host.Outcome State Fault Refusal :=
  run s dt (sampleEffectJ pins shiftIn)

/-- EXTEST. -/
def execExtest (dt : Nat) (s : State) : Host.Outcome State Fault Refusal := run s dt (boundaryEffect 3 1)

/-- EXTEST_PULSE. -/
def execExtestPulse (dt : Nat) (s : State) : Host.Outcome State Fault Refusal := run s dt (boundaryEffect 4 1)

/-- EXTEST_TRAIN. -/
def execExtestTrain (dt : Nat) (s : State) : Host.Outcome State Fault Refusal := run s dt (boundaryEffect 5 1)

/-- HIGHZ. -/
def execHighz (dt : Nat) (s : State) : Host.Outcome State Fault Refusal := run s dt (boundaryEffect 6 2)

/-- CLAMP. -/
def execClamp (dt : Nat) (s : State) : Host.Outcome State Fault Refusal := run s dt (boundaryEffect 7 1)

/-- CFG_LOAD. -/
def execCfgLoad (dt : Nat) (bytes : List Byte) (s : State) : Host.Outcome State Fault Refusal := run s dt (cfgLoadEffect bytes)

/-- DICT_POST. -/
def execDictPost (dt : Nat) (request : List Byte) (s : State) : Host.Outcome State Fault Refusal := run s dt (dictPostEffect request)

/-- DICT_POLL. -/
def execDictPoll (dt : Nat) (s : State) : Host.Outcome State Fault Refusal := run s dt dictPollEffect

/-- DICT_READ. -/
def execDictRead (dt : Nat) (count : Nat) (s : State) : Host.Outcome State Fault Refusal := run s dt (dictReadEffect count)

/-- DEBUG. -/
def execJtagDebug (dt : Nat) (c : Fin 16) (halt : Bool) (s : State) : Host.Outcome State Fault Refusal := run s dt (debugEffect c halt)

/-- DEVRESET. -/
def execDevreset (dt : Nat) (mode : Fin 8) (s : State) : Host.Outcome State Fault Refusal := run s dt (devresetEffect mode)

/-- BYPASS. -/
def execBypass (dt : Nat) (s : State) : Host.Outcome State Fault Refusal := run s dt Dev.bypassed

end Sys2Proof.Machine
end

