-- ==== Sys2Proof/Machine/Twin.lean ====
section
/-! DEFINITION. What arrives at the twin port: mirror messages, beats and event frames, and storage takeover (R287 to R310). -/

set_option Elab.async false

namespace Sys2Proof.Machine

/-! Order (R297). -/

/-- A message that is `n` messages after the last one applied is applied; one that shares its message with an entry already applied may
come with the same number. -/
def Dev.inTurn (d : Dev) (msgSeq n : Nat) (again : Bool) : Bool :=
  d.hasTwin && d.twinActive && d.nat O.twinState != 8 && (msgSeq == d.twin.rxMsg + n || (again && msgSeq == d.twin.rxMsg && msgSeq != 0))

/-- Apply a message in its turn. -/
def Dev.take (d : Dev) (msgSeq : Nat) (again : Bool) (f : Dev → Dev) : Dev :=
  d.when (!d.stopped && d.inTurn msgSeq 1 again) (fun d => f { d with twin := { d.twin with rxMsg := msgSeq } })

/-! Pair commits (R291, R292). -/

/-- Items of a message as staged values, in rising order of key. -/
def stagedOf (l : List (Nat × Nat × List Byte)) : List Staged :=
  l.foldl (fun m i =>
    match lookup i.1 i.2.1 with
    | some x => Sys2Proof.Machine.stagePut m x.key (decodeVal x.o.ty i.2.2)
    | none => m) []

/-- Status of a value by its own type and range: 3 TYPE, 4 RANGE. -/
def itemStatus (i : Nat × Nat × List Byte) : Nat :=
  match lookup i.1 i.2.1 with
  | none => 1
  | some x =>
    if !lengthOk x.o.ty x.o.fixed x.o.len i.2.2.length then 3
    else if !x.o.rangeOk x.c (decodeVal x.o.ty i.2.2) then 4 else 0

/-- The commit of this side that waits for the peer's verdict. -/
def Dev.awaiting (d : Dev) : Option Txn := d.dict.txns.find? (fun (t : Txn) => t.mirror == some 2 && t.state == .validating)

/-- PROPOSE: queued as a commit of origin 0x4; the Primary whose own pair commit waits answers BUSY. A commit that the peer proposed before,
and never scheduled, gives way (log entry 58). -/
def proposeEffect (msgSeq txn : Nat) (items : List (Nat × Nat × List Byte)) (d : Dev) : Dev :=
  d.take msgSeq false (fun d =>
    let key := match items with
      | i :: _ => i.1 * 256 + i.2.1
      | [] => 0
    if d.awaiting.isSome && d.nat O.twinRole = 1 then d.sendVerdict txn key 10
    else match items.find? (fun i => itemStatus i != 0) with
      | some i => d.sendVerdict txn (i.1 * 256 + i.2.1) (itemStatus i)
      | none =>
        let old := d.dict.txns.filter (fun (t : Txn) => !(t.mirror == some 0 || (t.mirror == some 1 && t.state != .scheduled)))
        let t : Txn := { slot := none, txn := txn, origin := 4, state := .queued, items := stagedOf items, sinceNs := d.ns, mirror := some 0 }
        { d with dict := { d.dict with txns := old ++ [t] } })

/-- VERDICT: the commit is scheduled at least 400,000 ticks ahead, or fails with the peer's object. -/
def verdictEffect (msgSeq txn status index sub : Nat) (d : Dev) : Dev :=
  d.take msgSeq false (fun d =>
    match d.awaiting with
    | none => d
    | some t =>
      if t.txn % 2 ^ 32 ≠ txn then d
      else if status = 0 then d.scheduleTxn t 400000 else d.txnFail t (index * 256 + sub) status d.count false)

/-- SCHEDULE: the peer's commit applies here at tc too. One that comes less than 4,000 ticks before tc is not applied, and the pair is
resynchronised. -/
def scheduleEffect (msgSeq txn tc : Nat) (d : Dev) : Dev :=
  d.take msgSeq false (fun d =>
    match d.dict.txns.find? (fun (t : Txn) => t.mirror == some 1 && t.txn == txn) with
    | none => d
    | some t =>
      let ahead := (tc + 2 ^ 64 - d.count) % 2 ^ 64
      if 4000 ≤ ahead && ahead < 2 ^ 63 then d.swapTxn t { t with state := .scheduled, tc := tc, sinceNs := d.ns } else (d.dropTxn t).twinSync)

/-! Mirrored data (R293 to R296, R298). -/

/-- SHADOW: the peer's values and their tc. Their delay is measured while the pair mirrors, not in a resynchronisation. -/
def shadowEffect (msgSeq tc : Nat) (items : List (Nat × Nat × List Byte)) (d : Dev) : Dev :=
  d.take msgSeq false (fun d =>
    let m := items.foldl (fun m i => SMap.ins m (i.1 * 256 + i.2.1) ({ bytes := i.2.2, tick := tc } : ShadowVal)) d.twin.shadows
    let d := { d with twin := { d.twin with shadows := m } }
    let lag := (d.count + 2 ^ 64 - tc % 2 ^ 64) % 2 ^ 64
    if d.paired && lag < 2 ^ 63 then d.peak O.twinMirrorLag (min (lag / 4000) 0xFFFFFFFF) else d)

/-- An entry as the peer's Logbook keeps it: MIRRORED set and ECRC computed again. -/
def mirroredEntry (l : List Byte) : List Byte :=
  let l := fit 64 l
  let b := l.take 18 ++ leBytes 1 (Nat.lor (fieldAt l 18 1) 4) ++ (l.take 60).drop 19
  b ++ leBytes 4 (crc32c b)

/-- LOGBOOK: the ring overwrites an entry by its ENTRY_SEQ (R277, R294). -/
def logbookEffect (msgSeq : Nat) (entries : List (List Byte)) (d : Dev) : Dev :=
  d.take msgSeq false (fun d =>
    let l := entries.map mirroredEntry
    let d := { d with twin := { d.twin with log := l.foldl (fun (m : List (List Byte)) e =>
      m.filter (fun x => fieldAt x 8 4 % 65536 != fieldAt e 8 4 % 65536) ++ [e]) d.twin.log } }
    match l.getLast? with
    | some e => d.setNat O.twinPeerLogbookNext ((fieldAt e 8 4 + 1) % 2 ^ 32)
    | none => d)

/-- EXTENT: the peer's entry goes into the extent table under the same number; its own extents a side keeps to itself. -/
def extentEffect (msgSeq number : Nat) (entry : List Byte) (d : Dev) : Dev :=
  d.take msgSeq true (fun d =>
    if d.ownExt number then d
    else
      let x := Ext.parse (fit 32 entry)
      let old := d.ext number
      let d := d.setExt number { x with subs := if old.gen = x.gen then old.subs else [] }
      if 32 * number + 32 ≤ d.tableBytes then d.postAt (niStore 0) (d.nat O.storeTableBase + 32 * number) (fit 32 entry) else d)

/-- A sub-entry that 32 bytes hold. -/
def SubEnt.parse (l : List Byte) : SubEnt :=
  let f := fieldAt l 16 4
  { lo := fieldAt l 0 8, hi := fieldAt l 8 8, trig := bitOf f 0, gap := bitOf f 1, off := fieldAt l 20 4, bytes := fieldAt l 24 4,
    records := fieldAt l 28 4, openTick := 0 }

/-- SUBENTRY. -/
def subentryEffect (msgSeq number : Nat) (entry : List Byte) (d : Dev) : Dev :=
  d.take msgSeq true (fun d =>
    if d.ownExt number then d
    else
      let x := d.ext number
      let y := SubEnt.parse (fit 32 entry)
      d.setExt number { x with subs := x.subs.filter (fun z => z.off != y.off) ++ [y] })

/-- The side that Twin.FrontSide names for a Front is this one. -/
def Dev.frontMine (d : Dev) (n : Nat) : Bool := b2n (bitOf (d.nat O.twinFrontSide) n) == d.side

/-- FRONT: the state and counters of a shadow Front, and what its timers had left. -/
def frontMsgEffect (msgSeq : Nat) (entry : List Byte) (d : Dev) : Dev :=
  d.take msgSeq true (fun d =>
    let e := fit 32 entry
    let n := fieldAt e 0 1
    if 16 ≤ n || d.frontMine n then d
    else
      let d := ((d.setNat O.frontState (bitsOf (fieldAt e 1 1) 3 0) n).setNat O.frontCounter (fieldAt e 2 4) n 0 0).setNat O.frontCounter (fieldAt e 6 4) n 0 1
      let d := if bitOf (fieldAt e 1 1) 6 then d.setNat O.frontControl 0 n else d
      { d with twin := { d.twin with fronts := SMap.ins d.twin.fronts n e } })

/-! The join (R288, R308, R309). -/

/-- Step 4: both ends of the resynchronisation have passed, and alignment begins. -/
def Dev.joinEnd (d : Dev) : Dev :=
  if d.nat O.twinState = 2 && d.twin.sentEnd && d.twin.gotEnd then
    let d := (d.setNat O.twinState 3).setNat O.twinAligned 0
    { d with twin := { d.twin with good := 0 } }
  else d

/-- Values of the SHARED objects that the device holds. -/
def Dev.sharedItems (d : Dev) : List Staged :=
  (objTable.filter (fun o => o.shared && o.held)).flatMap (fun o => o.occurrences.filterMap (fun (x : Occurrence) =>
    if d.sharedKey x.key then some { key := x.key, val := d.stored x } else none))

/-- Values of the SHADOW objects. -/
def Dev.shadowItems (d : Dev) : List Staged :=
  ((objTable.filter (fun o => o.shadowed)).flatMap (fun o => o.occurrences.map (fun (x : Occurrence) => ({ key := x.key, val := d.stored x } : Staged)))) ++
  (d.fab.user.filterMap (fun (u : UserObj) =>
    let k := u.index * 256 + u.sub
    if d.shadowKeyOk k then some { key := k, val := (SMap.find d.fab.values k).getD (decodeVal (userType u) u.dflt) } else none))

/-- Every SHADOW value goes to the peer under the tc of its last commit; 0 for one that has not been committed since reset. -/
def Dev.sendAllShadows (d : Dev) : Dev :=
  let l := d.shadowItems
  let tc := fun (s : Staged) => SMap.getD d.dict.tcs s.key 0
  let tcs := (l.map tc).eraseDups
  tcs.foldl (fun (d : Dev) t => d.sendShadows (l.filter (fun s => SMap.getD d.dict.tcs s.key 0 == t)) t) d

/-- Step 3 from this side: RESYNC_BEGIN, with the SHARED values of the Primary; the SHADOW values, its extents, the sub-entries of its OPEN
ones, its Fronts, the Logbook from the entry that the peer expects, and RESYNC_END. -/
def Dev.resync (d : Dev) (logNext : Nat) : Dev :=
  let sh := if d.nat O.twinRole = 1 then d.sharedItems else []
  let d := d.mirror 0xA 0 sh.length 0 (sh.flatMap d.twinItem)
  let d := d.sendAllShadows
  let mine := d.store.exts.filter (fun p => d.ownExt p.1)
  let d := d.mirrorAll 6 (mine.map (fun p => leBytes 8 p.1 ++ p.2.entry))
  let d := d.mirrorAll 7 ((mine.filter (fun p => p.2.state == 1)).flatMap (fun p => p.2.subs.map (fun (s : SubEnt) => leBytes 8 p.1 ++ s.entry)))
  let d := d.mirrorAll 8 (((upTo 16).filter d.frontMine).map (fun n => d.frontEntry n d.count))
  let new := d.dict.log.filter (fun (e : LogEntry) => decide ((e.seq + 2 ^ 32 - logNext % 2 ^ 32) % 2 ^ 32 < 2 ^ 31))
  let d := (d.mirrorAll 5 (new.map LogEntry.bytes)).mirror 0xB 0 0 0 []
  { d with twin := { d.twin with sentEnd := true } }

/-- The peer runs another schema, or no longer does (R309). -/
def Dev.compat (d : Dev) (schema : Nat) : Dev :=
  let d := d.setNat O.twinPeerSchema schema
  if schema = d.nat O.identitySchemaVersion then d.setNat O.twinCompat 0
  else
    let r := d.nat O.twinRole
    ((d.setNat O.twinCompat 1).occur 1509).roleLog r r 6 1509

/-- The peer is on the device's own side: the device stops joining. -/
def Dev.sideConflict (d : Dev) : Dev :=
  let r := d.nat O.twinRole
  (d.setNat O.twinState 8).roleLog r r 7 0xFFFF

/-- The Fronts are shared from here on: those of the other side are shadows, whose timers stop here (R296, log entry 55). -/
def Dev.shareFronts (d : Dev) : Dev :=
  (upTo 16).foldl (fun d n => if d.frontMine n then d else (d.setTimer n 0 none).setTimer n 1 none) { d with twin := { d.twin with ownAll := false } }

/-- The peer is met: its side, its epoch and its catalogue are kept, the roles fall, and the exchange of values begins. -/
def Dev.meetPeer (d : Dev) (words : List Nat) (side epoch schema logNext : Nat) : Dev :=
  let known := d.twin.known
  let d := { d with twin := { d.twin with known := true, peerSide := side, peerEpoch := epoch, catalogue := words, common := true } }
  let d := d.setNat O.twinCommonObjects (d.catalogue.filter (fun w => words.contains w)).length
  let mine := d.nat O.twinRoleEpoch
  let first := epoch < mine || (epoch = mine && d.side = 0)
  let d := if first then d else (d.setNat O.twinRoleEpoch epoch).keepEpoch
  let d := d.setRole (if first then 1 else 2) (if known then 5 else 1)
  let d := d.compat schema
  let d := if first && d.nat O.timeDisciplineMode = 3 then d.autoMode (d.nat O.twinFallbackMode) else d
  d.shareFronts.resync logNext

/-- A catalogue that came in turn is taken: a pair that is joined leaves its synchronism first. -/
def Dev.takeCatalogue (d : Dev) (words : List Nat) (side epoch schema logNext : Nat) : Dev :=
  if side = d.side then d.sideConflict else d.meetPeer words side epoch schema logNext

/-- Step 2: the peer's catalogue, with its side, its epoch and its schema. A pair that has joined before joins again. -/
def catalogueEffect (msgSeq : Nat) (words : List Nat) (side epoch schema logNext : Nat) (d : Dev) : Dev :=
  if !d.stopped && d.inTurn msgSeq (max 1 ((words.length + 1019) / 1020)) false && (d.nat O.twinState == 2 || d.paired) then
    let e : Dev := { d with twin := { d.twin with rxMsg := msgSeq } }
    Dev.takeCatalogue (if d.paired then e.twinSync else e) words side epoch schema logNext
  else d

/-- RESYNC_BEGIN: the Secondary commits the Primary's SHARED values with origin 0x4. -/
def resyncBeginEffect (msgSeq : Nat) (shared : List (Nat × Nat × List Byte)) (d : Dev) : Dev :=
  d.take msgSeq false (fun d =>
    let l := stagedOf (shared.filter (fun i => itemStatus i == 0))
    if d.nat O.twinRole = 2 && !l.isEmpty then
      let t : Txn := { slot := none, txn := 0, origin := 4, state := .queued, items := l, sinceNs := d.ns }
      { d with dict := { d.dict with txns := d.dict.txns ++ [t] } }
    else d)

/-- RESYNC_END. -/
def resyncEndEffect (msgSeq : Nat) (d : Dev) : Dev :=
  d.take msgSeq false (fun d => ({ d with twin := { d.twin with gotEnd := true } }).joinEnd)

/-- LEAVE: the peer is away; where it was Primary, this side takes its part, but not its storage (R307). -/
def leaveEffect (msgSeq : Nat) (d : Dev) : Dev :=
  d.take msgSeq false (fun d =>
    let was := d.nat O.twinRole
    let d := d.setNat O.twinState 6
    if was = 2 then (d.takeOver.occur 1508).roleLog 1 2 3 1508 else d)

/-! Beats (R300, R301, R303). -/

/-- The payload of a beat sent at a tick. -/
def Dev.beatPayload (d : Dev) (tx : Nat) : List Byte :=
  leBytes 8 tx ++ leBytes 8 d.twin.peerTx ++ leBytes 8 d.twin.peerRx ++ leBytes 1 d.twin.peerFine ++ leBytes 1 (d.nat O.twinRole) ++
  leBytes 1 (d.nat O.twinState) ++ leBytes 1 (b2n d.twin.leaving + 2 * d.nat O.twinAligned + 4 * d.nat O.twinCompat) ++
  leBytes 4 (d.nat O.twinRoleEpoch) ++ leBytes 4 d.dict.logSeq ++ leBytes 4 d.twin.rxMsg

/-- The count reaches a multiple of 400,000 ticks within this nanosecond. -/
def beatSendEffect (d : Dev) : Dev :=
  d.when (d.hasTwin && d.twinActive && d.count % 400000 < 4) (fun d => d.queueFrame twinPort 3 (d.beatPayload (d.count - d.count % 400000)))

/-- A difference of two 64-bit counts. -/
def tickDiff (a b : Nat) : Int := signed 64 (unsigned 64 ((a : Int) - b))

/-- The offset of R301 in fine steps, rounded down (log entry 54): the arrival of this beat at tick `rx` and fine step `fine`, and what it says
of this side's last beat at the peer. -/
def Dev.beatOffset (d : Dev) (rx fine : Nat) (l : List Byte) : Int :=
  (((tickDiff rx (fieldAt l 0 8) * 256 + fine) - (tickDiff (fieldAt l 16 8) (fieldAt l 8 8) * 256 + fieldAt l 24 1) - d.int O.twinPathAsymmetry) / 2)

/-- Twin.TimeOffset; an offset outside the object's range is an open value (log entry 5). -/
def Dev.setTimeOffset (d : Dev) (off : Int) : Dev :=
  if O.twinTimeOffset.lo ≤ off && off ≤ O.twinTimeOffset.hi then d.setInt O.twinTimeOffset off
  else (d.setInt O.twinTimeOffset (signed 32 d.draw)).drawn

/-- Alignment after a measurement: 16 in a row of at most 500 ps, lost above 2 ns. A tick is 250 ps and 256 fine steps (R301). -/
def Dev.alignCheck (d : Dev) (off : Int) (rx : Nat) : Dev :=
  let good := if off.natAbs ≤ 512 then d.twin.good + 1 else 0
  let d := { d with twin := { d.twin with good := good } }
  if 2048 < off.natAbs then d.setNat O.twinAligned 0
  else if 16 ≤ good && !d.on O.twinAligned then (d.setNat O.twinAligned 1).markers (fun _ => true) 5 rx
  else d

/-- A time measurement of the Secondary (R301), one of discipline in mode 3 (R24): an offset above 4,000,000 ticks stops the steering. -/
def Dev.beatMeasure (d : Dev) (off : Int) (rx : Nat) : Dev :=
  let d := ({ d with twin := { d.twin with offset := off } }).setTimeOffset off
  let d := if 4000000 * 256 < off.natAbs then ({ d with twin := { d.twin with holdSteer := true, good := 0 } }).setNat O.twinAligned 0 else d
  let d := if d.nat O.timeDisciplineMode = 3 then
      let d := d.sampleIn off rx
      ({ d with time := { d.time with lastMeas := some rx, sample := none } }).measured off (!d.twin.holdSteer)
    else d
  if d.twin.holdSteer then d else d.alignCheck off rx

/-- A beat arrives, its first header symbol on a lane of the twin port at a position within this nanosecond; its stamp follows R17. -/
def beatEffect (pos lane : Nat) (payload : List Byte) (d : Dev) : Dev :=
  d.when (d.hasTwin && d.twinActive && !d.stopped) (fun d =>
    let l := fit 40 payload
    let stamp := d.stamp pos ((d.lanesOf 34 0).getD lane 136)
    let rx := stamp / 256
    let fine := stamp % 256
    let tx := fieldAt l 0 8
    let d := { d with twin := { d.twin with misses := 0, watchNs := some d.ns, peerTx := tx, peerRx := rx, peerFine := fine } }
    let d := d.setNat O.twinLastBeatTick rx
    let d := if d.nat O.twinState = 4 then d.setNat O.twinState 3 else d
    if d.nat O.twinRole = 2 && d.paired && tickDiff rx tx ≤ 80000 && fieldAt l 8 8 != 0 then d.beatMeasure (d.beatOffset rx fine l) rx else d)

/-- 100 µs have passed since the last beat or the last miss. -/
def beatMissedEffect (d : Dev) : Dev :=
  match d.twin.watchNs with
  | none => d
  | some t =>
    d.when (d.hasTwin && (d.paired || d.nat O.twinState == 2) && decide (t + 100000 ≤ d.ns)) (fun d =>
      let d := { d with twin := { d.twin with watchNs := some (t + 100000), misses := d.twin.misses + 1 } }
      (d.inc O.twinBeatsMissed).twinCheck)

/-! Event frames (R130, R296, R299). -/

/-- A twin inbound slot, or an occurrence that the peer forwards to a Front that this side owns. -/
def twinEventEffect (originTick slot : Nat) (forwarded : Bool) (input mult : Nat) (d : Dev) : Dev :=
  d.when (d.hasTwin && d.twinActive && d.nat O.twinState != 8 && !d.stopped) (fun d =>
    if forwarded then
      let o : Occ := { ev := slot % 2048, tick := d.count, mult := mult, origin := some originTick }
      if d.ownsFront (input / 8) then
        { d with events := { d.events with inputs := d.events.inputs ++ [({ n := input / 8, i := input % 8, occ := o, ns := d.ns } : FrontIn)] } }
      else d
    else d.occurAs { ev := 1424 + slot % 16, tick := d.count, mult := max 1 mult, origin := some originTick })

/-! Storage takeover (R305). -/

/-- An object that the device itself sets with origin 0x9, with its Logbook entry. -/
def Dev.ownSet (d : Dev) (o : ObjDef) (a n : Nat) : Dev :=
  let t : Txn := { slot := none, txn := 0, origin := 9 }
  let s : Staged := { key := o.key a 0 0, val := .num n }
  let e := d.itemEntry t d.count s
  (d.setNat o n a).logEntry e

/-- A namespace of the peer is mapped ONLINE, and its entries are loaded. -/
def Dev.takeNs (d : Dev) (f : NsFound) : Dev :=
  let i := f.label.index
  let d := (d.ownSet O.storeNsController i f.ctl).ownSet O.storeNsNsid i f.nsid
  let d := (d.ownSet O.storeNsBaseExtent i f.label.base).ownSet O.storeNsExtents i f.label.extents
  let d := { d with store := { d.store with peerNs := d.store.peerNs.filter (fun n => n != i) ++ [i],
                                            lbas := SMap.ins d.store.lbas (f.ctl.val * 2 ^ 32 + f.nsid) f.lbas } }
  let d := d.setNat O.storeNsState 1 i
  (d.loadNs f).putTable i

/-- Storage takeover of a SURVIVOR: the namespaces whose label names the peer, where this side maps none; OPEN extents are recovered and
CLOSED ones flushed. -/
def storageTakeoverEffect (nss : List NsFound) (d : Dev) : Dev :=
  d.when (d.nat O.twinState == 7 && d.on O.twinTakeoverStorage) (fun d =>
    let mapped := fun (f : NsFound) => (upTo 1024).any (fun n =>
      d.nat O.storeNsState n == 1 && d.nat O.storeNsController n == f.ctl.val && d.nat O.storeNsNsid n == f.nsid)
    let l := nss.filter (fun f => f.label.magicOk && f.label.version == 1 && f.label.owner == d.peerIdentity && f.label.index < 1024 &&
      d.nat O.storeCtlState f.ctl == 2 && d.nat O.storeNsState f.label.index != 1 && !mapped f)
    let d := l.foldl Dev.takeNs d
    let mine := fun (f : NsFound) (n : Nat) => d.nat O.storeNsBaseExtent f.label.index ≤ n && decide (n < d.nsEnd f.label.index)
    let d := l.foldl (fun d f => (d.store.exts.filter (fun p => p.2.state == 1 && mine f p.1)).foldl (fun d p =>
      d.recoverPeer p.1 ((f.openData.lookup p.1).getD [])) d) d
    l.foldl (fun (d : Dev) f => if (d.closedIn f.label.index).isEmpty then d else d.flushNs f.label.index) d)

/-! The commands. -/

/-- PROPOSE. -/
def execPropose (dt : Nat) (msgSeq txn : Nat) (items : List (Nat × Nat × List Byte)) (s : State) : Host.Outcome State Fault Refusal :=
  run s dt (proposeEffect msgSeq txn items)

/-- VERDICT. -/
def execVerdict (dt : Nat) (msgSeq txn status index sub : Nat) (s : State) : Host.Outcome State Fault Refusal :=
  run s dt (verdictEffect msgSeq txn status index sub)

/-- SCHEDULE. -/
def execSchedule (dt : Nat) (msgSeq txn tc : Nat) (s : State) : Host.Outcome State Fault Refusal := run s dt (scheduleEffect msgSeq txn tc)

/-- SHADOW. -/
def execShadow (dt : Nat) (msgSeq tc : Nat) (items : List (Nat × Nat × List Byte)) (s : State) : Host.Outcome State Fault Refusal :=
  run s dt (shadowEffect msgSeq tc items)

/-- LOGBOOK. -/
def execLogbook (dt : Nat) (msgSeq : Nat) (entries : List (List Byte)) (s : State) : Host.Outcome State Fault Refusal :=
  run s dt (logbookEffect msgSeq entries)

/-- EXTENT. -/
def execExtent (dt : Nat) (msgSeq number : Nat) (entry : List Byte) (s : State) : Host.Outcome State Fault Refusal :=
  run s dt (extentEffect msgSeq number entry)

/-- SUBENTRY. -/
def execSubentry (dt : Nat) (msgSeq number : Nat) (entry : List Byte) (s : State) : Host.Outcome State Fault Refusal :=
  run s dt (subentryEffect msgSeq number entry)

/-- FRONT. -/
def execFront (dt : Nat) (msgSeq : Nat) (entry : List Byte) (s : State) : Host.Outcome State Fault Refusal := run s dt (frontMsgEffect msgSeq entry)

/-- CATALOGUE. -/
def execCatalogue (dt : Nat) (msgSeq : Nat) (words : List Nat) (side epoch schema logNext : Nat) (s : State) : Host.Outcome State Fault Refusal :=
  run s dt (catalogueEffect msgSeq words side epoch schema logNext)

/-- RESYNC_BEGIN. -/
def execResyncBegin (dt : Nat) (msgSeq : Nat) (shared : List (Nat × Nat × List Byte)) (s : State) : Host.Outcome State Fault Refusal :=
  run s dt (resyncBeginEffect msgSeq shared)

/-- RESYNC_END. -/
def execResyncEnd (dt : Nat) (msgSeq : Nat) (s : State) : Host.Outcome State Fault Refusal := run s dt (resyncEndEffect msgSeq)

/-- LEAVE. -/
def execLeave (dt : Nat) (msgSeq : Nat) (s : State) : Host.Outcome State Fault Refusal := run s dt (leaveEffect msgSeq)

/-- BEAT_SEND. -/
def execBeatSend (dt : Nat) (s : State) : Host.Outcome State Fault Refusal := run s dt beatSendEffect

/-- BEAT. -/
def execBeat (dt : Nat) (at_ : BeatAt) (payload : List Byte) (s : State) : Host.Outcome State Fault Refusal :=
  run s dt (beatEffect at_.pos at_.lane payload)

/-- BEAT_MISSED. -/
def execBeatMissed (dt : Nat) (s : State) : Host.Outcome State Fault Refusal := run s dt beatMissedEffect

/-- TWIN_EVENT. -/
def execTwinEvent (dt : Nat) (originTick slot : Nat) (forwarded : Bool) (input : Fin 128) (mult : Fin 16) (s : State) :
    Host.Outcome State Fault Refusal := run s dt (twinEventEffect originTick slot forwarded input mult)

/-- STORAGE_TAKEOVER. -/
def execStorageTakeover (dt : Nat) (nss : List NsFound) (s : State) : Host.Outcome State Fault Refusal := run s dt (storageTakeoverEffect nss)

end Sys2Proof.Machine
end

