-- ==== Sys2Proof/Machine/Dispatch.lean ====
section
/-! DEFINITION. The dispatcher: the meaning of each command. -/

namespace Sys2Proof.Machine

/-- The effect of a command on everything but the queue. -/
def exec (i : Instr) (s : State) : Host.Outcome State Fault Refusal :=
  match i with
  | .parityBroadcast dt seen => Sys2Proof.Machine.execParityBroadcast dt seen s
  | .replicaRealign dt r => Sys2Proof.Machine.execReplicaRealign dt r s
  | .timeMarkerInterval dt => Sys2Proof.Machine.execTimeMarkerInterval dt s
  | .ppsEdge dt pos => Sys2Proof.Machine.execPpsEdge dt pos s
  | .ptpSync dt pos pdu => Sys2Proof.Machine.execPtpSync dt pos pdu s
  | .disciplineMeasurement dt => Sys2Proof.Machine.execDisciplineMeasurement dt s
  | .referenceLoss dt => Sys2Proof.Machine.execReferenceLoss dt s
  | .holdoverLimit dt => Sys2Proof.Machine.execHoldoverLimit dt s
  | .disciplineModeSet dt og mode => Sys2Proof.Machine.execDisciplineModeSet dt og mode s
  | .timebaseSet dt og value => Sys2Proof.Machine.execTimebaseSet dt og value s
  | .losAssert dt q k => Sys2Proof.Machine.execLosAssert dt q k s
  | .losDeassert dt q k => Sys2Proof.Machine.execLosDeassert dt q k s
  | .lolAssert dt q k => Sys2Proof.Machine.execLolAssert dt q k s
  | .lolDeassert dt q k => Sys2Proof.Machine.execLolDeassert dt q k s
  | .alignmentGained dt lane skew => Sys2Proof.Machine.execAlignmentGained dt lane skew s
  | .alignmentLost dt q k => Sys2Proof.Machine.execAlignmentLost dt q k s
  | .upDebounceExpiry dt q p => Sys2Proof.Machine.execUpDebounceExpiry dt q p s
  | .downDebounceExpiry dt q p => Sys2Proof.Machine.execDownDebounceExpiry dt q p s
  | .flapHoldExpiry dt q p => Sys2Proof.Machine.execFlapHoldExpiry dt q p s
  | .refclkStatusChange dt q status => Sys2Proof.Machine.execRefclkStatusChange dt q status s
  | .pcieRateChange dt q p speed lanes => Sys2Proof.Machine.execPcieRateChange dt q p speed lanes s
  | .retuneLimitExpiry dt q p => Sys2Proof.Machine.execRetuneLimitExpiry dt q p s
  | .pcieIdleLimitExpiry dt q p => Sys2Proof.Machine.execPcieIdleLimitExpiry dt q p s
  | .quadLayoutSet dt og layouts => Sys2Proof.Machine.execQuadLayoutSet dt og layouts s
  | .portModeSet dt og q p standard rate => Sys2Proof.Machine.execPortModeSet dt og q p standard rate s
  | .portDirectionSet dt og q p dir => Sys2Proof.Machine.execPortDirectionSet dt og q p dir s
  | .laneEqSet dt og q k mode ctle taps ffe => Sys2Proof.Machine.execLaneEqSet dt og q k mode ctle taps ffe s
  | .settleWindowExpiry dt q p => Sys2Proof.Machine.execSettleWindowExpiry dt q p s
  | .eyescanStart dt og q => Sys2Proof.Machine.execEyescanStart dt og q s
  | .eyescanPoint dt q errors => Sys2Proof.Machine.execEyescanPoint dt q errors s
  | .spapaxEnable dt og q on => Sys2Proof.Machine.execSpapaxEnable dt og q on s
  | .receiverDetectPulse dt q termination => Sys2Proof.Machine.execReceiverDetectPulse dt q termination s
  | .spapaxBlock dt port lane levels => Sys2Proof.Machine.execSpapaxBlock dt port lane levels s
  | .spapaxStageTimeout dt q freq => Sys2Proof.Machine.execSpapaxStageTimeout dt q freq s
  | .spapaxBackoffExpiry dt q => Sys2Proof.Machine.execSpapaxBackoffExpiry dt q s
  | .linkManagementFrame dt port msg => Sys2Proof.Machine.execLinkManagementFrame dt port msg s
  | .spapaxFrame dt port bytes => Sys2Proof.Machine.execSpapaxFrame dt port bytes s
  | .spapaxFrameSend dt port => Sys2Proof.Machine.execSpapaxFrameSend dt port s
  | .spapaxAckTimeout dt port => Sys2Proof.Machine.execSpapaxAckTimeout dt port s
  | .spapaxAlignInsert dt port => Sys2Proof.Machine.execSpapaxAlignInsert dt port s
  | .hostLinkDown dt => Sys2Proof.Machine.execHostLinkDown dt s
  | .pcieCompletionTimeout dt read => Sys2Proof.Machine.execPcieCompletionTimeout dt read s
  | .pcieSurpriseDown dt q => Sys2Proof.Machine.execPcieSurpriseDown dt q s
  | .pcieRetrain dt q => Sys2Proof.Machine.execPcieRetrain dt q s
  | .pcieInboundRequest dt q addr len => Sys2Proof.Machine.execPcieInboundRequest dt q addr len s
  | .vaneFrame dt v kind dest => Sys2Proof.Machine.execVaneFrame dt v kind dest s
  | .vaneLockoutExpiry dt v source => Sys2Proof.Machine.execVaneLockoutExpiry dt v source s
  | .vaneLinkChange dt v up => Sys2Proof.Machine.execVaneLinkChange dt v up s
  | .unitReceived dt q p u => Sys2Proof.Machine.execUnitReceived dt q p u s
  | .foldMaxSpanExpiry dt q p lane => Sys2Proof.Machine.execFoldMaxSpanExpiry dt q p lane s
  | .recordIngest dt q p => Sys2Proof.Machine.execRecordIngest dt q p s
  | .lossRunTimeout dt q p => Sys2Proof.Machine.execLossRunTimeout dt q p s
  | .admissionCycle dt e struck => Sys2Proof.Machine.execAdmissionCycle dt e struck s
  | .flushAgeExpiry dt e => Sys2Proof.Machine.execFlushAgeExpiry dt e s
  | .captureFlush dt og e => Sys2Proof.Machine.execCaptureFlush dt og e s
  | .ringWrite dt e struck => Sys2Proof.Machine.execRingWrite dt e struck s
  | .ringWriteAck dt e ok => Sys2Proof.Machine.execRingWriteAck dt e ok s
  | .flowAgeingVisit dt e hits => Sys2Proof.Machine.execFlowAgeingVisit dt e hits s
  | .flowClear dt og e => Sys2Proof.Machine.execFlowClear dt og e s
  | .captureEnable dt og q p => Sys2Proof.Machine.execCaptureEnable dt og q p s
  | .captureDisable dt og q p => Sys2Proof.Machine.execCaptureDisable dt og q p s
  | .captureQuiesce dt og e => Sys2Proof.Machine.execCaptureQuiesce dt og e s
  | .quiesceComplete dt e => Sys2Proof.Machine.execQuiesceComplete dt e s
  | .captureResume dt og e => Sys2Proof.Machine.execCaptureResume dt og e s
  | .frontEvaluate dt n => Sys2Proof.Machine.execFrontEvaluate dt n s
  | .frontTimerExpiry dt n t => Sys2Proof.Machine.execFrontTimerExpiry dt n t s
  | .frontRun dt og n => Sys2Proof.Machine.execFrontRun dt og n s
  | .frontIdle dt og n => Sys2Proof.Machine.execFrontIdle dt og n s
  | .retentionTrigger dt og s_ => Sys2Proof.Machine.execRetentionTrigger dt og s_ s
  | .windowEndReached dt s_ => Sys2Proof.Machine.execWindowEndReached dt s_ s
  | .closeLimitExpiry dt s_ => Sys2Proof.Machine.execCloseLimitExpiry dt s_ s
  | .promote dt e busError => Sys2Proof.Machine.execPromote dt e busError s
  | .notification dt v => Sys2Proof.Machine.execNotification dt v s
  | .msixMessage dt v => Sys2Proof.Machine.execMsixMessage dt v s
  | .txStart dt og q p => Sys2Proof.Machine.execTxStart dt og q p s
  | .txStop dt og q p => Sys2Proof.Machine.execTxStop dt og q p s
  | .txResume dt og q p => Sys2Proof.Machine.execTxResume dt og q p s
  | .txForceDown dt og q p down => Sys2Proof.Machine.execTxForceDown dt og q p down s
  | .txAnchor dt q p => Sys2Proof.Machine.execTxAnchor dt q p s
  | .txUnitStart dt q p pos => Sys2Proof.Machine.execTxUnitStart dt q p pos s
  | .txUnitEnd dt q p => Sys2Proof.Machine.execTxUnitEnd dt q p s
  | .txFetch dt q p busError => Sys2Proof.Machine.execTxFetch dt q p busError s
  | .hookReturn dt q p v => Sys2Proof.Machine.execHookReturn dt q p v s
  | .hookTimeout dt q p => Sys2Proof.Machine.execHookTimeout dt q p s
  | .holdWindowExpiry dt q p => Sys2Proof.Machine.execHoldWindowExpiry dt q p s
  | .memoryRead dt addr req find bytes => Sys2Proof.Machine.execMemoryRead dt addr req find bytes s
  | .memoryWrite dt addr req find data => Sys2Proof.Machine.execMemoryWrite dt addr req find data s
  | .reencryptionLine dt ch find => Sys2Proof.Machine.execReencryptionLine dt ch find s
  | .refresh dt ch => Sys2Proof.Machine.execRefresh dt ch s
  | .memoryTemperatureRead dt ch reading => Sys2Proof.Machine.execMemoryTemperatureRead dt ch reading s
  | .caParityFailure dt ch addr command initiator => Sys2Proof.Machine.execCaParityFailure dt ch addr command initiator s
  | .lullEnter dt og => Sys2Proof.Machine.execLullEnter dt og s
  | .lullDrained dt => Sys2Proof.Machine.execLullDrained dt s
  | .lullExit dt og => Sys2Proof.Machine.execLullExit dt og s
  | .lullRetrainDone dt failed => Sys2Proof.Machine.execLullRetrainDone dt failed s
  | .thaw dt og ch => Sys2Proof.Machine.execThaw dt og ch s
  | .thawRetrainDone dt ch ok => Sys2Proof.Machine.execThawRetrainDone dt ch ok s
  | .poisonClear dt og ch i_ => Sys2Proof.Machine.execPoisonClear dt og ch i_ s
  | .leakPeriod dt => Sys2Proof.Machine.execLeakPeriod dt s
  | .drizzleScrub dt target sram find last => Sys2Proof.Machine.execDrizzleScrub dt target sram find last s
  | .chktestWriteRaw dt og => Sys2Proof.Machine.execChktestWriteRaw dt og s
  | .chktestReadRaw dt og => Sys2Proof.Machine.execChktestReadRaw dt og s
  | .chktestReadDecoded dt og => Sys2Proof.Machine.execChktestReadDecoded dt og s
  | .chktestDramWrite dt og line => Sys2Proof.Machine.execChktestDramWrite dt og line s
  | .chktestDramRead dt og line => Sys2Proof.Machine.execChktestDramRead dt og line s
  | .storeMount dt og ctls nss => Sys2Proof.Machine.execStoreMount dt og ctls nss s
  | .storeStop dt og => Sys2Proof.Machine.execStoreStop dt og s
  | .nvmeCompletion dt c cid fin_ data dw3 => Sys2Proof.Machine.execNvmeCompletion dt c cid fin_ data dw3 s
  | .adminTimeout dt c => Sys2Proof.Machine.execAdminTimeout dt c s
  | .ioTimeout dt c cid => Sys2Proof.Machine.execIoTimeout dt c cid s
  | .controllerFatal dt c => Sys2Proof.Machine.execControllerFatal dt c s
  | .stageDrain dt e => Sys2Proof.Machine.execStageDrain dt e s
  | .drainAgeExpiry dt e s_ => Sys2Proof.Machine.execDrainAgeExpiry dt e s_ s
  | .flushInterval dt => Sys2Proof.Machine.execFlushInterval dt s
  | .subentryAgeExpiry dt e s_ => Sys2Proof.Machine.execSubentryAgeExpiry dt e s_ s
  | .reclaim dt s_ => Sys2Proof.Machine.execReclaim dt s_ s
  | .quotaCut dt og s_ quota => Sys2Proof.Machine.execQuotaCut dt og s_ quota s
  | .remapCopy dt extent => Sys2Proof.Machine.execRemapCopy dt extent s
  | .storeUnpin dt og extent => Sys2Proof.Machine.execStoreUnpin dt og extent s
  | .unpinAll dt og s_ => Sys2Proof.Machine.execUnpinAll dt og s_ s
  | .sessionRelease dt og s_ => Sys2Proof.Machine.execSessionRelease dt og s_ s
  | .controllerReset dt og c => Sys2Proof.Machine.execControllerReset dt og c s
  | .adminCommand dt og c entry => Sys2Proof.Machine.execAdminCommand dt og c entry s
  | .namespaceInitialise dt og n => Sys2Proof.Machine.execNamespaceInitialise dt og n s
  | .queryStart dt og j => Sys2Proof.Machine.execQueryStart dt og j s
  | .queryContinue dt og j addr bytes => Sys2Proof.Machine.execQueryContinue dt og j addr bytes s
  | .queryAbort dt og j => Sys2Proof.Machine.execQueryAbort dt og j s
  | .queryScan dt j fin data hostOk => Sys2Proof.Machine.execQueryScan dt j fin data hostOk s
  | .vanePdu dt v source frag pdu => Sys2Proof.Machine.execVanePdu dt v source frag pdu s
  | .reassemblyTimeout dt v id => Sys2Proof.Machine.execReassemblyTimeout dt v id s
  | .mailboxPost dt slot reqLength request => Sys2Proof.Machine.execMailboxPost dt slot reqLength request s
  | .mailboxRelease dt slot => Sys2Proof.Machine.execMailboxRelease dt slot s
  | .mailboxTake dt slot => Sys2Proof.Machine.execMailboxTake dt slot s
  | .read dt og txn index sub offset length => Sys2Proof.Machine.execRead dt og txn index sub offset length s
  | .write dt og txn index sub type value => Sys2Proof.Machine.execWrite dt og txn index sub type value s
  | .describe dt og index sub => Sys2Proof.Machine.execDescribe dt og index sub s
  | .beginTxn dt og => Sys2Proof.Machine.execBeginTxn dt og s
  | .commit dt og txn tick => Sys2Proof.Machine.execCommit dt og txn tick s
  | .rollback dt og txn => Sys2Proof.Machine.execRollback dt og txn s
  | .validationStart dt => Sys2Proof.Machine.execValidationStart dt s
  | .validationEnd dt => Sys2Proof.Machine.execValidationEnd dt s
  | .commitTick dt => Sys2Proof.Machine.execCommitTick dt s
  | .objectWrite dt og index sub value => Sys2Proof.Machine.execObjectWrite dt og index sub value s
  | .txnIdleTimeout dt slot => Sys2Proof.Machine.execTxnIdleTimeout dt slot s
  | .checkpointInterval dt => Sys2Proof.Machine.execCheckpointInterval dt s
  | .checkpointCount dt => Sys2Proof.Machine.execCheckpointCount dt s
  | .logbookCheckpoint dt og => Sys2Proof.Machine.execLogbookCheckpoint dt og s
  | .keepGroupWrite dt torn => Sys2Proof.Machine.execKeepGroupWrite dt torn s
  | .keepPageRefresh dt page margin => Sys2Proof.Machine.execKeepPageRefresh dt page margin s
  | .windowAccess dt offset op find => Sys2Proof.Machine.execWindowAccess dt offset op find s
  | .authKeyWrite dt og v slot key => Sys2Proof.Machine.execAuthKeyWrite dt og v slot key s
  | .propose dt msgSeq txn items => Sys2Proof.Machine.execPropose dt msgSeq txn items s
  | .verdict dt msgSeq txn status index sub => Sys2Proof.Machine.execVerdict dt msgSeq txn status index sub s
  | .schedule dt msgSeq txn tc => Sys2Proof.Machine.execSchedule dt msgSeq txn tc s
  | .shadow dt msgSeq tc items => Sys2Proof.Machine.execShadow dt msgSeq tc items s
  | .logbook dt msgSeq entries => Sys2Proof.Machine.execLogbook dt msgSeq entries s
  | .extent dt msgSeq number entry => Sys2Proof.Machine.execExtent dt msgSeq number entry s
  | .subentry dt msgSeq number entry => Sys2Proof.Machine.execSubentry dt msgSeq number entry s
  | .front dt msgSeq entry => Sys2Proof.Machine.execFront dt msgSeq entry s
  | .catalogue dt msgSeq words side epoch schema logNext => Sys2Proof.Machine.execCatalogue dt msgSeq words side epoch schema logNext s
  | .resyncBegin dt msgSeq shared => Sys2Proof.Machine.execResyncBegin dt msgSeq shared s
  | .resyncEnd dt msgSeq => Sys2Proof.Machine.execResyncEnd dt msgSeq s
  | .leave dt msgSeq => Sys2Proof.Machine.execLeave dt msgSeq s
  | .beatSend dt => Sys2Proof.Machine.execBeatSend dt s
  | .beat dt pos payload => Sys2Proof.Machine.execBeat dt pos payload s
  | .beatMissed dt => Sys2Proof.Machine.execBeatMissed dt s
  | .twinEvent dt originTick slot forwarded input mult => Sys2Proof.Machine.execTwinEvent dt originTick slot forwarded input mult s
  | .storageTakeover dt nss => Sys2Proof.Machine.execStorageTakeover dt nss s
  | .twinAlign dt og => Sys2Proof.Machine.execTwinAlign dt og s
  | .twinLeave dt og => Sys2Proof.Machine.execTwinLeave dt og s
  | .twinTakeover dt og => Sys2Proof.Machine.execTwinTakeover dt og s
  | .adoptStorage dt og => Sys2Proof.Machine.execAdoptStorage dt og s
  | .nocTimeout dt ni tag => Sys2Proof.Machine.execNocTimeout dt ni tag s
  | .nocResponse dt ni tag fin => Sys2Proof.Machine.execNocResponse dt ni tag fin s
  | .postedError dt ni record freed => Sys2Proof.Machine.execPostedError dt ni record freed s
  | .flush dt ni target => Sys2Proof.Machine.execFlush dt ni target s
  | .ekicWrite dt c bits arriving => Sys2Proof.Machine.execEkicWrite dt c bits arriving s
  | .ekeqWrite dt c value => Sys2Proof.Machine.execEkeqWrite dt c value s
  | .coreRun dt og c => Sys2Proof.Machine.execCoreRun dt og c s
  | .coreReset dt og c => Sys2Proof.Machine.execCoreReset dt og c s
  | .fabricEvent dt d j => Sys2Proof.Machine.execFabricEvent dt d j s
  | .userMarkRequest dt d set value => Sys2Proof.Machine.execUserMarkRequest dt d set value s
  | .pePop dt ni => Sys2Proof.Machine.execPePop dt ni s
  | .fabricDictionaryRequest dt d request => Sys2Proof.Machine.execFabricDictionaryRequest dt d request s
  | .objectSample dt index sub value again => Sys2Proof.Machine.execObjectSample dt index sub value again s
  | .objectSampleTimeout dt index sub => Sys2Proof.Machine.execObjectSampleTimeout dt index sub s
  | .ramPortAccess dt blk a b sameClock finds => Sys2Proof.Machine.execRamPortAccess dt blk a b sameClock finds s
  | .bankVoltageSample dt b mv => Sys2Proof.Machine.execBankVoltageSample dt b mv s
  | .sourceStable dt src fuses => Sys2Proof.Machine.execSourceStable dt src fuses s
  | .clockMissing dt src => Sys2Proof.Machine.execClockMissing dt src s
  | .pllLossOfLock dt pll => Sys2Proof.Machine.execPllLossOfLock dt pll s
  | .pllLock dt pll => Sys2Proof.Machine.execPllLock dt pll s
  | .pllHoldoverExpiry dt pll mode => Sys2Proof.Machine.execPllHoldoverExpiry dt pll mode s
  | .clockRevert dt og => Sys2Proof.Machine.execClockRevert dt og s
  | .clockGate dt og node open_ => Sys2Proof.Machine.execClockGate dt og node open_ s
  | .deviceReset dt cause mode => Sys2Proof.Machine.execDeviceReset dt cause mode s
  | .programPin dt mode low => Sys2Proof.Machine.execProgramPin dt mode low s
  | .powerGood dt mode => Sys2Proof.Machine.execPowerGood dt mode s
  | .entropyStartupDone dt ok => Sys2Proof.Machine.execEntropyStartupDone dt ok s
  | .firmwareStart dt ok0 ok1 v0 v1 => Sys2Proof.Machine.execFirmwareStart dt ok0 ok1 v0 v1 s
  | .persistRestore dt badSeal => Sys2Proof.Machine.execPersistRestore dt badSeal s
  | .streamData dt part => Sys2Proof.Machine.execStreamData dt part s
  | .streamTimeout dt => Sys2Proof.Machine.execStreamTimeout dt s
  | .loadStart dt => Sys2Proof.Machine.execLoadStart dt s
  | .loadAbort dt => Sys2Proof.Machine.execLoadAbort dt s
  | .apertureWrite dt bytes => Sys2Proof.Machine.execApertureWrite dt bytes s
  | .startupStep dt => Sys2Proof.Machine.execStartupStep dt s
  | .pllWaitExpiry dt => Sys2Proof.Machine.execPllWaitExpiry dt s
  | .bootComplete dt => Sys2Proof.Machine.execBootComplete dt s
  | .idcode dt => Sys2Proof.Machine.execIdcode dt s
  | .samplePreload dt pins shiftIn => Sys2Proof.Machine.execSamplePreload dt pins shiftIn s
  | .extest dt => Sys2Proof.Machine.execExtest dt s
  | .extestPulse dt => Sys2Proof.Machine.execExtestPulse dt s
  | .extestTrain dt => Sys2Proof.Machine.execExtestTrain dt s
  | .highz dt => Sys2Proof.Machine.execHighz dt s
  | .clamp dt => Sys2Proof.Machine.execClamp dt s
  | .cfgLoad dt bytes => Sys2Proof.Machine.execCfgLoad dt bytes s
  | .dictPost dt request => Sys2Proof.Machine.execDictPost dt request s
  | .dictPoll dt => Sys2Proof.Machine.execDictPoll dt s
  | .dictRead dt count => Sys2Proof.Machine.execDictRead dt count s
  | .jtagDebug dt c halt => Sys2Proof.Machine.execJtagDebug dt c halt s
  | .devreset dt mode => Sys2Proof.Machine.execDevreset dt mode s
  | .bypass dt => Sys2Proof.Machine.execBypass dt s
  | .readbackFrame dt frame find lastOfSweep mode => Sys2Proof.Machine.execReadbackFrame dt frame find lastOfSweep mode s
  | .watchdogExpiry dt mode => Sys2Proof.Machine.execWatchdogExpiry dt mode s
  | .fwUpdate dt og => Sys2Proof.Machine.execFwUpdate dt og s
  | .reconfigure dt og => Sys2Proof.Machine.execReconfigure dt og s
  | .reconfigureDelayExpiry dt mode => Sys2Proof.Machine.execReconfigureDelayExpiry dt mode s
  | .fuseProgram dt og index sub value => Sys2Proof.Machine.execFuseProgram dt og index sub value s
  | .fuseBurnDone dt ok => Sys2Proof.Machine.execFuseBurnDone dt ok s
  | .bbramErase dt og => Sys2Proof.Machine.execBbramErase dt og s
  | .keyRevoke dt og bits => Sys2Proof.Machine.execKeyRevoke dt og bits s
  | .vbatLoss dt => Sys2Proof.Machine.execVbatLoss dt s
  | .entropyHealthFailure dt => Sys2Proof.Machine.execEntropyHealthFailure dt s
  | .duaxisFrameError dt edge dir bundle wire bothCopies => Sys2Proof.Machine.execDuaxisFrameError dt edge dir bundle wire bothCopies s
  | .duaxisTraining dt errs fuseRepairs => Sys2Proof.Machine.execDuaxisTraining dt errs fuseRepairs s
  | .avsStep dt answered => Sys2Proof.Machine.execAvsStep dt answered s
  | .railFault dt rail mode => Sys2Proof.Machine.execRailFault dt rail mode s
  | .powerFailWarning dt => Sys2Proof.Machine.execPowerFailWarning dt s
  | .powerFailClear dt => Sys2Proof.Machine.execPowerFailClear dt s
  | .diePowerSample dt die mw => Sys2Proof.Machine.execDiePowerSample dt die mw s
  | .domainOn dt og n => Sys2Proof.Machine.execDomainOn dt og n s
  | .domainOff dt og n => Sys2Proof.Machine.execDomainOff dt og n s
  | .domainSwitchDone dt n => Sys2Proof.Machine.execDomainSwitchDone dt n s
  | .domainSwitchTimeout dt n => Sys2Proof.Machine.execDomainSwitchTimeout dt n s
  | .domainDroop dt n => Sys2Proof.Machine.execDomainDroop dt n s
  | .thermalSample dt sensors hbms dimms => Sys2Proof.Machine.execThermalSample dt sensors hbms dimms s
  | .ageingSample dt => Sys2Proof.Machine.execAgeingSample dt s
  | .marginMeasure dt monitors => Sys2Proof.Machine.execMarginMeasure dt monitors s
  | .weeklyHistory dt => Sys2Proof.Machine.execWeeklyHistory dt s
  | .poweredTimePersist dt => Sys2Proof.Machine.execPoweredTimePersist dt s
  | .sliceDue dt unit inst => Sys2Proof.Machine.execSliceDue dt unit inst s
  | .handshakeAck dt unit inst => Sys2Proof.Machine.execHandshakeAck dt unit inst s
  | .handshakeTimeout dt unit inst => Sys2Proof.Machine.execHandshakeTimeout dt unit inst s
  | .deferralRetry dt unit inst => Sys2Proof.Machine.execDeferralRetry dt unit inst s
  | .sliceEnd dt unit inst signature => Sys2Proof.Machine.execSliceEnd dt unit inst signature s
  | .runNow dt og unit inst => Sys2Proof.Machine.execRunNow dt og unit inst s
  | .clearPermanent dt og dies => Sys2Proof.Machine.execClearPermanent dt og dies s
  | .clearSuspect dt og edge dir bundle => Sys2Proof.Machine.execClearSuspect dt og edge dir bundle s
  | .perstAssert dt => Sys2Proof.Machine.execPerstAssert dt s
  | .perstReleaseExpiry dt q => Sys2Proof.Machine.execPerstReleaseExpiry dt q s
  | .pcieLinkUp dt q speed width => Sys2Proof.Machine.execPcieLinkUp dt q speed width s
  | .controllerReady dt c rdy => Sys2Proof.Machine.execControllerReady dt c rdy s
  | .dramTrainingDone dt ok dimms => Sys2Proof.Machine.execDramTrainingDone dt ok dimms s
  | .pllLockTimeout dt => Sys2Proof.Machine.execPllLockTimeout dt s
  | .clockReturn dt src => Sys2Proof.Machine.execClockReturn dt src s
  | .entropyHealthPass dt => Sys2Proof.Machine.execEntropyHealthPass dt s
  | .perstDeassert dt => Sys2Proof.Machine.execPerstDeassert dt s
  | .fabricShadowAck dt index sub => Sys2Proof.Machine.execFabricShadowAck dt index sub s

end Sys2Proof.Machine
end

