-- ==== Sys2Proof/WellFormed.lean ====
section
/-! DEFINITION. Which terms are instances of a command: every operand fits the field that carries it (R10, R62, R257, R259, R264, R277,
R297). What an object itself permits is not asked here: a value out of its range is a write that fails. -/

set_option Elab.async false

namespace Sys2Proof

/-- Fits 8 bits. -/
def u8 (n : Nat) : Bool := decide (n < 2 ^ 8)

/-- Fits 16 bits. -/
def u16 (n : Nat) : Bool := decide (n < 2 ^ 16)

/-- Fits 32 bits. -/
def u32 (n : Nat) : Bool := decide (n < 2 ^ 32)

/-- Fits 64 bits. -/
def u64 (n : Nat) : Bool := decide (n < 2 ^ 64)

/-- Fits 8 bits, signed. -/
def i8 (n : Int) : Bool := decide (-128 ≤ n) && decide (n ≤ 127)

/-- Fits 16 bits, signed. -/
def i16 (n : Int) : Bool := decide (-32768 ≤ n) && decide (n ≤ 32767)

/-- An index and a sub-index (R247). -/
def named (index sub : Nat) : Bool := u16 index && u8 sub

/-- A value whose length an item can state (R259). -/
def octets (l : List Byte) : Bool := u16 l.length

/-- A width of a PCIe link (R70). -/
def linkWidth (n : Nat) : Bool := [1, 2, 4, 8, 16].contains n

/-- An IPv4 or IPv6 address. -/
def ipAddress (l : List Byte) : Bool := l.length == 4 || l.length == 16

/-- An item of a mirror message (R297). -/
def twinItemOk (i : Nat × Nat × List Byte) : Bool := named i.1 i.2.1 && octets i.2.2

/-- Identity, lanes, use, schema and nonce of a CAPS frame; a MAC (R65). -/
def LinkMsg.wellFormed : LinkMsg → Bool
  | .caps identity lanes use schema nonce => identity.length == 32 && u8 lanes && u8 use && u32 schema && nonce.length == 16
  | .response mac => mac.length == 32

/-- A UDP port and a datagram's identification. -/
def VaneKind.wellFormed : VaneKind → Bool
  | .udp port => u16 port
  | .frag id => u32 id
  | _ => true

/-- A received unit lasts some time, and its lane is one of at most 16. -/
def RxUnit.wellFormed (u : RxUnit) : Bool :=
  decide (1 ≤ u.ticks) && decide (u.lane < 16) && decide (u.bytes.length ≤ 16777215)

/-- A network interface of R314. -/
def MemReq.wellFormed (r : MemReq) : Bool := decide (r.ni < 640)

/-- What a window access carries. -/
def WinOp.wellFormed : WinOp → Bool
  | .read len => decide (1 ≤ len) && decide (len ≤ 4096)
  | .write data => decide (1 ≤ data.length) && decide (data.length ≤ 512)
  | .malformed => true

/-- A controller (R211). -/
def CtlFound.wellFormed (c : CtlFound) : Bool := u16 c.bdf

/-- A namespace (R216 to R219). -/
def NsFound.wellFormed (n : NsFound) : Bool :=
  u32 n.nsid && u16 n.label.index && u32 n.label.base && u32 n.label.extents && n.label.owner.length == 32 &&
  n.entries.all (fun e => decide (e.1 < 2 ^ 28) && e.2.length == 32) && n.openData.all (fun e => decide (e.1 < 2 ^ 28)) &&
  n.sources.all (fun e => decide (e.1 < 256))

/-- A message's number, and a Sync's logMessageInterval (R28). -/
def PtpMsg.wellFormed : PtpMsg → Bool
  | .sync seq _ _ _ logInterval => u16 seq && i8 logInterval
  | .followUp seq _ _ | .delayReq seq | .delayResp seq _ _ | .pdelayReq seq | .pdelayResp seq _ _ _ | .pdelayFollowUp seq _ _ => u16 seq

/-- An access of a RAM port (R339). -/
def RamAcc.wellFormed (a : RamAcc) : Bool :=
  decide (1 ≤ a.size) && decide (a.off.val + a.size ≤ 8) && (match a.wdata with
    | some l => l.length == a.size
    | none => true)

/-- A configured cell lies in the package; its table has 16 entries and at most 4 inputs (R4, R335). -/
def CellCfg.wellFormed (x : CellCfg) : Bool := decide (x.num < 37748736) && u16 x.table && decide (x.ins.length ≤ 4)

/-- A multiply-accumulate block lies in the package, and its operands are as wide as R343 says. -/
def MacCfg.wellFormed (x : MacCfg) : Bool :=
  decide (x.num < 55296) && decide (x.a.length ≤ 27) && decide (x.pre.length ≤ 27) && decide (x.b.length ≤ 24) && x.north.all (fun k => decide (k < 55296))

/-- A user crossing port carries 64 signals over an edge between fabric dies, on one of the link's user bundles (R392, R395). -/
def CrossCfg.wellFormed (x : CrossCfg) : Bool :=
  decide (8 ≤ x.edge) && decide (x.edge < 18) && decide ((if x.edge < 14 then 12 else 14) ≤ x.bundle.val) && decide (x.nets.length ≤ 64)

/-- Crossing ports are distinct: a user bundle provides 8 (R395). -/
def portsApart (l : List CrossCfg) : Bool := (l.map (fun x => (x.edge, x.dir, x.bundle, x.port))).eraseDups.length == l.length

/-- Drive strengths of a bank standard, in mA (table "Bank standards"). -/
def bankDrives (std : Nat) : List Nat :=
  if std = 1 then [4, 8] else if std = 2 ∨ std = 3 then [4, 8, 12] else if std = 4 ∨ std = 5 then [4, 8, 12, 16] else []

/-- A bank declares a standard that it supports (R344). -/
def bankListed (b : Fin 8 × Nat) : Bool := decide (b.2 < 4) || (decide (b.2 < 6) && (b.1 == 1 || b.1 == 5))

/-- A pin's drive strength is one of its bank's (R345). -/
def PinCfg.wellFormed (banks : List (Fin 8 × Nat)) (p : PinCfg) : Bool := banks.any (fun b => b.1 == p.bank && (bankDrives b.2).contains p.drive)

/-- A fabric PLL's Config word, whose bits [55:48] and [15:0] are zero (R365), and its four dividers and phases (R355). -/
def FabPll.wellFormed (p : FabPll) : Bool :=
  u64 p.config && p.config % 2 ^ 16 == 0 && p.config / 2 ^ 48 % 2 ^ 8 == 0 && p.outs.length == 4 && p.outs.all (fun o => decide (2 ≤ o.1) && decide (o.1 ≤ 256))

/-- Parts of a stream (R372 to R374). -/
def StreamPart.wellFormed : StreamPart → Bool
  | .header l => l.length == 512 || l.length == 64
  | .data l => !l.isEmpty
  | .last c => c.userObjs.all (fun u => named u.index u.sub) && c.roles.all (fun r => decide (r.2 < 7)) && c.layouts.all (fun r => decide (r.2 < 5)) &&
      decide (c.twinSide < 2) && u32 c.used && c.fabPlls.all FabPll.wellFormed && c.cells.all CellCfg.wellFormed &&
      c.macs.all MacCfg.wellFormed && c.crossings.all CrossCfg.wellFormed && portsApart c.crossings &&
      c.banks.all bankListed && c.pins.all (PinCfg.wellFormed c.banks) && c.noScrub.all (fun k => decide (k < 36864))

/-- The term is an instance of its command. -/
def Instr.wellFormed (i : Instr) : Bool :=
  match i with
  | .parityBroadcast _ _ => true
  | .replicaRealign _ _ => true
  | .timeMarkerInterval _ => true
  | .ppsEdge _ _ => true
  | .ptpSync _ _ pdu => pdu.m.wellFormed
  | .disciplineMeasurement _ => true
  | .referenceLoss _ => true
  | .holdoverLimit _ => true
  | .disciplineModeSet _ _ mode => u8 mode
  | .timebaseSet _ _ value => u64 value
  | .losAssert _ _ _ => true
  | .losDeassert _ _ _ => true
  | .lolAssert _ _ _ => true
  | .lolDeassert _ _ _ => true
  | .alignmentGained _ _ skew => u32 skew
  | .alignmentLost _ _ _ => true
  | .upDebounceExpiry _ _ _ => true
  | .downDebounceExpiry _ _ _ => true
  | .flapHoldExpiry _ _ _ => true
  | .refclkStatusChange _ _ _ => true
  | .pcieRateChange _ _ _ speed lanes => linkWidth lanes.width && speed != 0 && lanes.inverted < 2 ^ lanes.width
  | .retuneLimitExpiry _ _ _ => true
  | .pcieIdleLimitExpiry _ _ _ => true
  | .quadLayoutSet _ _ layouts => layouts.all (fun l => u8 l.2)
  | .portModeSet _ _ _ _ standard rate => standard.all u8 && rate.all u32
  | .portDirectionSet _ _ _ _ _ => true
  | .laneEqSet _ _ _ _ mode ctle taps ffe => mode.all u8 && ctle.all (fun c => u8 c.1 && u8 c.2) && taps.all (fun t => i8 t.2) && ffe.all (fun t => i8 t.2)
  | .settleWindowExpiry _ _ _ => true
  | .eyescanStart _ _ _ => true
  | .eyescanPoint _ _ errors => u64 errors
  | .spapaxEnable _ _ _ _ => true
  | .receiverDetectPulse _ _ _ => true
  | .spapaxBlock _ _ _ levels => decide (33 ≤ levels.length) && decide (levels.length ≤ 34)
  | .spapaxStageTimeout _ _ _ => true
  | .spapaxBackoffExpiry _ _ => true
  | .linkManagementFrame _ _ msg => msg.wellFormed
  | .spapaxFrame _ _ bytes => decide (20 ≤ bytes.length) && decide (bytes.length ≤ 4116)
  | .spapaxFrameSend _ _ => true
  | .spapaxAckTimeout _ _ => true
  | .spapaxAlignInsert _ _ => true
  | .hostLinkDown _ => true
  | .pcieCompletionTimeout _ asker => decide (asker.ni < 640)
  | .pcieSurpriseDown _ _ => true
  | .pcieRetrain _ _ => true
  | .pcieInboundRequest _ _ addr len => u64 addr && decide (len ≤ 4096)
  | .vaneFrame _ _ kind dest => decide (dest.vlan < 4096) && kind.wellFormed && (dest.dst.isEmpty || ipAddress dest.dst)
  | .vaneLockoutExpiry _ _ source => ipAddress source
  | .vaneLinkChange _ _ _ => true
  | .unitReceived _ _ _ u => u.wellFormed
  | .foldMaxSpanExpiry _ _ _ lane => decide (lane < 16)
  | .recordIngest _ _ _ => true
  | .lossRunTimeout _ _ _ => true
  | .admissionCycle _ _ _ => true
  | .flushAgeExpiry _ _ => true
  | .captureFlush _ _ _ => true
  | .ringWrite _ _ _ => true
  | .ringWriteAck _ _ _ => true
  | .flowAgeingVisit _ _ _ => true
  | .flowClear _ _ _ => true
  | .captureEnable _ _ _ _ => true
  | .captureDisable _ _ _ _ => true
  | .captureQuiesce _ _ _ => true
  | .quiesceComplete _ _ => true
  | .captureResume _ _ _ => true
  | .frontEvaluate _ _ => true
  | .frontTimerExpiry _ _ _ => true
  | .frontRun _ _ _ => true
  | .frontIdle _ _ _ => true
  | .retentionTrigger _ _ _ => true
  | .windowEndReached _ _ => true
  | .closeLimitExpiry _ _ => true
  | .promote _ _ busError => busError.all u32
  | .notification _ _ => true
  | .msixMessage _ _ => true
  | .txStart _ _ _ _ => true
  | .txStop _ _ _ _ => true
  | .txResume _ _ _ _ => true
  | .txForceDown _ _ _ _ _ => true
  | .txAnchor _ _ _ => true
  | .txUnitStart _ _ _ _ => true
  | .txUnitEnd _ _ _ => true
  | .txFetch _ _ _ _ => true
  | .hookReturn _ _ _ v => u64 v.word
  | .hookTimeout _ _ _ => true
  | .holdWindowExpiry _ _ _ => true
  | .memoryRead _ _ req _ bytes => decide (1 ≤ bytes) && decide (bytes ≤ 65536) && req.wellFormed
  | .memoryWrite _ _ req _ data => decide (1 ≤ data.length) && decide (data.length ≤ 65536) && req.wellFormed
  | .reencryptionLine _ _ _ => true
  | .refresh _ _ => true
  | .memoryTemperatureRead _ _ reading => reading.all i16
  | .caParityFailure _ _ _ command initiator => decide (command ≤ 4) && decide (initiator < 640)
  | .lullEnter _ _ => true
  | .lullDrained _ => true
  | .lullExit _ _ => true
  | .lullRetrainDone _ _ => true
  | .thaw _ _ _ => true
  | .thawRetrainDone _ _ _ => true
  | .poisonClear _ _ _ _ => true
  | .leakPeriod _ => true
  | .drizzleScrub _ target _ _ _ =>
    (match target with
    | .inl t => u32 t.1 && u32 t.2
    | .inr _ => true)
  | .chktestWriteRaw _ _ => true
  | .chktestReadRaw _ _ => true
  | .chktestReadDecoded _ _ => true
  | .chktestDramWrite _ _ _ => true
  | .chktestDramRead _ _ _ => true
  | .storeMount _ _ ctls nss => ctls.all CtlFound.wellFormed && nss.all NsFound.wellFormed
  | .storeStop _ _ => true
  | .nvmeCompletion _ _ cid _ _ dw3 => u16 cid && u32 dw3
  | .adminTimeout _ _ => true
  | .ioTimeout _ _ cid => u16 cid
  | .controllerFatal _ _ => true
  | .stageDrain _ _ => true
  | .drainAgeExpiry _ _ _ => true
  | .flushInterval _ => true
  | .subentryAgeExpiry _ _ _ => true
  | .reclaim _ _ => true
  | .quotaCut _ _ _ quota => u32 quota
  | .remapCopy _ extent_ => decide (extent_ < 2 ^ 28)
  | .storeUnpin _ _ extent_ => u32 extent_
  | .unpinAll _ _ _ => true
  | .sessionRelease _ _ _ => true
  | .controllerReset _ _ _ => true
  | .adminCommand _ _ _ entry => octets entry
  | .namespaceInitialise _ _ _ => true
  | .queryStart _ _ _ => true
  | .queryContinue _ _ _ addr bytes => u64 addr && u64 bytes
  | .queryAbort _ _ _ => true
  | .queryScan _ _ _ _ _ => true
  | .vanePdu _ _ source frag pdu => ipAddress source && frag.all u32 && decide (pdu.length ≤ 65507)
  | .reassemblyTimeout _ _ id => u32 id
  | .mailboxPost _ _ reqLength request => u16 reqLength && decide (request.length ≤ 8192)
  | .mailboxRelease _ _ => true
  | .mailboxTake _ _ => true
  | .read _ _ txn index sub offset length => named index sub && u32 txn && u32 offset && u16 length
  | .write _ _ txn index sub type value => named index sub && u32 txn && u8 type && octets value
  | .describe _ _ index sub => named index sub
  | .beginTxn _ _ => true
  | .commit _ _ txn tick => u32 txn && tick.all u64
  | .rollback _ _ txn => u32 txn
  | .validationStart _ => true
  | .validationEnd _ => true
  | .commitTick _ => true
  | .objectWrite _ _ index sub value => named index sub && octets value
  | .txnIdleTimeout _ _ => true
  | .checkpointInterval _ => true
  | .checkpointCount _ => true
  | .logbookCheckpoint _ _ => true
  | .keepGroupWrite _ _ => true
  | .keepPageRefresh _ page _ => u32 page
  | .windowAccess _ offset op _ => op.wellFormed && (match offset with
    | .bar0 o => u64 o
    | .bar2 o => u64 o
    | .msixControl => true)
  | .authKeyWrite _ _ _ _ key => octets key
  | .propose _ msgSeq txn items => u32 msgSeq && u32 txn && items.all twinItemOk
  | .verdict _ msgSeq txn status index sub => u32 msgSeq && u32 txn && u8 status && named index sub
  | .schedule _ msgSeq txn tc => u32 msgSeq && u32 txn && u64 tc
  | .shadow _ msgSeq tc items => u32 msgSeq && u64 tc && items.all twinItemOk
  | .logbook _ msgSeq entries => u32 msgSeq && entries.all (fun e => e.length == 64)
  | .extent _ msgSeq number entry => u32 msgSeq && decide (number < 2 ^ 28) && entry.length == 32
  | .subentry _ msgSeq number entry => u32 msgSeq && decide (number < 2 ^ 28) && entry.length == 32
  | .front _ msgSeq entry => u32 msgSeq && entry.length == 32
  | .catalogue _ msgSeq words side epoch schema logNext => u32 msgSeq && words.all u32 && decide (side < 2) && u32 epoch && u32 schema && u32 logNext
  | .resyncBegin _ msgSeq shared => u32 msgSeq && shared.all twinItemOk
  | .resyncEnd _ msgSeq => u32 msgSeq
  | .leave _ msgSeq => u32 msgSeq
  | .beatSend _ => true
  | .beat _ _ payload => payload.length == 40
  | .beatMissed _ => true
  | .twinEvent _ originTick slot forwarded _ mult => u64 originTick && decide (slot < if forwarded then 2048 else 16) && mult != 0
  | .storageTakeover _ nss => nss.all NsFound.wellFormed
  | .twinAlign _ _ => true
  | .twinLeave _ _ => true
  | .twinTakeover _ _ => true
  | .adoptStorage _ _ => true
  | .nocTimeout _ _ _ => true
  | .nocResponse _ _ _ _ => true
  | .postedError _ _ record _ => record.length == 32
  | .flush _ _ _ => true
  | .ekicWrite _ _ bits _ => u32 bits
  | .ekeqWrite _ _ value => u64 value
  | .coreRun _ _ _ => true
  | .coreReset _ _ _ => true
  | .fabricEvent _ _ _ => true
  | .userMarkRequest _ _ _ value => u64 value
  | .pePop _ _ => true
  | .fabricDictionaryRequest _ _ request => decide (request.length ≤ 8192)
  | .objectSample _ index sub value _ => named index sub && octets value
  | .objectSampleTimeout _ index sub => named index sub
  | .ramPortAccess _ blk a b _ _ => decide (blk < 36864) && a.all RamAcc.wellFormed && b.all RamAcc.wellFormed
  | .bankVoltageSample _ _ mv => u16 mv
  | .sourceStable _ _ fuses =>
    (match fuses with
    | some l => l.all twinItemOk
    | none => true)
  | .clockMissing _ _ => true
  | .pllLossOfLock _ _ => true
  | .pllLock _ _ => true
  | .pllHoldoverExpiry _ _ _ => true
  | .clockRevert _ _ => true
  | .clockGate _ _ _ _ => true
  | .deviceReset _ cause _ => cause != 0
  | .programPin _ _ _ => true
  | .powerGood _ _ => true
  | .entropyStartupDone _ _ => true
  | .firmwareStart _ _ _ v0 v1 => u32 v0 && u32 v1
  | .persistRestore _ badSeal => badSeal.all (fun b => named b.1 b.2)
  | .streamData _ part => part.wellFormed
  | .streamTimeout _ => true
  | .loadStart _ => true
  | .loadAbort _ => true
  | .apertureWrite _ bytes => bytes % 8 == 0
  | .startupStep _ => true
  | .pllWaitExpiry _ => true
  | .bootComplete _ => true
  | .idcode _ => true
  | .samplePreload _ _ _ => true
  | .extest _ => true
  | .extestPulse _ => true
  | .extestTrain _ => true
  | .highz _ => true
  | .clamp _ => true
  | .cfgLoad _ _ => true
  | .dictPost _ request => decide (request.length < 16384)
  | .dictPoll _ => true
  | .dictRead _ count => decide (count < 16384)
  | .jtagDebug _ _ _ => true
  | .devreset _ _ => true
  | .bypass _ => true
  | .readbackFrame _ frame _ _ _ => u32 frame
  | .watchdogExpiry _ _ => true
  | .fwUpdate _ _ => true
  | .reconfigure _ _ => true
  | .reconfigureDelayExpiry _ _ => true
  | .fuseProgram _ _ index sub value => named index sub && octets value
  | .fuseBurnDone _ _ => true
  | .bbramErase _ _ => true
  | .keyRevoke _ _ bits => u8 bits
  | .vbatLoss _ => true
  | .entropyHealthFailure _ => true
  | .duaxisFrameError _ _ _ _ _ _ => true
  | .duaxisTraining _ _ _ => true
  | .avsStep _ _ => true
  | .railFault _ _ _ => true
  | .powerFailWarning _ => true
  | .powerFailClear _ => true
  | .diePowerSample _ _ mw => u32 mw
  | .domainOn _ _ _ => true
  | .domainOff _ _ _ => true
  | .domainSwitchDone _ _ => true
  | .domainSwitchTimeout _ _ => true
  | .domainDroop _ _ => true
  | .thermalSample _ sensors hbms dimms => sensors.all (fun s => i16 s.2.2) && hbms.all (fun s => i16 s.2) && dimms.all (fun s => i16 s.2)
  | .ageingSample _ => true
  | .marginMeasure _ monitors => monitors.all (fun m => u32 m.2.2)
  | .weeklyHistory _ => true
  | .poweredTimePersist _ => true
  | .sliceDue _ _ inst => u16 inst
  | .handshakeAck _ _ inst => u16 inst
  | .handshakeTimeout _ _ inst => u16 inst
  | .deferralRetry _ _ inst => u16 inst
  | .sliceEnd _ _ inst signature => u16 inst && u64 signature
  | .runNow _ _ _ inst => u16 inst
  | .clearPermanent _ _ dies => u16 dies
  | .clearSuspect _ _ _ _ _ => true
  | .perstAssert _ => true
  | .perstReleaseExpiry _ _ => true
  | .pcieLinkUp _ _ speed width => linkWidth width && speed != 0
  | .controllerReady _ _ _ => true
  | .dramTrainingDone _ _ dimms => dimms.all (fun x => decide (x.dimms ≤ 2) && decide (1 ≤ x.ranks) && decide (x.ranks ≤ 2))
  | .pllLockTimeout _ => true
  | .clockReturn _ _ => true
  | .entropyHealthPass _ => true
  | .perstDeassert _ => true
  | .fabricShadowAck _ index sub => named index sub

end Sys2Proof
end

