-- ==== Sys2Proof/Safety.lean ====
section
/-! DEFINITION. What counts as a safe state and a safe step, in the terms that the statements use. -/

set_option Elab.async false

namespace Sys2Proof.Machine

/-- The time-base count is a 64-bit number (R13), the memory has its canonical form (addresses strictly rising, and no byte listed that
reads as an unlisted one does), and the objects are a map: one value for each. -/
def Dev.Ok (d : Dev) : Prop := d.count < 2 ^ 64 ∧ Memory.wf d.mem.cells = true ∧ SMap.sorted d.objs = true

/-- The invariant of the block. -/
def State.Inv (s : State) : Prop := s.dev.Ok

/-- Every command that waits is an instance of its row. -/
def State.queueOk (s : State) : Bool := s.pending.all Instr.wellFormed

/-- The step goes on to a next state. -/
def State.goesOn (s : State) : Prop := ∃ t, step s = .next t

/-- The next state whose block is d, with the queue as it is. -/
def State.goesTo (s : State) (d : Dev) : Host.Outcome State Fault Refusal := .next { s with dev := d }

/-- A packet holds the records of one session, and it exceeds the packet size only where it holds one record (R107). -/
def Packet.ok (psize : Nat) (p : Packet) : Prop :=
  (∀ r ∈ p.recs, r.session = p.session) ∧ (p.size ≤ psize ∨ p.recs.length = 1)

/-- Every packet of a record FIFO is as R107 says, and the open one holds a record. -/
def Fifo.ok (psize : Nat) (f : Fifo) : Prop :=
  (∀ p, f.cur = some p → p.recs ≠ [] ∧ p.ok psize) ∧ (∀ p ∈ f.filling, p.ok psize) ∧ (∀ p ∈ f.draining, p.ok psize)

end Sys2Proof.Machine

namespace Sys2Proof

/-- The cycles of the time base that pass before the command. -/
def Instr.dt : Instr → Nat
  | .parityBroadcast dt .. => dt
  | .replicaRealign dt .. => dt
  | .timeMarkerInterval dt .. => dt
  | .ppsEdge dt .. => dt
  | .ptpSync dt .. => dt
  | .disciplineMeasurement dt .. => dt
  | .referenceLoss dt .. => dt
  | .holdoverLimit dt .. => dt
  | .disciplineModeSet dt .. => dt
  | .timebaseSet dt .. => dt
  | .losAssert dt .. => dt
  | .losDeassert dt .. => dt
  | .lolAssert dt .. => dt
  | .lolDeassert dt .. => dt
  | .alignmentGained dt .. => dt
  | .alignmentLost dt .. => dt
  | .upDebounceExpiry dt .. => dt
  | .downDebounceExpiry dt .. => dt
  | .flapHoldExpiry dt .. => dt
  | .refclkStatusChange dt .. => dt
  | .pcieRateChange dt .. => dt
  | .retuneLimitExpiry dt .. => dt
  | .pcieIdleLimitExpiry dt .. => dt
  | .quadLayoutSet dt .. => dt
  | .portModeSet dt .. => dt
  | .portDirectionSet dt .. => dt
  | .laneEqSet dt .. => dt
  | .settleWindowExpiry dt .. => dt
  | .eyescanStart dt .. => dt
  | .eyescanPoint dt .. => dt
  | .spapaxEnable dt .. => dt
  | .receiverDetectPulse dt .. => dt
  | .spapaxBlock dt .. => dt
  | .spapaxStageTimeout dt .. => dt
  | .spapaxBackoffExpiry dt .. => dt
  | .linkManagementFrame dt .. => dt
  | .spapaxFrame dt .. => dt
  | .spapaxFrameSend dt .. => dt
  | .spapaxAckTimeout dt .. => dt
  | .spapaxAlignInsert dt .. => dt
  | .hostLinkDown dt .. => dt
  | .pcieCompletionTimeout dt .. => dt
  | .pcieSurpriseDown dt .. => dt
  | .pcieRetrain dt .. => dt
  | .pcieInboundRequest dt .. => dt
  | .vaneFrame dt .. => dt
  | .vaneLockoutExpiry dt .. => dt
  | .vaneLinkChange dt .. => dt
  | .unitReceived dt .. => dt
  | .foldMaxSpanExpiry dt .. => dt
  | .recordIngest dt .. => dt
  | .lossRunTimeout dt .. => dt
  | .admissionCycle dt .. => dt
  | .flushAgeExpiry dt .. => dt
  | .captureFlush dt .. => dt
  | .ringWrite dt .. => dt
  | .ringWriteAck dt .. => dt
  | .flowAgeingVisit dt .. => dt
  | .flowClear dt .. => dt
  | .captureEnable dt .. => dt
  | .captureDisable dt .. => dt
  | .captureQuiesce dt .. => dt
  | .quiesceComplete dt .. => dt
  | .captureResume dt .. => dt
  | .frontEvaluate dt .. => dt
  | .frontTimerExpiry dt .. => dt
  | .frontRun dt .. => dt
  | .frontIdle dt .. => dt
  | .retentionTrigger dt .. => dt
  | .windowEndReached dt .. => dt
  | .closeLimitExpiry dt .. => dt
  | .promote dt .. => dt
  | .notification dt .. => dt
  | .msixMessage dt .. => dt
  | .txStart dt .. => dt
  | .txStop dt .. => dt
  | .txResume dt .. => dt
  | .txForceDown dt .. => dt
  | .txAnchor dt .. => dt
  | .txUnitStart dt .. => dt
  | .txUnitEnd dt .. => dt
  | .txFetch dt .. => dt
  | .hookReturn dt .. => dt
  | .hookTimeout dt .. => dt
  | .holdWindowExpiry dt .. => dt
  | .memoryRead dt .. => dt
  | .memoryWrite dt .. => dt
  | .reencryptionLine dt .. => dt
  | .refresh dt .. => dt
  | .memoryTemperatureRead dt .. => dt
  | .caParityFailure dt .. => dt
  | .lullEnter dt .. => dt
  | .lullDrained dt .. => dt
  | .lullExit dt .. => dt
  | .lullRetrainDone dt .. => dt
  | .thaw dt .. => dt
  | .thawRetrainDone dt .. => dt
  | .poisonClear dt .. => dt
  | .leakPeriod dt .. => dt
  | .drizzleScrub dt .. => dt
  | .chktestWriteRaw dt .. => dt
  | .chktestReadRaw dt .. => dt
  | .chktestReadDecoded dt .. => dt
  | .chktestDramWrite dt .. => dt
  | .chktestDramRead dt .. => dt
  | .storeMount dt .. => dt
  | .storeStop dt .. => dt
  | .nvmeCompletion dt .. => dt
  | .adminTimeout dt .. => dt
  | .ioTimeout dt .. => dt
  | .controllerFatal dt .. => dt
  | .stageDrain dt .. => dt
  | .drainAgeExpiry dt .. => dt
  | .flushInterval dt .. => dt
  | .subentryAgeExpiry dt .. => dt
  | .reclaim dt .. => dt
  | .quotaCut dt .. => dt
  | .remapCopy dt .. => dt
  | .storeUnpin dt .. => dt
  | .unpinAll dt .. => dt
  | .sessionRelease dt .. => dt
  | .controllerReset dt .. => dt
  | .adminCommand dt .. => dt
  | .namespaceInitialise dt .. => dt
  | .queryStart dt .. => dt
  | .queryContinue dt .. => dt
  | .queryAbort dt .. => dt
  | .queryScan dt .. => dt
  | .vanePdu dt .. => dt
  | .reassemblyTimeout dt .. => dt
  | .mailboxPost dt .. => dt
  | .mailboxRelease dt .. => dt
  | .mailboxTake dt .. => dt
  | .read dt .. => dt
  | .write dt .. => dt
  | .describe dt .. => dt
  | .beginTxn dt .. => dt
  | .commit dt .. => dt
  | .rollback dt .. => dt
  | .validationStart dt .. => dt
  | .validationEnd dt .. => dt
  | .commitTick dt .. => dt
  | .objectWrite dt .. => dt
  | .txnIdleTimeout dt .. => dt
  | .checkpointInterval dt .. => dt
  | .checkpointCount dt .. => dt
  | .logbookCheckpoint dt .. => dt
  | .keepGroupWrite dt .. => dt
  | .keepPageRefresh dt .. => dt
  | .windowAccess dt .. => dt
  | .authKeyWrite dt .. => dt
  | .propose dt .. => dt
  | .verdict dt .. => dt
  | .schedule dt .. => dt
  | .shadow dt .. => dt
  | .logbook dt .. => dt
  | .extent dt .. => dt
  | .subentry dt .. => dt
  | .front dt .. => dt
  | .catalogue dt .. => dt
  | .resyncBegin dt .. => dt
  | .resyncEnd dt .. => dt
  | .leave dt .. => dt
  | .beatSend dt .. => dt
  | .beat dt .. => dt
  | .beatMissed dt .. => dt
  | .twinEvent dt .. => dt
  | .storageTakeover dt .. => dt
  | .twinAlign dt .. => dt
  | .twinLeave dt .. => dt
  | .twinTakeover dt .. => dt
  | .adoptStorage dt .. => dt
  | .nocTimeout dt .. => dt
  | .nocResponse dt .. => dt
  | .postedError dt .. => dt
  | .flush dt .. => dt
  | .ekicWrite dt .. => dt
  | .ekeqWrite dt .. => dt
  | .coreRun dt .. => dt
  | .coreReset dt .. => dt
  | .fabricEvent dt .. => dt
  | .userMarkRequest dt .. => dt
  | .pePop dt .. => dt
  | .fabricDictionaryRequest dt .. => dt
  | .objectSample dt .. => dt
  | .objectSampleTimeout dt .. => dt
  | .ramPortAccess dt .. => dt
  | .bankVoltageSample dt .. => dt
  | .sourceStable dt .. => dt
  | .clockMissing dt .. => dt
  | .pllLossOfLock dt .. => dt
  | .pllLock dt .. => dt
  | .pllHoldoverExpiry dt .. => dt
  | .clockRevert dt .. => dt
  | .clockGate dt .. => dt
  | .deviceReset dt .. => dt
  | .programPin dt .. => dt
  | .powerGood dt .. => dt
  | .entropyStartupDone dt .. => dt
  | .firmwareStart dt .. => dt
  | .persistRestore dt .. => dt
  | .streamData dt .. => dt
  | .streamTimeout dt .. => dt
  | .loadStart dt .. => dt
  | .loadAbort dt .. => dt
  | .apertureWrite dt .. => dt
  | .startupStep dt .. => dt
  | .pllWaitExpiry dt .. => dt
  | .bootComplete dt .. => dt
  | .idcode dt .. => dt
  | .samplePreload dt .. => dt
  | .extest dt .. => dt
  | .extestPulse dt .. => dt
  | .extestTrain dt .. => dt
  | .highz dt .. => dt
  | .clamp dt .. => dt
  | .cfgLoad dt .. => dt
  | .dictPost dt .. => dt
  | .dictPoll dt .. => dt
  | .dictRead dt .. => dt
  | .jtagDebug dt .. => dt
  | .devreset dt .. => dt
  | .bypass dt .. => dt
  | .readbackFrame dt .. => dt
  | .watchdogExpiry dt .. => dt
  | .fwUpdate dt .. => dt
  | .reconfigure dt .. => dt
  | .reconfigureDelayExpiry dt .. => dt
  | .fuseProgram dt .. => dt
  | .fuseBurnDone dt .. => dt
  | .bbramErase dt .. => dt
  | .keyRevoke dt .. => dt
  | .vbatLoss dt .. => dt
  | .entropyHealthFailure dt .. => dt
  | .duaxisFrameError dt .. => dt
  | .duaxisTraining dt .. => dt
  | .avsStep dt .. => dt
  | .railFault dt .. => dt
  | .powerFailWarning dt .. => dt
  | .powerFailClear dt .. => dt
  | .diePowerSample dt .. => dt
  | .domainOn dt .. => dt
  | .domainOff dt .. => dt
  | .domainSwitchDone dt .. => dt
  | .domainSwitchTimeout dt .. => dt
  | .domainDroop dt .. => dt
  | .thermalSample dt .. => dt
  | .ageingSample dt .. => dt
  | .marginMeasure dt .. => dt
  | .weeklyHistory dt .. => dt
  | .poweredTimePersist dt .. => dt
  | .sliceDue dt .. => dt
  | .handshakeAck dt .. => dt
  | .handshakeTimeout dt .. => dt
  | .deferralRetry dt .. => dt
  | .sliceEnd dt .. => dt
  | .runNow dt .. => dt
  | .clearPermanent dt .. => dt
  | .clearSuspect dt .. => dt
  | .perstAssert dt .. => dt
  | .perstReleaseExpiry dt .. => dt
  | .pcieLinkUp dt .. => dt
  | .controllerReady dt .. => dt
  | .dramTrainingDone dt .. => dt
  | .pllLockTimeout dt .. => dt
  | .clockReturn dt .. => dt
  | .entropyHealthPass dt .. => dt
  | .perstDeassert dt .. => dt
  | .fabricShadowAck dt .. => dt

/-- The commands that may store to memory or change the count other than by counting: commits of objects, requests, writes to memory by the
block's own engines, and device resets. Every other command is quiet. -/
def Instr.quiet : Instr → Bool
  | .disciplineModeSet .. | .timebaseSet .. | .quadLayoutSet .. | .portModeSet .. | .portDirectionSet .. | .laneEqSet ..
  | .eyescanStart .. | .spapaxEnable .. | .pcieSurpriseDown .. | .captureFlush .. | .ringWrite .. | .flowClear .. | .captureEnable ..
  | .captureDisable .. | .captureQuiesce .. | .captureResume .. | .frontRun .. | .frontIdle .. | .retentionTrigger .. | .promote ..
  | .txStart .. | .txStop .. | .txResume .. | .txForceDown .. | .txFetch .. | .memoryRead .. | .memoryWrite .. | .reencryptionLine .. | .lullEnter .. | .lullExit ..
  | .lullRetrainDone .. | .thaw .. | .poisonClear .. | .chktestWriteRaw .. | .chktestReadRaw .. | .chktestReadDecoded ..
  | .chktestDramWrite .. | .chktestDramRead .. | .storeMount .. | .storeStop .. | .nvmeCompletion .. | .adminTimeout ..
  | .ioTimeout .. | .controllerFatal .. | .stageDrain .. | .reclaim .. | .quotaCut .. | .remapCopy .. | .caParityFailure .. | .drainAgeExpiry .. | .flushInterval ..
  | .storeUnpin .. | .unpinAll ..
  | .sessionRelease .. | .controllerReset .. | .adminCommand .. | .namespaceInitialise .. | .queryStart .. | .queryContinue ..
  | .queryAbort .. | .queryScan .. | .vanePdu .. | .mailboxTake .. | .read .. | .write .. | .describe .. | .beginTxn .. | .commit ..
  | .rollback .. | .commitTick .. | .objectWrite .. | .logbookCheckpoint .. | .windowAccess .. | .authKeyWrite .. | .extent ..
  | .storageTakeover .. | .twinAlign .. | .twinLeave .. | .twinTakeover .. | .adoptStorage .. | .coreRun .. | .coreReset ..
  | .fabricDictionaryRequest .. | .pllHoldoverExpiry .. | .clockRevert .. | .clockGate .. | .deviceReset .. | .programPin ..
  | .powerGood .. | .dictPost .. | .devreset .. | .readbackFrame .. | .watchdogExpiry .. | .fwUpdate .. | .reconfigure ..
  | .reconfigureDelayExpiry .. | .fuseProgram .. | .bbramErase .. | .keyRevoke .. | .railFault .. | .domainOn .. | .domainOff ..
  | .domainSwitchDone .. | .runNow .. | .clearPermanent .. | .clearSuspect .. | .pcieLinkUp .. | .controllerReady .. => false
  | _ => true

end Sys2Proof
end

