-- ==== Sys2Proof/Certificates/Slice0/Obligations.lean ====
section
/-! DEFINITION. The statements for the provers: first those over the whole block, then, family by family, what each command does. In the latter
each command answers a next state for every state and operands, and the next state is written out: `d` is the block after the cycles
that the command lets pass, and what the equation does not name is as before. -/

set_option Elab.async false

open Sys2Proof Sys2Proof.Machine

/-- For every command c and every state whose queue begins with c, the step of that state is exec of c on the state with the
rest of the queue. (The queue is the model's own: log entry 1.) -/
def Obligations.StepRunsFront : Prop :=
  ∀ (s : State) (c : Instr) (rest : List Instr), s.pending = c :: rest → step s = exec c { s with pending := rest }

/-- With an empty queue the step answers a next state that differs in the passing of one cycle alone: one nanosecond has passed,
a count below 2^64 has advanced by 4 ticks modulo 2^64, every byte of memory reads as before, and the queue stays empty. That an
empty queue means one cycle, and what a passing cycle brings about by itself, is the model's choice (log entries 1 and 96). -/
def Obligations.IdleStepCounts : Prop :=
  ∀ s : State, s.pending = [] →
    step s = .next { s with dev := s.dev.pass 1 } ∧ (s.dev.pass 1).ns = s.dev.ns + 1 ∧
    (s.dev.count < 2 ^ 64 → (s.dev.pass 1).count = (s.dev.count + 4) % 2 ^ 64) ∧
    ∀ a : Nat, Memory.get (s.dev.pass 1).mem.cells a = Memory.get s.dev.mem.cells a

/-- The passing of dt cycles adds 4 dt to the count modulo 2^64, so a count that reaches 2^64 reads 0, and changes nothing else
of the block but the model's own nanoseconds: the device takes no action at the wrap. The time that passes before a command
advances the count in this way. 2^64 ticks of 250 ps are more than 146 and less than 147 years of 365 days, so about 146.1
Julian years. -/
def Obligations.CountWraps : Prop :=
  (∀ (d : Dev) (dt : Nat), d.tick dt = { d with ns := d.ns + dt, count := (d.count + 4 * dt) % 2 ^ 64 }) ∧
    (∀ (d : Dev) (dt : Nat), d.count + 4 * dt = 2 ^ 64 → (d.tick dt).count = 0) ∧
    (∀ (d : Dev) (dt : Nat), d.count + 4 * dt < 2 ^ 64 → (d.tick dt).count = d.count + 4 * dt) ∧
    (∀ (d : Dev) (dt : Nat), d.count < 2 ^ 64 → (d.pass dt).count = (d.tick dt).count) ∧
    146 * (365 * 24 * 3600) * (4 * 10 ^ 9) < 2 ^ 64 ∧ 2 ^ 64 < 147 * (365 * 24 * 3600) * (4 * 10 ^ 9)

/-- State.reset has an empty queue, a count of 0, no listed byte of memory and nothing sent; every occurrence of every object
reads as its default, and every port, engine, core and bundle is as an absent entry reads. (Defaults that the spec does not
print are the model's: log entry 2.) -/
def Obligations.ResetState : Prop :=
  State.reset.pending = [] ∧ State.reset.dev.count = 0 ∧ State.reset.dev.mem.cells = [] ∧ State.reset.dev.sent = [] ∧
    (∀ (o : ObjDef) (a b c : Nat), State.reset.dev.val o a b c = o.default a b c) ∧
    (∀ i : Nat, State.reset.dev.port i = {}) ∧ (∀ e : Nat, State.reset.dev.eng e = {}) ∧ (∀ c : Nat, State.reset.dev.core c = {}) ∧
    (∀ k : Nat, State.reset.dev.bundle k = {}) ∧ State.reset.dev.dict.txns = [] ∧ State.reset.dev.dict.log = []

/-- The count of State.reset is a 64-bit number, its memory is canonical, its objects are a map, and every command of its
(empty) queue is well formed. -/
def Obligations.ResetInvariant : Prop :=
  State.reset.Inv ∧ State.reset.queueOk = true

/-- From every state whose count is a 64-bit number, whose memory has its canonical form (addresses strictly rising, no byte
listed that reads as an unlisted one does) and whose objects are a map, whatever the command at the front of the queue, the next
state is such a state too. -/
def Obligations.InvariantKept : Prop :=
  ∀ s t : State, s.Inv → step s = .next t → t.Inv

/-- For every command and every state, exec answers a next state: no command ends in a fault or a refusal. The queue is as
before, exactly the command's cycles have passed, and no free value that has been used is used again (log entry 3). -/
def Obligations.EveryCommandCompletes : Prop :=
  ∀ (c : Instr) (s : State), ∃ t : State, exec c s = .next t ∧ t.pending = s.pending ∧ t.dev.ns = s.dev.ns + c.dt ∧
    s.dev.free ≤ t.dev.free

/-- From a state whose count is a 64-bit number, a command outside the list of Instr.quiet (every detector, timer, frame,
record, read, boot, JTAG and mirror command that neither commits objects, nor stores to memory, nor resets the device) advances
the count by exactly 4 ticks for each of its cycles, modulo 2^64, and every byte of memory reads as before. -/
def Obligations.QuietCommandsFrame : Prop :=
  ∀ (c : Instr) (s t : State), s.dev.count < 2 ^ 64 → c.quiet = true → exec c s = .next t →
    t.dev.count = (s.dev.count + 4 * c.dt) % 2 ^ 64 ∧ ∀ a : Nat, Memory.get t.dev.mem.cells a = Memory.get s.dev.mem.cells a

/-- A run of as many steps as there are commands before r in the queue answers a next state whose queue is r: the commands are
taken in their order, one for each step, and no command adds to or takes from the queue. (The queue is the model's own: log
entry 1.) -/
def Obligations.CommandsRunInOrder : Prop :=
  ∀ (l r : List Instr) (s : State), ∃ t : State, Host.Core.run Sys2Proof.core l.length { s with pending := l ++ r } = .next t ∧ t.pending = r

/-- When every waiting command is an instance of its row, so is every waiting command after the step. -/
def Obligations.QueueStaysWellFormed : Prop :=
  ∀ s t : State, s.queueOk = true → step s = .next t → t.queueOk = true

/-- When MEM_WRITE of n bytes at an address answers a next state, take any byte that lies in no 64-byte line which a waiting
write touches (a write lets what waits go on where it can: log entry 30). Where it also lies outside the lines that the n bytes
touch, it reads as before. Where none of those lines lies raw from the checker test or disturbed, and the access itself finds no
changed symbol, it reads as before when it lies outside the n bytes, and as the request's byte or as before (where the request
was refused, waits or was stopped by a check) when it is one of them; in a line with a changed symbol the other bytes are
written back as the code has put them right. -/
def Obligations.MemoryWriteFrame : Prop :=
  let away : Nat → Nat → Nat → Prop := fun x a n => x < a / 64 * 64 ∨ (a + n + 63) / 64 * 64 ≤ x
  ∀ (dt : Nat) (addr : Fin (2 ^ 44)) (req : MemReq) (find : LineFind) (data : List Byte) (s t : State),
    let d := s.dev.pass dt
    exec (.memoryWrite dt addr req find data) s = .next t →
    ∀ x : Nat, (∀ y ∈ d.mem.deferred, y.write = true → away x y.addr y.data.length) →
      (away x addr.val data.length → Memory.get t.dev.mem.cells x = Memory.get s.dev.mem.cells x) ∧
      (find.flips = [] → (∀ line : Nat, addr.val < 64 * line + 64 → 64 * line < addr.val + data.length →
          SMap.find d.mem.raw line = none ∧ SMap.find d.mem.upset line = none) →
        ((x < addr.val ∨ addr.val + data.length ≤ x) → Memory.get t.dev.mem.cells x = Memory.get s.dev.mem.cells x) ∧
        (∀ i : Nat, i < data.length → x = addr.val + i → Memory.get t.dev.mem.cells x = data.getD i 0 ∨
          Memory.get t.dev.mem.cells x = Memory.get s.dev.mem.cells x))

/-- An occurrence of an object that has been given a value reads as that value, and every occurrence with another key, of the
same object or of another, reads as before; the count, the memory and everything but the objects are as before. -/
def Obligations.ObjectsHoldWhatIsPut : Prop :=
  ∀ (d : Dev) (o p : ObjDef) (v : Val) (a b c x y z : Nat),
    (d.put o v a b c).val o a b c = v ∧
    (p.key x y z ≠ o.key a b c → (d.put o v a b c).val p x y z = d.val p x y z) ∧
    (d.put o v a b c) = { d with objs := (d.put o v a b c).objs }

/-- Making an entry appends it to the Logbook under the next ENTRY_SEQ and the present boot count, the newest 65,536 entries
stay, ENTRY_SEQ goes on by 1 modulo 2^32, the entry's layout has 64 bytes, and no object of the dictionary and no byte of memory
changes. -/
def Obligations.LogbookRing : Prop :=
  ∀ (d : Dev) (e : LogEntry),
    let e' := { e with seq := d.dict.logSeq, boot := d.nat O.identityBootCount, flags := Nat.lor e.flags (if d.side = 1 then 8 else 0) }
    (d.logEntry e).dict.log = newest 65536 (d.dict.log ++ [e']) ∧ (d.logEntry e).dict.log.length ≤ 65536 ∧
    (d.logEntry e).dict.log.getLast? = some e' ∧ (d.logEntry e).dict.logSeq = (d.dict.logSeq + 1) % 2 ^ 32 ∧
    e'.bytes.length = 64 ∧ (d.logEntry e).objs = d.objs ∧ (d.logEntry e).mem = d.mem

/-- A record that is made joins those of its port that wait, with the port's SOURCE, behind every one that it does not stand
before and in front of the first that it stands before (by step of the count, TICK, FINE and kind). A record that leaves settle
marking bears the port's next SEQ, which then goes on by 1 modulo 2^32; its TYPE, TICK, FINE, session and source are unchanged,
its payload too unless it is a gap record, and bits [31:11] of its FLAGS are zero; it stands last among the port's held records.
Neither changes another port. -/
def Obligations.RecordsTakeSequence : Prop :=
  (∀ (d : Dev) (era q p : Nat) (r : Rec),
      let i := 4 * q + p
      let e := d.enterIn era q p r
      (∃ (l m : List Staging) (x : Staging), (d.port i).stage = l ++ m ∧ (e.port i).stage = l ++ x :: m ∧ x.era = era ∧
        x.r = { r with source := d.source q p, port := i } ∧ d.ns < x.due ∧
        (∀ y ∈ l, beforeIn x.era x.r y.era y.r = false) ∧ (∀ y : Staging, m.head? = some y → beforeIn x.era x.r y.era y.r = true)) ∧
      (∀ j : Nat, j ≠ i → e.port j = d.port j)) ∧
    (∀ (d : Dev) (i : Nat) (r : Rec),
      let y := d.place i r
      y.1.seq = (d.port i).seq ∧ (y.2.port i).seq = ((d.port i).seq + 1) % 2 ^ 32 ∧ y.1.source = r.source ∧ y.1.session = r.session ∧
      y.1.type = r.type ∧ y.1.tick = r.tick ∧ y.1.fine = r.fine ∧ (r.type ≠ 0x11 → y.1.payload = r.payload) ∧ y.1.flags < 2 ^ 11 ∧
      (y.2.port i).held = (d.port i).held ++ [y.1] ∧ (∀ j : Nat, j ≠ i → y.2.port j = d.port j))

/-- When a record FIFO's packets each hold records of one session, and exceed the packet size only where they hold one record,
the FIFO that takes a further record, or finds no room for it, is such a FIFO too. -/
def Obligations.PacketRules : Prop :=
  ∀ (f : Fifo) (bank psize ns : Nat) (r : Rec), f.ok psize → (f.intake bank psize ns r).2.ok psize

/-- The header of a block is what its first level says once stuffed levels are discarded. A lane that is not locked and has
counted no header is locked after l blocks with valid headers, l at most 64, exactly where l is 64. On a lane that is not
locked, a block with a valid header counts one more, and one with another header takes the run back to nothing and does not
lock. -/
def Obligations.SpapaxBlockLock : Prop :=
  let header : SpxLane → List Nat → Nat := fun x levels => grayPair ((destuff x.levels levels).2.1.headD 0)
  (∀ (x : SpxLane) (lane ns : Nat) (l : List (List Nat)), x.locked = false → x.good = 0 → l.length ≤ 64 →
      let after : Nat → SpxLane := fun k => (l.take k).foldl (fun (y : SpxLane) b => (y.block lane b ns).1) x
      (∀ k : Nat, k < l.length → header (after k) (l.getD k []) = 1 ∨ header (after k) (l.getD k []) = 2) →
      ((after l.length).locked = true ↔ l.length = 64)) ∧
    (∀ (x : SpxLane) (lane ns : Nat) (levels : List Nat), x.locked = false →
      (header x levels = 1 ∨ header x levels = 2 → (x.block lane levels ns).1.good = x.good + 1) ∧
      (header x levels ≠ 1 → header x levels ≠ 2 → x.good < 64 →
        (x.block lane levels ns).1.good = 0 ∧ (x.block lane levels ns).1.locked = false))

/-- At an interface that the device has, NOC_TIMEOUT adds one to NoC.Timeouts (below its last value) and answers the initiator
with a bus error; a response under that tag that follows at once is discarded, sends nothing and adds one to NoC.LateResponses.
A response whose tag has not timed out goes to the initiator, and NoC.MaxWait is raised to the age of its oldest flit. -/
def Obligations.NetworkTimeout : Prop :=
  ∀ (dt n tag : Nat) (h_n : n < 640) (h_tag : tag < 4096) (ok : Bool) (birth : Fin 65536) (s : State), niUsed n = true →
    let d := s.dev.pass dt
    (∃ t u : State, exec (.nocTimeout dt ⟨n, h_n⟩ ⟨tag, h_tag⟩) s = .next t ∧ exec (.nocResponse 0 ⟨n, h_n⟩ ⟨tag, h_tag⟩ ⟨ok, birth⟩) t = .next u ∧
      (d.nat O.noCTimeouts < 2 ^ 32 - 1 → t.dev.nat O.noCTimeouts = d.nat O.noCTimeouts + 1) ∧
      t.dev.sent = d.sent ++ [.noc n false []] ∧
      (d.nat O.noCLateResponses < 2 ^ 32 - 1 → u.dev.nat O.noCLateResponses = d.nat O.noCLateResponses + 1) ∧ u.dev.sent = t.dev.sent) ∧
    (tag ∉ (d.ni n).late → exec (.nocResponse dt ⟨n, h_n⟩ ⟨tag, h_tag⟩ ⟨ok, birth⟩) s =
      s.goesTo ((d.peak O.noCMaxWait (d.flitAge birth)).send (.noc n ok [])))

/-- Outside Integrity Halt and the recovery monitor, with fewer than 64 unanswered requests of the origin: where slot k is the
lowest of the 8 that no transaction holds, BEGIN_TXN opens a transaction of that origin in slot k whose number has k in bits
[2:0] and in bits [31:3] the slot's count of BEGIN operations, which is never 0, and answers with that number; where all 8 are
held it answers TXN_FULL and opens none. -/
def Obligations.BeginIssuesTransaction : Prop :=
  ∀ (dt : Nat) (og : Origin) (s : State), let d := s.dev.pass dt
    d.boot.monitor = false → d.halted = false → d.unanswered (originCode og) < 64 →
    (∀ k : Nat, k < 8 → (∀ j : Nat, j < k → d.dict.txns.any (fun t => t.slot == some j) = true) →
      d.dict.txns.any (fun t => t.slot == some k) = false →
      ∃ (t : State) (n : Nat), exec (.beginTxn dt og) s = .next t ∧ 0 < n ∧ n < 2 ^ 29 ∧
        n = (if SMap.getD d.dict.counts k 0 + 1 < 2 ^ 29 then SMap.getD d.dict.counts k 0 + 1 else 1) ∧ SMap.getD t.dev.dict.counts k 0 = n ∧
        t.dev.dict.txns = d.dict.txns ++ [{ slot := some k, txn := 8 * n + k, origin := originCode og, sinceNs := d.ns }] ∧
        t.dev.sent = d.sent ++ [.answer (originCode og) 0 (leBytes 4 (8 * n + k))] ∧ t.dev.objs = d.objs) ∧
    ((∀ j : Nat, j < 8 → d.dict.txns.any (fun t => t.slot == some j) = true) →
      ∃ t : State, exec (.beginTxn dt og) s = .next t ∧ t.dev.dict.txns = d.dict.txns ∧ t.dev.sent = d.sent ++ [.answer (originCode og) 7 []] ∧
        t.dev.objs = d.objs)

/-- In Integrity Halt (and outside the recovery monitor) WRITE, DESCRIBE, BEGIN, COMMIT and ROLLBACK of every origin, and READ
of anything but the identity and the Integrity.Halt objects or from another origin than the Vane ports and JTAG, answer HALTED
and change nothing else but the number of requests served. -/
def Obligations.HaltAnswersHalted : Prop :=
  ∀ (dt : Nat) (og : Origin) (s : State), let d := s.dev.pass dt
    let answered := s.goesTo (({ d with dict := { d.dict with replyNo := d.dict.replyNo + 1 } }).send (.answer (originCode og) 0xB []))
    d.boot.monitor = false → d.halted = true →
    (∀ (txn index sub type : Nat) (value : List Byte), exec (.write dt og txn index sub type value) s = answered) ∧
    (∀ index sub : Nat, exec (.describe dt og index sub) s = answered) ∧
    exec (.beginTxn dt og) s = answered ∧
    (∀ (txn : Nat) (tick : Option Nat), exec (.commit dt og txn tick) s = answered) ∧
    (∀ txn : Nat, exec (.rollback dt og txn) s = answered) ∧
    (∀ txn index sub offset length : Nat,
      (¬(0x1000 ≤ index ∧ index ≤ 0x10FF) ∧ index ≠ 0x6100) ∨ (og ≠ .vaneA ∧ og ≠ .vaneB ∧ og ≠ .jtag) →
      exec (.read dt og txn index sub offset length) s = answered)

/-- A request of two or more items one of which is BEGIN, COMMIT or ROLLBACK is answered with RANGE for every item and nothing
else is done but that the idle time of the open transaction it names, if any, begins anew (where the request is served at all:
outside Integrity Halt, below the bound of unanswered requests). The items of a request are served in item order: serving a list
is serving its first part and then, on what that leaves, the rest. Every item has its own answer, whatever the others answer. -/
def Obligations.ControlOperationsStandAlone : Prop :=
  (∀ (d : Dev) (r : Reply) (l : List ReqItem), d.halted = false → d.unanswered r.origin < 64 → 1 < l.length →
      (∃ it ∈ l, it.op = 4 ∨ it.op = 5 ∨ it.op = 6) →
      let e : Dev := { d with dict := { d.dict with replyNo := d.dict.replyNo + 1 } }
      d.request r l = (match e.namedTxn r.origin r.txn with
        | some (t : Txn) => if t.state = TxnState.open_ then e.swapTxn t { t with sinceNs := e.ns } else e
        | none => e).sendReply
        { r with items := l.map (fun (it : ReqItem) => { op := it.op, status := 4, index := it.index, sub := it.sub }) } d.count) ∧
    (∀ (n og : Nat) (named : Bool) (l m : List ReqItem) (s : Served),
      serveItems n og named (l ++ m) s = serveItems n og named m (serveItems n og named l s)) ∧
    (∀ (n og : Nat) (named : Bool) (l : List ReqItem) (s : Served),
      (serveItems n og named l s).items.length = s.items.length + l.length ∧
      (serveItems n og named l s).items.take s.items.length = s.items)

/-- For a corrected error on wire w of a bundle in service: the mark of the wire is set where the corrections within the last
second, this one included, are more than 16, and otherwise every mark is as before; no mark is ever taken back, the bundle's
state is as before, and other bundles do not change. -/
def Obligations.SuspectWires : Prop :=
  ∀ (dt edge dir b w : Nat) (h_edge : edge < 18) (h_dir : dir < 2) (h_b : b < 64) (h_w : w < 34) (both : Bool) (s : State),
    let d := s.dev.pass dt
    let k := bundleKey edge dir b
    let times := (d.bundle k).times.filter (fun e => decide (d.ns < e.2 + 1000000000)) ++ [(w, d.ns)]
    b < edgeBundles edge → (d.bundle k).state ≠ 3 → d.boot.links = true →
    ∃ t : State, exec (.duaxisFrameError dt ⟨edge, h_edge⟩ ⟨dir, h_dir⟩ ⟨b, h_b⟩ (some ⟨w, h_w⟩) both) s = .next t ∧
      (16 < (times.filter (fun e => e.1 == w)).length → bitOf (t.dev.suspects k) w = true) ∧
      ((times.filter (fun e => e.1 == w)).length ≤ 16 → t.dev.suspects k = d.suspects k) ∧
      (∀ i : Nat, bitOf (d.suspects k) i = true → bitOf (t.dev.suspects k) i = true) ∧
      (t.dev.bundle k).state = (d.bundle k).state ∧ (t.dev.bundle k).corrected = (d.bundle k).corrected + 1 ∧
      (∀ j : Nat, j ≠ k → t.dev.bundle j = d.bundle j ∧ t.dev.suspects j = d.suspects j)

/-- EKIC_WRITE at a core leaves bit i of ekip, for i from 0 to 32, set exactly where it was set once the command's cycles have
passed and the write does not name it, or where line i occurs in the same cycle; no other core changes, and no object of the
dictionary. -/
def Obligations.InterruptClear : Prop :=
  ∀ (dt c bits : Nat) (h_c : c < 16) (arriving : List (Fin 32)) (s : State),
    let d := s.dev.pass dt
    ∃ t : State, exec (.ekicWrite dt ⟨c, h_c⟩ bits arriving) s = .next t ∧
      (∀ i : Nat, i < 33 → (bitOf (t.dev.core c).ekip i = true ↔
        (bitOf (d.core c).ekip i = true ∧ bitOf bits i = false) ∨ ∃ l ∈ arriving, l.val = i)) ∧
      (∀ j : Nat, j ≠ c → t.dev.core j = d.core j) ∧ t.dev.objs = d.objs

/-- With EventRouter.Latched at its 192 bytes, an occurrence of event ev below 1,536 leaves bit ev set where the event has
occurred fewer than 15 times at the present count in the present nanosecond; otherwise Latched stays as it is and the occurrence
is carried into the next nanosecond, with its tick. In either case every bit that was set stays set, and the object keeps its
192 bytes, whatever the routes of the event lead to. -/
def Obligations.EventsAreLatched : Prop :=
  ∀ (d : Dev) (ev : Nat), (d.octs O.eventRouterLatched).length = 192 → ev < 1536 →
    (d.pulseOf ev none d.count < 15 → octBit ((d.occur ev).octs O.eventRouterLatched) ev = true) ∧
    (15 ≤ d.pulseOf ev none d.count → (d.occur ev).octs O.eventRouterLatched = d.octs O.eventRouterLatched ∧
      (d.occur ev).events.carry = d.events.carry ++ [(d.nsAt d.count + 1, { ev := ev, tick := (d.count + 4) % 2 ^ 64 })]) ∧
    (∀ i : Nat, octBit (d.octs O.eventRouterLatched) i = true → octBit ((d.occur ev).octs O.eventRouterLatched) i = true) ∧
    ((d.occur ev).octs O.eventRouterLatched).length = 192

/-- For an address of HBM, with half n, o the distance from the base b of the half, c = (o div 1024) mod 64: the address lies at
stack 4n + c div 16, channel c mod 16 of it, and offset (o div 65536) * 1024 + o mod 1024, where that channel is not ABSENT, and
nowhere where it is. Consecutive blocks of 1 KiB of a half rotate over its 64 channels. Every offset is below 2.25 GiB, every
offset below 2.25 GiB of every channel of every stack belongs to an address, and to only one. -/
def Obligations.HbmAddressDecode : Prop :=
  let size := 144 * 2 ^ 30
  let c : Nat → Nat := fun o => o / 1024 % 64
  let stack : Nat → Nat → Nat := fun n o => 4 * n + c o / 16
  let channel : Nat → Nat := fun o => c o % 16
  let offset : Nat → Nat := fun o => o / 65536 * 1024 + o % 1024
  (∀ (d : Dev) (n o : Nat), n < 2 → o < size →
    d.locate (n * size + o) = (if d.chState (8 + 16 * stack n o + channel o) = 0 then none else some (8 + 16 * stack n o + channel o, offset o))) ∧
    (∀ (n o : Nat), o < size → c (o + 1024) = (c o + 1) % 64 ∧ stack n o < 4 * n + 4 ∧ channel o < 16 ∧ offset o < 9 * 2 ^ 28) ∧
    (∀ (n k ch off : Nat), k < 4 → ch < 16 → off < 9 * 2 ^ 28 →
      ∃ o : Nat, (o < size ∧ stack n o = 4 * n + k ∧ channel o = ch ∧ offset o = off) ∧
        ∀ o' : Nat, o' < size → stack n o' = 4 * n + k → channel o' = ch → offset o' = off → o' = o)

/-- Between any two of the 160 routers, the route of either order leads from the first to the second without leaving the grid,
has as many hops as their columns and rows differ, which is at most 24, and no list of hops that leads there is shorter. Order
XY first runs along the row and then along the column, order YX the other way round, each straight on. Hop i of the route lies
in bits [3i+2:3i] of ROUTE, and EJECT follows the last. -/
def Obligations.RoutesAreMinimal : Prop :=
  ∀ order src dst : Nat, src < 160 → dst < 160 →
    let l := routeHops order src dst
    walk src l = some dst ∧
    l.length = (max (routerCol src) (routerCol dst) - min (routerCol src) (routerCol dst)) + (max (routerRow src) (routerRow dst) - min (routerRow src) (routerRow dst)) ∧
    l.length ≤ 24 ∧ (∀ m : List Nat, walk src m = some dst → l.length ≤ m.length) ∧
    (∃ a b x y : Nat, (x = 2 ∨ x = 4) ∧ (y = 1 ∨ y = 3) ∧
      l = (if order = 0 then List.replicate a x ++ List.replicate b y else List.replicate b y ++ List.replicate a x)) ∧
    (∀ i : Nat, i < 24 → routeField l / 2 ^ (3 * i) % 8 = l.getD i 0)

/-- Where flits contend, the arbiter grants one of them, and no contender has a higher urgency; none of the same urgency has a
greater age; and of those with the same urgency and age none follows the input granted last more closely. The input right behind
the one granted last is the first in turn. The urgency of a flit is ClassBase + age div AgeStep of its class, at most 15. -/
def Obligations.GustGrantsTheFirst : Prop :=
  ∀ (n last : Nat) (l : List Contender), l ≠ [] →
    (∃ w : Contender, gust n last l = some w ∧ w ∈ l ∧
      ∀ x ∈ l, x.urgency ≤ w.urgency ∧ (x.urgency = w.urgency → x.age ≤ w.age) ∧
        (x.urgency = w.urgency → x.age = w.age → turn n last w.port ≤ turn n last x.port)) ∧
    (last < n → turn n last ((last + 1) % n) = 0) ∧
    (∀ (d : Dev) (k age : Nat), d.urgency k age = min (d.nat O.noCClassBase 0 0 k + age / d.nat O.noCAgeStep 0 0 k) 15)

/-- Where a transmit channel's state is not RUNNING, or its port already sends a unit, or the device is stopped, TX_UNIT_START
lets only time pass: no unit goes onto the wire. -/
def Obligations.UnitsOnlyWhenRunning : Prop :=
  ∀ (dt q p pos : Nat) (h_q : q < 36) (h_p : p < 4) (h_pos : pos < 1024) (s : State),
    let d := s.dev.pass dt
    d.nat O.txState q p ≠ 2 ∨ (d.txch (4 * q + p)).wire.isSome = true ∨ d.stopped = true →
    exec (.txUnitStart dt ⟨q, h_q⟩ ⟨p, h_p⟩ ⟨pos, h_pos⟩) s = s.goesTo d

/-- For words of 1 to 64 bits and every word: read with its check bits it is clean; with any one of its data or check bits
changed the decoder corrects it and returns the word; with any two of them changed it is uncorrectable and no data is returned.
A 64-bit word carries 8 check bits. This holds whichever columns of odd weight the code takes: the picks are free values (log
entry 37). -/
def Obligations.SramCodeCorrects : Prop :=
  let flipData : Nat → Nat → Nat → Nat := fun n v p => if p < n then Nat.xor v (2 ^ p) else v
  let flipCheck : Nat → Nat → Nat → Nat := fun n c p => if p < n then c else Nat.xor c (2 ^ (p - n))
  hsiaoBits 64 = 8 ∧
    ∀ n v : Nat, 1 ≤ n → n ≤ 64 → v < 2 ^ n →
      hsiaoDecode n v (hsiaoCheck n v) = (.clean, v) ∧
      (∀ p : Nat, p < n + hsiaoBits n → hsiaoDecode n (flipData n v p) (flipCheck n (hsiaoCheck n v) p) = (.corrected, v)) ∧
      (∀ p q : Nat, p < q → q < n + hsiaoBits n →
        hsiaoDecode n (flipData n (flipData n v p) q) (flipCheck n (flipCheck n (hsiaoCheck n v) p) q) = (.uncorrectable, 0))

/-- For every state and every operand, each of PARITY_BROADCAST, REPLICA_REALIGN, TIME_MARKER_INTERVAL, PPS_EDGE, PTP_SYNC,
DISCIPLINE_MEASUREMENT, REFERENCE_LOSS, HOLDOVER_LIMIT, DISCIPLINE_MODE_SET, TIMEBASE_SET answers a next state: the one written
out here, where d is the block after the command's cycles. Where the conditions that the rules give for the command hold, that
state has the command's effect; where they do not, only the cycles have passed. The queue is as it was. -/
def Obligations.TimeBaseCommands : Prop :=
  ∀ (dt : Nat) (s : State),
    let d := s.dev.pass dt
    (∀ (seen : List (Fin 37 × Int)),
      exec (.parityBroadcast dt seen) s = s.goesTo (
        let ios := seen.any (fun e => e.1.val == 0 && decide (1 < e.2.natAbs)) || (d.replica 0).faulty
        seen.foldl (fun d e => if ios && 19 ≤ e.1.val then d else d.compareReplica e.1.val e.2) d)) ∧
    (∀ (r : Nat) (h_r : r < 37),
      exec (.replicaRealign dt ⟨r, h_r⟩) s = s.goesTo (
        let x := d.replica r
        d.when x.faulty (fun d =>
          let d := d.setReplica r {}
          let d := if r = 0 then (upTo 18).foldl (fun d i => d.setReplica (19 + i) {}) d else d
          d.markers (fun q => if r = 0 then 18 ≤ q else d.base (r - 1) == q) 4 x.faultTick))) ∧
    (exec (.timeMarkerInterval dt) s = s.goesTo (
      let iv := d.nat O.timeMarkerInterval
      d.when (iv != 0 && d.time.markerNs + 1000000 * iv ≤ d.ns) (fun d =>
        ({ d with time := { d.time with markerNs := d.ns } }).markers (fun _ => true) 1 d.refTick))) ∧
    (∀ (pos : Nat) (h_pos : pos < 1024),
      exec (.ppsEdge dt ⟨pos, h_pos⟩) s = s.goesTo (
        d.when (d.nat O.timeDisciplineMode == 1) (fun d =>
          let close := match d.time.ppsNs with
            | some t => decide (d.ns < t + 500000000)
            | none => false
          if close then d.inc O.timeDisciplinePpsFaults
          else
            let t : Int := (d.count + pos / 256 : Nat) * 256 + (pos % 256 : Nat) - d.int O.timeDisciplinePpsDelay
            let m := t % ppsSpan
            let d := d.sampleIn (if 2 * m < ppsSpan then m else m - ppsSpan) (d.count + pos / 256)
            { d with time := { d.time with ppsNs := some d.ns } }))) ∧
    (∀ (pos domain : Nat) (m : PtpMsg) (h_pos : pos < 1024) (h_domain : domain < 256),
      exec (.ptpSync dt ⟨pos, h_pos⟩ ⟨⟨domain, h_domain⟩, m⟩) s = s.goesTo (
        d.when (d.nat O.timeDisciplineMode == 2 && domain == d.nat O.timeDisciplinePtpDomain) (fun d =>
          let t : Int := 256 * (d.count : Int) + pos
          let x := d.time.ptp
          match m with
          | .sync seq twoStep origin corr logInterval =>
            let d := { d with time := { d.time with interval := logInterval, refNs := some d.ns, ptp := { x with seq := seq, sync := none, wait := some (t, corr) } } }
            (if twoStep then d else d.ptpSynced (origin + corr) t).ptpRequests
          | .followUp seq origin corr =>
            match x.wait with
            | none => d
            | some (t2, c) => d.when (seq == x.seq) (fun d => d.ptpSynced (origin + corr + c) t2)
          | .delayReq _ => d
          | .delayResp seq receive corr =>
            match x.sync, x.sent with
            | some (t1, t2), some t3 => d.when (seq == x.reqSeq) (fun d => d.ptpDelay (pathDelay t1 t2 t3 (receive - corr)))
            | _, _ => d
          | .pdelayReq seq => d.ptpSend (.pdelayResp seq false t 0)
          | .pdelayResp seq twoStep receipt corr =>
            match x.peerSent with
            | none => d
            | some t1 => d.when (seq == x.reqSeq) (fun d =>
              if twoStep then { d with time := { d.time with ptp := { x with peer := some (receipt - corr, t) } } }
              else d.ptpDelay ((t - t1 - corr) / 2))
          | .pdelayFollowUp seq origin corr =>
            match x.peerSent, x.peer with
            | some t1, some (t2, t4) => d.when (seq == x.reqSeq) (fun d => d.ptpDelay (pathDelay t1 t2 (origin + corr) t4))
            | _, _ => d))) ∧
    (exec (.disciplineMeasurement dt) s = s.goesTo (
      let mode := d.nat O.timeDisciplineMode
      match d.time.sample with
      | none => d
      | some off =>
        if mode = 0 then d
        else if mode = 2 && 4000000 * 256 < off.natAbs then
          let d := ({ d with time := { d.time with sample := none, consec := 0 } }).refReturn
          d.setInt O.timeDisciplinePtpCoarseOffset (off.tdiv 256)
        else
          let d := { d with time := { d.time with lastMeas := some d.time.sampleTick,
                                                  sample := if mode = 2 then some off else none } }
          let d := if mode = 2 then d.setInt O.timeDisciplinePtpCoarseOffset 0 else d
          d.measured off true)) ∧
    (exec (.referenceLoss dt) s = s.goesTo (
      let st := d.nat O.timeDisciplineState
      d.when ((st == 1 || st == 2) && d.refLost) (fun d =>
        ({ d with time := { d.time with holdNs := some d.ns, sample := none } }).discipline 3))) ∧
    (exec (.holdoverLimit dt) s = s.goesTo (
      match d.time.holdNs with
      | none => d
      | some t =>
        d.when (d.nat O.timeDisciplineState == 3 && t + 1000000000 * d.nat O.timeDisciplineHoldoverLimit ≤ d.ns) (fun d =>
          ({ d with time := { d.time with holdNs := none, byLimit := true } }).discipline 0))) ∧
    (∀ (og : Origin) (mode : Nat),
      exec (.disciplineModeSet dt og mode) s = s.goesTo (d.commitNow og [(O.timeDisciplineMode.key 0 0 0, .num mode)])) ∧
    (∀ (og : Origin) (value : Nat),
      exec (.timebaseSet dt og value) s = s.goesTo (d.commitNow og [(O.timeBaseSet.key 0 0 0, .num value)]))

/-- For every state and every operand, each of LOS_ASSERT, LOS_DEASSERT, LOL_ASSERT, LOL_DEASSERT, ALIGNMENT_GAINED,
ALIGNMENT_LOST, UP_DEBOUNCE_EXPIRY, DOWN_DEBOUNCE_EXPIRY, FLAP_HOLD_EXPIRY, REFCLK_STATUS_CHANGE answers a next state: the one
written out here, where d is the block after the command's cycles. Where the conditions that the rules give for the command
hold, that state has the command's effect; where they do not, only the cycles have passed. The queue is as it was. -/
def Obligations.LaneCommands : Prop :=
  ∀ (dt : Nat) (s : State),
    let d := s.dev.pass dt
    (∀ (q k : Nat) (h_q : q < 36) (h_k : k < 4),
      exec (.losAssert dt ⟨q, h_q⟩ ⟨k, h_k⟩) s = s.goesTo (
        d.when (d.rxOn q && !bitOf (d.laneStat (4 * q + k)) 0) (fun d => (losAssertEffect q k d).linkLoss q 1))) ∧
    (∀ (q k : Nat) (h_q : q < 36) (h_k : k < 4),
      exec (.losDeassert dt ⟨q, h_q⟩ ⟨k, h_k⟩) s = s.goesTo (
        d.when (bitOf (d.laneStat (4 * q + k)) 0) (fun d =>
          let i := d.portOfLane q k
          let d := d.setLaneBit (4 * q + k) 0 false
          let still := (d.lanesOf (i / 4) (i % 4)).any (fun l => bitOf (d.laneStat l) 0)
          let d := if still then d else d.updPort i (fun a => { a with idleNs := none })
          (d.recheckLane (4 * q + k)).relock (i / 4) (i % 4)))) ∧
    (∀ (q k : Nat) (h_q : q < 36) (h_k : k < 4),
      exec (.lolAssert dt ⟨q, h_q⟩ ⟨k, h_k⟩) s = s.goesTo (
        d.when (d.rxOn q && !bitOf (d.laneStat (4 * q + k)) 1) (fun d => (lolAssertEffect q k d).linkLoss q 2))) ∧
    (∀ (q k : Nat) (h_q : q < 36) (h_k : k < 4),
      exec (.lolDeassert dt ⟨q, h_q⟩ ⟨k, h_k⟩) s = s.goesTo (
        d.when (bitOf (d.laneStat (4 * q + k)) 1) (fun d =>
          let i := d.portOfLane q k
          ((d.setLaneBit (4 * q + k) 1 false).recheckLane (4 * q + k)).relock (i / 4) (i % 4)))) ∧
    (∀ (q k skew : Nat) (h_q : q < 36) (h_k : k < 4),
      exec (.alignmentGained dt ⟨⟨q, h_q⟩, ⟨k, h_k⟩⟩ skew) s = s.goesTo (
        let i := d.portOfLane q k
        let eth := bitsOf (d.nat O.portStandard (i / 4) (i % 4)) 7 4 == 1
        d.when (d.rxOn q && !bitOf (d.laneStat (4 * q + k)) 2 && (!eth || skew ≤ 180000)) (fun d =>
          let i := d.portOfLane q k
          ((d.setLaneBit (4 * q + k) 2 true).recheckLane (4 * q + k)).relock (i / 4) (i % 4)))) ∧
    (∀ (q k : Nat) (h_q : q < 36) (h_k : k < 4),
      exec (.alignmentLost dt ⟨q, h_q⟩ ⟨k, h_k⟩) s = s.goesTo (
        d.when (bitOf (d.laneStat (4 * q + k)) 2) (fun d =>
          let i := d.portOfLane q k
          ((d.setLaneBit (4 * q + k) 2 false).recheckLane (4 * q + k)).unlock (i / 4) (i % 4)))) ∧
    (∀ (q p : Nat) (h_q : q < 36) (h_p : p < 4),
      exec (.upDebounceExpiry dt ⟨q, h_q⟩ ⟨p, h_p⟩) s = s.goesTo (
        match (d.port (4 * q + p)).upNs with
        | none => d
        | some t =>
          d.when (d.plainPort q p && d.nat O.portState q p == 0 && t + 1000 * d.nat O.portUpDebounce q p ≤ d.ns)
            (fun d => d.goUp q p))) ∧
    (∀ (q p : Nat) (h_q : q < 36) (h_p : p < 4),
      exec (.downDebounceExpiry dt ⟨q, h_q⟩ ⟨p, h_p⟩) s = s.goesTo (
        match (d.port (4 * q + p)).downNs with
        | none => d
        | some t =>
          d.when (d.plainPort q p && t + 1000 * d.nat O.portDownDebounce q p ≤ d.ns)
            (fun d => (d.goDown q p (d.downCause q p)).recheck q p))) ∧
    (∀ (q p : Nat) (h_q : q < 36) (h_p : p < 4),
      exec (.flapHoldExpiry dt ⟨q, h_q⟩ ⟨p, h_p⟩) s = s.goesTo (
        match (d.port (4 * q + p)).flapNs with
        | none => d
        | some t =>
          d.when (t + 1000000000 ≤ d.ns) (fun d => ((d.updPort (4 * q + p) (fun a => { a with flapNs := none })).recheck q p).spxResume q))) ∧
    (∀ (q status : Nat) (h_q : q < 36) (h_status : status < 3),
      exec (.refclkStatusChange dt ⟨q, h_q⟩ ⟨status, h_status⟩) s = s.goesTo (
        d.when (d.nat O.powerDomainState 0 0 (32 + q / 3) == 1) (fun d =>
          let d := if status = 1 && d.role q = 4 && (SMap.find d.pins.refNs q).isNone then
              { d with pins := { d.pins with refNs := SMap.ins d.pins.refNs q d.ns } }
            else if status = 1 then d else { d with pins := { d.pins with refNs := SMap.del d.pins.refNs q } }
          ((d.setNat O.quadRefClkStatus status q).recheckQuad q).refHold (d.base q))))

/-- For every state and every operand, each of PCIE_RATE_CHANGE, RETUNE_LIMIT_EXPIRY, PCIE_IDLE_LIMIT_EXPIRY, QUAD_LAYOUT_SET,
PORT_MODE_SET, PORT_DIRECTION_SET, LANE_EQ_SET, SETTLE_WINDOW_EXPIRY, EYESCAN_START, EYESCAN_POINT answers a next state: the one
written out here, where d is the block after the command's cycles. Where the conditions that the rules give for the command
hold, that state has the command's effect; where they do not, only the cycles have passed. The queue is as it was. -/
def Obligations.PortCommands : Prop :=
  ∀ (dt : Nat) (s : State),
    let d := s.dev.pass dt
    (∀ (q p speed width : Nat) (reversed : Bool) (inverted : Nat) (h_q : q < 36) (h_p : p < 4) (h_speed : speed < 7),
      exec (.pcieRateChange dt ⟨q, h_q⟩ ⟨p, h_p⟩ ⟨speed, h_speed⟩ ⟨width, reversed, inverted⟩) s = s.goesTo (
        d.when (d.role q == 1 && d.hasPort q p && d.nat O.portStandard q p == 0x20) (fun d =>
          let d := (d.setNat O.portPcieSpeed speed q p).setNat O.portPcieWidth width q p
          let d := d.updPort (4 * q + p) (fun a => { a with reversed := reversed, inverted := inverted })
          d.when (d.portUp q p) (fun d =>
            let d := (d.lanesOf q p).foldl (fun d l => d.setLaneBit l 2 false) d
            let d := d.updPort (4 * q + p) (fun a => { a with retuneNs := some d.ns, downNs := none })
            d.settleCause q p 2 (2 ^ (layoutWidth (d.nat O.quadLayout q)) - 1))))) ∧
    (∀ (q p : Nat) (h_q : q < 36) (h_p : p < 4),
      exec (.retuneLimitExpiry dt ⟨q, h_q⟩ ⟨p, h_p⟩) s = s.goesTo (
        match (d.port (4 * q + p)).retuneNs with
        | none => d
        | some t =>
          d.when (d.portUp q p && t + 1000 * d.nat O.portRetuneLimit q p ≤ d.ns) (fun d => (d.goDown q p 2).recheck q p))) ∧
    (∀ (q p : Nat) (h_q : q < 36) (h_p : p < 4),
      exec (.pcieIdleLimitExpiry dt ⟨q, h_q⟩ ⟨p, h_p⟩) s = s.goesTo (
        match (d.port (4 * q + p)).idleNs with
        | none => d
        | some t =>
          d.when (d.portUp q p && t + 1000 * d.nat O.portPcieIdleLimit q p ≤ d.ns) (fun d => (d.goDown q p 1).recheck q p))) ∧
    (∀ (og : Origin) (layouts : List (Fin 36 × Nat)),
      exec (.quadLayoutSet dt og layouts) s = s.goesTo (d.commitNow og (layouts.map (fun l => (O.quadLayout.key l.1 0 0, .num l.2))))) ∧
    (∀ (og : Origin) (q p : Nat) (standard rate : Option Nat) (h_q : q < 36) (h_p : p < 4),
      exec (.portModeSet dt og ⟨q, h_q⟩ ⟨p, h_p⟩ standard rate) s = s.goesTo (d.commitNow og (modeWrites q p standard rate))) ∧
    (∀ (og : Origin) (q p : Nat) (dir : Bool) (h_q : q < 36) (h_p : p < 4),
      exec (.portDirectionSet dt og ⟨q, h_q⟩ ⟨p, h_p⟩ dir) s = s.goesTo (d.commitNow og [(O.portDirection.key q p 0, .num (b2n dir))])) ∧
    (∀ (og : Origin) (q k : Nat) (mode : Option Nat) (ctle : Option (Nat × Nat)) (taps : List (Fin 12 × Int)) (ffe : List (Fin 5 × Int)) (h_q : q < 36) (h_k : k < 4),
      exec (.laneEqSet dt og ⟨q, h_q⟩ ⟨k, h_k⟩ mode ctle taps ffe) s = s.goesTo (d.commitNow og (eqWrites q k mode ctle taps ffe))) ∧
    (∀ (q p : Nat) (h_q : q < 36) (h_p : p < 4),
      exec (.settleWindowExpiry dt ⟨q, h_q⟩ ⟨p, h_p⟩) s = s.goesTo (
        match (d.port (4 * q + p)).settle with
        | none => d
        | some s =>
          match s.endNs, s.lock with
          | some e, some _ => d.when (decide (e ≤ d.ns)) (fun d =>
              d.endSettle q p 0 (((d.count : Int) - 4 * (d.ns - e : Nat)) % 2 ^ 64).toNat)
          | _, _ => d)) ∧
    (∀ (og : Origin) (q : Nat) (h_q : q < 36),
      exec (.eyescanStart dt og ⟨q, h_q⟩) s = s.goesTo (d.commitNow og [(O.quadEyeScanStart.key q 0 0, .num 1)])) ∧
    (∀ (q errors : Nat) (h_q : q < 36),
      exec (.eyescanPoint dt ⟨q, h_q⟩ errors) s = s.goesTo (
        d.when (d.nat O.quadEyeScanStatus q == 1) (fun d =>
          let x := SMap.getD d.links.eyes q {}
          let entry := leBytes 1 x.eye ++ leBytes 1 (unsigned 8 x.h) ++ leBytes 1 (unsigned 8 x.v) ++
            leBytes 5 (min errors 0xFFFFFFFFFF)
          let h := x.h + x.hStride
          let v := if 63 < h then x.v + x.vStride else x.v
          let y := { x with entries := x.entries ++ [entry], h := if 63 < h then -64 else h, v := v }
          let d := { d with links := { d.links with eyes := SMap.setD d.links.eyes q {} y } }
          let d := d.inc O.quadEyeScanPoints q
          if 63 < v then d.setNat O.quadEyeScanStatus 2 q else d)))

/-- For every state and every operand, each of SPAPAX_ENABLE, RECEIVER_DETECT_PULSE, SPAPAX_BLOCK, SPAPAX_STAGE_TIMEOUT,
SPAPAX_BACKOFF_EXPIRY, LINK_MANAGEMENT_FRAME, SPAPAX_FRAME, SPAPAX_FRAME_SEND, SPAPAX_ACK_TIMEOUT, SPAPAX_ALIGN_INSERT answers a
next state: the one written out here, where d is the block after the command's cycles. Where the conditions that the rules give
for the command hold, that state has the command's effect; where they do not, only the cycles have passed. The queue is as it
was. -/
def Obligations.SpapaxCommands : Prop :=
  ∀ (dt : Nat) (s : State),
    let d := s.dev.pass dt
    (∀ (og : Origin) (q : Nat) (on : Bool) (h_q : q < 36),
      exec (.spapaxEnable dt og ⟨q, h_q⟩ on) s = s.goesTo (d.commitNow og [(O.quadSpapaxEnable.key q 0 0, .num (b2n on))])) ∧
    (∀ (q : Nat) (termination : Bool) (h_q : q < 36),
      exec (.receiverDetectPulse dt ⟨q, h_q⟩ termination) s = s.goesTo (
        d.when (!d.stopped && d.role q == 5 && d.stage q == 1) (fun d =>
          let d := d.send (.pulse q)
          if termination && (d.spxPorts q).all (fun i => (d.lanesOf q (i % 4)).all (fun l => !bitOf (d.laneStat l) 0)) then d.enterStage q 2 else d))) ∧
    (∀ (q p lane : Nat) (levels : List (Fin 4)) (h_q : q < 36) (h_p : p < 4) (h_lane : lane < 8),
      exec (.spapaxBlock dt ⟨⟨q, h_q⟩, ⟨p, h_p⟩⟩ ⟨lane, h_lane⟩ levels) s = s.goesTo (
        let i := 4 * q + p
        let native := d.role q == 5 && 1 ≤ d.stage q
        let tap := d.role q == 1 && d.nat O.portStandard q p == 0x30
        d.when (!d.stopped && (native || tap) && d.hasPort q p && lane < d.spxWidth i) (fun d =>
          let x := d.spx i
          let r := (SMap.getD x.lanes lane {}).block lane ((levels.map (fun l => l.val))) d.ns
          let d := d.setSpx i { x with lanes := SMap.setD x.lanes lane {} r.1 }
          let l := (d.lanesOf q p).getD lane 0
          if r.2 then
            let d := ((d.setLaneBit l 1 true).inc O.laneLolCount (l / 4) (l % 4)).abortEye l
            if native then d.spxLost q 2 else d.recheckLane l
          else if native then
            let y := (d.spx i).frames (d.spxWidth i) (r.1.fifo.length)
            let d := y.2.foldl (fun d f => d.frameIn i f) (d.setSpx i y.1)
            d.stageAdvance q
          else d.setSpx i { d.spx i with lanes := SMap.setD x.lanes lane {} { r.1 with fifo := [] } }))) ∧
    (∀ (q : Nat) (freq : Bool) (h_q : q < 36),
      exec (.spapaxStageTimeout dt ⟨q, h_q⟩ freq) s = s.goesTo (
        let st := d.stage q
        d.when (!d.stopped && 1 ≤ st && st ≤ 4 && (d.spx (4 * q)).stageNs + stageBound st ≤ d.ns) (fun d =>
          d.stageFail q (match st with
            | 1 => 1 | 2 => 2 | 3 => if freq then 4 else 3 | _ => if (d.spxPorts q).all (fun i => (d.spx i).capsSeen) then 6 else 5)))) ∧
    (∀ (q : Nat) (h_q : q < 36),
      exec (.spapaxBackoffExpiry dt ⟨q, h_q⟩) s = s.goesTo (
        match (d.spx (4 * q)).backoffNs with
        | none => d
        | some t => d.when (!d.stopped && decide (t ≤ d.ns) && d.on O.quadSpapaxEnable q) (fun d => d.detectStage q))) ∧
    (∀ (q p : Nat) (m : LinkMsg) (h_q : q < 36) (h_p : p < 4),
      exec (.linkManagementFrame dt ⟨⟨q, h_q⟩, ⟨p, h_p⟩⟩ m) s = s.goesTo (
        let i := 4 * q + p
        d.when (!d.stopped && d.role q == 5 && d.hasPort q p && d.stage q == 4) (fun d => (d.setSpx i (d.spx i).accept).linkMessage i m))) ∧
    (∀ (q p : Nat) (l : List Byte) (h_q : q < 36) (h_p : p < 4),
      exec (.spapaxFrame dt ⟨⟨q, h_q⟩, ⟨p, h_p⟩⟩ l) s = s.goesTo (d.when (!d.stopped && d.hasPort q p) (fun d => d.frameIn (4 * q + p) l))) ∧
    (∀ (q p : Nat) (h_q : q < 36) (h_p : p < 4),
      exec (.spapaxFrameSend dt ⟨⟨q, h_q⟩, ⟨p, h_p⟩⟩) s = s.goesTo (
        let i := 4 * q + p
        d.when (!d.stopped && d.role q == 5 && d.hasPort q p && 4 ≤ d.stage q) (fun d =>
          let x := d.spx i
          if x.nak then (d.setSpx i { x with nak := false }).sendAck i true
          else
            match x.waiting with
            | [] => d.sendAck i false
            | k :: ks =>
              let b := x.build k
              if x.held + 4 + b.length ≤ 262144 then
                (d.setSpx i { x with waiting := ks, txSeq := (x.txSeq + 1) % 2 ^ 32,
                                     txWrap := if x.txSeq = 2 ^ 32 - 1 then x.txWrap + 1 else x.txWrap,
                                     replay := x.replay ++ [{ seq := x.txSeq, bytes := b, sentNs := d.ns }] }).sendFrame i b
              else d))) ∧
    (∀ (q p : Nat) (h_q : q < 36) (h_p : p < 4),
      exec (.spapaxAckTimeout dt ⟨⟨q, h_q⟩, ⟨p, h_p⟩⟩) s = s.goesTo (
        let i := 4 * q + p
        d.when (!d.stopped && d.hasPort q p && 4 ≤ d.stage q && (d.spx i).replay.any (fun k => decide (k.sentNs + 20000 ≤ d.ns))) (fun d => d.replay i (fun _ => true)))) ∧
    (∀ (q p : Nat) (h_q : q < 36) (h_p : p < 4),
      exec (.spapaxAlignInsert dt ⟨⟨q, h_q⟩, ⟨p, h_p⟩⟩) s = s.goesTo (
        let i := 4 * q + p
        d.when (!d.stopped && d.role q == 5 && d.hasPort q p && 3 ≤ d.stage q) (fun d =>
          let w := d.spxWidth i
          let x := SpxAux.idle w (16383 - (d.spx i).rows) (d.spx i)
          let y := x.alignRow w
          (d.setSpx i y.1).send (.spapax i [] y.2))))

/-- For every state and every operand, each of HOST_LINK_DOWN, PCIE_COMPLETION_TIMEOUT, PCIE_SURPRISE_DOWN, PCIE_RETRAIN,
PCIE_INBOUND_REQUEST, VANE_FRAME, VANE_LOCKOUT_EXPIRY, VANE_LINK_CHANGE answers a next state: the one written out here, where d
is the block after the command's cycles. Where the conditions that the rules give for the command hold, that state has the
command's effect; where they do not, only the cycles have passed. The queue is as it was. -/
def Obligations.LinkPartnerCommands : Prop :=
  ∀ (dt : Nat) (s : State),
    let d := s.dev.pass dt
    (exec (.hostLinkDown dt) s = s.goesTo (d.when d.hasHost (fun d => d.dropMailboxes.pcieDown 0))) ∧
    (∀ (q ni : Nat) (h_q : q < 36),
      exec (.pcieCompletionTimeout dt ⟨⟨q, h_q⟩, ni⟩) s = s.goesTo (
        d.when (d.role q == 3 || d.role q == 4) (fun d => (d.inc O.pcieCompletionTimeouts q).send (.noc ni false [])))) ∧
    (∀ (q : Nat) (h_q : q < 36),
      exec (.pcieSurpriseDown dt ⟨q, h_q⟩) s = s.goesTo (
        d.when (d.role q == 4) (fun d =>
          let d := d.surpriseDown q
          ((upTo 64).foldl (fun d c =>
            if d.nat O.storeCtlState c != 0 && d.nat O.storeCtlQuad c = q then
              (d.setCtl c { d.ctl c with downed := true }).failAll c
            else d) d).storeTick))) ∧
    (∀ (q : Nat) (h_q : q < 36),
      exec (.pcieRetrain dt ⟨q, h_q⟩) s = s.goesTo (
        match SMap.find d.links.retrainNs q with
        | none => d
        | some t =>
          d.when (d.role q == 4 && d.refGood q && !d.flapHeld (4 * q) && decide (t + 1000000 * d.nat O.pcieRetrainInterval q ≤ d.ns)) (fun d =>
            let d := if (SMap.find d.links.retried q).isSome then d.inc O.pcieSurpriseDownCount q else d
            let d := (d.setNat O.pcieLtssmState 1 q).setNat O.portState 1 q 0
            let d := (d.send (.perst q true)).send (.perst q false)
            { d with links := { d.links with retrainNs := SMap.ins d.links.retrainNs q d.ns, retried := SMap.ins d.links.retried q 1 } }))) ∧
    (∀ (q addr len : Nat) (h_q : q < 36),
      exec (.pcieInboundRequest dt ⟨q, h_q⟩ addr len) s = s.goesTo (
        d.when (d.role q == 4) (fun d =>
          let ok := match SMap.find d.links.assigned q with
            | some (b, n) => b ≤ addr && addr + len ≤ b + n
            | none => false
          if ok then d
          else
            let d := { d with links := { d.links with refused := SMap.ins d.links.refused q (SMap.getD d.links.refused q 0 + 1) } }
            d.send (.refuse q addr)))) ∧
    (∀ (v : Nat) (k : VaneKind) (vlan : Nat) (dst target : List Byte) (h_v : v < 2),
      exec (.vaneFrame dt ⟨v, h_v⟩ k ⟨vlan, dst, target⟩) s = s.goesTo (
        d.when (d.on O.vaneLinkState v) (fun d =>
          if vlan == d.nat O.vaneVlanId v && d.vaneAccepts v k dst then
            let asked := (d.vaneOwn v).has (if target.isEmpty then dst else target)
            match k with
            | .arp => if asked then d.send (.frame v (d.vaneOwn v) .arp) else d
            | .nd => if asked then d.send (.frame v (d.vaneOwn v) .nd) else d
            | .echo => d.send (.frame v (d.vaneOwn v) .echo)
            | .frag id => d.fragment v id
            | _ => d
          else d.inc O.vaneDroppedFrames v))) ∧
    (∀ (v : Nat) (src : List Byte) (h_v : v < 2),
      exec (.vaneLockoutExpiry dt ⟨v, h_v⟩ src) s = s.goesTo (
        { d with links := { d.links with sources := d.links.sources.map (fun x =>
            if x.vane == v && x.source == src && x.untilNs.any (fun t => decide (t ≤ d.ns)) then { x with untilNs := none, fails := [] }
            else x) } })) ∧
    (∀ (v : Nat) (up : Bool) (h_v : v < 2),
      exec (.vaneLinkChange dt ⟨v, h_v⟩ up) s = s.goesTo (
        d.when (!up || (d.vaneMode v != 0 && !d.boot.monitor)) (fun d => d.setNat O.vaneLinkState (b2n up) v)))

/-- For every state and every operand, each of UNIT_RECEIVED, FOLD_MAX_SPAN_EXPIRY, RECORD_INGEST, LOSS_RUN_TIMEOUT,
ADMISSION_CYCLE, FLUSH_AGE_EXPIRY, CAPTURE_FLUSH, RING_WRITE answers a next state: the one written out here, where d is the
block after the command's cycles. Where the conditions that the rules give for the command hold, that state has the command's
effect; where they do not, only the cycles have passed. The queue is as it was. -/
def Obligations.CapturePathCommands : Prop :=
  ∀ (dt : Nat) (s : State),
    let d := s.dev.pass dt
    (∀ (q p : Nat) (u : RxUnit) (h_q : q < 36) (h_p : p < 4),
      exec (.unitReceived dt ⟨q, h_q⟩ ⟨p, h_p⟩ u) s = s.goesTo (
        if d.role q = 6 then d.when (d.hasPort q p && d.rxOn q) (fun d => d.rawData q p u)
        else
          d.when (d.hasPort q p && d.role q == 1 && d.portUp q p) (fun d =>
            let d := (d.add O.portFecCorrected u.cwFixed q p).add O.portFecUncorrected u.cwBad q p
            let d := d.updPort (4 * q + p) (fun a => { a with
              eios := u.eios, flit := a.flit || u.kind == .flit,
              unitEnd := 4 * d.ns + (u.pos.val + 256 * u.ticks + u.fine.val + 255) / 256 })
            d.when (d.observing q p && d.recorded q p u.kind) (fun d => d.takeUnit q p u)))) ∧
    (∀ (q p lane : Nat) (h_q : q < 36) (h_p : p < 4),
      exec (.foldMaxSpanExpiry dt ⟨q, h_q⟩ ⟨p, h_p⟩ lane) s = s.goesTo (
        let span := 1000 * d.nat O.captureEngineFoldMaxSpan (dieOf q)
        let due := fun (f : FoldRun) => f.lane == lane && decide (f.startNs + span ≤ d.ns) && f.count != 0
        match (d.port (4 * q + p)).folds.find? due with
        | none => d
        | some f =>
          let g : FoldRun := { f with count := 0, tick := f.endTick, fine := f.fine, startNs := d.ns, contd := true }
          (d.updPort (4 * q + p) (fun a => { a with folds := updateFirst due (fun _ => g) a.folds })).closeFold q p f)) ∧
    (∀ (q p : Nat) (h_q : q < 36) (h_p : p < 4),
      exec (.recordIngest dt ⟨q, h_q⟩ ⟨p, h_p⟩) s = s.goesTo (
        match (d.port (4 * q + p)).held with
        | [] => d
        | r :: rs => d.when (!d.stopped) (fun d => (d.updPort (4 * q + p) (fun a => { a with held := rs })).arrive q p r))) ∧
    (∀ (q p : Nat) (h_q : q < 36) (h_p : p < 4),
      exec (.lossRunTimeout dt ⟨q, h_q⟩ ⟨p, h_p⟩) s = s.goesTo (
        match (d.port (4 * q + p)).loss with
        | none => d
        | some l => d.when (decide (l.openNs + 1000000 ≤ d.ns)) (fun d => d.closeDue q p))) ∧
    (∀ (e : Nat) (struck : List (Fin 37 × Bool)) (h_e : e < 2),
      exec (.admissionCycle dt ⟨e, h_e⟩ struck) s = s.goesTo (
        d.when (!d.stopped) (fun d =>
          let quads := d.tapBases e
          let d := struck.foldl (fun d (k : Fin 37 × Bool) =>
            if k.1.val = 36 || quads.contains k.1.val then
              (if k.2 then d.sramFixed (captureInstance e k.1 false) else d.strikeBuffer e k.1.val)
            else d) d
          let x := d.earn quads
          let d := x.1.shareSurplus quads x.2
          let d := quads.foldl (fun d q =>
            let r := d.admitLoop q true (d.ingest q).q.length (d.ingest q) (d.fifo q)
            (r.1.setIngest q r.2.1).setFifo q (r.1.quiesceFlush e r.2.1 r.2.2.swap)) d
          let d := d.admitLink e
          (upTo 72).foldl (fun d j => d.settlePort (72 * e + j)) d))) ∧
    (∀ (e : Nat) (h_e : e < 2),
      exec (.flushAgeExpiry dt ⟨e, h_e⟩) s = s.goesTo (
        let age := 1000 * d.nat O.captureEngineFlushAge e
        let d := (upTo 18).foldl (fun d i => d.setFifo (18 * e + i) ((d.fifo (18 * e + i)).age age d.ns)) d
        let x := d.eng e
        let d := d.setEng e { x with linkFifo := x.linkFifo.age age d.ns }
        match x.stage with
        | some p => if p.pkt.openNs + age ≤ d.ns then d.closeStage e 2 else d
        | none => d)) ∧
    (∀ (og : Origin) (e : Nat) (h_e : e < 2),
      exec (.captureFlush dt og ⟨e, h_e⟩) s = s.goesTo (d.commitNow og [(O.captureEngineFlush.key e 0 0, .num 1)])) ∧
    (∀ (e : Nat) (struck : List (Fin 37 × Bool)) (h_e : e < 2),
      exec (.ringWrite dt ⟨e, h_e⟩ struck) s = s.goesTo (
        d.when (!d.stopped) (fun d =>
          let d := (fifoList e).foldl (fun d q => d.setFifoAt e q ((d.fifoAt e q).turn q)) d
          let d := struck.foldl (fun d (q : Fin 37 × Bool) =>
            if q.1.val = 36 || dieOf q.1 = e then (if q.2 then d.sramFixed (captureInstance e q.1 true) else d.strikeFifo e q.1) else d) d
          d.orHold (fun d =>
          let x := d.eng e
          if x.flights.any (fun f => f.state == 1) then
            match x.flights.find? (fun f => f.state == 1 && d.flightClear e f) with
            | none => d
            | some f =>
              let r := d.ringPut e f.zero f.abs f.pkt
              r.2.setEng e { r.2.eng e with flights := updateFirst (fun g => g.abs == f.abs) (fun g => { g with ok := r.1, state := 0 }) x.flights }
          else
            match d.nextFifo e with
            | none => d
            | some (q, p) =>
              if !d.ringUp e then
                if x.held then d else (d.setEng e { x with held := true }).inc O.memRingStalls e
              else
                let size := d.ringSize e
                let pl := x.nextPlace size p.size
                let d := d.overwrite e (pl.1 + p.size)
                let d := if pl.2.1 then d.inc O.memRingWraps e else d
                let r := d.ringPut e pl.2.2 pl.1 p
                let f := r.2.fifoAt e q
                let d := r.2.setFifoAt e q { f with draining := f.draining.drop 1, flying := f.flying + 1 }
                let y := d.eng e
                d.setEng e { y with writeAbs := pl.1 + p.size, atEnd := (pl.1 + p.size) % size == 0, held := false,
                                    flights := y.flights ++ [{ fifo := q, abs := pl.1, zero := pl.2.2, pkt := p, ok := r.1 }] }))))

/-- For every state and every operand, each of RING_WRITE_ACK, FLOW_AGEING_VISIT, FLOW_CLEAR, CAPTURE_ENABLE, CAPTURE_DISABLE,
CAPTURE_QUIESCE, QUIESCE_COMPLETE, CAPTURE_RESUME answers a next state: the one written out here, where d is the block after the
command's cycles. Where the conditions that the rules give for the command hold, that state has the command's effect; where they
do not, only the cycles have passed. The queue is as it was. -/
def Obligations.CaptureControlCommands : Prop :=
  ∀ (dt : Nat) (s : State),
    let d := s.dev.pass dt
    (∀ (e : Nat) (ok : Bool) (h_e : e < 2),
      exec (.ringWriteAck dt ⟨e, h_e⟩ ok) s = s.goesTo (
        let x := d.eng e
        match x.flights.find? (fun f => f.state == 0) with
        | none => d
        | some f =>
          let set := fun (n : Nat) => updateFirst (fun (g : Flight) => g.abs == f.abs) (fun g => { g with state := n }) x.flights
          if ok && f.ok then
            let g := d.fifoAt e f.fifo
            let d := d.setEng e { x with flights := set 2 }
            let d := d.setFifoAt e f.fifo (Fifo.turn f.fifo { g with flying := g.flying - 1 })
            Dev.landAll e x.flights.length d
          else
            let d := if x.flights.any (fun g => g.state == 1) then d else d.inc O.memRingStalls e
            d.setEng e { x with flights := set 1 })) ∧
    (∀ (e : Nat) (hits : List (Fin 8)) (h_e : e < 2),
      exec (.flowAgeingVisit dt ⟨e, h_e⟩ hits) s = s.goesTo (
        let x := d.eng e
        let period := 1000000 * d.nat O.captureFlowScanPeriod e
        d.when (decide (x.scanNs + x.scanSet * period / 32768 ≤ d.ns)) (fun d =>
          let limit := 4000000 * d.nat O.captureFlowAgeLimit e
          let d := (upTo 8).foldl (fun d w =>
            let x := d.eng e
            let k := 8 * x.scanSet + w
            match SMap.find x.flow k with
            | none => d
            | some y =>
              if hits.any (fun h => h.val == w) then d.setEng e { x with flow := SMap.ins x.flow k { y with lastHit := d.count } }
              else if y.lastHit + limit < d.count then
                ((d.setEng e { x with flow := SMap.del x.flow k }).inc O.captureFlowAged e).occur (1476 + e)
              else d) d
          let x := d.eng e
          if x.scanSet = 32767 then d.setEng e { x with scanSet := 0, scanNs := x.scanNs + period }
          else d.setEng e { x with scanSet := x.scanSet + 1 }))) ∧
    (∀ (og : Origin) (e : Nat) (h_e : e < 2),
      exec (.flowClear dt og ⟨e, h_e⟩) s = s.goesTo (d.commitNow og [(O.captureFlowClear.key e 0 0, .num 1)])) ∧
    (∀ (og : Origin) (q p : Nat) (h_q : q < 36) (h_p : p < 4),
      exec (.captureEnable dt og ⟨q, h_q⟩ ⟨p, h_p⟩) s = s.goesTo (d.commitNow og [(O.capturePortEnable.key q p 0, .num 1)])) ∧
    (∀ (og : Origin) (q p : Nat) (h_q : q < 36) (h_p : p < 4),
      exec (.captureDisable dt og ⟨q, h_q⟩ ⟨p, h_p⟩) s = s.goesTo (d.commitNow og [(O.capturePortEnable.key q p 0, .num 0)])) ∧
    (∀ (og : Origin) (e : Nat) (h_e : e < 2),
      exec (.captureQuiesce dt og ⟨e, h_e⟩) s = s.goesTo (d.commitNow og [(O.captureEngineControl.key e 0 0, .num 1)])) ∧
    (∀ (e : Nat) (h_e : e < 2),
      exec (.quiesceComplete dt ⟨e, h_e⟩) s = s.goesTo (
        d.when (d.nat O.captureEngineState e == 1) (fun d =>
          let late := decide ((d.eng e).quiesceNs + 200000 ≤ d.ns) && d.ringStalled e
          let done := if late then d.arrived e else d.drained e
          let d := if late then d.quiesceDiscard e else d
          d.when done (fun d => if (d.eng e).resume then d.resumeNow e else d.setNat O.captureEngineState 2 e)))) ∧
    (∀ (og : Origin) (e : Nat) (h_e : e < 2),
      exec (.captureResume dt og ⟨e, h_e⟩) s = s.goesTo (d.commitNow og [(O.captureEngineControl.key e 0 0, .num 0)]))

/-- For every state and every operand, each of FRONT_EVALUATE, FRONT_TIMER_EXPIRY, FRONT_RUN, FRONT_IDLE, RETENTION_TRIGGER,
WINDOW_END_REACHED, CLOSE_LIMIT_EXPIRY, PROMOTE, NOTIFICATION, MSIX_MESSAGE answers a next state: the one written out here,
where d is the block after the command's cycles. Where the conditions that the rules give for the command hold, that state has
the command's effect; where they do not, only the cycles have passed. The queue is as it was. -/
def Obligations.FrontCommands : Prop :=
  ∀ (dt : Nat) (s : State),
    let d := s.dev.pass dt
    (∀ (n : Nat) (h_n : n < 16),
      exec (.frontEvaluate dt ⟨n, h_n⟩) s = s.goesTo (
        d.when (SMap.find d.events.evals n != some d.ns) (fun d =>
          let d := { d with events := { d.events with evals := SMap.ins d.events.evals n d.ns } }
          d.when (d.nat O.frontControl n == 1 && d.ownsFront n && SMap.find d.events.controls n != some d.ns) (fun d =>
            let ins := d.events.inputs.filter (fun x => x.n == n && x.ns == d.ns)
            let st := d.nat O.frontState n
            let word := fun b => d.nat O.frontBranch n 0 (4 * st + b)
            let reached := fun c => decide (d.nat O.frontCounterLimit n 0 c ≤ d.nat O.frontCounter n 0 c)
            let hit := fun b => branchTrue (word b) (fun i => ins.any (fun x => x.i == i)) (d.timerExpired n 0) (d.timerExpired n 1) (reached 0) (reached 1)
            match (upTo 4).find? hit with
            | none => d
            | some b =>
              let t : Taken := { n := n, b := b, word := word b, sel := (ins.filter (fun x => bitOf (word b) x.i)).map (fun x => x.occ) }
              { d with events := { d.events with taken := d.events.taken ++ [t] } })))) ∧
    (∀ (n t : Nat) (h_n : n < 16) (h_t : t < 2),
      exec (.frontTimerExpiry dt ⟨n, h_n⟩ ⟨t, h_t⟩) s = s.goesTo (
        match SMap.find d.events.timers (2 * n + t) with
        | none => d
        | some x => d.when (decide (x ≤ d.ns)) (fun d =>
          let d := d.setTimer n t none
          { d with events := { d.events with expired := SMap.ins d.events.expired (2 * n + t) x } }))) ∧
    (∀ (og : Origin) (n : Nat) (h_n : n < 16),
      exec (.frontRun dt og ⟨n, h_n⟩) s = s.goesTo (d.commitNow og [(O.frontControl.key n 0 0, .num 1)])) ∧
    (∀ (og : Origin) (n : Nat) (h_n : n < 16),
      exec (.frontIdle dt og ⟨n, h_n⟩) s = s.goesTo (d.commitNow og [(O.frontControl.key n 0 0, .num 0)])) ∧
    (∀ (og : Origin) (s0 : Nat) (h_s0 : s0 < 256),
      exec (.retentionTrigger dt og ⟨s0, h_s0⟩) s = s.goesTo (d.commitNow og [(O.retentionTrigger.key s0 0 0, .num 1)])) ∧
    (∀ (s0 : Nat) (h_s0 : s0 < 256),
      exec (.windowEndReached dt ⟨s0, h_s0⟩) s = s.goesTo (
        d.when (d.nat O.retentionState s0 == 1 && d.nat O.retentionWindowEnd s0 ≤ d.count) (fun d =>
          (d.setNat O.retentionState 2 s0).tryClose s0))) ∧
    (∀ (w : Nat) (h_w : w < 256),
      exec (.closeLimitExpiry dt ⟨w, h_w⟩) s = s.goesTo (d.tryClose w)) ∧
    (∀ (e : Nat) (busError : Option Nat) (h_e : e < 2),
      exec (.promote dt ⟨e, h_e⟩ busError) s = s.goesTo (
        d.when (!d.stopped) (fun d => d.orHold (fun d =>
          let d := (if e = 0 then d.streamLog else d).flushStage e
          let x := d.eng e
          match x.pkts.find? (fun p => (d.streamOpen p.session || !d.stageUp e) && p.ix.any (fun r => d.wanted e p r)) with
          | none => d
          | some p =>
            if !d.stageUp e then d.skipPkt e p
            else if !x.stageOut.isEmpty then d
            else
              let a := d.ringAddr e p.abs
              let h := d.fetch (niPromoter e) a 8 false
              let b := h.2.fetch (niPromoter e) (a + 8) (p.bytes - 8)
              if busError = some 0 || h.1.isNone then x.pkts.foldl (fun d p => d.skipPkt e p) h.2
              else match b.1 with
                | none => b.2.skipPkt e p
                | some body =>
                  if busError.isSome then b.2.skipPkt e p
                  else
                    let d := b.2
                    let rs := (recsOf p.ix.length body).zip p.ix
                    let want := p.ix.map (fun r => d.wanted e p r)
                    let whole := (p.ix.zip want).all (fun y => y.1.taken || y.2)
                    let src := if whole then [(p.abs, p.prev)] else []
                    let d := d.markTaken e p.abs ((p.ix.zip want).map (fun y => { y.1 with taken := y.1.taken || y.2 }))
                    let d := rs.foldl (fun (d : Dev) (y : Rec × RingIx) =>
                      if y.2.taken then d
                      else match d.spanOf e p.session p.abs y.2.type y.2.tick with
                        | some lo => d.promoteRec e p.session lo src y.1
                        | none => d) d
                    d.flushStage e)))) ∧
    (∀ (v : Nat) (h_v : v < 2),
      exec (.notification dt ⟨v, h_v⟩) s = s.goesTo (
        let target := if v = 0 then d.octs O.notifyTargetA else d.octs O.notifyTargetB
        let sent := (SMap.getD d.events.notified v []).filter (fun t => decide (d.ns < t + 1000000000))
        let due := ((upTo 1536).filter (fun ev =>
          let s := SMap.getD d.events.slots (v * 2048 + ev) {}
          s.count != 0 && (match s.sentNs with
            | some t => decide (t + 1000000 * d.nat O.notifyHoldoff ≤ d.ns)
            | none => true))).take 64
        d.when (d.on O.vaneLinkState v && target.any (fun b => b != 0) && sent.length < d.nat O.notifyMaxRate && !due.isEmpty) (fun d =>
          let items := due.flatMap (fun ev =>
            let s := SMap.getD d.events.slots (v * 2048 + ev) {}
            itemBytes 7 0 ev 0 0x0E 0 (leBytes 4 s.count ++ leBytes 8 s.first ++ leBytes 8 s.last))
          let seq := SMap.getD d.dict.portSeq v 0
          let d := d.sendPdu v (d.vaneOwn v) target (d.pdu v 3 0 0 0 seq 0 due.length items d.count)
          let d := due.foldl (fun d ev =>
            { d with events := { d.events with slots := SMap.ins d.events.slots (v * 2048 + ev) { sentNs := some d.ns } } }) d
          let d := { d with dict := { d.dict with portSeq := SMap.ins d.dict.portSeq v ((seq + 1) % 2 ^ 64) },
                            events := { d.events with notified := SMap.ins d.events.notified v (sent ++ [d.ns]) } }
          d.inc O.notifySent))) ∧
    (∀ (v : Nat) (h_v : v < 2048),
      exec (.msixMessage dt ⟨v, h_v⟩) s = s.goesTo (
        let ready := match SMap.find d.events.msixSent v with
          | some t => decide (t + 1000 * d.nat O.msixInterval (v / 128) 0 (v % 128) ≤ d.ns)
          | none => true
        d.when ((SMap.find d.events.msix v).isSome && !d.msixMasked v && bitOf d.events.msixControl 15 && d.hasHost && d.portUp 0 0 && ready) (fun d =>
          let d := { d with events := { d.events with msix := SMap.del d.events.msix v, msixSent := SMap.ins d.events.msixSent v d.ns } }
          d.send (.msix v (fieldAt (d.msixEntry v) 0 8) (fieldAt (d.msixEntry v) 8 4)))))

/-- For every state and every operand, each of TX_START, TX_STOP, TX_RESUME, TX_FORCE_DOWN, TX_ANCHOR, TX_UNIT_START,
TX_UNIT_END, TX_FETCH, HOOK_RETURN, HOOK_TIMEOUT, HOLD_WINDOW_EXPIRY answers a next state: the one written out here, where d is
the block after the command's cycles. Where the conditions that the rules give for the command hold, that state has the
command's effect; where they do not, only the cycles have passed. The queue is as it was. -/
def Obligations.TransmitCommands : Prop :=
  ∀ (dt : Nat) (s : State),
    let d := s.dev.pass dt
    (∀ (og : Origin) (q p : Nat) (h_q : q < 36) (h_p : p < 4),
      exec (.txStart dt og ⟨q, h_q⟩ ⟨p, h_p⟩) s = s.goesTo (d.commitNow og [(O.txControl.key q p 0, .num 1)])) ∧
    (∀ (og : Origin) (q p : Nat) (h_q : q < 36) (h_p : p < 4),
      exec (.txStop dt og ⟨q, h_q⟩ ⟨p, h_p⟩) s = s.goesTo (d.commitNow og [(O.txControl.key q p 0, .num 0)])) ∧
    (∀ (og : Origin) (q p : Nat) (h_q : q < 36) (h_p : p < 4),
      exec (.txResume dt og ⟨q, h_q⟩ ⟨p, h_p⟩) s = s.goesTo (d.commitNow og [(O.txControl.key q p 0, .num 2)])) ∧
    (∀ (og : Origin) (q p : Nat) (down : Bool) (h_q : q < 36) (h_p : p < 4),
      exec (.txForceDown dt og ⟨q, h_q⟩ ⟨p, h_p⟩ down) s = s.goesTo (d.commitNow og [(O.txForceDown.key q p 0, .num (b2n down))])) ∧
    (∀ (q p : Nat) (h_q : q < 36) (h_p : p < 4),
      exec (.txAnchor dt ⟨q, h_q⟩ ⟨p, h_p⟩) s = s.goesTo (
        let x := d.txch (4 * q + p)
        d.when (d.nat O.txState q p == 1 && !x.waitUp && x.anchor ≤ d.count) (fun d =>
          if d.portUp q p then ((d.setNat O.txState 2 q p).setNat O.txAnchorTick x.anchor q p).txFinish q p
          else d.setTx (4 * q + p) { x with waitUp := true }))) ∧
    (∀ (q p pos : Nat) (h_q : q < 36) (h_p : p < 4) (h_pos : pos < 1024),
      exec (.txUnitStart dt ⟨q, h_q⟩ ⟨p, h_p⟩ ⟨pos, h_pos⟩) s = s.goesTo (
        let x := d.txch (4 * q + p)
        let a := d.count * 256 + pos
        match x.queue with
        | [] => d
        | u :: us =>
          d.when (!d.stopped && d.nat O.txState q p == 2 && !x.stopping && x.wire.isNone && decide (u.s * 256 ≤ (a : Int)) && x.freeFine ≤ a) (fun d =>
            let d := d.setNat O.txPosition u.pos q p
            let y := { x with queue := us, wire := some u }
            if d.txLate q p a u.s then
              let n := (((a : Int) - u.s * 256 + 255) / 256).toNat
              let d := (d.inc O.txLateUnits q p).peak O.txMaxLate n q p
              if d.nat O.txLatePolicy q p = 1 then (d.add O.txShift n q p).setTx (4 * q + p) (y.shift n)
              else d.setTx (4 * q + p) y
            else d.setTx (4 * q + p) y))) ∧
    (∀ (q p : Nat) (h_q : q < 36) (h_p : p < 4),
      exec (.txUnitEnd dt ⟨q, h_q⟩ ⟨p, h_p⟩) s = s.goesTo (
        let x := d.txch (4 * q + p)
        match x.wire with
        | none => d
        | some u =>
          let std := d.nat O.portStandard q p
          let ifg := if ethMode std then (d.nat O.txMinIfg q p * 8 * 1024 + ethRate std - 1) / ethRate std else 0
          let d := (d.inc O.txUnitsSent q p).add O.txBytesSent u.bytes.length q p
          let d := d.setTx (4 * q + p) { x with wire := none, freeFine := d.count * 256 + ifg }
          let d := (d.send (.unit (4 * q + p) u.lane d.count u.bytes)).sendFill q p
          if x.stopping then d.txIdle q p else d.txFinish q p)) ∧
    (∀ (q p : Nat) (busError : Bool) (h_q : q < 36) (h_p : p < 4),
      exec (.txFetch dt ⟨q, h_q⟩ ⟨p, h_p⟩ busError) s = s.goesTo (
        let x := d.txch (4 * q + p)
        d.when (d.txActive q p && !x.ended && !x.stopping) (fun d => d.orHold (fun d =>
          let n := if d.nat O.txSource q p = 1 then d.fetchReplay q p busError else d.fetchPattern q p busError
          let n := if !(n.txch (4 * q + p)).ended && n.txSpent q p then n.txStop q p 0 none else n
          if (n.txch (4 * q + p)).level ≤ 262144 then n else d)))) ∧
    (∀ (q p : Nat) (v : HookVerdict) (h_q : q < 36) (h_p : p < 4),
      exec (.hookReturn dt ⟨q, h_q⟩ ⟨p, h_p⟩ v) s = s.goesTo (
        let i := 4 * q + p
        let x := d.txch i
        match x.hook with
        | [] => d
        | o :: os =>
          d.when (v.offer == o.no && o.ns + d.nat O.txHookBudget q p ≥ d.ns) (fun d =>
            let n := bitsOf v.word 23 0
            let d := d.setTx i { x with hook := os }
            if bitOf v.word 25 || n = 0 || 16384 < n then (d.inc O.txHookDrops q p).txFinish q p
            else
              let b := fit n v.bytes
              let u := { o.unit with s := o.unit.s + bitsOf v.word 63 32, bytes := if bitOf v.word 26 then b ++ ethFcs b else b }
              d.setTx i { x with hook := os, queue := x.queue ++ [u] }))) ∧
    (∀ (q p : Nat) (h_q : q < 36) (h_p : p < 4),
      exec (.hookTimeout dt ⟨q, h_q⟩ ⟨p, h_p⟩) s = s.goesTo (
        let i := 4 * q + p
        let x := d.txch i
        match x.hook with
        | [] => d
        | o :: os =>
          d.when (o.ns + d.nat O.txHookBudget q p < d.ns) (fun d =>
            ((d.setTx i { x with hook := os }).inc O.txHookTimeouts q p).txFinish q p))) ∧
    (∀ (q p : Nat) (h_q : q < 36) (h_p : p < 4),
      exec (.holdWindowExpiry dt ⟨q, h_q⟩ ⟨p, h_p⟩) s = s.goesTo (
        match (d.txch (4 * q + p)).holdNs with
        | none => d
        | some t => d.when (d.nat O.txState q p == 3 && t + 1000 * d.nat O.txHoldWindow q p < d.ns) (fun d => d.txFlush q p)))

/-- For every state and every operand, each of MEMORY_READ, MEMORY_WRITE, REENCRYPTION_LINE, REFRESH, MEMORY_TEMPERATURE_READ,
CA_PARITY_FAILURE answers a next state: the one written out here, where d is the block after the command's cycles. Where the
conditions that the rules give for the command hold, that state has the command's effect; where they do not, only the cycles
have passed. The queue is as it was. -/
def Obligations.MemoryCommands : Prop :=
  ∀ (dt : Nat) (s : State),
    let d := s.dev.pass dt
    (∀ (a : Nat) (r : MemReq) (f : LineFind) (n : Nat) (h_a : a < 2 ^ 44),
      exec (.memoryRead dt ⟨a, h_a⟩ r f n) s = s.goesTo ((d.disturb f).ask { addr := a, write := false, len := n, req := r, reply := .requester })) ∧
    (∀ (a : Nat) (r : MemReq) (f : LineFind) (l : List Byte) (h_a : a < 2 ^ 44),
      exec (.memoryWrite dt ⟨a, h_a⟩ r f l) s = s.goesTo ((d.disturb f).ask { addr := a, write := true, data := l, req := r, reply := .requester })) ∧
    (∀ (ch : Nat) (f : LineFind) (h_ch : ch < 136),
      exec (.reencryptionLine dt ⟨ch, h_ch⟩ f) s = s.goesTo (
        d.when (d.chState ch == 1 && !d.stopped && d.nat O.memLullState ≤ 1) (fun d =>
          let d := d.disturb f
          match d.nextLine ch with
          | none => d
          | some line =>
            let a := 64 * line
            let d := d.releaseTest line
            if d.zeroRead a ch then ((d.jobDone line).finishJob (regionOf a)).wakeAll
            else
              let off := ((d.locate a).map (fun x => x.2)).getD 0
              let l := d.lookLine line
              let c := (d.rowAccess ch off (some (a % 1024 != 960))).checkLine a ch 5 0xFFFE
              match c.1 with
              | .ok => (((((c.2.setMinor line 0).lay a l.plain).jobDone line).touch ch line 0).finishJob (regionOf a)).wakeAll
              | .err => (((c.2.poisonAdd ch line).jobDone line).finishJob (regionOf a)).wakeAll
              | .halt => c.2))) ∧
    (∀ (ch : Nat) (h_ch : ch < 136),
      exec (.refresh dt ⟨ch, h_ch⟩) s = s.goesTo (d.when (1 ≤ d.chState ch && d.chState ch ≤ 3) (fun d => d.setChan ch { d.chan ch with openRow := [] }))) ∧
    (∀ (ch : Nat) (reading : Option Int) (h_ch : ch < 136),
      exec (.memoryTemperatureRead dt ⟨ch, h_ch⟩ reading) s = s.goesTo (
        (sameSensor ch).foldl (fun d c =>
          d.when (1 ≤ d.chState c && d.chState c ≤ 3) (fun d =>
            let x := d.chan c
            let th : Int := d.chNat O.memChannelRefreshThreshold c
            match reading with
            | some t =>
              let d := (d.setInt O.memChannelTemperature t (chA c) (chB c)).setChan c { x with sensorNs := some d.ns, sensorDown := false }
              if th ≤ t then d.setCh O.memChannelRefreshDoubled c 1
              else if t ≤ th - 3 then d.setCh O.memChannelRefreshDoubled c 0 else d
            | none =>
              if x.sensorNs.getD 0 + 10000000 ≤ d.ns && !x.sensorDown then
                ((d.setCh O.memChannelRefreshDoubled c 1).incCh O.memChannelSensorFaults c).setChan c { x with sensorDown := true }
              else d)) d)) ∧
    (∀ (ch a command ni : Nat) (h_ch : ch < 136) (h_a : a < 2 ^ 44),
      exec (.caParityFailure dt ⟨ch, h_ch⟩ ⟨a, h_a⟩ command ni) s = s.goesTo (
        d.when (1 ≤ d.chState ch && d.chState ch ≤ 3 && (!d.stopped || (d.halted && d.nat O.integrityHaltTick == d.count))) (fun d =>
          (d.frost ch 2 command (if 3 ≤ command then 0xFFFF else ni) a).wakeAll)))

/-- For every state and every operand, each of LULL_ENTER, LULL_DRAINED, LULL_EXIT, LULL_RETRAIN_DONE, THAW, THAW_RETRAIN_DONE,
POISON_CLEAR answers a next state: the one written out here, where d is the block after the command's cycles. Where the
conditions that the rules give for the command hold, that state has the command's effect; where they do not, only the cycles
have passed. The queue is as it was. -/
def Obligations.LullCommands : Prop :=
  ∀ (dt : Nat) (s : State),
    let d := s.dev.pass dt
    (∀ (og : Origin),
      exec (.lullEnter dt og) s = s.goesTo (d.commitNow og [(O.memLullControl.key 0 0 0, .num 1)])) ∧
    (exec (.lullDrained dt) s = s.goesTo (
      d.when (d.nat O.memLullState == 1 && d.mem.deferred.isEmpty) (fun d =>
        let d := { d with mem := { d.mem with lullKeep := (d.nat O.memLullRetainHbm, d.nat O.memLullRetainDdr) } }
        let d := (upTo 136).foldl (fun d ch =>
          if d.chState ch = 1 then d.setCh O.memChannelState ch (if d.retains ch then 4 else 5) else d) d
        let d := (upTo 8).foldl (fun d h =>
          if bitOf (d.nat O.memLullRetainHbm) h then d else d.setNat O.powerDomainState 0 0 0 (44 + h)) d
        let d := (upTo 4).foldl (fun d j =>
          if d.retains (2 * j) || d.retains (2 * j + 1) then d else d.setNat O.powerDomainState 0 0 0 (52 + j)) d
        d.setNat O.memLullState (if d.on O.memLullControl then 2 else 3)))) ∧
    (∀ (og : Origin),
      exec (.lullExit dt og) s = s.goesTo (d.commitNow og [(O.memLullControl.key 0 0 0, .num 0)])) ∧
    (∀ (failed : List (Fin 136)),
      exec (.lullRetrainDone dt failed) s = s.goesTo (
        d.when (d.nat O.memLullState == 3) (fun d =>
          let gs := (d.mem.granules.map (fun e => e.1)) ++ (d.mem.slices.map (fun e => e.1 / 256))
          let gone := (gs.filter (fun g => !d.granuleSurvives g)).eraseDups
          let lost := fun (line : Nat) => gone.contains (granuleOf (64 * line))
          let d := { d with mem := { d.mem with granules := d.mem.granules.filter (fun e => !gone.contains e.1),
                                                slices := d.mem.slices.filter (fun e => !gone.contains (e.1 / 256)),
                                                minors := d.mem.minors.filter (fun e => !lost e.1),
                                                raw := d.mem.raw.filter (fun e => !lost e.1),
                                                upset := d.mem.upset.filter (fun e => !lost e.1) } }
          let d := d.scrap (fun a => gone.contains (granuleOf a))
          let d := (upTo 12).foldl (fun d j =>
            if d.nat O.powerDomainState 0 0 (44 + j) = 0 && d.domainUsed (44 + j) then d.setNat O.powerDomainState 1 0 0 (44 + j) else d) d
          let d := (upTo 136).foldl (fun d ch =>
            if d.chState ch = 4 || d.chState ch = 5 then
              let d := d.setCh O.memChannelState ch 1
              if failed.any (fun x => x.val == ch) then d.frost ch 3 4 0xFFFF 0 else d
            else d) d
          let d := ((gone.map (fun g => regionOf (65536 * g))).eraseDups).foldl Dev.renewRegion d
          d.setNat O.memLullState (if d.on O.memLullControl then 1 else 0)))) ∧
    (∀ (og : Origin) (ch : Nat) (h_ch : ch < 136),
      exec (.thaw dt og ⟨ch, h_ch⟩) s = s.goesTo (d.commitNow og [(O.memChannelThaw.key (chA ch) (chB ch) 0, .num 1)])) ∧
    (∀ (ch : Nat) (ok : Bool) (h_ch : ch < 136),
      exec (.thawRetrainDone dt ⟨ch, h_ch⟩ ok) s = s.goesTo (
        d.when (d.chState ch == 3) (fun d =>
          let d := d.setCh O.memChannelState ch 1
          if ok then
            let b := (d.chan ch).snap.bytes
            d.logNote 4 1 (b.take 16) ((b.drop 16).take 16) 0xFFFF
          else (d.incCh O.memChannelThawFailures ch).frost ch 3 4 0xFFFF 0))) ∧
    (∀ (og : Origin) (ch i : Nat) (h_ch : ch < 136) (h_i : i < 16),
      exec (.poisonClear dt og ⟨ch, h_ch⟩ ⟨i, h_i⟩) s = s.goesTo (d.commitNow og [(O.memChannelPoisonClear.key (chA ch) (chB ch) 0, .num i)]))

/-- For every state and every operand, each of LEAK_PERIOD, DRIZZLE_SCRUB, CHKTEST_WRITE_RAW, CHKTEST_READ_RAW,
CHKTEST_READ_DECODED, CHKTEST_DRAM_WRITE, CHKTEST_DRAM_READ answers a next state: the one written out here, where d is the block
after the command's cycles. Where the conditions that the rules give for the command hold, that state has the command's effect;
where they do not, only the cycles have passed. The queue is as it was. -/
def Obligations.IntegrityCommands : Prop :=
  ∀ (dt : Nat) (s : State),
    let d := s.dev.pass dt
    (exec (.leakPeriod dt) s = s.goesTo (
      d.when (d.mem.leakNs + 1000000 * d.nat O.integrityLeakPeriod ≤ d.ns) (fun d =>
        let bs := d.mem.buckets.foldl (fun m e => SMap.setD m e.1 {} { e.2 with level := e.2.level - 1 }) d.mem.buckets
        { d with mem := { d.mem with buckets := bs, leakNs := d.ns } }))) ∧
    (∀ (target : Sum (Nat × Nat) (Fin (2 ^ 44))) (sram : SramFind) (find : LineFind) (last : Bool),
      exec (.drizzleScrub dt target sram find last) s = s.goesTo (
        d.when (d.on O.drizzleEnable && !d.stopped) (fun d =>
          let d := d.disturb find
          let d := match target with
            | .inl (inst, word) => d.drizzleWord inst word sram
            | .inr a => match d.locate a with
              | some (ch, _) => d.sweepChannel ch
              | none => d
          let d := if last then { d with mem := { d.mem with sramSwept := true } } else d
          if d.mem.sramSwept && d.allSwept then
            let d := (upTo 136).foldl (fun d ch => d.setChan ch { d.chan ch with swept := false }) { d with mem := { d.mem with sramSwept := false } }
            (d.inc O.drizzleSweeps).occur 1497
          else d))) ∧
    (∀ (og : Origin),
      exec (.chktestWriteRaw dt og) s = s.goesTo (d.commitNow og [(O.chkTestOp.key 0 0 0, .num 1)])) ∧
    (∀ (og : Origin),
      exec (.chktestReadRaw dt og) s = s.goesTo (d.commitNow og [(O.chkTestOp.key 0 0 0, .num 2)])) ∧
    (∀ (og : Origin),
      exec (.chktestReadDecoded dt og) s = s.goesTo (d.commitNow og [(O.chkTestOp.key 0 0 0, .num 3)])) ∧
    (∀ (og : Origin) (line : Nat) (h_line : line < 2 ^ 44),
      exec (.chktestDramWrite dt og ⟨line, h_line⟩) s = s.goesTo (d.chkDram og line 4)) ∧
    (∀ (og : Origin) (line : Nat) (h_line : line < 2 ^ 44),
      exec (.chktestDramRead dt og ⟨line, h_line⟩) s = s.goesTo (d.chkDram og line 5))

/-- For every state and every operand, each of STORE_MOUNT, STORE_STOP, NVME_COMPLETION, ADMIN_TIMEOUT, IO_TIMEOUT,
CONTROLLER_FATAL, STAGE_DRAIN, DRAIN_AGE_EXPIRY, FLUSH_INTERVAL answers a next state: the one written out here, where d is the
block after the command's cycles. Where the conditions that the rules give for the command hold, that state has the command's
effect; where they do not, only the cycles have passed. The queue is as it was. -/
def Obligations.StoreCommands : Prop :=
  ∀ (dt : Nat) (s : State),
    let d := s.dev.pass dt
    (∀ (og : Origin) (ctls : List CtlFound) (nss : List NsFound),
      exec (.storeMount dt og ctls nss) s = s.goesTo (d.storeMount og ctls nss)) ∧
    (∀ (og : Origin),
      exec (.storeStop dt og) s = s.goesTo (d.commitNow og [(O.storeControl.key 0 0 0, .num 0)])) ∧
    (∀ (c cid : Nat) (fin : NvmeEnd) (data : List Byte) (dw3 : Nat) (h_c : c < 64),
      exec (.nvmeCompletion dt ⟨c, h_c⟩ cid fin data dw3) s = s.goesTo ((d.complete c cid fin data dw3).storeTick)) ∧
    (∀ (c : Nat) (h_c : c < 64),
      exec (.adminTimeout dt ⟨c, h_c⟩) s = s.goesTo (
        d.when (d.ctlUsed c && d.store.cmds.any (fun k => k.ctl == c && k.use.isAdmin && !k.unsent &&
            decide (k.startNs + 1000000 * d.nat O.storeAdminTimeout ≤ d.ns)))
          (fun d => ((d.inc O.storeCtlTimeouts c).ctlReset c).storeTick))) ∧
    (∀ (c cid : Nat) (h_c : c < 64),
      exec (.ioTimeout dt ⟨c, h_c⟩ cid) s = s.goesTo (
        let t := 1000000 * d.nat O.storeIoTimeout
        match d.store.cmds.find? (fun k => k.ctl == c && k.cid == cid && !k.use.isAdmin && !k.unsent) with
        | none => d
        | some k => match k.abortNs with
          | none => d.when (decide (k.startNs + t ≤ d.ns)) (fun d =>
              let d := { d with store := { d.store with cmds := updateFirst (fun j => j.ctl == c && j.cid == cid) (fun j => { j with abortNs := some d.ns }) d.store.cmds } }
              (d.inc O.storeCtlTimeouts c).nvme c 0 (.abort cid) 0 0 [])
          | some a => d.when (decide (a + t ≤ d.ns)) (fun d => (d.ctlReset c).storeTick))) ∧
    (∀ (c : Nat) (h_c : c < 64),
      exec (.controllerFatal dt ⟨c, h_c⟩) s = s.goesTo (d.when (d.ctlUsed c) (fun d => (d.ctlReset c).storeTick))) ∧
    (∀ (e : Nat) (h_e : e < 2),
      exec (.stageDrain dt ⟨e, h_e⟩) s = s.goesTo (
        d.when ((d.nat O.storeState == 2 || d.nat O.storeState == 3) && !d.stopped) (fun d => d.orHold (fun d =>
          let d := d.flushStage e
          let pos := SMap.getD d.store.take e 0
          (match (d.eng e).staged.find? (fun (p : StageIx) => decide (pos ≤ p.abs)) with
          | none => d
          | some p =>
            let s := p.session
            let past := fun (d : Dev) => { d with store := { d.store with take := SMap.ins d.store.take e (p.abs + p.bytes) } }
            if (d.strm s e).stalled then ((past d).add O.storeSessionDiscarded p.bytes s).release e
            else
              let r := d.fetch (niStore e) (d.nat O.memStageBase e + p.abs % d.nat O.memStageSize e) p.bytes
              match r.1 with
              | none => r.2
              | some bytes =>
                let d := r.2
                let fits := fun n => let x := d.ext n
                                     x.used + p.bytes ≤ dataArea && (x.subs.length < 2046 || x.sub.isSome) && (x.runsWith p).length ≤ 256
                match d.openOf s e with
                | some n => if fits n then d.drainInto s e n false p bytes else (d.closeExt n).drainNew s e p bytes
                | none => d.drainNew s e p bytes).storeTick)))) ∧
    (∀ (e s0 : Nat) (h_e : e < 2) (h_s0 : s0 < 256),
      exec (.drainAgeExpiry dt ⟨e, h_e⟩ ⟨s0, h_s0⟩) s = s.goesTo (
        match d.openOf s0 e with
        | none => d
        | some n =>
          let x := d.ext n
          d.when (!x.buf.isEmpty && decide (x.bufNs + 1000000 * d.nat O.storeDrainAge ≤ d.ns)) (fun d => (d.writeUnits n true 1).storeTick))) ∧
    (exec (.flushInterval dt) s = s.goesTo (
      d.when ((d.nat O.storeState == 2 || d.nat O.storeState == 3) && d.store.flushNs + 1000000 * d.nat O.storeFlushInterval ≤ d.ns) (fun d =>
        let d := { d with store := { d.store with flushNs := d.ns } }
        (((upTo 1024).filter (fun i => d.nat O.storeNsState i == 1 && !(d.closedIn i).isEmpty)).foldl (fun d i => d.flushNs i) d).storeTick)))

/-- For every state and every operand, each of SUBENTRY_AGE_EXPIRY, RECLAIM, QUOTA_CUT, REMAP_COPY, STORE_UNPIN, UNPIN_ALL,
SESSION_RELEASE, CONTROLLER_RESET, ADMIN_COMMAND, NAMESPACE_INITIALISE answers a next state: the one written out here, where d
is the block after the command's cycles. Where the conditions that the rules give for the command hold, that state has the
command's effect; where they do not, only the cycles have passed. The queue is as it was. -/
def Obligations.StoreSpaceCommands : Prop :=
  ∀ (dt : Nat) (s : State),
    let d := s.dev.pass dt
    (∀ (e s0 : Nat) (h_e : e < 2) (h_s0 : s0 < 256),
      exec (.subentryAgeExpiry dt ⟨e, h_e⟩ ⟨s0, h_s0⟩) s = s.goesTo (
        match d.openOf s0 e with
        | none => d
        | some n => match (d.ext n).sub with
          | none => d
          | some x => d.when (0 < x.bytes && x.openTick + 4000000 ≤ d.count) (fun d => d.closeSub n))) ∧
    (∀ (s0 : Nat) (h_s0 : s0 < 256),
      exec (.reclaim dt ⟨s0, h_s0⟩) s = s.goesTo (
        d.orHold (fun d =>
          (match d.store.toFree.find? (fun n => (d.ext n).session == s0 && !(d.ext n).pin && !d.inFlight n) with
          | some n =>
            let t := d.tableRead (d.ext n).die n
            if t.1 then (t.2.reclaimExt n).unstall s0 else t.2
          | none =>
            d.when (d.overQuota s0) (fun d =>
              match d.oldestExt s0 with
              | some n => d.when (!d.inFlight n) (fun d => ((d.reclaimExt n).inc O.storeSessionReclaimed s0).unstall s0)
              | none => d.when (!d.on O.storeSessionStalled s0) (fun d => d.stallSession s0))).storeTick))) ∧
    (∀ (og : Origin) (s0 quota : Nat) (h_s0 : s0 < 256),
      exec (.quotaCut dt og ⟨s0, h_s0⟩ quota) s = s.goesTo (d.commitNow og [(O.storeSessionQuota.key s0 0 0, .num quota)])) ∧
    (∀ (n : Nat),
      exec (.remapCopy dt n) s = s.goesTo (
        d.when (d.store.remaps.contains n) (fun d => d.orHold (fun d =>
          let d := { d with store := { d.store with remaps := d.store.remaps.filter (fun m => m != n) } }
          let x := d.ext n
          (if !d.ringCopy x then d.markLost n
          else
            let r := (d.runPkts x).foldl (fun (acc : Option (List Rec) × Dev) p =>
              let b := acc.2.fetch (niPromoter x.die) (acc.2.ringAddr x.die p.abs + 8) (p.bytes - 8)
              match acc.1, b.1 with
              | some rs, some l => (some (rs ++ recsOf p.ix.length l), b.2)
              | _, _ => (none, b.2)) (some [], d)
            match r.1 with
            | none => r.2.markLost n
            | some rs =>
              match r.2.pickFree x.die with
              | none => r.2.markLost n
              | some (m, d) =>
                let ps := (packRecs (d.nat O.captureEnginePacketSize x.die) x.session rs).map (fun p =>
                  (({ abs := 0, bytes := p.size, session := x.session } : StageIx), p.bytes))
                let d := d.rebuildExt n m { session := x.session, die := x.die, remapped := true, next := x.next, runs := x.runs, pin := x.pin } ps
                (d.inc O.storeRemaps).logNote 4 3 (leBytes 8 n) (leBytes 8 x.first ++ leBytes 8 x.last) 0xFFFF).storeTick)))) ∧
    (∀ (og : Origin) (extent : Nat),
      exec (.storeUnpin dt og extent) s = s.goesTo (d.commitNow og [(O.storeUnpin.key 0 0 0, .num extent)])) ∧
    (∀ (og : Origin) (s0 : Nat) (h_s0 : s0 < 256),
      exec (.unpinAll dt og ⟨s0, h_s0⟩) s = s.goesTo (d.commitNow og [(O.storeSessionUnpinAll.key s0 0 0, .num 1)])) ∧
    (∀ (og : Origin) (s0 : Nat) (h_s0 : s0 < 256),
      exec (.sessionRelease dt og ⟨s0, h_s0⟩) s = s.goesTo (d.commitNow og [(O.storeSessionRelease.key s0 0 0, .num 1)])) ∧
    (∀ (og : Origin) (c : Nat) (h_c : c < 64),
      exec (.controllerReset dt og ⟨c, h_c⟩) s = s.goesTo (d.commitNow og [(O.storeCtlReset.key c 0 0, .num 1)])) ∧
    (∀ (og : Origin) (c : Nat) (entry : List Byte) (h_c : c < 64),
      exec (.adminCommand dt og ⟨c, h_c⟩ entry) s = s.goesTo (d.commitNow og [(O.storeCtlAdminCmd.key c 0 0, .oct entry)])) ∧
    (∀ (og : Origin) (n : Nat) (h_n : n < 1024),
      exec (.namespaceInitialise dt og ⟨n, h_n⟩) s = s.goesTo (d.commitNow og [(O.storeNsInitialise.key n 0 0, .num 1)]))

/-- For every state and every operand, each of QUERY_START, QUERY_CONTINUE, QUERY_ABORT, QUERY_SCAN answers a next state: the
one written out here, where d is the block after the command's cycles. Where the conditions that the rules give for the command
hold, that state has the command's effect; where they do not, only the cycles have passed. The queue is as it was. -/
def Obligations.QueryCommands : Prop :=
  ∀ (dt : Nat) (s : State),
    let d := s.dev.pass dt
    (∀ (og : Origin) (j : Nat) (h_j : j < 8),
      exec (.queryStart dt og ⟨j, h_j⟩) s = s.goesTo (d.commitNow og [(O.queryControl.key j 0 0, .num 1)])) ∧
    (∀ (og : Origin) (j addr bytes : Nat) (h_j : j < 8),
      exec (.queryContinue dt og ⟨j, h_j⟩ addr bytes) s = s.goesTo (
        d.commitNow og
            [(O.queryResultAddr.key j 0 0, .num addr), (O.queryResultBytes.key j 0 0, .num bytes), (O.queryControl.key j 0 0, .num 2)])) ∧
    (∀ (og : Origin) (j : Nat) (h_j : j < 8),
      exec (.queryAbort dt og ⟨j, h_j⟩) s = s.goesTo (d.commitNow og [(O.queryControl.key j 0 0, .num 0)])) ∧
    (∀ (j : Nat) (fin : NvmeEnd) (data : List Byte) (hostOk : Bool) (h_j : j < 8),
      exec (.queryScan dt ⟨j, h_j⟩ fin data hostOk) s = s.goesTo (
        d.when (d.nat O.queryState j == 1) (fun d => d.orHold (fun d =>
          let d := match d.readOf j with
            | some k => if k.unsent then d else d.complete k.ctl k.cid fin data 0
            | none => d
          let t := match (d.query j).got, (d.query j).cur with
            | some _, some g => d.tableRead (d.ext g.1).die g.1
            | _, _ => (true, d)
          (if !t.1 then t.2
           else if (t.2.readOf j).isSome then t.2
           else (t.2.queryTake j).queryGo j hostOk).storeTick))))

/-- For every state and every operand, each of VANE_PDU, REASSEMBLY_TIMEOUT, MAILBOX_POST, MAILBOX_RELEASE, MAILBOX_TAKE, READ,
WRITE, DESCRIBE answers a next state: the one written out here, where d is the block after the command's cycles. Where the
conditions that the rules give for the command hold, that state has the command's effect; where they do not, only the cycles
have passed. The queue is as it was. -/
def Obligations.RequestCommands : Prop :=
  ∀ (dt : Nat) (s : State),
    let d := s.dev.pass dt
    (∀ (v : Nat) (src : List Byte) (frag : Option Nat) (pdu : List Byte) (h_v : v < 2),
      exec (.vanePdu dt ⟨v, h_v⟩ src frag pdu) s = s.goesTo (
        let mine := fun (r : Reassembly) => r.vane == v && frag == some r.id
        d.when (d.on O.vaneLinkState v && !d.boot.monitor && (src.length != 4 || (d.vaneOwn v).v4On) && (frag.isNone || d.dict.reass.any mine)) (fun d =>
          let d := { d with dict := { d.dict with reass := d.dict.reass.filter (fun r => !mine r) } }
          if d.lockedOut v src then d.inc O.vaneDroppedFrames v else d.vaneCheck v src pdu))) ∧
    (∀ (v id : Nat) (h_v : v < 2),
      exec (.reassemblyTimeout dt ⟨v, h_v⟩ id) s = s.goesTo (
        { d with dict := { d.dict with reass := d.dict.reass.filter (fun (r : Reassembly) =>
            !(r.vane == v && r.id == id && decide (r.ns + 1000000000 ≤ d.ns))) } })) ∧
    (∀ (k : Sum (Fin 8) (Fin 16)) (len : Nat) (req : List Byte),
      exec (.mailboxPost dt k len req) s = s.goesTo (
        d.when (d.boxUsable k && ((d.boxOf k).state == 0 || (d.boxOf k).state == 3)) (fun d =>
          d.setBoxOf k { state := 1, reqLen := len % 65536, request := fit 8192 req }))) ∧
    (∀ (k : Sum (Fin 8) (Fin 16)),
      exec (.mailboxRelease dt k) s = s.goesTo (d.when (d.boxUsable k && ((d.boxOf k).state == 1 || (d.boxOf k).state == 3)) (fun d => d.setBoxOf k {}))) ∧
    (∀ (k : Sum (Fin 8) (Fin 16)),
      exec (.mailboxTake dt k) s = s.goesTo (
        let x := d.boxOf k
        d.when (x.state == 1 && !d.boot.monitor) (fun d =>
          let d := d.setBoxOf k { x with state := 2 }
          match if x.reqLen < 40 then none else plainRequest (boxPath k) (boxOrigin k) (x.request.take x.reqLen) with
          | some y => if x.reqLen ≤ 8192 then d.serve y.1 y.2 else d.boxOfDone k []
          | none => d.boxOfDone k []))) ∧
    (∀ (og : Origin) (txn index sub offset length : Nat),
      exec (.read dt og txn index sub offset length) s = s.goesTo (
        d.serve { origin := originCode og, txn := txn } [({ op := 1, index := index, sub := sub, off := offset, len := length })])) ∧
    (∀ (og : Origin) (txn index sub type : Nat) (value : List Byte),
      exec (.write dt og txn index sub type value) s = s.goesTo (
        d.serve { origin := originCode og, txn := txn } [({ op := 2, index := index, sub := sub, type := type, value := value })])) ∧
    (∀ (og : Origin) (index sub : Nat),
      exec (.describe dt og index sub) s = s.goesTo (d.serve { origin := originCode og, txn := 0 } [({ op := 3, index := index, sub := sub })]))

/-- For every state and every operand, each of BEGIN, COMMIT, ROLLBACK, VALIDATION_START, VALIDATION_END, COMMIT_TICK,
OBJECT_WRITE, TXN_IDLE_TIMEOUT answers a next state: the one written out here, where d is the block after the command's cycles.
Where the conditions that the rules give for the command hold, that state has the command's effect; where they do not, only the
cycles have passed. The queue is as it was. -/
def Obligations.TransactionCommands : Prop :=
  ∀ (dt : Nat) (s : State),
    let d := s.dev.pass dt
    (∀ (og : Origin),
      exec (.beginTxn dt og) s = s.goesTo (d.serve { origin := originCode og, txn := 0 } [({ op := 4 })])) ∧
    (∀ (og : Origin) (txn : Nat) (tick : Option Nat),
      exec (.commit dt og txn tick) s = s.goesTo (
        d.serve { origin := originCode og, txn := txn } [({ op := 5, value := match tick with
           | some t => leBytes 8 t
           | none => [] })])) ∧
    (∀ (og : Origin) (txn : Nat),
      exec (.rollback dt og txn) s = s.goesTo (d.serve { origin := originCode og, txn := txn } [({ op := 6 })])) ∧
    (exec (.validationStart dt) s = s.goesTo (
      if d.activeTxn.isSome then d
      else match d.dict.txns.find? (fun (t : Txn) => t.state == .queued) with
        | none => d
        | some t =>
          let d := d.swapTxn t { t with state := .validating, sinceNs := d.ns }
          t.items.foldl (fun d s =>
            if (lookup (s.key / 256) (s.key % 256)).isNone then
              { d with fab := { d.fab with shadows := SMap.ins d.fab.shadows s.key false } }
            else d) d)) ∧
    (exec (.validationEnd dt) s = s.goesTo (
      match d.dict.txns.find? (fun (t : Txn) => t.state == .validating) with
      | none => d
      | some t =>
        let joined := d.nat O.twinState == 3
        match t.mirror with
        | some 1 => if joined then d else d.dropTxn t
        | some 2 => if joined then d else
          let alone := { t with mirror := none }
          (d.swapTxn t alone).scheduleTxn alone 4000
        | m =>
          match d.judge t with
          | some f => d.txnFail t f.1 f.2 d.count false
          | none =>
            if m = some 0 then (d.sendVerdict t.txn 0 0).swapTxn t { t with mirror := some 1 }
            else
              let sh := t.items.filter (fun s => d.sharedKey s.key)
              if joined && !sh.isEmpty && t.origin != 4 then
                (d.swapTxn t { t with mirror := some 2 }).mirror 1 0 sh.length t.txn (sh.flatMap d.twinItem)
              else d.scheduleTxn t 4000)) ∧
    (exec (.commitTick dt) s = s.goesTo (
      match d.dict.txns.find? (fun (t : Txn) => t.state == .scheduled) with
      | none => d
      | some t =>
        d.when (!d.halted && reached t.tc d.count) (fun d =>
          let tc := if (d.count + 2 ^ 64 - t.tc) % 2 ^ 64 < 4 || t.era = d.time.era then t.tc else nextQuad d.count % 2 ^ 64
          match d.validate t.origin t.items tc true with
          | some f => d.txnFail t f.1 f.2 tc true
          | none => ((d.dropTxn t).applyCommit t tc).settleReply t.reply (fun i => i) tc))) ∧
    (∀ (og : Origin) (index sub : Nat) (value : List Byte),
      exec (.objectWrite dt og index sub value) s = s.goesTo (d.commitItems og [d.ownTypeItem index sub value])) ∧
    (∀ (slot : Nat) (h_slot : slot < 8),
      exec (.txnIdleTimeout dt ⟨slot, h_slot⟩) s = s.goesTo (
        match d.dict.txns.find? (fun (t : Txn) => t.slot == some slot && t.state == .open_) with
        | none => d
        | some t => d.when (decide (t.sinceNs + 30000000000 ≤ d.ns)) (fun d => d.rollBack t 3 9 0)))

/-- For every state and every operand, each of CHECKPOINT_INTERVAL, CHECKPOINT_COUNT, LOGBOOK_CHECKPOINT, KEEP_GROUP_WRITE,
KEEP_PAGE_REFRESH, WINDOW_ACCESS, AUTH_KEY_WRITE answers a next state: the one written out here, where d is the block after the
command's cycles. Where the conditions that the rules give for the command hold, that state has the command's effect; where they
do not, only the cycles have passed. The queue is as it was. -/
def Obligations.KeepCommands : Prop :=
  ∀ (dt : Nat) (s : State),
    let d := s.dev.pass dt
    (exec (.checkpointInterval dt) s = s.goesTo (d.when (decide (d.dict.ckptNs + 1000000 * d.nat O.logbookCheckpointInterval ≤ d.ns)) Dev.checkpoint)) ∧
    (exec (.checkpointCount dt) s = s.goesTo (d.when (decide (4096 ≤ d.sinceCheckpoint)) Dev.checkpoint)) ∧
    (∀ (og : Origin),
      exec (.logbookCheckpoint dt og) s = s.goesTo (d.commitNow og [(O.logbookCheckpoint.key 0 0 0, .num 1)])) ∧
    (∀ (torn : List Nat),
      exec (.keepGroupWrite dt torn) s = s.goesTo (
        match d.keep.groups with
        | [] => d
        | g :: gs =>
          d.when (!d.keepHeld) (fun d =>
            let ok := torn.isEmpty
            let ps := g.all
            let d := ({ d with keep := { d.keep with groups := gs } }).newGroup
            let d := (upTo ps.length).foldl (fun d i => d.writePage (ps.getD i 0) (!torn.contains i) ok d.keep.groupNo ps.length) d
            if ok then d.durable g else d))) ∧
    (∀ (page : Nat) (margin : Bool),
      exec (.keepPageRefresh dt page margin) s = s.goesTo (
        match SMap.find d.keep.pages page with
        | none => d
        | some k =>
          d.when (k.current && !d.keepHeld && (margin && d.nat O.configState != 4 || decide (k.secs + 157788000 < d.nat O.ageingPoweredSeconds)))
            (fun d => d.newGroup.writePage k.logical true true (d.keep.groupNo + 1) 1))) ∧
    (∀ (offset : BarAddr) (op : WinOp) (find : LineFind),
      exec (.windowAccess dt offset op find) s = s.goesTo (
        d.when (d.hasHost && d.portUp 0 0) (fun d =>
          if op = .malformed then { d with links := { d.links with aer := Nat.lor d.links.aer (2 ^ 18) } }
          else match offset with
            | .bar0 o => d.bar0Access o op
            | .bar2 o => d.bar2Access o op find
            | .msixControl => d.msixControlAccess op))) ∧
    (∀ (og : Origin) (v slot : Nat) (key : List Byte) (h_v : v < 2) (h_slot : slot < 4),
      exec (.authKeyWrite dt og ⟨v, h_v⟩ ⟨slot, h_slot⟩ key) s = s.goesTo (d.commitNow og [(O.authKey.key v 0 slot, .oct key)]))

/-- For every state and every operand, each of PROPOSE, VERDICT, SCHEDULE, SHADOW, LOGBOOK, EXTENT, SUBENTRY, FRONT, CATALOGUE,
RESYNC_BEGIN, RESYNC_END answers a next state: the one written out here, where d is the block after the command's cycles. Where
the conditions that the rules give for the command hold, that state has the command's effect; where they do not, only the cycles
have passed. The queue is as it was. -/
def Obligations.MirrorCommands : Prop :=
  ∀ (dt : Nat) (s : State),
    let d := s.dev.pass dt
    (∀ (msgSeq txn : Nat) (items : List (Nat × Nat × List Byte)),
      exec (.propose dt msgSeq txn items) s = s.goesTo (
        d.take msgSeq false (fun d =>
          let key := match items with
            | i :: _ => i.1 * 256 + i.2.1
            | [] => 0
          if d.awaiting.isSome && d.nat O.twinRole = 1 then d.sendVerdict txn key 10
          else match items.find? (fun i => itemStatus i != 0) with
            | some i => d.sendVerdict txn (i.1 * 256 + i.2.1) (itemStatus i)
            | none =>
              let old := d.dict.txns.filter (fun (t : Txn) => !(t.mirror == some 0 || (t.mirror == some 1 && t.state != .scheduled)))
              let t : Txn := { slot := none, txn := txn, origin := 4, state := .queued, items := stagedOf items, sinceNs := d.ns, mirror := some 0 }
              { d with dict := { d.dict with txns := old ++ [t] } }))) ∧
    (∀ (msgSeq txn status index sub : Nat),
      exec (.verdict dt msgSeq txn status index sub) s = s.goesTo (
        d.take msgSeq false (fun d =>
          match d.awaiting with
          | none => d
          | some t =>
            if t.txn % 2 ^ 32 ≠ txn then d
            else if status = 0 then d.scheduleTxn t 400000 else d.txnFail t (index * 256 + sub) status d.count false))) ∧
    (∀ (msgSeq txn tc : Nat),
      exec (.schedule dt msgSeq txn tc) s = s.goesTo (
        d.take msgSeq false (fun d =>
          match d.dict.txns.find? (fun (t : Txn) => t.mirror == some 1 && t.txn == txn) with
          | none => d
          | some t =>
            let ahead := (tc + 2 ^ 64 - d.count) % 2 ^ 64
            if 4000 ≤ ahead && ahead < 2 ^ 63 then d.swapTxn t { t with state := .scheduled, tc := tc, sinceNs := d.ns } else (d.dropTxn t).twinSync))) ∧
    (∀ (msgSeq tc : Nat) (items : List (Nat × Nat × List Byte)),
      exec (.shadow dt msgSeq tc items) s = s.goesTo (
        d.take msgSeq false (fun d =>
          let m := items.foldl (fun m i => SMap.ins m (i.1 * 256 + i.2.1) ({ bytes := i.2.2, tick := tc } : ShadowVal)) d.twin.shadows
          let d := { d with twin := { d.twin with shadows := m } }
          let lag := (d.count + 2 ^ 64 - tc % 2 ^ 64) % 2 ^ 64
          if d.paired && lag < 2 ^ 63 then d.peak O.twinMirrorLag (min (lag / 4000) 0xFFFFFFFF) else d))) ∧
    (∀ (msgSeq : Nat) (entries : List (List Byte)),
      exec (.logbook dt msgSeq entries) s = s.goesTo (
        d.take msgSeq false (fun d =>
          let l := entries.map mirroredEntry
          let d := { d with twin := { d.twin with log := l.foldl (fun (m : List (List Byte)) e =>
            m.filter (fun x => fieldAt x 8 4 % 65536 != fieldAt e 8 4 % 65536) ++ [e]) d.twin.log } }
          match l.getLast? with
          | some e => d.setNat O.twinPeerLogbookNext ((fieldAt e 8 4 + 1) % 2 ^ 32)
          | none => d))) ∧
    (∀ (msgSeq number : Nat) (entry : List Byte),
      exec (.extent dt msgSeq number entry) s = s.goesTo (
        d.take msgSeq true (fun d =>
          if d.ownExt number then d
          else
            let x := Ext.parse (fit 32 entry)
            let old := d.ext number
            let d := d.setExt number { x with subs := if old.gen = x.gen then old.subs else [] }
            if 32 * number + 32 ≤ d.tableBytes then d.postAt (niStore 0) (d.nat O.storeTableBase + 32 * number) (fit 32 entry) else d))) ∧
    (∀ (msgSeq number : Nat) (entry : List Byte),
      exec (.subentry dt msgSeq number entry) s = s.goesTo (
        d.take msgSeq true (fun d =>
          if d.ownExt number then d
          else
            let x := d.ext number
            let y := SubEnt.parse (fit 32 entry)
            d.setExt number { x with subs := x.subs.filter (fun z => z.off != y.off) ++ [y] }))) ∧
    (∀ (msgSeq : Nat) (entry : List Byte),
      exec (.front dt msgSeq entry) s = s.goesTo (
        d.take msgSeq true (fun d =>
          let e := fit 32 entry
          let n := fieldAt e 0 1
          if 16 ≤ n || d.frontMine n then d
          else
            let d := ((d.setNat O.frontState (bitsOf (fieldAt e 1 1) 3 0) n).setNat O.frontCounter (fieldAt e 2 4) n 0 0).setNat O.frontCounter (fieldAt e 6 4) n 0 1
            let d := if bitOf (fieldAt e 1 1) 6 then d.setNat O.frontControl 0 n else d
            { d with twin := { d.twin with fronts := SMap.ins d.twin.fronts n e } }))) ∧
    (∀ (msgSeq : Nat) (words : List Nat) (side epoch schema logNext : Nat),
      exec (.catalogue dt msgSeq words side epoch schema logNext) s = s.goesTo (
        if !d.stopped && d.inTurn msgSeq (max 1 ((words.length + 1019) / 1020)) false && (d.nat O.twinState == 2 || d.paired) then
          let e : Dev := { d with twin := { d.twin with rxMsg := msgSeq } }
          Dev.takeCatalogue (if d.paired then e.twinSync else e) words side epoch schema logNext
        else d)) ∧
    (∀ (msgSeq : Nat) (shared : List (Nat × Nat × List Byte)),
      exec (.resyncBegin dt msgSeq shared) s = s.goesTo (
        d.take msgSeq false (fun d =>
          let l := stagedOf (shared.filter (fun i => itemStatus i == 0))
          if d.nat O.twinRole = 2 && !l.isEmpty then
            let t : Txn := { slot := none, txn := 0, origin := 4, state := .queued, items := l, sinceNs := d.ns }
            { d with dict := { d.dict with txns := d.dict.txns ++ [t] } }
          else d))) ∧
    (∀ (msgSeq : Nat),
      exec (.resyncEnd dt msgSeq) s = s.goesTo (d.take msgSeq false (fun d => ({ d with twin := { d.twin with gotEnd := true } }).joinEnd)))

/-- For every state and every operand, each of LEAVE, BEAT_SEND, BEAT, BEAT_MISSED, TWIN_EVENT, STORAGE_TAKEOVER, TWIN_ALIGN,
TWIN_LEAVE, TWIN_TAKEOVER, ADOPT_STORAGE answers a next state: the one written out here, where d is the block after the
command's cycles. Where the conditions that the rules give for the command hold, that state has the command's effect; where they
do not, only the cycles have passed. The queue is as it was. -/
def Obligations.PairCommands : Prop :=
  ∀ (dt : Nat) (s : State),
    let d := s.dev.pass dt
    (∀ (msgSeq : Nat),
      exec (.leave dt msgSeq) s = s.goesTo (
        d.take msgSeq false (fun d =>
          let was := d.nat O.twinRole
          let d := d.setNat O.twinState 6
          if was = 2 then (d.takeOver.occur 1508).roleLog 1 2 3 1508 else d))) ∧
    (exec (.beatSend dt) s = s.goesTo (
      d.when (d.hasTwin && d.twinActive && d.count % 400000 < 4) (fun d => d.queueFrame twinPort 3 (d.beatPayload (d.count - d.count % 400000))))) ∧
    (∀ (pos lane : Nat) (payload : List Byte) (h_pos : pos < 1024) (h_lane : lane < 8),
      exec (.beat dt ⟨⟨pos, h_pos⟩, ⟨lane, h_lane⟩⟩ payload) s = s.goesTo (
        d.when (d.hasTwin && d.twinActive && !d.stopped) (fun d =>
          let l := fit 40 payload
          let stamp := d.stamp pos ((d.lanesOf 34 0).getD lane 136)
          let rx := stamp / 256
          let fine := stamp % 256
          let tx := fieldAt l 0 8
          let d := { d with twin := { d.twin with misses := 0, watchNs := some d.ns, peerTx := tx, peerRx := rx, peerFine := fine } }
          let d := d.setNat O.twinLastBeatTick rx
          let d := if d.nat O.twinState = 4 then d.setNat O.twinState 3 else d
          if d.nat O.twinRole = 2 && d.paired && tickDiff rx tx ≤ 80000 && fieldAt l 8 8 != 0 then d.beatMeasure (d.beatOffset rx fine l) rx else d))) ∧
    (exec (.beatMissed dt) s = s.goesTo (
      match d.twin.watchNs with
      | none => d
      | some t =>
        d.when (d.hasTwin && (d.paired || d.nat O.twinState == 2) && decide (t + 100000 ≤ d.ns)) (fun d =>
          let d := { d with twin := { d.twin with watchNs := some (t + 100000), misses := d.twin.misses + 1 } }
          (d.inc O.twinBeatsMissed).twinCheck))) ∧
    (∀ (originTick slot : Nat) (forwarded : Bool) (input mult : Nat) (h_input : input < 128) (h_mult : mult < 16),
      exec (.twinEvent dt originTick slot forwarded ⟨input, h_input⟩ ⟨mult, h_mult⟩) s = s.goesTo (
        d.when (d.hasTwin && d.twinActive && d.nat O.twinState != 8 && !d.stopped) (fun d =>
          if forwarded then
            let o : Occ := { ev := slot % 2048, tick := d.count, mult := mult, origin := some originTick }
            if d.ownsFront (input / 8) then
              { d with events := { d.events with inputs := d.events.inputs ++ [({ n := input / 8, i := input % 8, occ := o, ns := d.ns } : FrontIn)] } }
            else d
          else d.occurAs { ev := 1424 + slot % 16, tick := d.count, mult := max 1 mult, origin := some originTick }))) ∧
    (∀ (nss : List NsFound),
      exec (.storageTakeover dt nss) s = s.goesTo (
        d.when (d.nat O.twinState == 7 && d.on O.twinTakeoverStorage) (fun d =>
          let mapped := fun (f : NsFound) => (upTo 1024).any (fun n =>
            d.nat O.storeNsState n == 1 && d.nat O.storeNsController n == f.ctl.val && d.nat O.storeNsNsid n == f.nsid)
          let l := nss.filter (fun f => f.label.magicOk && f.label.version == 1 && f.label.owner == d.peerIdentity && f.label.index < 1024 &&
            d.nat O.storeCtlState f.ctl == 2 && d.nat O.storeNsState f.label.index != 1 && !mapped f)
          let d := l.foldl Dev.takeNs d
          let mine := fun (f : NsFound) (n : Nat) => d.nat O.storeNsBaseExtent f.label.index ≤ n && decide (n < d.nsEnd f.label.index)
          let d := l.foldl (fun d f => (d.store.exts.filter (fun p => p.2.state == 1 && mine f p.1)).foldl (fun d p =>
            d.recoverPeer p.1 ((f.openData.lookup p.1).getD [])) d) d
          l.foldl (fun (d : Dev) f => if (d.closedIn f.label.index).isEmpty then d else d.flushNs f.label.index) d))) ∧
    (∀ (og : Origin),
      exec (.twinAlign dt og) s = s.goesTo (d.commitNow og [(O.twinAlign.key 0 0 0, .num 1)])) ∧
    (∀ (og : Origin),
      exec (.twinLeave dt og) s = s.goesTo (d.commitNow og [(O.twinLeave.key 0 0 0, .num 1)])) ∧
    (∀ (og : Origin),
      exec (.twinTakeover dt og) s = s.goesTo (d.commitNow og [(O.twinTakeover.key 0 0 0, .num 1)])) ∧
    (∀ (og : Origin),
      exec (.adoptStorage dt og) s = s.goesTo (d.commitNow og [(O.twinAdoptStorage.key 0 0 0, .num 1)]))

/-- For every state and every operand, each of NOC_TIMEOUT, NOC_RESPONSE, POSTED_ERROR, FLUSH, EKIC_WRITE, EKEQ_WRITE, CORE_RUN,
CORE_RESET answers a next state: the one written out here, where d is the block after the command's cycles. Where the conditions
that the rules give for the command hold, that state has the command's effect; where they do not, only the cycles have passed.
The queue is as it was. -/
def Obligations.NetworkCommands : Prop :=
  ∀ (dt : Nat) (s : State),
    let d := s.dev.pass dt
    (∀ (n tag : Nat) (h_n : n < 640) (h_tag : tag < 4096),
      exec (.nocTimeout dt ⟨n, h_n⟩ ⟨tag, h_tag⟩) s = s.goesTo (
        d.when (niUsed n) (fun d =>
          let d := d.inc O.noCTimeouts
          let x := d.ni n
          (d.setNi n { x with late := x.late ++ [tag] }).send (.noc n false [])))) ∧
    (∀ (n tag : Nat) (ok : Bool) (birth : Nat) (h_n : n < 640) (h_tag : tag < 4096) (h_birth : birth < 65536),
      exec (.nocResponse dt ⟨n, h_n⟩ ⟨tag, h_tag⟩ ⟨ok, ⟨birth, h_birth⟩⟩) s = s.goesTo (
        d.when (niUsed n) (fun d =>
          let d := d.peak O.noCMaxWait (d.flitAge birth)
          let x := d.ni n
          if x.late.contains tag then (d.setNi n { x with late := x.late.erase tag }).inc O.noCLateResponses
          else d.send (.noc n ok [])))) ∧
    (∀ (n : Nat) (record : List Byte) (freed : Bool) (h_n : n < 640),
      exec (.postedError dt ⟨n, h_n⟩ record freed) s = s.goesTo (
        d.when (niUsed n) (fun d =>
          if n = niHost then d.inc O.dictionaryWindowErrors
          else
            let x := d.ni n
            let x := if freed && x.head != x.tail then { x with head := (x.head + 1) % 128 } else x
            if x.length = 64 then
              let d := (d.setNi n { x with overflows := x.overflows + 1 }).occur 1499
              match niCore n with
              | some c => d.inc O.coreOverflows c
              | none => d
            else
              let d := d.setNi n { x with tail := (x.tail + 1) % 128, queued := x.queued + 1, slots := SMap.ins x.slots (x.tail % 64) (fit 32 record) }
              match niCore n with
              | some c => d.inc O.corePostedErrors c
              | none => d))) ∧
    (∀ (n target : Nat) (h_n : n < 640) (h_target : target < 640),
      exec (.flush dt ⟨n, h_n⟩ ⟨target, h_target⟩) s = s.goesTo (d.when (niUsed n && niUsed target) (fun d => d.send (.noc n true [])))) ∧
    (∀ (c bits : Nat) (arriving : List (Fin 32)) (h_c : c < 16),
      exec (.ekicWrite dt ⟨c, h_c⟩ bits arriving) s = s.goesTo (
        let x := d.core c
        let left := (upTo 33).foldl (fun n i => if bitOf x.ekip i && !bitOf bits i then n + 2 ^ i else n) 0
        let d := d.setCore c { x with ekip := left }
        arriving.foldl (fun (d : Dev) (l : Fin 32) => d.raiseLine c l.val) d)) ∧
    (∀ (c value : Nat) (h_c : c < 16),
      exec (.ekeqWrite dt ⟨c, h_c⟩ value) s = s.goesTo (
        let n := coreNi c
        d.setNi n { d.ni n with head := value % 128 })) ∧
    (∀ (og : Origin) (c : Nat) (h_c : c < 16),
      exec (.coreRun dt og ⟨c, h_c⟩) s = s.goesTo (d.commitNow og [(O.coreControl.key c 0 0, .num 1)])) ∧
    (∀ (og : Origin) (c : Nat) (h_c : c < 16),
      exec (.coreReset dt og ⟨c, h_c⟩) s = s.goesTo (d.commitNow og [(O.coreControl.key c 0 0, .num 0)]))

/-- For every state and every operand, each of FABRIC_EVENT, USER_MARK_REQUEST, PE_POP, FABRIC_DICTIONARY_REQUEST,
OBJECT_SAMPLE, OBJECT_SAMPLE_TIMEOUT, RAM_PORT_ACCESS, BANK_VOLTAGE_SAMPLE answers a next state: the one written out here, where
d is the block after the command's cycles. Where the conditions that the rules give for the command hold, that state has the
command's effect; where they do not, only the cycles have passed. The queue is as it was. -/
def Obligations.FabricCommands : Prop :=
  ∀ (dt : Nat) (s : State),
    let d := s.dev.pass dt
    (∀ (f j : Nat) (h_f : f < 8) (h_j : j < 32),
      exec (.fabricEvent dt ⟨f, h_f⟩ ⟨j, h_j⟩) s = s.goesTo (d.when d.fabricRuns (fun d => d.occur (1152 + 32 * f + j)))) ∧
    (∀ (f set value : Nat) (h_f : f < 8) (h_set : set < 16),
      exec (.userMarkRequest dt ⟨f, h_f⟩ ⟨set, h_set⟩ value) s = s.goesTo (
        let free := match SMap.find d.fab.markNs f with
          | some t => decide (t + 8 ≤ d.ns)
          | none => true
        d.when (d.fabricRuns && free) (fun d =>
          let d := { d with fab := { d.fab with markNs := SMap.ins d.fab.markNs f d.ns } }
          (d.inc O.fabricMarkRequests).captureMark set d.count (value % 2 ^ 64) 0xFFFF 7 true))) ∧
    (∀ (n : Nat) (h_n : n < 640),
      exec (.pePop dt ⟨n, h_n⟩) s = s.goesTo (
        match niFabric n with
        | none => d
        | some f =>
          let x := d.ni n
          d.when (d.fabricRuns && x.head != x.tail) (fun d =>
            (d.setNi n { x with head := (x.head + 1) % 128 }).send (.fabric f (SMap.getD x.slots (x.head % 64) (zeros 32)))))) ∧
    (∀ (f : Nat) (req : List Byte) (h_f : f < 8),
      exec (.fabricDictionaryRequest dt ⟨f, h_f⟩ req) s = s.goesTo (
        d.when (d.fabricRuns && !d.fab.busy.contains f && !d.boot.monitor) (fun d =>
          match plainRequest (.fabric f) 7 req with
          | none => d.send (.fabric f (zeros 8))
          | some y => ({ d with fab := { d.fab with busy := d.fab.busy ++ [f] } }).serve y.1 y.2))) ∧
    (∀ (index sub : Nat) (value : List Byte) (again : Nat),
      exec (.objectSample dt index sub value again) s = s.goesTo (
        let key := index * 256 + sub
        match d.fab.samples.find? (fun (x : Sample) => x.key == key), d.userAt key with
        | some x, some u =>
          d.when d.fabricRuns (fun d =>
            let v := d.sampled u value
            let d := if u.access = 3 then { d with fab := { d.fab with values := SMap.ins d.fab.values key (.num again) } } else d
            d.sampleReply x (fun r =>
              let y := userSegment u v r.off x.len
              { r with status := y.1, value := y.2 }))
        | _, _ => d)) ∧
    (∀ (index sub : Nat),
      exec (.objectSampleTimeout dt index sub) s = s.goesTo (
        match d.fab.samples.find? (fun (x : Sample) => x.key == index * 256 + sub) with
        | none => d
        | some x =>
          d.when (decide (x.ns + 10000 ≤ d.ns)) (fun d => (d.inc O.fabricObjectTimeouts).sampleReply x (fun r => { r with status := 10, value := [] })))) ∧
    (∀ (blk : Nat) (a b : Option RamAcc) (sameClock : Bool) (fa fb : SramFind),
      exec (.ramPortAccess dt blk a b sameClock ⟨fa, fb⟩) s = s.goesTo (
        d.when (d.fabricRuns && blk < 36864) (fun d =>
          let inst := ramInstance blk
          let vote := fun (x : Option RamAcc) (f : SramFind) (d : Dev) => match x with
            | some r => d.sramVote inst r.word f
            | none => ({}, d)
          let va := vote a fa d
          let vb := vote b fb va.2
          let xa := va.1
          let xb := vb.1
          let d := vb.2
          let hit := match a, b with
            | some r, some s => r.word == s.word
            | _, _ => false
          let wa := a.any (fun r => r.wdata.isSome)
          let wb := b.any (fun r => r.wdata.isSome)
          let ea := match a with
            | some r => ramPort xa r fa
            | none => {}
          let eb := match b with
            | some r => if hit && wa && wb then { err := true } else ramPort xb r fb
            | none => {}
          let open_ := hit && !sameClock && wa != wb
          let new := open_ && d.draw % 2 == 1
          let reread := fun (e : PortEnd) (r : Option RamAcc) (w : Option SramWord) => match r, w with
            | some r, some x => if new && r.wdata.isNone then { e with data := slice (leBytes 8 x.data) r.off r.size, err := false } else e
            | _, _ => e
          let ea' := reread ea a eb.word
          let eb' := reread eb b ea.word
          let d := if open_ then d.drawn else d
          let d := match a with
            | some r => d.ramSeen inst xa r fa
            | none => d
          let d := match b with
            | some r => if hit && wa && wb then d else d.ramSeen inst xb r fb
            | none => d
          let put := fun (d : Dev) (r : Option RamAcc) (w : Option SramWord) => match r, w with
            | some r, some x => d.setSram inst r.word x
            | _, _ => d
          let d := put (put d b eb.word) a ea.word
          let out : RamOut := { dataA := ea'.data, errA := ea'.err, waitA := ea'.wait, dataB := eb'.data, errB := eb'.err, waitB := eb'.wait }
          { d with fab := { d.fab with rams := SMap.setD d.fab.rams blk {} out } }))) ∧
    (∀ (b mv : Nat) (h_b : b < 8),
      exec (.bankVoltageSample dt ⟨b, h_b⟩ mv) s = s.goesTo (
        let std := d.nat O.fabricBankStandard 0 0 b
        let st := d.nat O.fabricBankStatus 0 0 b
        let d := d.setNat O.fabricBankVoltage (min mv 65535) 0 0 b
        if std = 0 then d
        else if bankGood std mv then
          let t := SMap.getD d.fab.bankIn b d.ns
          let d := { d with fab := { d.fab with bankIn := SMap.ins d.fab.bankIn b t, bankOut := SMap.del d.fab.bankOut b } }
          if st = 0 || (st = 2 && t + 1000000 ≤ d.ns) then d.setNat O.fabricBankStatus 1 0 0 b else d
        else
          let t := SMap.getD d.fab.bankOut b d.ns
          let d := { d with fab := { d.fab with bankOut := SMap.ins d.fab.bankOut b t, bankIn := SMap.del d.fab.bankIn b } }
          if st != 2 && t + 100000 ≤ d.ns then (d.setNat O.fabricBankStatus 2 0 0 b).occur 1501 else d))

/-- For every state and every operand, each of SOURCE_STABLE, CLOCK_MISSING, PLL_LOSS_OF_LOCK, PLL_LOCK, PLL_HOLDOVER_EXPIRY,
CLOCK_REVERT, CLOCK_GATE answers a next state: the one written out here, where d is the block after the command's cycles. Where
the conditions that the rules give for the command hold, that state has the command's effect; where they do not, only the cycles
have passed. The queue is as it was. -/
def Obligations.ClockCommands : Prop :=
  ∀ (dt : Nat) (s : State),
    let d := s.dev.pass dt
    (∀ (i : Nat) (fuses : Option (List (Nat × Nat × List Byte))) (h_i : i < 5),
      exec (.sourceStable dt ⟨i, h_i⟩ fuses) s = s.goesTo (
        d.when (if i = 0 then d.src 0 != 2 && !d.boot.pinLow && !d.boot.hot else d.src i == 1) (fun d =>
          let d := d.setSrc i 2
          let d := if i = 0 then
              let start := fun (d : Dev) (j : Nat) => if d.src j = 0 then d.setSrc j 1 else d
              let d := start (start (start d 1) 2) 4
              let d := if d.on O.clockXbEnable then start d 3 else d
              d.fuseSense fuses
            else d
          let d := if d.src d.sysSrc = 3 && i != 1 && i != 4 then d.switchSys else d
          let d := if d.src d.timeSrc = 3 && 2 ≤ i then d.switchTime else d
          d.pllsStart))) ∧
    (∀ (i : Nat) (h_i : i < 5),
      exec (.clockMissing dt ⟨i, h_i⟩) s = s.goesTo (
        d.when (d.src i == 1 || d.src i == 2) (fun d =>
          let d := (d.setSrc i 3).missing
          let d := if d.sysSrc = i then ((upTo 9).foldl (fun d j => d.holdPll (2 + j)) d).switchSys else d
          if d.timeSrc = i then (d.holdPll 0).switchTime else d))) ∧
    (∀ (p : Sum (Fin 11) (Sum (Fin 8 × Fin 16) (Fin 36 × Fin 2))),
      exec (.pllLossOfLock dt p) s = s.goesTo (
        match p with
        | .inl i => d.when (d.pll i == 2) (fun d => (d.missing).holdPll i)
        | .inr (.inl (f, k)) => d.when (d.nat O.clockFabPllStatus f 0 k == 2) (fun d => (d.missing).setNat O.clockFabPllStatus 3 f 0 k)
        | .inr (.inr (q, i)) =>
          let k := 2 * q.val + i.val
          d.when (d.txPll k == 2) (fun d =>
            let d := d.missing.setTxPll k 3
            let d := { d with clock := { d.clock with holdNs := SMap.ins d.clock.holdNs (16 + k) d.ns } }
            d.recheckQuad q))) ∧
    (∀ (p : Sum (Fin 11) (Sum (Fin 8 × Fin 16) (Fin 36 × Fin 2))),
      exec (.pllLock dt p) s = s.goesTo (
        let free := fun (d : Dev) (k : Nat) => ({ d with clock := { d.clock with holdNs := SMap.del d.clock.holdNs k } } : Dev)
        match p with
        | .inl i =>
          d.when (d.pll i != 2 && d.pllOpen i && d.pllRefStable i) (fun d =>
            let d := (free (d.setPll i 2) i).pllsStart
            if (upTo 11).all (fun j => d.pll j == 2) then ({ d with boot := { d.boot with plls := true } }).bootGo else d)
        | .inr (.inl (f, k)) =>
          d.when (d.on O.clockFabPllEnable f 0 k && d.nat O.clockFabPllStatus f 0 k != 2) (fun d => d.setNat O.clockFabPllStatus 2 f 0 k)
        | .inr (.inr (q, i)) =>
          let k := 2 * q.val + i.val
          d.when (d.txPll k != 2 && d.nat O.quadRefClkStatus q == 1) (fun d => (free (d.setTxPll k 2) (16 + k)).recheckQuad q))) ∧
    (∀ (p : Sum (Fin 11) (Fin 36 × Fin 2)) (pins : Nat) (h_pins : pins < 8),
      exec (.pllHoldoverExpiry dt p ⟨pins, h_pins⟩) s = s.goesTo (
        let late := fun (k : Nat) => match SMap.find d.clock.holdNs k with
          | some t => decide (t + 1000000 ≤ d.ns)
          | none => false
        match p with
        | .inl i =>
          d.when (d.pll i == 3 && late i) (fun d =>
            let d := d.setPll i 4
            if i.val < 4 then d.deviceReset 4 pins
            else if i.val < 6 then (upTo 4).foldl (fun d k => d.frostTraining (4 * (i.val - 4) + k)) d
            else if i.val < 10 then (upTo 32).foldl (fun d k => d.frostTraining (8 + 32 * (i.val - 6) + k)) d
            else (d.setNat O.vaneLinkState 0 0).setNat O.vaneLinkState 0 1)
        | .inr (q, i) =>
          let k := 2 * q.val + i.val
          d.when (d.txPll k == 3 && late (16 + k)) (fun d =>
            let d := d.setTxPll k 4
            let b := d.base q
            (upTo 4).foldl (fun d p => if txRole (d.role b) && d.hasPort b p && d.nat O.portTxPll b p == i.val then d.txPllDown b p else d) d))) ∧
    (∀ (og : Origin),
      exec (.clockRevert dt og) s = s.goesTo (d.commitNow og [(O.clockRevert.key 0 0 0, .num 1)])) ∧
    (∀ (og : Origin) (node : Nat) (open_ : Bool) (h_node : node < 37),
      exec (.clockGate dt og ⟨node, h_node⟩ open_) s = s.goesTo (d.commitNow og [(O.clockGate.key 0 0 node, .num (b2n open_))]))

/-- For every state and every operand, each of DEVICE_RESET, PROGRAM_PIN, POWER_GOOD, ENTROPY_STARTUP_DONE, FIRMWARE_START,
PERSIST_RESTORE, STREAM_DATA answers a next state: the one written out here, where d is the block after the command's cycles.
Where the conditions that the rules give for the command hold, that state has the command's effect; where they do not, only the
cycles have passed. The queue is as it was. -/
def Obligations.ResetCommands : Prop :=
  ∀ (dt : Nat) (s : State),
    let d := s.dev.pass dt
    (∀ (cause pins : Nat) (h_cause : cause < 9) (h_pins : pins < 8),
      exec (.deviceReset dt ⟨cause, h_cause⟩ ⟨pins, h_pins⟩) s = s.goesTo (d.when (1 ≤ cause && cause ≤ 8) (fun d => d.deviceReset cause pins))) ∧
    (∀ (pins : Nat) (low : Bool) (h_pins : pins < 8),
      exec (.programPin dt ⟨pins, h_pins⟩ low) s = s.goesTo (
        if low then
          let cool := d.coolEnough
          let d := { d with boot := { d.boot with pinLow := true } }
          let d := if cool then { d with power := { d.power with tripPin := false } } else d
          d.deviceReset 2 pins
        else d.when d.boot.pinLow (fun d =>
          let d := { d with boot := { d.boot with pinLow := false } }
          if d.boot.hot then d else d.setNat O.clockSourceStatus 1 0 0 0))) ∧
    (∀ (pins : Nat) (h_pins : pins < 8),
      exec (.powerGood dt ⟨pins, h_pins⟩) s = s.goesTo (d.deviceReset 1 pins)) ∧
    (∀ (ok : Bool),
      exec (.entropyStartupDone dt ok) s = s.goesTo (
        d.when (d.boot.fuses && !d.boot.drawn && d.nat O.configState == 0) (fun d =>
          if ok then
            let d := { d with mem := { d.mem with key := fit 32 (Config.freeBytes d.free) }, boot := { d.boot with drawn := true } }
            d.drawn.bootGo
          else ((d.inc O.entropyFailures).setNat O.entropyState 1).bootFault 12))) ∧
    (∀ (ok0 ok1 : Bool) (v0 v1 : Nat),
      exec (.firmwareStart dt ok0 ok1 v0 v1) s = s.goesTo (
        d.when (d.boot.fuses && !d.boot.firmware && !d.boot.monitor) (fun d =>
          if !ok0 && !ok1 then ({ d with boot := { d.boot with monitor := true } }).bootFault 16
          else
            let slot := if ok0 && ok1 then (if v0 = v1 then d.draw % 2 else if v0 < v1 then 1 else 0) else if ok0 then 0 else 1
            let d := if ok0 && ok1 && v0 = v1 then d.drawn else d
            let d := ((d.setNat O.fwSlotVersion (if ok0 then v0 else 0) 0 0 0).setNat O.fwSlotVersion (if ok1 then v1 else 0) 0 0 1).setNat O.fwActiveSlot slot
            let d := (d.setNat O.identityFirmwareVersion (d.draw % 2 ^ 32)).drawn
            let d := (d.setNat O.identitySchemaVersion (d.draw % 2 ^ 32)).drawn
            let d := (upTo 4).foldl (fun d c => d.setNat O.coreState 2 c) d
            ({ d with boot := { d.boot with firmware := true } }).inc O.identityBootCount))) ∧
    (∀ (badSeal : List (Nat × Nat)),
      exec (.persistRestore dt badSeal) s = s.goesTo (
        d.when (d.boot.firmware && !d.boot.restored) (fun d =>
          let d := d.keep.vals.foldl (fun d e => d.restoreVal e.1 e.2) d
          let d := { d with dict := { d.dict with streamTick := d.count } }
          let d := d.restoreLog
          let d := badSeal.foldl (fun d e => d.sealFail e.1 e.2) d.reclaimTorn
          let d := d.keysValid
          let d := if d.on O.clockXbEnable && d.nat O.clockSourceStatus 0 0 3 = 0 then d.setNat O.clockSourceStatus 1 0 0 3 else d
          ({ d with boot := { d.boot with restored := true } }).bootGo))) ∧
    (∀ (part : StreamPart),
      exec (.streamData dt part) s = s.goesTo (
        d.when (d.nat O.configState == 1) (fun d =>
          let used := fun (d : Dev) (n : Nat) => ({ d with boot := { d.boot with lastNs := d.ns, credit := min 65536 (d.boot.credit + n) } } : Dev)
          match part, d.boot.hdr with
          | .header l, none =>
            let d := used d l.length
            let f := d.headerFault l
            if f = 0 then { d with boot := { d.boot with hdr := some l } } else d.loadFail f
          | .data l, some h =>
            let d := used d l.length
            if hdrNative h then d.nativeData h l
            else ({ d with boot := { d.boot with stored := d.boot.stored ++ l } } : Dev).ek7Data h (l.length + 1)
          | .last cfg, some h =>
            if hdrNative h then d.verifyStream h cfg
            else
              let d := if d.boot.blocks + 1 = fieldAt h 8 4 then d.ek7Block h d.boot.stored true else d.loadFail 2
              if d.nat O.configState = 1 && d.boot.hdr.isSome then d.verifyStream h cfg else d
          | _, _ => d.loadFail 2)))

/-- For every state and every operand, each of STREAM_TIMEOUT, LOAD_START, LOAD_ABORT, APERTURE_WRITE, STARTUP_STEP,
PLL_WAIT_EXPIRY, BOOT_COMPLETE answers a next state: the one written out here, where d is the block after the command's cycles.
Where the conditions that the rules give for the command hold, that state has the command's effect; where they do not, only the
cycles have passed. The queue is as it was. -/
def Obligations.LoadCommands : Prop :=
  ∀ (dt : Nat) (s : State),
    let d := s.dev.pass dt
    (exec (.streamTimeout dt) s = s.goesTo (d.when (d.nat O.configState == 1 && d.boot.lastNs + 1000000000 ≤ d.ns) (fun d => d.loadFail 1))) ∧
    (exec (.loadStart dt) s = s.goesTo (d.when (d.loadReady 2 && !d.stopped) (fun d => d.loadBegin 2))) ∧
    (exec (.loadAbort dt) s = s.goesTo (d.when (d.nat O.configState == 1 && d.nat O.configMode == 2) (fun d => d.loadFail 14))) ∧
    (∀ (bytes : Nat),
      exec (.apertureWrite dt bytes) s = s.goesTo (
        d.when (d.nat O.configState == 1 && d.nat O.configMode == 2) (fun d =>
          if d.boot.credit < bytes then d.loadFail 13
          else { d with boot := { d.boot with credit := d.boot.credit - bytes, loaded := d.boot.loaded + bytes, lastNs := d.ns } }))) ∧
    (exec (.startupStep dt) s = s.goesTo (
      d.when (d.nat O.configState == 3) (fun d =>
        match d.boot.steps with
        | [] => d
        | c :: cs =>
          let b := { d.boot with steps := cs, stepNs := d.ns }
          match c with
          | 0 => if d.fabPllsLocked then { d with boot := b } else d
          | 1 => { d with boot := { b with outputs := true } }
          | 2 =>
            let rams := match d.boot.cfg with
              | some cfg => cfg.rams
              | none => []
            rams.foldl (fun d r => d.setSram (ramInstance r.1) r.2.1 (SramWord.of r.2.2)) (({ d with boot := { b with gsr := true } } : Dev).setReset)
          | _ => { d with boot := { b with writes := true } }))) ∧
    (exec (.pllWaitExpiry dt) s = s.goesTo (
      d.when (d.nat O.configState == 3 && d.boot.steps.head? == some 0 && d.boot.stepNs + 1000000 * d.boot.pllWait ≤ d.ns && !d.fabPllsLocked)
        (fun d =>
          if d.boot.pllContinue then ({ d with boot := { d.boot with steps := d.boot.steps.drop 1, stepNs := d.ns } }).occur 1502
          else d.loadFail 11))) ∧
    (exec (.bootComplete dt) s = s.goesTo (
      d.when (d.nat O.configState == 3 && d.boot.steps.isEmpty && d.boot.trained && (upTo 136).all (fun ch => d.chState ch ≤ 1)) (fun d =>
        let t := (d.ns - d.boot.loadNs.getD d.ns) / 1000
        let d := (d.setNat O.configState 4).setNat O.configLoadTime (min t 0xFFFFFFFF)
        let d := { d with boot := { d.boot with done := true } }
        let d := if d.hasTwin then d.setNat O.twinState 1 else d
        let d := (upTo 144).foldl (fun d i => if d.hasPort (i / 4) (i % 4) then (d.assignPll (i / 4) (i % 4)).sendFill (i / 4) (i % 4) else d) d
        let d := (upTo 36).foldl (fun d q => if d.base q = q then d.recheckQuad q else d) d
        (upTo 36).foldl (fun d q => if d.role q = 5 && d.base q = q && d.on O.quadSpapaxEnable q then d.spxEnabled q true else d) d)))

/-- For every state and every operand, each of IDCODE, SAMPLE_PRELOAD, EXTEST, EXTEST_PULSE, EXTEST_TRAIN, HIGHZ, CLAMP answers
a next state: the one written out here, where d is the block after the command's cycles. Where the conditions that the rules
give for the command hold, that state has the command's effect; where they do not, only the cycles have passed. The queue is as
it was. -/
def Obligations.BoundaryCommands : Prop :=
  ∀ (dt : Nat) (s : State),
    let d := s.dev.pass dt
    (exec (.idcode dt) s = s.goesTo ((d.setIr 1 0).send (.jtag (bitList 32 d.idcodeWord)))) ∧
    (∀ (balls : List Bool) (shiftIn : Option (List Bool)),
      exec (.samplePreload dt balls shiftIn) s = s.goesTo (
        let d := (d.setIr 2 0).send (.jtag balls)
        match shiftIn with
        | some l => { d with jtag := { d.jtag with cells := l } }
        | none => d)) ∧
    (exec (.extest dt) s = s.goesTo (if d.boundaryFree then d.setIr 3 1 else d.bypassed)) ∧
    (exec (.extestPulse dt) s = s.goesTo (if d.boundaryFree then d.setIr 4 1 else d.bypassed)) ∧
    (exec (.extestTrain dt) s = s.goesTo (if d.boundaryFree then d.setIr 5 1 else d.bypassed)) ∧
    (exec (.highz dt) s = s.goesTo (if d.boundaryFree then d.setIr 6 2 else d.bypassed)) ∧
    (exec (.clamp dt) s = s.goesTo (if d.boundaryFree then d.setIr 7 1 else d.bypassed))

/-- For every state and every operand, each of CFG_LOAD, DICT_POST, DICT_POLL, DICT_READ, DEBUG, DEVRESET, BYPASS answers a next
state: the one written out here, where d is the block after the command's cycles. Where the conditions that the rules give for
the command hold, that state has the command's effect; where they do not, only the cycles have passed. The queue is as it was. -/
def Obligations.JtagCommands : Prop :=
  ∀ (dt : Nat) (s : State),
    let d := s.dev.pass dt
    (∀ (bytes : List Byte),
      exec (.cfgLoad dt bytes) s = s.goesTo (
        if d.boot.monitor then
          let d := d.setIr 0x20 0
          { d with boot := { d.boot with image := (d.boot.image ++ bytes).take (d.nat O.fwUpdateBytes) } }
        else if bitOf (d.nat O.keyStorePolicy) 3 then d.bypassed
        else
          let d := d.setIr 0x20 0
          let d := if d.loadReady 3 && !bytes.isEmpty then d.loadBegin 3 else d
          if d.nat O.configState = 1 && d.nat O.configMode = 3 && !bytes.isEmpty then { d with boot := { d.boot with lastNs := d.ns } } else d)) ∧
    (∀ (req : List Byte),
      exec (.dictPost dt req) s = s.goesTo (
        let d := d.setIr 0x21 0
        d.when (!d.jtag.outstanding) (fun d =>
          match plainRequest .jtag 8 req with
          | none => { d with jtag := { d.jtag with ready := true, response := [] } }
          | some y => ({ d with jtag := { d.jtag with outstanding := true, ready := false, response := [] } }).serve y.1 y.2))) ∧
    (exec (.dictPoll dt) s = s.goesTo (
      let d := d.setIr 0x21 0
      d.send (.jtag (bitList 32 (b2n d.jtag.ready * 2 ^ 31 + d.jtag.response.length % 2 ^ 14))))) ∧
    (∀ (count : Nat),
      exec (.dictRead dt count) s = s.goesTo (
        let d := d.setIr 0x21 0
        d.send (.jtag (byteBits (d.jtag.response.take count))))) ∧
    (∀ (c : Nat) (halt : Bool) (h_c : c < 16),
      exec (.jtagDebug dt ⟨c, h_c⟩ halt) s = s.goesTo (
        let d := d.setIr 0x22 0
        d.when (4 ≤ c) (fun d =>
          if halt && d.nat O.coreState c = 2 then d.setNat O.coreState 3 c
          else if !halt && d.nat O.coreState c = 3 then d.setNat O.coreState 2 c else d))) ∧
    (∀ (pins : Nat) (h_pins : pins < 8),
      exec (.devreset dt ⟨pins, h_pins⟩) s = s.goesTo ((d.setIr 0x23 0).deviceReset 7 pins)) ∧
    (exec (.bypass dt) s = s.goesTo ((d.setIr 0xFF 0).send (.jtag [false])))

/-- For every state and every operand, each of READBACK_FRAME, WATCHDOG_EXPIRY, FW_UPDATE, RECONFIGURE,
RECONFIGURE_DELAY_EXPIRY, FUSE_PROGRAM, FUSE_BURN_DONE, BBRAM_ERASE, KEY_REVOKE, VBAT_LOSS, ENTROPY_HEALTH_FAILURE answers a
next state: the one written out here, where d is the block after the command's cycles. Where the conditions that the rules give
for the command hold, that state has the command's effect; where they do not, only the cycles have passed. The queue is as it
was. -/
def Obligations.KeyCommands : Prop :=
  ∀ (dt : Nat) (s : State),
    let d := s.dev.pass dt
    (∀ (frame : Nat) (find : FrameFind) (last : Bool) (pins : Nat) (h_pins : pins < 8),
      exec (.readbackFrame dt frame find last ⟨pins, h_pins⟩) s = s.goesTo (
        d.when (d.on O.readbackEnable && d.nat O.configState == 4 && !d.halted) (fun d =>
          let d := if last then d.inc O.readbackSweeps else d
          let name := fun (d : Dev) => (d.setNat O.readbackLastFrame (frame % 2 ^ 32)).setNat O.readbackLastTick d.count
          match find with
          | .ok => d
          | .single _ => name (d.inc O.readbackCorrected)
          | .multi =>
            let d := (name (d.inc O.readbackUncorrectable)).occur 1503
            if d.nat O.readbackAction = 1 then d.deviceReset 8 pins else d))) ∧
    (∀ (pins : Nat) (h_pins : pins < 8),
      exec (.watchdogExpiry dt ⟨pins, h_pins⟩) s = s.goesTo (d.when (!d.boot.monitor) (fun d => d.deviceReset 6 pins))) ∧
    (∀ (og : Origin),
      exec (.fwUpdate dt og) s = s.goesTo (d.commitNow og [(O.fwUpdate.key 0 0 0, .num 1)])) ∧
    (∀ (og : Origin),
      exec (.reconfigure dt og) s = s.goesTo (d.commitNow og [(O.configReconfigure.key 0 0 0, .num 1)])) ∧
    (∀ (pins : Nat) (h_pins : pins < 8),
      exec (.reconfigureDelayExpiry dt ⟨pins, h_pins⟩) s = s.goesTo (
        match d.boot.reconfNs with
        | none => d
        | some t => d.when (decide (t + 1000000 ≤ d.ns)) (fun d => d.deviceReset 3 pins))) ∧
    (∀ (og : Origin) (index sub : Nat) (value : List Byte),
      exec (.fuseProgram dt og index sub value) s = s.goesTo (d.fuseWrite og index sub value)) ∧
    (∀ (ok : Bool),
      exec (.fuseBurnDone dt ok) s = s.goesTo (
        d.when (d.nat O.keyStoreFuseStatus == 1) (fun d =>
          let d := if ok then (d.boot.burning.foldl Dev.burnt d).keyCheck else d
          ({ d with boot := { d.boot with burning := [] } }).setNat O.keyStoreFuseStatus (if ok then 2 else 3)))) ∧
    (∀ (og : Origin),
      exec (.bbramErase dt og) s = s.goesTo (d.commitNow og [(O.keyStoreBbramErase.key 0 0 0, .num 1)])) ∧
    (∀ (og : Origin) (bits : Nat),
      exec (.keyRevoke dt og bits) s = s.goesTo (d.commitNow og [(O.keyStoreRevoke.key 0 0 0, .num bits)])) ∧
    (exec (.vbatLoss dt) s = s.goesTo (((d.setOct O.keyStoreBbramKey (zeros 32)).setNat O.keyStoreBbramState 2).keyCheck)) ∧
    (exec (.entropyHealthFailure dt) s = s.goesTo (((d.inc O.entropyFailures).setNat O.entropyState 1).occur 1503))

/-- For every state and every operand, each of AVS_STEP, RAIL_FAULT, POWER_FAIL_WARNING, POWER_FAIL_CLEAR, DIE_POWER_SAMPLE,
DOMAIN_ON, DOMAIN_OFF, DOMAIN_SWITCH_DONE answers a next state: the one written out here, where d is the block after the
command's cycles. Where the conditions that the rules give for the command hold, that state has the command's effect; where they
do not, only the cycles have passed. The queue is as it was. -/
def Obligations.PowerCommands : Prop :=
  ∀ (dt : Nat) (s : State),
    let d := s.dev.pass dt
    (∀ (answered : Bool),
      exec (.avsStep dt answered) s = s.goesTo (
        let v := d.nat O.powerAvsSetpoint
        let t := d.avsTarget
        let up := v < t
        let due := d.power.avsNs = 0 || decide (d.power.avsNs + (if up then 1000000 else 10000000000) ≤ d.ns)
        d.when (d.boot.fuses && !d.power.tripped && v != t && due) (fun d =>
          if !up && d.power.noLower then (if answered then d.avsAnswer else d)
          else if answered then
            let d := d.avsAnswer.setNat O.powerAvsSetpoint (if up then v + 5 else v - 5)
            { d with power := { d.power with avsNs := d.ns } }
          else
            let n := d.power.silent + 1
            let d := { d with power := { d.power with silent := n % 3 } }
            if n = 3 then (({ d with power := { d.power with noLower := true } }).inc O.powerAvsFaults).occur 1501 else d))) ∧
    (∀ (rail pins : Nat) (h_rail : rail < 10) (h_pins : pins < 8),
      exec (.railFault dt ⟨rail, h_rail⟩ ⟨pins, h_pins⟩) s = s.goesTo ((d.setNat O.powerSupplyFaultRail (rail + 1)).deviceReset 5 pins)) ∧
    (exec (.powerFailWarning dt) s = s.goesTo (
      d.when (!d.on O.powerFailWarn) (fun d =>
        let d := (d.setNat O.powerFailWarn 1).inc O.powerFailWarnings
        let d := ({ d with power := { d.power with warnNs := some d.ns } }).checkpoint
        (upTo 1024).foldl (fun d i => if (d.closedIn i).isEmpty then d else d.flushNs i) d))) ∧
    (exec (.powerFailClear dt) s = s.goesTo (
      d.when (d.on O.powerFailWarn) (fun d => ({ d with power := { d.power with warnNs := none } }).setNat O.powerFailWarn 0))) ∧
    (∀ (x mw : Nat) (h_x : x < 10),
      exec (.diePowerSample dt ⟨x, h_x⟩ mw) s = s.goesTo (
        let d := d.setNat O.powerDiePower (min mw (2 ^ 32 - 1)) 0 0 x
        if 8 ≤ x then d
        else
          let lim := d.nat O.powerDieLimit 0 0 x
          let p := d.power
          let above := lim < mw
          let under := mw + 5000 ≤ lim
          let o := SMap.getD p.overNs x d.ns
          let u := SMap.getD p.underNs x d.ns
          let hot := bitOf p.powerThrottle x
          let set := above && !hot && o + 10000000 ≤ d.ns
          let clear := under && hot && u + 10000000 ≤ d.ns
          let p := { p with overNs := if above then SMap.ins p.overNs x o else SMap.del p.overNs x,
                            underNs := if under then SMap.ins p.underNs x u else SMap.del p.underNs x,
                            powerThrottle := if set then p.powerThrottle + 2 ^ x else if clear then p.powerThrottle - 2 ^ x else p.powerThrottle }
          let d := ({ d with power := p }).throttling
          if set then d.occur 1500 else d)) ∧
    (∀ (og : Origin) (n : Nat) (h_n : n < 60),
      exec (.domainOn dt og ⟨n, h_n⟩) s = s.goesTo (d.commitNow og [(O.powerDomainControl.key 0 0 n, .num 1)])) ∧
    (∀ (og : Origin) (n : Nat) (h_n : n < 60),
      exec (.domainOff dt og ⟨n, h_n⟩) s = s.goesTo (d.commitNow og [(O.powerDomainControl.key 0 0 n, .num 0)])) ∧
    (∀ (n : Nat) (h_n : n < 60),
      exec (.domainSwitchDone dt ⟨n, h_n⟩) s = s.goesTo (
        match SMap.find d.power.switching n with
        | none => d
        | some s => d.when s.since.isSome (fun d =>
            let d := { d with power := { d.power with switching := SMap.del d.power.switching n } }
            (if s.on then d.domainUp n else (d.domainLost n 8).setDom n 0).pumpDomains)))

/-- For every state and every operand, each of DOMAIN_SWITCH_TIMEOUT, DOMAIN_DROOP, THERMAL_SAMPLE, AGEING_SAMPLE,
MARGIN_MEASURE, WEEKLY_HISTORY, POWERED_TIME_PERSIST answers a next state: the one written out here, where d is the block after
the command's cycles. Where the conditions that the rules give for the command hold, that state has the command's effect; where
they do not, only the cycles have passed. The queue is as it was. -/
def Obligations.ThermalAgeingCommands : Prop :=
  ∀ (dt : Nat) (s : State),
    let d := s.dev.pass dt
    (∀ (n : Nat) (h_n : n < 60),
      exec (.domainSwitchTimeout dt ⟨n, h_n⟩) s = s.goesTo (
        match SMap.find d.power.switching n with
        | some { on := true, since := some t } => d.when (decide (t + 2 * onBound n ≤ d.ns)) (fun d => d.domainFault n)
        | _ => d)) ∧
    (∀ (n : Nat) (h_n : n < 60),
      exec (.domainDroop dt ⟨n, h_n⟩) s = s.goesTo (
        let now := match SMap.find d.power.switching n with
          | some s => !s.on && s.since == some d.ns
          | none => false
        d.when (d.dom n == 1 || now) (fun d => d.domainFault n))) ∧
    (∀ (sensors : List (Fin 10 × Fin 9 × Int)) (hbms dimms : List (Fin 8 × Int)),
      exec (.thermalSample dt sensors hbms dimms) s = s.goesTo (
        let d := sensors.foldl (fun d e => if e.1.val < 8 || e.2.1.val < 4 then d.setInt O.thermalSensor e.2.2 e.1 0 e.2.1 else d) d
        let d := (upTo 10).foldl (fun d x => if sensors.any (fun e => e.1.val == x) then d.dieThresholds x else d) d
        let d := hbms.foldl (fun d e =>
          let d := d.warnThresh (16 + e.1) 3 (10 * d.nat O.thermalHbmLimit) e.2
          let r := d.sampleThresh (16 + e.1) 2 1050 e.2
          if r.1 then (r.2.drawn).trip (16 + e.1) (r.2.draw % 256) e.2 else r.2) d
        let d := dimms.foldl (fun d e => d.warnThresh (32 + e.1) 4 (10 * d.nat O.thermalDdrLimit) e.2) d
        d.throttling)) ∧
    (exec (.ageingSample dt) s = s.goesTo (
      let d := d.inc O.ageingPoweredSeconds
      let d := (upTo 10).foldl (fun d x =>
        let t := d.int O.thermalDieMax 0 0 x
        let a := d.age x
        let a := { a with tempSum := a.tempSum + t, temps := a.temps + 1, hottest := max a.hottest t }
        let m := d.openDiv a.tempSum a.temps
        (m.2.setInt O.ageingAvgJunction m.1 0 0 x).setAge x a) d
      d.lifeStates)) ∧
    (∀ (l : List (Fin 10 × Fin 9 × Nat)),
      exec (.marginMeasure dt l) s = s.goesTo (
        let d := (upTo 10).foldl (fun d x =>
          let mine := l.filter (fun e => e.1.val == x && (x < 8 || e.2.1.val < 4))
          if mine.isEmpty then d
          else
            let v := min 65535 (mine.foldl (fun m e => max m e.2.2) 0)
            let a := d.age x
            (d.setNat O.ageingRequiredVoltage v 0 0 x).setAge x { a with reqSum := a.reqSum + v, reqs := a.reqs + 1 }) d
        d.lifeStates)) ∧
    (exec (.weeklyHistory dt) s = s.goesTo (
      let secs := d.nat O.ageingPoweredSeconds
      d.when ((upTo 10).all (fun x => ((d.age x).weeks.length + 1) * 604800 ≤ secs)) (fun d =>
        let d := (upTo 10).foldl (fun d x =>
          let a := d.age x
          let m : Int × Dev := if a.reqs = 0 then ((d.draw % 65536 : Nat), d.drawn) else d.openDiv a.reqSum a.reqs
          let d := m.2
          let v := m.1.toNat
          let entry := leBytes 4 (secs / 3600) ++ leBytes 1 x ++ zeros 1 ++ leBytes 2 v ++
            leBytes 2 (unsigned 16 (d.int O.ageingAvgJunction 0 0 x)) ++ leBytes 2 (unsigned 16 a.hottest) ++ leBytes 4 a.fails
          let weeks := a.weeks ++ [v]
          let d := d.setAge x { a with weeks := weeks, reqSum := 0, reqs := 0, hottest := -32768, fails := 0 }
          let d := { d with power := { d.power with history := d.power.history ++ [entry] } }
          let p := d.projected x weeks
          p.2.setNat O.ageingProjectedLife p.1 0 0 x) d
        (d.writeArea 21504 (O.ageingProjectedLife.key 0 0 0)).lifeStates))) ∧
    (exec (.poweredTimePersist dt) s = s.goesTo (
      d.when (!d.keepHeld) (fun d =>
        let keys := O.ageingPoweredSeconds.key 0 0 0 :: (upTo 10).map (O.ageingAvgJunction.key 0 0)
        let vals := keys.foldl (fun m k => match SMap.find d.objs k with
          | some v => SMap.ins m k v
          | none => SMap.del m k) d.diag.vals
        ({ d with diag := { d.diag with vals := vals, ages := d.power.ages } }).writeArea 21504 (O.ageingPoweredSeconds.key 0 0 0))))

/-- For every state and every operand, each of DUAXIS_FRAME_ERROR, DUAXIS_TRAINING, SLICE_DUE, HANDSHAKE_ACK, HANDSHAKE_TIMEOUT,
DEFERRAL_RETRY, SLICE_END, RUN_NOW, CLEAR_PERMANENT, CLEAR_SUSPECT answers a next state: the one written out here, where d is
the block after the command's cycles. Where the conditions that the rules give for the command hold, that state has the
command's effect; where they do not, only the cycles have passed. The queue is as it was. -/
def Obligations.SelfTestCommands : Prop :=
  ∀ (dt : Nat) (s : State),
    let d := s.dev.pass dt
    (∀ (edge dir b : Nat) (wire : Option (Fin 34)) (both : Bool) (h_edge : edge < 18) (h_dir : dir < 2) (h_b : b < 64),
      exec (.duaxisFrameError dt ⟨edge, h_edge⟩ ⟨dir, h_dir⟩ ⟨b, h_b⟩ wire both) s = s.goesTo (
        d.when (b < edgeBundles edge && (d.bundle (bundleKey edge dir b)).state != 3 && d.boot.links) (fun d =>
          let k := bundleKey edge dir b
          let x := d.bundle k
          match wire with
          | some w =>
            let times := x.times.filter (fun e => decide (d.ns < e.2 + 1000000000)) ++ [(w.val, d.ns)]
            let d := d.setBundle k { x with corrected := x.corrected + 1, times := times }
            if 16 < (times.filter (fun e => e.1 == w.val)).length then d.suspect k w else d
          | none =>
            let x := { x with uncorrectable := x.uncorrectable + 1 }
            if b < 12 then d.setBundle k { x with replays := x.replays + 1 }
            else if edgeControl edge && b < 14 then
              if both then (d.setBundle k { x with replays := x.replays + 1 }).occur 1503 else d.setBundle k x
            else ((d.setBundle k { x with xerr := x.xerr + 1 }).crossError edge dir b).occur 1503))) ∧
    (∀ (errs fuses : List (Fin 18 × Fin 2 × Fin 64 × Fin 34)),
      exec (.duaxisTraining dt errs fuses) s = s.goesTo (
        d.when (!d.boot.links && d.boot.fuses && d.pll 2 == 2 && d.pll 3 == 2 && d.nat O.configState == 0) (fun d =>
          let d := (upTo 18).foldl (fun d edge => (upTo 2).foldl (fun d dir => (upTo (edgeBundles edge)).foldl (fun d b =>
            d.trainBundle errs fuses (bundleKey edge dir b)) d) d) d
          if (upTo 18).all d.edgeWorks && (upTo 10).all (d.repairsAgree fuses) then
            ({ d with boot := { d.boot with links := true } }).bootGo
          else d.bootFault 15))) ∧
    (∀ (u i : Nat) (h_u : u < 16),
      exec (.sliceDue dt ⟨u, h_u⟩ i) s = s.goesTo (
        let apart := match SMap.find d.test.lastNs (testKey u i) with
          | some t => !unitPriv u || decide (t + 1000000 ≤ d.ns)
          | none => true
        d.when (i < unitInsts u && (d.on O.selfTestEnable || d.runningNow u i) && !d.stopped && (d.sliceOf u i).isNone && apart &&
            d.testable u i && (unitPriv u || d.ordinaryRunning < 4)) (fun d =>
          d.trySlice { unit := u, inst := i, slice := SMap.getD d.test.next (testKey u i) 0 }))) ∧
    (∀ (u i : Nat) (h_u : u < 16),
      exec (.handshakeAck dt ⟨u, h_u⟩ i) s = s.goesTo (
        match d.sliceOf u i with
        | none => d
        | some s => d.when (s.state == 0) (fun d =>
            if !d.mayStart s then d.dropSlice u i
            else if d.testCalm u i then d.setSliceOf { s with state := 1, ns := d.ns } else d.deferSlice s))) ∧
    (∀ (u i : Nat) (h_u : u < 16),
      exec (.handshakeTimeout dt ⟨u, h_u⟩ i) s = s.goesTo (
        match d.sliceOf u i with
        | none => d
        | some s => d.when (s.state == 0 && decide (s.ns + 10000 ≤ d.ns)) (fun d => d.deferSlice s))) ∧
    (∀ (u i : Nat) (h_u : u < 16),
      exec (.deferralRetry dt ⟨u, h_u⟩ i) s = s.goesTo (
        match d.sliceOf u i with
        | none => d
        | some s => d.when (s.state == 3 && decide (s.ns + 1000000000 ≤ d.ns) && d.testable u i && d.ordinaryRunning < 4) (fun d =>
            if d.mayStart s then d.trySlice s else d.dropSlice u i))) ∧
    (∀ (u i signature : Nat) (h_u : u < 16),
      exec (.sliceEnd dt ⟨u, h_u⟩ i signature) s = s.goesTo (
        match d.sliceOf u i with
        | none => d
        | some s =>
          d.when (s.state == 1 && !d.stopped) (fun d =>
            let pass := signature % 2 ^ 64 == Config.sliceRef u s.slice (d.stepping (testDie u i)) % 2 ^ 64
            let calm := d.testCalm u i
            let s := { s with cond := s.cond || (unitPriv u && !calm) }
            if !s.repeat_ then
              if pass then (d.inc O.selfTestSlices).sliceOver s
              else d.trySlice { s with repeat_ := true }
            else
              let d := if pass || s.cond then (d.testEntry s 1 (signature % 2 ^ 64)).inc O.selfTestTransients else d.sliceFail s (signature % 2 ^ 64)
              d.sliceOver s))) ∧
    (∀ (og : Origin) (unit inst : Nat) (h_unit : unit < 16),
      exec (.runNow dt og ⟨unit, h_unit⟩ inst) s = s.goesTo (
        d.commitNow og
            [(O.selfTestUnitSelect.key 0 0 0, .num (unit * 2 ^ 24 + inst * 2 ^ 8)), (O.selfTestRunNow.key 0 0 0, .num 1)])) ∧
    (∀ (og : Origin) (dies : Nat),
      exec (.clearPermanent dt og dies) s = s.goesTo (d.commitNow og [(O.selfTestClearPermanent.key 0 0 0, .num dies)])) ∧
    (∀ (og : Origin) (edge dir bundle : Nat) (h_edge : edge < 18) (h_dir : dir < 2) (h_bundle : bundle < 64),
      exec (.clearSuspect dt og ⟨edge, h_edge⟩ ⟨dir, h_dir⟩ ⟨bundle, h_bundle⟩) s = s.goesTo (
        d.commitNow og
            [(O.diagDuaxisSelect.key 0 0 0, .num (edge * 256 + dir * 64 + bundle)), (O.diagDuaxisClearSuspect.key 0 0 0, .num 1)]))

/-- For every state and every operand, each of PERST_ASSERT, PERST_RELEASE_EXPIRY, PCIE_LINK_UP, CONTROLLER_READY,
DRAM_TRAINING_DONE, PLL_LOCK_TIMEOUT, CLOCK_RETURN, ENTROPY_HEALTH_PASS, PERST_DEASSERT, FABRIC_SHADOW_ACK answers a next state:
the one written out here, where d is the block after the command's cycles. Where the conditions that the rules give for the
command hold, that state has the command's effect; where they do not, only the cycles have passed. The queue is as it was. -/
def Obligations.LateRowCommands : Prop :=
  ∀ (dt : Nat) (s : State),
    let d := s.dev.pass dt
    (exec (.perstAssert dt) s = s.goesTo (d.when d.hasHost (fun d => ({ d with pins := { d.pins with hostReset := true } }).dropMailboxes.pcieDown 0))) ∧
    (∀ (q : Nat) (h_q : q < 36),
      exec (.perstReleaseExpiry dt ⟨q, h_q⟩) s = s.goesTo (
        match SMap.find d.pins.refNs q with
        | none => d
        | some t =>
          d.when (d.role q == 4 && !d.pins.released.contains q && decide (t + 100000000 ≤ d.ns)) (fun d =>
            let d := { d with pins := { d.pins with released := q :: d.pins.released },
                              links := { d.links with retrainNs := SMap.ins d.links.retrainNs q d.ns, retried := SMap.ins d.links.retried q 1 } }
            d.send (.perst q false)))) ∧
    (∀ (q speed width : Nat) (h_q : q < 36) (h_speed : speed < 7),
      exec (.pcieLinkUp dt ⟨q, h_q⟩ ⟨speed, h_speed⟩ width) s = s.goesTo (
        d.when (!d.stopped && ((d.role q == 3 && !d.pins.hostReset) || (d.role q == 4 && d.pins.released.contains q))) (fun d =>
          let d := d.pcieUp q speed width
          ((upTo 64).foldl (fun d c =>
            if (d.ctl c).downed && d.nat O.storeCtlQuad c = q then
              let d := d.setCtl c { d.ctl c with downed := false }
              if d.nat O.storeCtlState c = 4 then d else d.ctlReset c
            else d) d).storeTick))) ∧
    (∀ (c : Nat) (rdy : Option Bool) (h_c : c < 64),
      exec (.controllerReady dt ⟨c, h_c⟩ rdy) s = s.goesTo (
        let x := d.ctl c
        match rdy with
        | none => d.when (x.phase != 0) (fun d => (d.ctlFailed c).storeTick)
        | some false => d.when (x.phase == 1) (fun d => (d.setCtl c { x with phase := 2 }).setNat O.storeCtlState 1 c)
        | some true => d.when (x.phase == 2) (fun d =>
            let d := (d.setCtl c { x with phase := 0 }).setNat O.storeCtlState 2 c
            d.pumpCtl c d.store.cmds.length))) ∧
    (∀ (ok : List (Fin 136)) (dimms : List DimmSet),
      exec (.dramTrainingDone dt ok dimms) s = s.goesTo (
        d.when (!d.boot.trained) (fun d =>
          let passed := fun (ch : Nat) => ok.any (fun x => x.val == ch)
          let d := (upTo 2).foldl (fun d half =>
            let fitted := dimms.filter (fun x => x.chan.val / 4 == half && x.dimms != 0)
            let trained := fitted.filter (fun x => passed x.chan.val)
            let set := interleaveSet (sortBy (fun (x y : DimmSet) => x.chan.val < y.chan.val) trained)
            let d := (upTo 4).foldl (fun d i =>
              let ch := 4 * half + i
              if set.any (fun x => x.chan.val == ch) then d.setCh O.memChannelState ch 1
              else
                let d := d.absent ch
                if fitted.any (fun x => x.chan.val == ch) then d.occur 1503 else d) d
            let d := set.foldl (fun d x =>
              let d := { d with mem := { d.mem with ranks := SMap.ins d.mem.ranks x.chan (x.dimms, x.ranks, x.bytes) } }
              let d := d.setNat O.memChannelBytes (x.dimms * x.bytes) 0 x.chan
              d.setNat O.memDdrChannels (Nat.lor (d.nat O.memDdrChannels) (2 ^ x.chan.val))) d
            let n := sumBy (fun x => x.dimms * x.bytes) set
            (d.setNat (if half = 0 then O.memDdrBytesNorth else O.memDdrBytesSouth) n).setNat O.memStageSize (min 0x1000000000 n) half) d
          let d := (upTo 2).foldl (fun d half =>
            let chs := (upTo 64).map (fun i => 8 + 64 * half + i)
            if chs.all passed then chs.foldl (fun d ch => d.setCh O.memChannelBytes ch 0x90000000) d
            else
              let d := (chs.filter (fun ch => !passed ch)).foldl (fun d _ => d.occur 1503) d
              let d := chs.foldl Dev.absent d
              d.setNat O.memHbmBytes (d.nat O.memHbmBytes - 144 * 2 ^ 30)) d
          let d := (upTo 136).foldl (fun d ch => if d.chState ch = 0 then d else d.setChan ch { d.chan ch with sensorNs := some d.ns }) d
          { d with boot := { d.boot with trained := true } }))) ∧
    (exec (.pllLockTimeout dt) s = s.goesTo (
      d.when (d.nat O.configState == 0 && d.boot.drawn && d.boot.restored && !(d.boot.plls && d.boot.links)) (fun d => d.bootFault 11))) ∧
    (∀ (i : Nat) (h_i : i < 5),
      exec (.clockReturn dt ⟨i, h_i⟩) s = s.goesTo (d.when (d.src i == 3) (fun d => d.setSrc i 1))) ∧
    (exec (.entropyHealthPass dt) s = s.goesTo (
      let d := d.setNat O.entropyState 0
      (upTo 36).foldl (fun d q => if d.stage q = 4 then d.eachPort q (fun d i => if (d.spx i).nonce.isEmpty then d.linkNonce i else d) else d) d)) ∧
    (exec (.perstDeassert dt) s = s.goesTo ({ d with pins := { d.pins with hostReset := false } })) ∧
    (∀ (index sub : Nat),
      exec (.fabricShadowAck dt index sub) s = s.goesTo (
        let k := index * 256 + sub
        d.when ((SMap.find d.fab.shadows k).isSome && d.fabricRuns) (fun d =>
          { d with fab := { d.fab with shadows := SMap.ins d.fab.shadows k true } })))
end

