-- ==== Sys2Proof/Laws/Map.lean ====
section
/-! SUPPORT. Laws of the maps: a lookup after an update, and that updates keep the canonical form. -/

set_option Elab.async false
set_option linter.unusedTactic false
set_option linter.unreachableTactic false

namespace Sys2Proof.Machine

variable {α : Type}

/-- A key that has been put reads as put. -/
@[simp] theorem SMap.find_ins_self (m : SMap α) (k : Nat) (v : α) : SMap.find (SMap.ins m k v) k = some v := by
  induction m with
  | nil => simp [SMap.ins, SMap.find]
  | cons e m ih =>
    obtain ⟨j, w⟩ := e
    simp only [SMap.ins]
    split
    · simp [SMap.find]
    · split
      · simp [SMap.find]
      · have : ¬ j = k := fun h => by subst h; contradiction
        simp [SMap.find, this, ih]

/-- Another key reads as before. -/
theorem SMap.find_ins_ne (m : SMap α) {k i : Nat} (v : α) (h : i ≠ k) : SMap.find (SMap.ins m k v) i = SMap.find m i := by
  induction m with
  | nil => simp [SMap.ins, SMap.find, Ne.symm h]
  | cons e m ih =>
    obtain ⟨j, w⟩ := e
    simp only [SMap.ins]
    split
    · simp [SMap.find, Ne.symm h]
    · split
      · rename_i h2; subst h2; simp [SMap.find, Ne.symm h]
      · simp [SMap.find, ih]

/-- A removed key is absent. -/
@[simp] theorem SMap.find_del_self (m : SMap α) (k : Nat) : SMap.find (SMap.del m k) k = none := by
  induction m with
  | nil => rfl
  | cons e m ih =>
    obtain ⟨j, w⟩ := e
    by_cases h : j = k
    · subst h; simpa [SMap.del] using ih
    · have : SMap.find (SMap.del ((j, w) :: m) k) k = SMap.find ((j, w) :: SMap.del m k) k := by simp [SMap.del, h]
      rw [this]; simp [SMap.find, h, ih]

/-- Removing a key leaves the others. -/
theorem SMap.find_del_ne (m : SMap α) {k i : Nat} (h : i ≠ k) : SMap.find (SMap.del m k) i = SMap.find m i := by
  induction m with
  | nil => rfl
  | cons e m ih =>
    obtain ⟨j, w⟩ := e
    by_cases hj : j = k
    · subst hj
      have : SMap.del ((j, w) :: m) j = SMap.del m j := by simp [SMap.del]
      rw [this, ih]; simp [SMap.find, Ne.symm h]
    · have : SMap.del ((j, w) :: m) k = (j, w) :: SMap.del m k := by simp [SMap.del, hj]
      rw [this]; simp [SMap.find, ih]

variable [DecidableEq α]

/-- A key that has been set reads as set. -/
@[simp] theorem SMap.getD_setD_self (m : SMap α) (k : Nat) (d v : α) : SMap.getD (SMap.setD m k d v) k d = v := by
  unfold SMap.getD SMap.setD
  split
  · rename_i h; subst h; simp
  · simp

/-- Another key reads as before. -/
theorem SMap.getD_setD_ne (m : SMap α) {k i : Nat} (d v e : α) (h : i ≠ k) :
    SMap.getD (SMap.setD m k d v) i e = SMap.getD m i e := by
  unfold SMap.getD SMap.setD
  split
  · rw [SMap.find_del_ne m h]
  · rw [SMap.find_ins_ne m v h]

omit [DecidableEq α] in
/-- The keys of a list with rising keys lie above the first. -/
theorem SMap.sorted_cons {e : Nat × α} {m : SMap α} :
    SMap.sorted (e :: m) = true ↔ SMap.sorted m = true ∧ ∀ x ∈ m, e.1 < x.1 := by
  induction m generalizing e with
  | nil => simp [SMap.sorted]
  | cons f m ih =>
    obtain ⟨j, v⟩ := e
    obtain ⟨k, w⟩ := f
    simp only [SMap.sorted, Bool.and_eq_true, decide_eq_true_eq, List.mem_cons, forall_eq_or_imp]
    constructor
    · rintro ⟨h1, h2⟩
      exact ⟨h2, h1, fun x hx => lt_trans h1 ((ih.mp h2).2 x hx)⟩
    · rintro ⟨h2, h1, _⟩
      exact ⟨h1, h2⟩

omit [DecidableEq α] in
/-- What an insertion holds. -/
theorem SMap.mem_ins {m : SMap α} {k : Nat} {v : α} {x : Nat × α} (h : x ∈ SMap.ins m k v) : x = (k, v) ∨ x ∈ m := by
  induction m with
  | nil => simpa [SMap.ins] using h
  | cons e m ih =>
    obtain ⟨j, w⟩ := e
    simp only [SMap.ins] at h
    split at h
    · simpa using h
    · split at h
      · rcases List.mem_cons.mp h with h | h
        · exact .inl h
        · exact .inr (List.mem_cons_of_mem _ h)
      · rcases List.mem_cons.mp h with h | h
        · exact .inr (by simp [h])
        · rcases ih h with h | h
          · exact .inl h
          · exact .inr (List.mem_cons_of_mem _ h)

omit [DecidableEq α] in
/-- Putting an entry keeps the keys rising. -/
theorem SMap.sorted_ins (m : SMap α) (k : Nat) (v : α) (h : SMap.sorted m = true) : SMap.sorted (SMap.ins m k v) = true := by
  induction m with
  | nil => rfl
  | cons e m ih =>
    obtain ⟨j, w⟩ := e
    have hs := SMap.sorted_cons.mp h
    simp only [SMap.ins]
    split
    · rename_i hk
      refine SMap.sorted_cons.mpr ⟨h, ?_⟩
      intro x hx
      rcases List.mem_cons.mp hx with hx | hx
      · subst hx; exact hk
      · exact lt_trans hk (hs.2 x hx)
    · split
      · rename_i hk; subst hk
        exact SMap.sorted_cons.mpr ⟨hs.1, hs.2⟩
      · rename_i h1 h2
        refine SMap.sorted_cons.mpr ⟨ih hs.1, ?_⟩
        intro x hx
        rcases SMap.mem_ins hx with hx | hx
        · subst hx; simp only; omega
        · exact hs.2 x hx

omit [DecidableEq α] in
/-- Leaving entries out keeps the keys rising. -/
theorem SMap.sorted_filter (m : SMap α) (p : Nat × α → Bool) (h : SMap.sorted m = true) : SMap.sorted (m.filter p) = true := by
  induction m with
  | nil => rfl
  | cons e m ih =>
    have hs := SMap.sorted_cons.mp h
    by_cases hp : p e = true
    · rw [List.filter_cons_of_pos hp]
      exact SMap.sorted_cons.mpr ⟨ih hs.1, fun x hx => hs.2 x (List.mem_filter.mp hx).1⟩
    · rw [List.filter_cons_of_neg hp]; exact ih hs.1

/-- The canonical form in words. -/
theorem SMap.wf_iff {m : SMap α} {d : Nat → α} : SMap.wf m d = true ↔ SMap.sorted m = true ∧ ∀ e ∈ m, e.2 ≠ d e.1 := by
  simp [SMap.wf, List.all_eq_true]

/-- Leaving entries out keeps the canonical form. -/
theorem SMap.wf_filter {m : SMap α} {d : Nat → α} (p : Nat × α → Bool) (h : SMap.wf m d = true) : SMap.wf (m.filter p) d = true := by
  obtain ⟨h1, h2⟩ := SMap.wf_iff.mp h
  exact SMap.wf_iff.mpr ⟨SMap.sorted_filter m p h1, fun e he => h2 e (List.mem_filter.mp he).1⟩

/-- Setting a key keeps the canonical form. -/
theorem SMap.wf_setD {m : SMap α} {d : Nat → α} (k : Nat) (v : α) (h : SMap.wf m d = true) :
    SMap.wf (SMap.setD m k (d k) v) d = true := by
  unfold SMap.setD
  split
  · exact SMap.wf_filter _ h
  · rename_i hv
    obtain ⟨h1, h2⟩ := SMap.wf_iff.mp h
    refine SMap.wf_iff.mpr ⟨SMap.sorted_ins m k v h1, ?_⟩
    intro e he
    rcases SMap.mem_ins he with he | he
    · subst he; exact hv
    · exact h2 e he

end Sys2Proof.Machine
end

