-- ==== Sys2Proof/Laws/Memory.lean ====
section
/-! SUPPORT. Laws of the plain contents of memory: a read after a write, and that every operation keeps the canonical form. -/

set_option Elab.async false
set_option linter.unusedTactic false
set_option linter.unreachableTactic false

namespace Sys2Proof.Machine

/-- A byte that has been written reads as written. -/
@[simp] theorem Memory.get_set_self (m : List Host.Cell) (a : Nat) (b : Byte) : Memory.get (Memory.set m a b) a = b :=
  SMap.getD_setD_self m a 0 b

/-- Every other byte reads as before. -/
theorem Memory.get_set_ne (m : List Host.Cell) {a i : Nat} (b : Byte) (h : i ≠ a) : Memory.get (Memory.set m a b) i = Memory.get m i :=
  SMap.getD_setD_ne m 0 b 0 h

/-- Writing a byte keeps the canonical form. -/
theorem Memory.wf_set {m : List Host.Cell} (a : Nat) (b : Byte) (h : Memory.wf m = true) : Memory.wf (Memory.set m a b) = true :=
  SMap.wf_setD (d := fun _ => 0) a b h

/-- Writing bytes keeps the canonical form. -/
theorem Memory.wf_write {m : List Host.Cell} (a : Nat) (l : List Byte) (h : Memory.wf m = true) : Memory.wf (Memory.write m a l) = true := by
  induction l generalizing m a with
  | nil => exact h
  | cons b bs ih => exact ih (a + 1) (Memory.wf_set a b h)

/-- A byte outside the written bytes reads as before. -/
theorem Memory.get_write_out (m : List Host.Cell) (a : Nat) (l : List Byte) (i : Nat) (h : i < a ∨ a + l.length ≤ i) :
    Memory.get (Memory.write m a l) i = Memory.get m i := by
  induction l generalizing m a with
  | nil => rfl
  | cons b bs ih =>
    simp only [List.length_cons] at h
    rw [Memory.write, ih _ _ (by omega), Memory.get_set_ne _ _ (by omega)]

/-- A written byte reads as written. -/
theorem Memory.get_write_in (m : List Host.Cell) (a : Nat) (l : List Byte) (i : Nat) (h : i < l.length) :
    Memory.get (Memory.write m a l) (a + i) = l[i] := by
  induction l generalizing m a i with
  | nil => simp at h
  | cons b bs ih =>
    rw [Memory.write]
    cases i with
    | zero => rw [Memory.get_write_out _ _ _ _ (by omega)]; simp
    | succ j =>
      have hj : j < bs.length := by simpa using h
      have := ih (Memory.set m a b) (a + 1) j hj
      simpa [Nat.add_assoc, Nat.add_comm 1 j] using this

/-- Contents lost keep the canonical form. -/
theorem Memory.wf_filter {m : List Host.Cell} (p : Host.Cell → Bool) (h : Memory.wf m = true) : Memory.wf (m.filter p) = true :=
  SMap.wf_filter (d := fun _ => 0) p h

/-- `poke` keeps the canonical form. -/
theorem Dev.poke_wf {d : Dev} (a : Nat) (l : List Byte) (h : Memory.wf d.mem.cells = true) : Memory.wf (d.poke a l).mem.cells = true :=
  Memory.wf_write a l h

/-- `scrap` keeps the canonical form. -/
theorem Dev.scrap_wf {d : Dev} (p : Nat → Bool) (h : Memory.wf d.mem.cells = true) : Memory.wf (d.scrap p).mem.cells = true :=
  Memory.wf_filter _ h

/-- Reset memory lists nothing. -/
theorem reset_memory_wf : Memory.wf State.reset.dev.mem.cells = true := rfl

end Sys2Proof.Machine
end

