-- ==== Sys2Proof/Laws/Frame.lean ====
section
/-! SUPPORT. What an operation of the block keeps: `Same` says that the plain contents of memory, the count and the time
are as before, `Safe` that the memory stays canonical and the count a 64-bit number. In both the free values go forward
only and the objects stay a map. The lemmas named after an operation say which of the two it is. -/

set_option Elab.async false
set_option linter.unusedTactic false
set_option linter.unreachableTactic false

namespace Sys2Proof.Machine

/-- The plain contents of memory, the count and the time are as before; free values are not reused; the objects stay a map. -/
structure Same (d e : Dev) : Prop where
  cells : e.mem.cells = d.mem.cells
  count : e.count = d.count
  ns : e.ns = d.ns
  free : d.free ≤ e.free
  objs : SMap.sorted d.objs = true → SMap.sorted e.objs = true

/-- The memory stays canonical and the count a 64-bit number; the time is as before. -/
structure Safe (d e : Dev) : Prop where
  cells : Memory.wf d.mem.cells = true → Memory.wf e.mem.cells = true
  count : d.count < 2 ^ 64 → e.count < 2 ^ 64
  ns : e.ns = d.ns
  free : d.free ≤ e.free
  objs : SMap.sorted d.objs = true → SMap.sorted e.objs = true

variable {α β γ : Type} {d e m : Dev}

/-- The stronger of the two. -/
theorem Same.safe (h : Same d e) : Safe d e :=
  ⟨fun w => by rw [h.cells]; exact w, fun w => by rw [h.count]; exact w, h.ns, h.free, h.objs⟩

theorem Same.refl (d : Dev) : Same d d := ⟨rfl, rfl, rfl, Nat.le_refl _, id⟩

theorem Safe.refl (d : Dev) : Safe d d := (Same.refl d).safe

theorem Same.trans (h : Same d m) (k : Same m e) : Same d e :=
  ⟨k.cells.trans h.cells, k.count.trans h.count, k.ns.trans h.ns, Nat.le_trans h.free k.free, fun w => k.objs (h.objs w)⟩

theorem Safe.trans (h : Safe d m) (k : Safe m e) : Safe d e :=
  ⟨fun w => k.cells (h.cells w), fun w => k.count (h.count w), k.ns.trans h.ns, Nat.le_trans h.free k.free, fun w => k.objs (h.objs w)⟩

/-- As `Same.trans`, last part first. -/
theorem Same.pre (k : Same m e) (h : Same d m) : Same d e := h.trans k

/-- As `Safe.trans`, last part first. -/
theorem Safe.pre (k : Safe m e) (h : Safe d m) : Safe d e := h.trans k

/-- The second part of an answer that has been taken apart. -/
theorem Same.of_snd {x : β × Dev} {b : β} (h : x = (b, e)) (k : Same d x.2) : Same d e := by subst h; exact k

/-- As `Same.of_snd`. -/
theorem Safe.of_snd {x : β × Dev} {b : β} (h : x = (b, e)) (k : Safe d x.2) : Safe d e := by subst h; exact k

theorem Safe.elim {o : Option α} {x : Dev} {f : α → Dev} (h : Safe d x) (k : ∀ i : α, Safe d (f i)) : Safe d (o.elim x f) := by
  cases o
  · exact h
  · exact k _

/-- An answer of three parts made from one of two. -/
theorem Same.let3 {b : γ} (r : β × Dev) (h : Same d r.2) : Same d (let x := r; ((x.1, b, x.2) : β × γ × Dev)).2.2 := h

theorem Same.ite {c : Prop} [Decidable c] {x y : Dev} (h : Same d x) (k : Same d y) : Same d (if c then x else y) := by
  split <;> assumption

theorem Safe.ite {c : Prop} [Decidable c] {x y : Dev} (h : Safe d x) (k : Safe d y) : Safe d (if c then x else y) := by
  split <;> assumption

theorem Same.foldl {f : Dev → α → Dev} (h : ∀ (a : Dev) (x : α), Same a (f a x)) (l : List α) (d : Dev) : Same d (l.foldl f d) := by
  induction l generalizing d with
  | nil => exact Same.refl d
  | cons x l ih => exact (h d x).trans (ih (f d x))

theorem Safe.foldl {f : Dev → α → Dev} (h : ∀ (a : Dev) (x : α), Safe a (f a x)) (l : List α) (d : Dev) : Safe d (l.foldl f d) := by
  induction l generalizing d with
  | nil => exact Safe.refl d
  | cons x l ih => exact (h d x).trans (ih (f d x))

theorem Same.foldl_fst {f : Dev × β → α → Dev × β} (h : ∀ (a : Dev × β) (x : α), Same a.1 (f a x).1) (l : List α) (d : Dev × β) :
    Same d.1 (l.foldl f d).1 := by
  induction l generalizing d with
  | nil => exact Same.refl d.1
  | cons x l ih => exact (h d x).trans (ih (f d x))

theorem Safe.foldl_fst {f : Dev × β → α → Dev × β} (h : ∀ (a : Dev × β) (x : α), Safe a.1 (f a x).1) (l : List α) (d : Dev × β) :
    Safe d.1 (l.foldl f d).1 := by
  induction l generalizing d with
  | nil => exact Safe.refl d.1
  | cons x l ih => exact (h d x).trans (ih (f d x))

theorem Same.foldl_snd {f : β × Dev → α → β × Dev} (h : ∀ (a : β × Dev) (x : α), Same a.2 (f a x).2) (l : List α) (d : β × Dev) :
    Same d.2 (l.foldl f d).2 := by
  induction l generalizing d with
  | nil => exact Same.refl d.2
  | cons x l ih => exact (h d x).trans (ih (f d x))

theorem Safe.foldl_snd {f : β × Dev → α → β × Dev} (h : ∀ (a : β × Dev) (x : α), Safe a.2 (f a x).2) (l : List α) (d : β × Dev) :
    Safe d.2 (l.foldl f d).2 := by
  induction l generalizing d with
  | nil => exact Safe.refl d.2
  | cons x l ih => exact (h d x).trans (ih (f d x))

/-- An update of other fields; `mem` may change in all but its plain contents. -/
theorem Same.upd
    {inForce : SMap Val} {time : TimeSt} {links : LinkSt} {capture : CaptureSt} {events : EventSt} {tx : SMap TxCh} {mem : MemSt} {dict
    : DictSt} {keep : KeepSt} {cores : SMap CoreAux} {clock : ClockSt} {twin : TwinSt} {store : StoreSt} {nis : SMap NiAux} {fab :
    FabSt} {boot : BootSt} {bundles : SMap Bundle} {power : PowerSt} {test : TestSt} {diag : DiagSt} {jtag : JtagSt} {pins : PinSt}
    {sent : List Out}
    (hc : mem.cells = m.mem.cells) : Same d
    ⟨m.count, m.ns, m.free, m.objs, inForce, time, links, capture, events, tx, mem, dict, keep, cores, clock, twin, store, nis, fab,
    boot, bundles, power, test, diag, jtag, pins, sent⟩ ↔ Same d m :=
  ⟨fun h => h.trans ⟨hc.symm, rfl, rfl, Nat.le_refl _, id⟩,
    fun h => h.trans ⟨hc, rfl, rfl, Nat.le_refl _, id⟩⟩

/-- As `Same.upd`. -/
theorem Safe.upd
    {inForce : SMap Val} {time : TimeSt} {links : LinkSt} {capture : CaptureSt} {events : EventSt} {tx : SMap TxCh} {mem : MemSt} {dict
    : DictSt} {keep : KeepSt} {cores : SMap CoreAux} {clock : ClockSt} {twin : TwinSt} {store : StoreSt} {nis : SMap NiAux} {fab :
    FabSt} {boot : BootSt} {bundles : SMap Bundle} {power : PowerSt} {test : TestSt} {diag : DiagSt} {jtag : JtagSt} {pins : PinSt}
    {sent : List Out}
    (hc : mem.cells = m.mem.cells) : Safe d
    ⟨m.count, m.ns, m.free, m.objs, inForce, time, links, capture, events, tx, mem, dict, keep, cores, clock, twin, store, nis, fab,
    boot, bundles, power, test, diag, jtag, pins, sent⟩ ↔ Safe d m :=
  ⟨fun h => h.trans (Same.safe ⟨hc.symm, rfl, rfl, Nat.le_refl _, id⟩),
    fun h => h.trans (Same.safe ⟨hc, rfl, rfl, Nat.le_refl _, id⟩)⟩

/-- A fold over items that carries answers and a flag beside the block. -/
theorem Dev.monitorItems_same (f : List β × Bool × Dev → α → List β × Bool × Dev) (l : List α) (s : List β × Bool × Dev)
    (h : ∀ (a : List β × Bool × Dev) (x : α), Same a.2.2 (f a x).2.2) : Same s.2.2 (l.foldl f s).2.2 := by
  induction l generalizing s with
  | nil => exact Same.refl _
  | cons x l ih => exact (h s x).trans (ih (f s x))

/-- Setting a key of the objects keeps them a map. -/
theorem SMap.sorted_setD [DecidableEq γ] {x : SMap γ} (k : Nat) (v w : γ) (h : SMap.sorted x = true) :
    SMap.sorted (SMap.setD x k v w) = true := by
  unfold SMap.setD
  split
  · exact SMap.sorted_filter _ _ h
  · exact SMap.sorted_ins _ _ _ h

theorem Dev.put_same (d : Dev) (o : ObjDef) (v : Val) (a b c : Nat) : Same d (d.put o v a b c) :=
  ⟨rfl, rfl, rfl, Nat.le_refl _, fun w => SMap.sorted_setD _ _ _ w⟩

theorem Dev.drawn_same (d : Dev) : Same d d.drawn := ⟨rfl, rfl, rfl, Nat.le_succ _, id⟩

theorem Dev.when_same (d : Dev) (c : Bool) (f : Dev → Dev) (h : ∀ a : Dev, Same a (f a)) : Same d (d.when c f) :=
  Same.ite (h d) (Same.refl d)

theorem Dev.when_safe (d : Dev) (c : Bool) (f : Dev → Dev) (h : ∀ a : Dev, Safe a (f a)) : Safe d (d.when c f) :=
  Safe.ite (h d) (Safe.refl d)

/-- Time passes: the count stays a 64-bit number. -/
theorem Dev.tick_ok (d : Dev) (dt : Nat) : (d.tick dt).count < 2 ^ 64 := Nat.mod_lt _ (by decide)

end Sys2Proof.Machine
end

