-- ==== Sys2Proof/Laws/Cells.lean ====
section
/-! SUPPORT. What each operation of Machine/Cells.lean keeps (`Same` and `Safe` of Laws/Frame.lean). -/

set_option Elab.async false
set_option linter.unusedTactic false
set_option linter.unreachableTactic false

namespace Sys2Proof.Machine

theorem Dev.fabricNs_same (d : Dev) (c : StreamCfg) (ns : Nat) : Same d (Dev.fabricNs d c ns) := by
  unfold Dev.fabricNs
  repeat' first
    | (with_reducible apply Same.refl)
    | (with_reducible intro _)
    | (with_reducible apply Same.ite)
    | (with_reducible apply Same.pre (Same.foldl ?_ _ _))
    | simp only [Same.upd]
    | split
    | dsimp only

theorem Dev.fabricPass_same (d : Dev) (start : Nat) (dt : Nat) : Same d (Dev.fabricPass d start dt) := by
  unfold Dev.fabricPass
  repeat' first
    | (with_reducible apply Same.refl)
    | (with_reducible intro _)
    | (with_reducible apply Same.ite)
    | (with_reducible apply Same.pre (Dev.fabricNs_same ..))
    | (with_reducible apply Same.pre (Same.foldl ?_ _ _))
    | split
    | dsimp only

theorem Dev.setReset_same (d : Dev) : Same d (Dev.setReset d) := by
  unfold Dev.setReset
  repeat' first
    | (with_reducible apply Same.refl)
    | (with_reducible intro _)
    | (with_reducible apply Same.ite)
    | simp only [Same.upd]
    | split
    | dsimp only

theorem Dev.logicLost_same (d : Dev) (n : Nat) : Same d (Dev.logicLost d n) := by
  unfold Dev.logicLost
  repeat' first
    | (with_reducible apply Same.refl)
    | (with_reducible intro _)
    | (with_reducible apply Same.ite)
    | simp only [Same.upd]
    | split
    | dsimp only

theorem Dev.crossError_same (d : Dev) (edge : Nat) (dir : Nat) (b : Nat) : Same d (Dev.crossError d edge dir b) := by
  unfold Dev.crossError
  repeat' first
    | (with_reducible apply Same.refl)
    | (with_reducible intro _)
    | (with_reducible apply Same.ite)
    | (with_reducible apply Same.pre (Same.foldl ?_ _ _))
    | simp only [Same.upd]
    | split
    | dsimp only

end Sys2Proof.Machine
end

