-- ==== Sys2Proof/Laws/Ops.lean ====
section
/-! SUPPORT. What each operation of Machine/Ops.lean keeps (`Same` and `Safe` of Laws/Frame.lean). -/

set_option Elab.async false
set_option linter.unusedTactic false
set_option linter.unreachableTactic false

namespace Sys2Proof.Machine

theorem Dev.setNat_same (d : Dev) (o : ObjDef) (n : Nat) (a : Nat) (b : Nat) (c : Nat) : Same d (Dev.setNat d o n a b c) := by
  unfold Dev.setNat
  repeat' first
    | (with_reducible apply Same.refl)
    | (with_reducible intro _)
    | (with_reducible apply Same.ite)
    | (with_reducible apply Same.pre (Dev.put_same ..))
    | split
    | dsimp only

theorem Dev.setInt_same (d : Dev) (o : ObjDef) (n : Int) (a : Nat) (b : Nat) (c : Nat) : Same d (Dev.setInt d o n a b c) := by
  unfold Dev.setInt
  repeat' first
    | (with_reducible apply Same.refl)
    | (with_reducible intro _)
    | (with_reducible apply Same.ite)
    | (with_reducible apply Same.pre (Dev.put_same ..))
    | split
    | dsimp only

theorem Dev.setOct_same (d : Dev) (o : ObjDef) (l : List Byte) (a : Nat) (b : Nat) (c : Nat) : Same d (Dev.setOct d o l a b c) := by
  unfold Dev.setOct
  repeat' first
    | (with_reducible apply Same.refl)
    | (with_reducible intro _)
    | (with_reducible apply Same.ite)
    | (with_reducible apply Same.pre (Dev.put_same ..))
    | split
    | dsimp only

theorem Dev.add_same (d : Dev) (o : ObjDef) (n : Nat) (a : Nat) (b : Nat) (c : Nat) : Same d (Dev.add d o n a b c) := by
  unfold Dev.add
  repeat' first
    | (with_reducible apply Same.refl)
    | (with_reducible intro _)
    | (with_reducible apply Same.ite)
    | (with_reducible apply Same.pre (Dev.setNat_same ..))
    | (with_reducible apply Same.pre (Dev.drawn_same ..))
    | split
    | dsimp only

theorem Dev.inc_same (d : Dev) (o : ObjDef) (a : Nat) (b : Nat) (c : Nat) : Same d (Dev.inc d o a b c) := by
  unfold Dev.inc
  repeat' first
    | (with_reducible apply Same.refl)
    | (with_reducible intro _)
    | (with_reducible apply Same.ite)
    | (with_reducible apply Same.pre (Dev.add_same ..))
    | split
    | dsimp only

theorem Dev.peak_same (d : Dev) (o : ObjDef) (n : Nat) (a : Nat) (b : Nat) (c : Nat) : Same d (Dev.peak d o n a b c) := by
  unfold Dev.peak
  repeat' first
    | (with_reducible apply Same.refl)
    | (with_reducible intro _)
    | (with_reducible apply Same.ite)
    | (with_reducible apply Same.pre (Dev.setNat_same ..))
    | split
    | dsimp only

theorem Dev.keepVals_same (d : Dev) (vals : SMap Val) : Same d (Dev.keepVals d vals) := by
  unfold Dev.keepVals
  repeat' first
    | (with_reducible apply Same.refl)
    | (with_reducible intro _)
    | (with_reducible apply Same.ite)
    | simp only [Same.upd]
    | split
    | dsimp only

theorem Dev.send_same (d : Dev) (o : Out) : Same d (Dev.send d o) := by
  unfold Dev.send
  repeat' first
    | (with_reducible apply Same.refl)
    | (with_reducible intro _)
    | (with_reducible apply Same.ite)
    | simp only [Same.upd]
    | split
    | dsimp only

theorem Dev.setPort_same (d : Dev) (i : Nat) (p : PortAux) : Same d (Dev.setPort d i p) := by
  unfold Dev.setPort
  repeat' first
    | (with_reducible apply Same.refl)
    | (with_reducible intro _)
    | (with_reducible apply Same.ite)
    | simp only [Same.upd]
    | split
    | dsimp only

theorem Dev.updPort_same (d : Dev) (i : Nat) (f : PortAux → PortAux) : Same d (Dev.updPort d i f) := by
  unfold Dev.updPort
  repeat' first
    | (with_reducible apply Same.refl)
    | (with_reducible intro _)
    | (with_reducible apply Same.ite)
    | (with_reducible apply Same.pre (Dev.setPort_same ..))
    | split
    | dsimp only

theorem Dev.setEng_same (d : Dev) (e : Nat) (x : EngAux) : Same d (Dev.setEng d e x) := by
  unfold Dev.setEng
  repeat' first
    | (with_reducible apply Same.refl)
    | (with_reducible intro _)
    | (with_reducible apply Same.ite)
    | simp only [Same.upd]
    | split
    | dsimp only

theorem Dev.setIngest_same (d : Dev) (q : Nat) (x : Ingest) : Same d (Dev.setIngest d q x) := by
  unfold Dev.setIngest
  repeat' first
    | (with_reducible apply Same.refl)
    | (with_reducible intro _)
    | (with_reducible apply Same.ite)
    | simp only [Same.upd]
    | split
    | dsimp only

theorem Dev.setFifo_same (d : Dev) (q : Nat) (x : Fifo) : Same d (Dev.setFifo d q x) := by
  unfold Dev.setFifo
  repeat' first
    | (with_reducible apply Same.refl)
    | (with_reducible intro _)
    | (with_reducible apply Same.ite)
    | simp only [Same.upd]
    | split
    | dsimp only

theorem Dev.closeStage_same (d : Dev) (e : Nat) (close : Nat) : Same d (Dev.closeStage d e close) := by
  unfold Dev.closeStage
  repeat' first
    | (with_reducible apply Same.refl)
    | (with_reducible intro _)
    | (with_reducible apply Same.ite)
    | (with_reducible apply Same.pre (Dev.setEng_same ..))
    | simp only [Same.upd]
    | split
    | dsimp only

theorem Dev.flushEngine_same (d : Dev) (e : Nat) : Same d (Dev.flushEngine d e) := by
  unfold Dev.flushEngine
  repeat' first
    | (with_reducible apply Same.refl)
    | (with_reducible intro _)
    | (with_reducible apply Same.ite)
    | (with_reducible apply Same.pre (Dev.setEng_same ..))
    | (with_reducible apply Same.pre (Dev.setFifo_same ..))
    | (with_reducible apply Same.pre (Dev.closeStage_same ..))
    | (with_reducible apply Same.pre (Same.foldl ?_ _ _))
    | simp only [Same.upd]
    | split
    | dsimp only

theorem Dev.enterIn_same (d : Dev) (era : Nat) (q : Nat) (p : Nat) (r : Rec) : Same d (Dev.enterIn d era q p r) := by
  unfold Dev.enterIn
  repeat' first
    | (with_reducible apply Same.refl)
    | (with_reducible intro _)
    | (with_reducible apply Same.ite)
    | (with_reducible apply Same.pre (Dev.setPort_same ..))
    | simp only [Same.upd]
    | split
    | dsimp only

theorem Dev.enter_same (d : Dev) (q : Nat) (p : Nat) (r : Rec) : Same d (Dev.enter d q p r) := by
  unfold Dev.enter
  repeat' first
    | (with_reducible apply Same.refl)
    | (with_reducible intro _)
    | (with_reducible apply Same.ite)
    | (with_reducible apply Same.pre (Dev.enterIn_same ..))
    | split
    | dsimp only

theorem Dev.place_same (d : Dev) (i : Nat) (r : Rec) : Same d (Dev.place d i r).2 := by
  unfold Dev.place
  repeat' first
    | (with_reducible apply Same.refl)
    | (with_reducible intro _)
    | (with_reducible apply Same.ite)
    | (with_reducible apply Same.pre (Dev.setPort_same ..))
    | simp only [Same.upd]
    | split
    | dsimp only

theorem Dev.userMark_same (d : Dev) (q : Nat) (p : Nat) (tick : Nat) (value : Nat) (ev : Nat) (origin : Nat) : Same d (Dev.userMark d q p tick value ev origin) := by
  unfold Dev.userMark
  repeat' first
    | (with_reducible apply Same.refl)
    | (with_reducible intro _)
    | (with_reducible apply Same.ite)
    | (with_reducible apply Same.pre (Dev.enter_same ..))
    | split
    | dsimp only

theorem Dev.captureMark_same (d : Dev) (m : Nat) (tM : Nat) (value : Nat) (ev : Nat) (origin : Nat) (record : Bool) : Same d (Dev.captureMark d m tM value ev origin record) := by
  unfold Dev.captureMark
  repeat' first
    | (with_reducible apply Same.refl)
    | (with_reducible intro _)
    | (with_reducible apply Same.ite)
    | (with_reducible apply Same.pre (Dev.inc_same ..))
    | (with_reducible apply Same.pre (Dev.setPort_same ..))
    | (with_reducible apply Same.pre (Dev.userMark_same ..))
    | (with_reducible apply Same.pre (Same.foldl ?_ _ _))
    | simp only [Same.upd]
    | split
    | dsimp only

theorem Dev.lapseMarks_same (d : Dev) (i : Nat) : Same d (Dev.lapseMarks d i) := by
  unfold Dev.lapseMarks
  repeat' first
    | (with_reducible apply Same.refl)
    | (with_reducible intro _)
    | (with_reducible apply Same.ite)
    | (with_reducible apply Same.pre (Dev.inc_same ..))
    | (with_reducible apply Same.pre (Dev.updPort_same ..))
    | (with_reducible apply Same.pre (Same.foldl ?_ _ _))
    | simp only [Same.upd]
    | split
    | dsimp only

theorem Dev.setSpx_same (d : Dev) (i : Nat) (x : SpxAux) : Same d (Dev.setSpx d i x) := by
  unfold Dev.setSpx
  repeat' first
    | (with_reducible apply Same.refl)
    | (with_reducible intro _)
    | (with_reducible apply Same.ite)
    | simp only [Same.upd]
    | split
    | dsimp only

theorem Dev.queueFrame_same (d : Dev) (i : Nat) (cls : Nat) (payload : List Byte) : Same d (Dev.queueFrame d i cls payload) := by
  unfold Dev.queueFrame
  repeat' first
    | (with_reducible apply Same.refl)
    | (with_reducible intro _)
    | (with_reducible apply Same.ite)
    | (with_reducible apply Same.pre (Dev.setSpx_same ..))
    | simp only [Same.upd]
    | split
    | dsimp only

theorem Dev.mirror_same (d : Dev) (kind : Nat) (status : Nat) (count : Nat) (txn : Nat) (entries : List Byte) : Same d (Dev.mirror d kind status count txn entries) := by
  unfold Dev.mirror
  repeat' first
    | (with_reducible apply Same.refl)
    | (with_reducible intro _)
    | (with_reducible apply Same.ite)
    | (with_reducible apply Same.pre (Dev.queueFrame_same ..))
    | (with_reducible apply Same.pre (Same.foldl ?_ _ _))
    | simp only [Same.upd]
    | split
    | dsimp only

theorem Dev.frontInput_same (d : Dev) (n : Nat) (i : Nat) (o : Occ) : Same d (Dev.frontInput d n i o) := by
  unfold Dev.frontInput
  repeat' first
    | (with_reducible apply Same.refl)
    | (with_reducible intro _)
    | (with_reducible apply Same.ite)
    | (with_reducible apply Same.pre (Dev.inc_same ..))
    | (with_reducible apply Same.pre (Dev.queueFrame_same ..))
    | simp only [Same.upd]
    | split
    | dsimp only

theorem Dev.logEntry_same (d : Dev) (e : LogEntry) : Same d (Dev.logEntry d e) := by
  unfold Dev.logEntry
  repeat' first
    | (with_reducible apply Same.refl)
    | (with_reducible intro _)
    | (with_reducible apply Same.ite)
    | (with_reducible apply Same.pre (Dev.mirror_same ..))
    | simp only [Same.upd]
    | split
    | dsimp only

theorem Dev.logNote_same (d : Dev) (kind : Nat) (code : Nat) (old : List Byte) (new : List Byte) (index : Nat) : Same d (Dev.logNote d kind code old new index) := by
  unfold Dev.logNote
  repeat' first
    | (with_reducible apply Same.refl)
    | (with_reducible intro _)
    | (with_reducible apply Same.ite)
    | (with_reducible apply Same.pre (Dev.logEntry_same ..))
    | split
    | dsimp only

theorem Dev.report_same (d : Dev) (v : Nat) (o : Occ) : Same d (Dev.report d v o) := by
  unfold Dev.report
  repeat' first
    | (with_reducible apply Same.refl)
    | (with_reducible intro _)
    | (with_reducible apply Same.ite)
    | simp only [Same.upd]
    | split
    | dsimp only

theorem Dev.setCore_same (d : Dev) (c : Nat) (x : CoreAux) : Same d (Dev.setCore d c x) := by
  unfold Dev.setCore
  repeat' first
    | (with_reducible apply Same.refl)
    | (with_reducible intro _)
    | (with_reducible apply Same.ite)
    | simp only [Same.upd]
    | split
    | dsimp only

theorem Dev.raiseLine_same (d : Dev) (c : Nat) (line : Nat) : Same d (Dev.raiseLine d c line) := by
  unfold Dev.raiseLine
  repeat' first
    | (with_reducible apply Same.refl)
    | (with_reducible intro _)
    | (with_reducible apply Same.ite)
    | (with_reducible apply Same.pre (Dev.setCore_same ..))
    | simp only [Same.upd]
    | split
    | dsimp only

theorem Dev.remark_same (d : Dev) (ev : Nat) (tick : Nat) (value : Nat) : Same d (Dev.remark d ev tick value) := by
  unfold Dev.remark
  repeat' first
    | (with_reducible apply Same.refl)
    | (with_reducible intro _)
    | (with_reducible apply Same.ite)
    | (with_reducible apply Same.pre (Dev.updPort_same ..))
    | (with_reducible apply Same.pre (Same.foldl ?_ _ _))
    | simp only [Same.upd]
    | split
    | dsimp only

theorem Dev.pulse_same (d : Dev) (ev : Nat) (set : Option Nat) (tick : Nat) (n : Nat) : Same d (Dev.pulse d ev set tick n) := by
  unfold Dev.pulse
  repeat' first
    | (with_reducible apply Same.refl)
    | (with_reducible intro _)
    | (with_reducible apply Same.ite)
    | simp only [Same.upd]
    | split
    | dsimp only

theorem Dev.markPulse_same (d : Dev) (o : Occ) (m : Nat) : Same d (Dev.markPulse d o m) := by
  unfold Dev.markPulse
  repeat' first
    | (with_reducible apply Same.refl)
    | (with_reducible intro _)
    | (with_reducible apply Same.ite)
    | (with_reducible apply Same.pre (Dev.captureMark_same ..))
    | (with_reducible apply Same.pre (Dev.remark_same ..))
    | (with_reducible apply Same.pre (Dev.pulse_same ..))
    | split
    | dsimp only

theorem Dev.deliver_same (d : Dev) (o : Occ) (w : Nat) : Same d (Dev.deliver d o w).1 := by
  unfold Dev.deliver
  repeat' first
    | (with_reducible apply Same.refl)
    | (with_reducible intro _)
    | (with_reducible apply Same.ite)
    | (with_reducible apply Same.pre (Dev.setNat_same ..))
    | (with_reducible apply Same.pre (Dev.flushEngine_same ..))
    | (with_reducible apply Same.pre (Dev.frontInput_same ..))
    | (with_reducible apply Same.pre (Dev.report_same ..))
    | (with_reducible apply Same.pre (Dev.raiseLine_same ..))
    | (with_reducible apply Same.pre (Dev.markPulse_same ..))
    | simp only [Same.upd]
    | split
    | dsimp only

theorem Dev.occurN_same (n : Nat) (d : Dev) (o : Occ) : Same d (Dev.occurN n d o) := by
  induction n generalizing d o with
  | zero => exact Same.refl d
  | succ n ih =>
    unfold Dev.occurN
    apply Same.pre (Same.foldl ?_ _ _)
    · apply Same.pre (Dev.setOct_same ..)
      exact Same.refl d
    · intro a w
      exact (Dev.deliver_same a o w).trans (Same.foldl (fun b ev => ih b _) _ _)

theorem Dev.occurAs_same (d : Dev) (o : Occ) : Same d (Dev.occurAs d o) := by
  unfold Dev.occurAs
  repeat' first
    | (with_reducible apply Same.refl)
    | (with_reducible intro _)
    | (with_reducible apply Same.ite)
    | (with_reducible apply Same.pre (Dev.pulse_same ..))
    | (with_reducible apply Same.pre (Dev.occurN_same ..))
    | simp only [Same.upd]
    | split
    | dsimp only

theorem Dev.occur_same (d : Dev) (ev : Nat) : Same d (Dev.occur d ev) := by
  unfold Dev.occur
  repeat' first
    | (with_reducible apply Same.refl)
    | (with_reducible intro _)
    | (with_reducible apply Same.ite)
    | (with_reducible apply Same.pre (Dev.occurAs_same ..))
    | split
    | dsimp only

theorem Dev.corrected_same (d : Dev) (inst : Nat) : Same d (Dev.corrected d inst) := by
  unfold Dev.corrected
  repeat' first
    | (with_reducible apply Same.refl)
    | (with_reducible intro _)
    | (with_reducible apply Same.ite)
    | (with_reducible apply Same.pre (Dev.inc_same ..))
    | (with_reducible apply Same.pre (Dev.occur_same ..))
    | simp only [Same.upd]
    | split
    | dsimp only

theorem Dev.sramFixed_same (d : Dev) (inst : Nat) : Same d (Dev.sramFixed d inst) := by
  unfold Dev.sramFixed
  repeat' first
    | (with_reducible apply Same.refl)
    | (with_reducible intro _)
    | (with_reducible apply Same.ite)
    | (with_reducible apply Same.pre (Dev.inc_same ..))
    | (with_reducible apply Same.pre (Dev.corrected_same ..))
    | split
    | dsimp only

theorem Dev.sendPdu_same (d : Dev) (v : Nat) (own : VaneAddr) (dest : List Byte) (l : List Byte) : Same d (Dev.sendPdu d v own dest l) := by
  unfold Dev.sendPdu
  repeat' first
    | (with_reducible apply Same.refl)
    | (with_reducible intro _)
    | (with_reducible apply Same.ite)
    | (with_reducible apply Same.pre (Dev.when_same _ _ _ ?_))
    | (with_reducible apply Same.pre (Dev.send_same ..))
    | split
    | dsimp only

theorem Dev.runMatchers_same (d : Dev) (q : Nat) (p : Nat) (tick : Nat) (r : Rec) : Same d (Dev.runMatchers d q p tick r) := by
  unfold Dev.runMatchers
  repeat' first
    | (with_reducible apply Same.refl)
    | (with_reducible intro _)
    | (with_reducible apply Same.ite)
    | (with_reducible apply Same.pre (Dev.occurAs_same ..))
    | (with_reducible apply Same.pre (Same.foldl ?_ _ _))
    | split
    | dsimp only

theorem Dev.emitIn_same (d : Dev) (era : Nat) (q : Nat) (p : Nat) (r : Rec) : Same d (Dev.emitIn d era q p r) := by
  unfold Dev.emitIn
  repeat' first
    | (with_reducible apply Same.refl)
    | (with_reducible intro _)
    | (with_reducible apply Same.ite)
    | (with_reducible apply Same.pre (Dev.updPort_same ..))
    | (with_reducible apply Same.pre (Dev.enterIn_same ..))
    | simp only [Same.upd]
    | split
    | dsimp only

theorem Dev.emit_same (d : Dev) (q : Nat) (p : Nat) (r : Rec) : Same d (Dev.emit d q p r) := by
  unfold Dev.emit
  repeat' first
    | (with_reducible apply Same.refl)
    | (with_reducible intro _)
    | (with_reducible apply Same.ite)
    | (with_reducible apply Same.pre (Dev.emitIn_same ..))
    | split
    | dsimp only

theorem Dev.releaseRecs_same (i : Nat) (x0 : Nat) (x1 : Nat) (x2 : Dev) : Same x2 (Dev.releaseRecs i x0 x1 x2) := by
  induction x0 generalizing i x1 x2 with
  | zero => exact Same.refl _
  | succ n ih =>
    unfold Dev.releaseRecs
    repeat' first
      | (with_reducible apply Same.refl)
      | (with_reducible intro _)
      | (with_reducible apply Same.pre (ih ..))
      | (with_reducible apply Same.ite)
      | (with_reducible apply Same.pre (Dev.updPort_same ..))
      | (with_reducible apply Same.pre (Dev.place_same ..))
      | (with_reducible apply Same.pre (Dev.runMatchers_same ..))
      | simp only [Same.upd]
      | split
      | dsimp only

theorem Dev.releaseAll_same (d : Dev) : Same d (Dev.releaseAll d) := by
  unfold Dev.releaseAll
  repeat' first
    | (with_reducible apply Same.refl)
    | (with_reducible intro _)
    | (with_reducible apply Same.ite)
    | (with_reducible apply Same.pre (Dev.releaseRecs_same ..))
    | (with_reducible apply Same.pre (Same.foldl ?_ _ _))
    | split
    | dsimp only

theorem Dev.markerIn_same (d : Dev) (era : Nat) (q : Nat) (p : Nat) (reason : Nat) (ref : Nat) (step : Int) (tick : Nat) : Same d (Dev.markerIn d era q p reason ref step tick) := by
  unfold Dev.markerIn
  repeat' first
    | (with_reducible apply Same.refl)
    | (with_reducible intro _)
    | (with_reducible apply Same.ite)
    | (with_reducible apply Same.pre (Dev.emitIn_same ..))
    | split
    | dsimp only

theorem Dev.markerAt_same (d : Dev) (q : Nat) (p : Nat) (reason : Nat) (ref : Nat) (step : Int) (tick : Nat) : Same d (Dev.markerAt d q p reason ref step tick) := by
  unfold Dev.markerAt
  repeat' first
    | (with_reducible apply Same.refl)
    | (with_reducible intro _)
    | (with_reducible apply Same.ite)
    | (with_reducible apply Same.pre (Dev.markerIn_same ..))
    | split
    | dsimp only

theorem Dev.stepMarker_same (d : Dev) (q : Nat) (p : Nat) : Same d (Dev.stepMarker d q p) := by
  unfold Dev.stepMarker
  repeat' first
    | (with_reducible apply Same.refl)
    | (with_reducible intro _)
    | (with_reducible apply Same.ite)
    | (with_reducible apply Same.pre (Dev.updPort_same ..))
    | (with_reducible apply Same.pre (Dev.markerIn_same ..))
    | simp only [Same.upd]
    | split
    | dsimp only

theorem Dev.marker_same (d : Dev) (q : Nat) (p : Nat) (reason : Nat) (ref : Nat) (step : Int) : Same d (Dev.marker d q p reason ref step) := by
  unfold Dev.marker
  repeat' first
    | (with_reducible apply Same.refl)
    | (with_reducible intro _)
    | (with_reducible apply Same.ite)
    | (with_reducible apply Same.pre (Dev.markerAt_same ..))
    | split
    | dsimp only

theorem Dev.markers_same (d : Dev) (quads : Nat → Bool) (reason : Nat) (ref : Nat) (step : Int) : Same d (Dev.markers d quads reason ref step) := by
  unfold Dev.markers
  repeat' first
    | (with_reducible apply Same.refl)
    | (with_reducible intro _)
    | (with_reducible apply Same.ite)
    | (with_reducible apply Same.pre (Dev.marker_same ..))
    | (with_reducible apply Same.pre (Same.foldl ?_ _ _))
    | split
    | dsimp only

end Sys2Proof.Machine
end

