-- ==== Sys2Proof/Laws/Filter.lean ====
section
/-! SUPPORT. What each operation of Machine/Filter.lean keeps (`Same` and `Safe` of Laws/Frame.lean). -/

set_option Elab.async false
set_option linter.unusedTactic false
set_option linter.unreachableTactic false

namespace Sys2Proof.Machine

theorem Dev.flowLookup_same (d : Dev) (e : Nat) (source : Nat) (r : Rec) (tag : Nat) : Same d (Dev.flowLookup d e source r tag).2 := by
  unfold Dev.flowLookup
  repeat' first
    | (with_reducible apply Same.refl)
    | (with_reducible intro _)
    | (with_reducible apply Same.ite)
    | (with_reducible apply Same.pre (Dev.setNat_same ..))
    | (with_reducible apply Same.pre (Dev.inc_same ..))
    | (with_reducible apply Same.pre (Dev.setEng_same ..))
    | simp only [Same.upd]
    | split
    | dsimp only

theorem Dev.passUnit_same (d : Dev) (q p : Nat) (r : Rec) : Same d (Dev.passUnit d q p r) := by
  unfold Dev.passUnit
  extract_lets e src store
  have hs : ∀ (a : Dev) (n t : Nat), Same a (store a n t) := fun a n t => Dev.emit_same ..
  clear_value store
  repeat' first
    | (with_reducible apply Same.refl)
    | (with_reducible intro _)
    | (with_reducible apply Same.pre (hs ..))
    | (with_reducible apply Same.ite)
    | (with_reducible apply Same.pre (Dev.inc_same ..))
    | (with_reducible apply Same.pre (Dev.flowLookup_same ..))
    | split
    | dsimp only

theorem flowVisitEffect_same (e : Nat) (hits : List (Fin 8)) (d : Dev) : Same d (flowVisitEffect e hits d) := by
  unfold flowVisitEffect
  repeat' first
    | (with_reducible apply Same.refl)
    | (with_reducible intro _)
    | (with_reducible apply Same.ite)
    | (with_reducible apply Same.pre (Dev.when_same _ _ _ ?_))
    | (with_reducible apply Same.pre (Dev.inc_same ..))
    | (with_reducible apply Same.pre (Dev.setEng_same ..))
    | (with_reducible apply Same.pre (Dev.occur_same ..))
    | (with_reducible apply Same.pre (Same.foldl ?_ _ _))
    | simp only [Same.upd]
    | split
    | dsimp only

end Sys2Proof.Machine
end

