-- ==== Sys2Proof/Laws/Triggers.lean ====
section
/-! SUPPORT. What each operation of Machine/Triggers.lean keeps (`Same` and `Safe` of Laws/Frame.lean). -/

set_option Elab.async false
set_option linter.unusedTactic false
set_option linter.unreachableTactic false

namespace Sys2Proof.Machine

theorem Dev.setWin_same (d : Dev) (s : Nat) (w : Win) : Same d (Dev.setWin d s w) := by
  unfold Dev.setWin
  repeat' first
    | (with_reducible apply Same.refl)
    | (with_reducible intro _)
    | (with_reducible apply Same.ite)
    | simp only [Same.upd]
    | split
    | dsimp only

theorem Dev.closeWindow_same (d : Dev) (s : Nat) : Same d (Dev.closeWindow d s) := by
  unfold Dev.closeWindow
  repeat' first
    | (with_reducible apply Same.refl)
    | (with_reducible intro _)
    | (with_reducible apply Same.ite)
    | (with_reducible apply Same.pre (Dev.setNat_same ..))
    | (with_reducible apply Same.pre (Dev.inc_same ..))
    | (with_reducible apply Same.pre (Dev.closeStage_same ..))
    | (with_reducible apply Same.pre (Dev.setWin_same ..))
    | (with_reducible apply Same.pre (Same.foldl ?_ _ _))
    | simp only [Same.upd]
    | split
    | dsimp only

theorem Dev.tryClose_same (d : Dev) (s : Nat) : Same d (Dev.tryClose d s) := by
  unfold Dev.tryClose
  repeat' first
    | (with_reducible apply Same.refl)
    | (with_reducible intro _)
    | (with_reducible apply Same.ite)
    | (with_reducible apply Same.pre (Dev.when_same _ _ _ ?_))
    | (with_reducible apply Same.pre (Dev.closeWindow_same ..))
    | split
    | dsimp only

theorem Dev.startOverrun_same (d : Dev) (s : Nat) (start : Nat) : Same d (Dev.startOverrun d s start) := by
  unfold Dev.startOverrun
  repeat' first
    | (with_reducible apply Same.refl)
    | (with_reducible intro _)
    | (with_reducible apply Same.ite)
    | (with_reducible apply Same.pre (Dev.inc_same ..))
    | (with_reducible apply Same.pre (Dev.occur_same ..))
    | (with_reducible apply Same.pre (Dev.setWin_same ..))
    | (with_reducible apply Same.pre (Same.foldl ?_ _ _))
    | simp only [Same.upd]
    | split
    | dsimp only

theorem Dev.openWindow_same (d : Dev) (s : Nat) (tT : Nat) : Same d (Dev.openWindow d s tT).2 := by
  unfold Dev.openWindow
  repeat' first
    | (with_reducible apply Same.refl)
    | (with_reducible intro _)
    | (with_reducible apply Same.ite)
    | (with_reducible apply Same.pre (Dev.setNat_same ..))
    | (with_reducible apply Same.pre (Dev.inc_same ..))
    | (with_reducible apply Same.pre (Dev.setWin_same ..))
    | (with_reducible apply Same.pre (Dev.startOverrun_same ..))
    | simp only [Same.upd]
    | split
    | dsimp only

theorem Dev.retain_same (d : Dev) (s tT : Nat) : Same d (Dev.retain d s tT).2.2 := by
  unfold Dev.retain
  split
  · with_reducible exact Same.refl d
  · split
    · have h := Dev.openWindow_same d s tT
      generalize d.openWindow s tT = r at h ⊢
      exact h
    · split
      · extract_lets w e hi e2
        have h1 : Same d e := Dev.setWin_same ..
        have h2 : Same e e2 := Dev.setNat_same ..
        exact (h1.trans h2).trans (Same.ite (Dev.setNat_same ..) (Same.refl _))
      · exact Same.let3 _ ((Dev.closeWindow_same d s).trans (Dev.openWindow_same (d.closeWindow s) s tT))

theorem Dev.trigger_same (d : Dev) (s : Nat) (tick : Nat) (t : TrigInfo) : Same d (Dev.trigger d s tick t) := by
  unfold Dev.trigger
  repeat' first
    | (with_reducible apply Same.refl)
    | (with_reducible intro _)
    | (with_reducible apply Same.ite)
    | (with_reducible apply Same.pre (Dev.inc_same ..))
    | (with_reducible apply Same.pre (Dev.enter_same ..))
    | (with_reducible apply Same.pre (Dev.setWin_same ..))
    | (with_reducible apply Same.pre (Dev.retain_same ..))
    | (with_reducible apply Same.pre (Same.foldl ?_ _ _))
    | simp only [Same.upd]
    | split
    | dsimp only

theorem Dev.commitTrigger_same (d : Dev) (s : Nat) (tc : Nat) : Same d (Dev.commitTrigger d s tc) := by
  unfold Dev.commitTrigger
  repeat' first
    | (with_reducible apply Same.refl)
    | (with_reducible intro _)
    | (with_reducible apply Same.ite)
    | (with_reducible apply Same.pre (Dev.trigger_same ..))
    | split
    | dsimp only

theorem Dev.trigSubject_same (d : Dev) (sj : Subject) : Same d (Dev.trigSubject d sj) := by
  unfold Dev.trigSubject
  repeat' first
    | (with_reducible apply Same.refl)
    | (with_reducible intro _)
    | (with_reducible apply Same.ite)
    | (with_reducible apply Same.pre (Dev.updPort_same ..))
    | simp only [Same.upd]
    | split
    | dsimp only

theorem Dev.retModeChanged_same (d : Dev) (s : Nat) (mode : Nat) : Same d (Dev.retModeChanged d s mode) := by
  unfold Dev.retModeChanged
  repeat' first
    | (with_reducible apply Same.refl)
    | (with_reducible intro _)
    | (with_reducible apply Same.ite)
    | (with_reducible apply Same.pre (Dev.setWin_same ..))
    | simp only [Same.upd]
    | split
    | dsimp only

theorem Dev.setTimer_same (d : Dev) (n : Nat) (t : Nat) (v : Option Nat) : Same d (Dev.setTimer d n t v) := by
  unfold Dev.setTimer
  repeat' first
    | (with_reducible apply Same.refl)
    | (with_reducible intro _)
    | (with_reducible apply Same.ite)
    | simp only [Same.upd]
    | split
    | dsimp only

theorem Dev.frontControl_same (d : Dev) (n : Nat) (v : Nat) : Same d (Dev.frontControl d n v) := by
  unfold Dev.frontControl
  repeat' first
    | (with_reducible apply Same.refl)
    | (with_reducible intro _)
    | (with_reducible apply Same.ite)
    | (with_reducible apply Same.pre (Dev.setNat_same ..))
    | (with_reducible apply Same.pre (Dev.setTimer_same ..))
    | simp only [Same.upd]
    | split
    | dsimp only

theorem timerEffect_same (n : Nat) (t : Nat) (d : Dev) : Same d (timerEffect n t d) := by
  unfold timerEffect
  repeat' first
    | (with_reducible apply Same.refl)
    | (with_reducible intro _)
    | (with_reducible apply Same.ite)
    | (with_reducible apply Same.pre (Dev.when_same _ _ _ ?_))
    | (with_reducible apply Same.pre (Dev.setTimer_same ..))
    | simp only [Same.upd]
    | split
    | dsimp only

theorem Dev.timerOp_same (d : Dev) (n : Nat) (t : Nat) (op : Nat) : Same d (Dev.timerOp d n t op) := by
  unfold Dev.timerOp
  repeat' first
    | (with_reducible apply Same.refl)
    | (with_reducible intro _)
    | (with_reducible apply Same.ite)
    | (with_reducible apply Same.pre (Dev.setTimer_same ..))
    | split
    | dsimp only

theorem Dev.counterOp_same (d : Dev) (n : Nat) (c : Nat) (op : Nat) (by_ : Nat) : Same d (Dev.counterOp d n c op by_) := by
  unfold Dev.counterOp
  repeat' first
    | (with_reducible apply Same.refl)
    | (with_reducible intro _)
    | (with_reducible apply Same.ite)
    | (with_reducible apply Same.pre (Dev.setNat_same ..))
    | split
    | dsimp only

theorem Dev.branchTrigger_same (d : Dev) (n : Nat) (b : Nat) (st : Nat) (sel : List Occ) : Same d (Dev.branchTrigger d n b st sel) := by
  unfold Dev.branchTrigger
  repeat' first
    | (with_reducible apply Same.refl)
    | (with_reducible intro _)
    | (with_reducible apply Same.ite)
    | (with_reducible apply Same.pre (Dev.setNat_same ..))
    | (with_reducible apply Same.pre (Dev.inc_same ..))
    | (with_reducible apply Same.pre (Dev.trigger_same ..))
    | (with_reducible apply Same.pre (Dev.trigSubject_same ..))
    | (with_reducible apply Same.pre (Same.foldl ?_ _ _))
    | split
    | dsimp only

theorem Dev.takeBranch_same (d : Dev) (n : Nat) (b : Nat) (w : Nat) (sel : List Occ) : Same d (Dev.takeBranch d n b w sel) := by
  unfold Dev.takeBranch
  repeat' first
    | (with_reducible apply Same.refl)
    | (with_reducible intro _)
    | (with_reducible apply Same.ite)
    | (with_reducible apply Same.pre (Dev.setNat_same ..))
    | (with_reducible apply Same.pre (Dev.inc_same ..))
    | (with_reducible apply Same.pre (Dev.flushEngine_same ..))
    | (with_reducible apply Same.pre (Dev.captureMark_same ..))
    | (with_reducible apply Same.pre (Dev.queueFrame_same ..))
    | (with_reducible apply Same.pre (Dev.mirror_same ..))
    | (with_reducible apply Same.pre (Dev.occur_same ..))
    | (with_reducible apply Same.pre (Dev.frontControl_same ..))
    | (with_reducible apply Same.pre (Dev.timerOp_same ..))
    | (with_reducible apply Same.pre (Dev.counterOp_same ..))
    | (with_reducible apply Same.pre (Dev.branchTrigger_same ..))
    | (with_reducible apply Same.pre (Same.foldl ?_ _ _))
    | split
    | dsimp only

theorem Dev.endNs_same (d : Dev) : Same d (Dev.endNs d) := by
  unfold Dev.endNs
  repeat' first
    | (with_reducible apply Same.refl)
    | (with_reducible intro _)
    | (with_reducible apply Same.ite)
    | (with_reducible apply Same.pre (Dev.takeBranch_same ..))
    | (with_reducible apply Same.pre (Same.foldl ?_ _ _))
    | simp only [Same.upd]
    | split
    | dsimp only

theorem Dev.carryOn_same (x0 : Nat) (x1 : Dev) : Same x1 (Dev.carryOn x0 x1) := by
  induction x0 generalizing x1 with
  | zero => exact Same.refl _
  | succ n ih =>
    unfold Dev.carryOn
    repeat' first
      | (with_reducible apply Same.refl)
      | (with_reducible intro _)
      | (with_reducible apply Same.pre (ih ..))
      | (with_reducible apply Same.ite)
      | (with_reducible apply Same.pre (Dev.occurAs_same ..))
      | (with_reducible apply Same.pre (Same.foldl ?_ _ _))
      | simp only [Same.upd]
      | split
      | dsimp only

end Sys2Proof.Machine
end

