-- ==== Sys2Proof/Laws/Lanes.lean ====
section
/-! SUPPORT. What each operation of Machine/Lanes.lean keeps (`Same` and `Safe` of Laws/Frame.lean). -/

set_option Elab.async false
set_option linter.unusedTactic false
set_option linter.unreachableTactic false

namespace Sys2Proof.Machine

theorem Dev.setLaneBit_same (d : Dev) (l : Nat) (bit : Nat) (v : Bool) : Same d (Dev.setLaneBit d l bit v) := by
  unfold Dev.setLaneBit
  repeat' first
    | (with_reducible apply Same.refl)
    | (with_reducible intro _)
    | (with_reducible apply Same.ite)
    | (with_reducible apply Same.pre (Dev.setNat_same ..))
    | split
    | dsimp only

theorem Dev.closeFold_same (d : Dev) (q : Nat) (p : Nat) (f : FoldRun) : Same d (Dev.closeFold d q p f) := by
  unfold Dev.closeFold
  repeat' first
    | (with_reducible apply Same.refl)
    | (with_reducible intro _)
    | (with_reducible apply Same.ite)
    | (with_reducible apply Same.pre (Dev.inc_same ..))
    | (with_reducible apply Same.pre (Dev.emit_same ..))
    | split
    | dsimp only

theorem Dev.closeFolds_same (d : Dev) (q : Nat) (p : Nat) : Same d (Dev.closeFolds d q p) := by
  unfold Dev.closeFolds
  repeat' first
    | (with_reducible apply Same.refl)
    | (with_reducible intro _)
    | (with_reducible apply Same.ite)
    | (with_reducible apply Same.pre (Dev.updPort_same ..))
    | (with_reducible apply Same.pre (Dev.closeFold_same ..))
    | (with_reducible apply Same.pre (Same.foldl ?_ _ _))
    | simp only [Same.upd]
    | split
    | dsimp only

theorem Dev.closeRaw_same (d : Dev) (q : Nat) (p : Nat) (b : RawBatch) : Same d (Dev.closeRaw d q p b) := by
  unfold Dev.closeRaw
  repeat' first
    | (with_reducible apply Same.refl)
    | (with_reducible intro _)
    | (with_reducible apply Same.ite)
    | (with_reducible apply Same.pre (Dev.passUnit_same ..))
    | split
    | dsimp only

theorem Dev.closeRaws_same (d : Dev) (q : Nat) (p : Nat) : Same d (Dev.closeRaws d q p) := by
  unfold Dev.closeRaws
  repeat' first
    | (with_reducible apply Same.refl)
    | (with_reducible intro _)
    | (with_reducible apply Same.ite)
    | (with_reducible apply Same.pre (Dev.updPort_same ..))
    | (with_reducible apply Same.pre (Dev.closeRaw_same ..))
    | (with_reducible apply Same.pre (Same.foldl ?_ _ _))
    | simp only [Same.upd]
    | split
    | dsimp only

theorem Dev.boundary_same (d : Dev) (q : Nat) (p : Nat) : Same d (Dev.boundary d q p) := by
  unfold Dev.boundary
  repeat' first
    | (with_reducible apply Same.refl)
    | (with_reducible intro _)
    | (with_reducible apply Same.ite)
    | (with_reducible apply Same.pre (Dev.closeFolds_same ..))
    | (with_reducible apply Same.pre (Dev.closeRaws_same ..))
    | split
    | dsimp only

theorem Dev.note_same (d : Dev) (q : Nat) (p : Nat) (r : Rec) : Same d (Dev.note d q p r) := by
  unfold Dev.note
  repeat' first
    | (with_reducible apply Same.refl)
    | (with_reducible intro _)
    | (with_reducible apply Same.ite)
    | (with_reducible apply Same.pre (Dev.emit_same ..))
    | split
    | dsimp only

theorem Dev.settleCause_same (d : Dev) (q : Nat) (p : Nat) (cause : Nat) (mask : Nat) : Same d (Dev.settleCause d q p cause mask) := by
  unfold Dev.settleCause
  repeat' first
    | (with_reducible apply Same.refl)
    | (with_reducible intro _)
    | (with_reducible apply Same.ite)
    | (with_reducible apply Same.pre (Dev.when_same _ _ _ ?_))
    | (with_reducible apply Same.pre (Dev.setNat_same ..))
    | (with_reducible apply Same.pre (Dev.updPort_same ..))
    | (with_reducible apply Same.pre (Dev.boundary_same ..))
    | (with_reducible apply Same.pre (Dev.note_same ..))
    | simp only [Same.upd]
    | split
    | dsimp only

theorem Dev.relock_same (d : Dev) (q : Nat) (p : Nat) : Same d (Dev.relock d q p) := by
  unfold Dev.relock
  repeat' first
    | (with_reducible apply Same.refl)
    | (with_reducible intro _)
    | (with_reducible apply Same.ite)
    | (with_reducible apply Same.pre (Dev.when_same _ _ _ ?_))
    | (with_reducible apply Same.pre (Dev.inc_same ..))
    | (with_reducible apply Same.pre (Dev.updPort_same ..))
    | (with_reducible apply Same.pre (Dev.endNs_same ..))
    | (with_reducible apply Same.pre (Dev.note_same ..))
    | simp only [Same.upd]
    | split
    | dsimp only

theorem Dev.unlock_same (d : Dev) (q : Nat) (p : Nat) : Same d (Dev.unlock d q p) := by
  unfold Dev.unlock
  repeat' first
    | (with_reducible apply Same.refl)
    | (with_reducible intro _)
    | (with_reducible apply Same.ite)
    | (with_reducible apply Same.pre (Dev.when_same _ _ _ ?_))
    | (with_reducible apply Same.pre (Dev.updPort_same ..))
    | (with_reducible apply Same.pre (Dev.endNs_same ..))
    | (with_reducible apply Same.pre (Dev.boundary_same ..))
    | simp only [Same.upd]
    | split
    | dsimp only

theorem Dev.closeSettle_same (d : Dev) (q : Nat) (p : Nat) (s : Settle) (endTick : Nat) : Same d (Dev.closeSettle d q p s endTick) := by
  unfold Dev.closeSettle
  repeat' first
    | (with_reducible apply Same.refl)
    | (with_reducible intro _)
    | (with_reducible apply Same.ite)
    | (with_reducible apply Same.pre (Dev.setNat_same ..))
    | (with_reducible apply Same.pre (Dev.updPort_same ..))
    | simp only [Same.upd]
    | split
    | dsimp only

theorem Dev.endNote_same (d : Dev) (q : Nat) (p : Nat) (s : Settle) (outcome : Nat) (endTick : Nat) : Same d (Dev.endNote d q p s outcome endTick) := by
  unfold Dev.endNote
  repeat' first
    | (with_reducible apply Same.refl)
    | (with_reducible intro _)
    | (with_reducible apply Same.ite)
    | (with_reducible apply Same.pre (Dev.note_same ..))
    | split
    | dsimp only

theorem Dev.endSettle_same (d : Dev) (q : Nat) (p : Nat) (outcome : Nat) (endTick : Nat) : Same d (Dev.endSettle d q p outcome endTick) := by
  unfold Dev.endSettle
  repeat' first
    | (with_reducible apply Same.refl)
    | (with_reducible intro _)
    | (with_reducible apply Same.ite)
    | (with_reducible apply Same.pre (Dev.boundary_same ..))
    | (with_reducible apply Same.pre (Dev.closeSettle_same ..))
    | (with_reducible apply Same.pre (Dev.endNote_same ..))
    | split
    | dsimp only

theorem Dev.setTx_same (d : Dev) (i : Nat) (x : TxCh) : Same d (Dev.setTx d i x) := by
  unfold Dev.setTx
  repeat' first
    | (with_reducible apply Same.refl)
    | (with_reducible intro _)
    | (with_reducible apply Same.ite)
    | simp only [Same.upd]
    | split
    | dsimp only

theorem Dev.txFlush_same (d : Dev) (q : Nat) (p : Nat) : Same d (Dev.txFlush d q p) := by
  unfold Dev.txFlush
  repeat' first
    | (with_reducible apply Same.refl)
    | (with_reducible intro _)
    | (with_reducible apply Same.ite)
    | (with_reducible apply Same.pre (Dev.setNat_same ..))
    | (with_reducible apply Same.pre (Dev.add_same ..))
    | (with_reducible apply Same.pre (Dev.setTx_same ..))
    | simp only [Same.upd]
    | split
    | dsimp only

theorem Dev.sendFill_same (d : Dev) (q : Nat) (p : Nat) : Same d (Dev.sendFill d q p) := by
  unfold Dev.sendFill
  repeat' first
    | (with_reducible apply Same.refl)
    | (with_reducible intro _)
    | (with_reducible apply Same.ite)
    | (with_reducible apply Same.pre (Dev.when_same _ _ _ ?_))
    | (with_reducible apply Same.pre (Dev.send_same ..))
    | split
    | dsimp only

theorem Dev.txIdle_same (d : Dev) (q : Nat) (p : Nat) : Same d (Dev.txIdle d q p) := by
  unfold Dev.txIdle
  repeat' first
    | (with_reducible apply Same.refl)
    | (with_reducible intro _)
    | (with_reducible apply Same.ite)
    | (with_reducible apply Same.pre (Dev.setNat_same ..))
    | (with_reducible apply Same.pre (Dev.add_same ..))
    | (with_reducible apply Same.pre (Dev.setTx_same ..))
    | split
    | dsimp only

theorem Dev.txPortDown_same (d : Dev) (q : Nat) (p : Nat) : Same d (Dev.txPortDown d q p) := by
  unfold Dev.txPortDown
  repeat' first
    | (with_reducible apply Same.refl)
    | (with_reducible intro _)
    | (with_reducible apply Same.ite)
    | (with_reducible apply Same.pre (Dev.when_same _ _ _ ?_))
    | (with_reducible apply Same.pre (Dev.setNat_same ..))
    | (with_reducible apply Same.pre (Dev.inc_same ..))
    | (with_reducible apply Same.pre (Dev.setTx_same ..))
    | (with_reducible apply Same.pre (Dev.txFlush_same ..))
    | (with_reducible apply Same.pre (Dev.sendFill_same ..))
    | (with_reducible apply Same.pre (Dev.txIdle_same ..))
    | simp only [Same.upd]
    | split
    | dsimp only

theorem Dev.txFinish_same (d : Dev) (q : Nat) (p : Nat) : Same d (Dev.txFinish d q p) := by
  unfold Dev.txFinish
  repeat' first
    | (with_reducible apply Same.refl)
    | (with_reducible intro _)
    | (with_reducible apply Same.ite)
    | (with_reducible apply Same.pre (Dev.when_same _ _ _ ?_))
    | (with_reducible apply Same.pre (Dev.setNat_same ..))
    | split
    | dsimp only

theorem Dev.txPortUp_same (d : Dev) (q : Nat) (p : Nat) : Same d (Dev.txPortUp d q p) := by
  unfold Dev.txPortUp
  repeat' first
    | (with_reducible apply Same.refl)
    | (with_reducible intro _)
    | (with_reducible apply Same.ite)
    | (with_reducible apply Same.pre (Dev.setNat_same ..))
    | (with_reducible apply Same.pre (Dev.add_same ..))
    | (with_reducible apply Same.pre (Dev.setTx_same ..))
    | (with_reducible apply Same.pre (Dev.txFlush_same ..))
    | (with_reducible apply Same.pre (Dev.sendFill_same ..))
    | (with_reducible apply Same.pre (Dev.txFinish_same ..))
    | simp only [Same.upd]
    | split
    | dsimp only

theorem Dev.abortEye_same (d : Dev) (l : Nat) : Same d (Dev.abortEye d l) := by
  unfold Dev.abortEye
  repeat' first
    | (with_reducible apply Same.refl)
    | (with_reducible intro _)
    | (with_reducible apply Same.ite)
    | (with_reducible apply Same.pre (Dev.when_same _ _ _ ?_))
    | (with_reducible apply Same.pre (Dev.setNat_same ..))
    | split
    | dsimp only

theorem Dev.linkRecord_same (d : Dev) (q : Nat) (p : Nat) (reason : Nat) : Same d (Dev.linkRecord d q p reason) := by
  unfold Dev.linkRecord
  repeat' first
    | (with_reducible apply Same.refl)
    | (with_reducible intro _)
    | (with_reducible apply Same.ite)
    | (with_reducible apply Same.pre (Dev.when_same _ _ _ ?_))
    | (with_reducible apply Same.pre (Dev.emit_same ..))
    | split
    | dsimp only

theorem Dev.transition_same (d : Dev) (q : Nat) (p : Nat) (st : Nat) : Same d (Dev.transition d q p st) := by
  unfold Dev.transition
  repeat' first
    | (with_reducible apply Same.refl)
    | (with_reducible intro _)
    | (with_reducible apply Same.ite)
    | (with_reducible apply Same.pre (Dev.setNat_same ..))
    | (with_reducible apply Same.pre (Dev.inc_same ..))
    | (with_reducible apply Same.pre (Dev.updPort_same ..))
    | (with_reducible apply Same.pre (Dev.occur_same ..))
    | simp only [Same.upd]
    | split
    | dsimp only

theorem Dev.downReason_same (d : Dev) (q : Nat) (p : Nat) (reason : Nat) : Same d (Dev.downReason d q p reason).2 := by
  unfold Dev.downReason
  repeat' first
    | (with_reducible apply Same.refl)
    | (with_reducible intro _)
    | (with_reducible apply Same.ite)
    | (with_reducible apply Same.pre (Dev.setNat_same ..))
    | (with_reducible apply Same.pre (Dev.updPort_same ..))
    | simp only [Same.upd]
    | split
    | dsimp only

theorem Dev.downRecords_same (d : Dev) (q : Nat) (p : Nat) (reason : Nat) : Same d (Dev.downRecords d q p reason) := by
  unfold Dev.downRecords
  repeat' first
    | (with_reducible apply Same.refl)
    | (with_reducible intro _)
    | (with_reducible apply Same.ite)
    | (with_reducible apply Same.pre (Dev.closeSettle_same ..))
    | (with_reducible apply Same.pre (Dev.endNote_same ..))
    | (with_reducible apply Same.pre (Dev.linkRecord_same ..))
    | split
    | dsimp only

theorem Dev.goDown_same (d : Dev) (q : Nat) (p : Nat) (reason : Nat) : Same d (Dev.goDown d q p reason) := by
  unfold Dev.goDown
  repeat' first
    | (with_reducible apply Same.refl)
    | (with_reducible intro _)
    | (with_reducible apply Same.ite)
    | (with_reducible apply Same.pre (Dev.when_same _ _ _ ?_))
    | (with_reducible apply Same.pre (Dev.updPort_same ..))
    | (with_reducible apply Same.pre (Dev.lapseMarks_same ..))
    | (with_reducible apply Same.pre (Dev.boundary_same ..))
    | (with_reducible apply Same.pre (Dev.txPortDown_same ..))
    | (with_reducible apply Same.pre (Dev.abortEye_same ..))
    | (with_reducible apply Same.pre (Dev.transition_same ..))
    | (with_reducible apply Same.pre (Dev.downReason_same ..))
    | (with_reducible apply Same.pre (Dev.downRecords_same ..))
    | (with_reducible apply Same.pre (Same.foldl ?_ _ _))
    | simp only [Same.upd]
    | split
    | dsimp only

theorem Dev.goUp_same (d : Dev) (q : Nat) (p : Nat) : Same d (Dev.goUp d q p) := by
  unfold Dev.goUp
  repeat' first
    | (with_reducible apply Same.refl)
    | (with_reducible intro _)
    | (with_reducible apply Same.ite)
    | (with_reducible apply Same.pre (Dev.updPort_same ..))
    | (with_reducible apply Same.pre (Dev.settleCause_same ..))
    | (with_reducible apply Same.pre (Dev.txPortUp_same ..))
    | (with_reducible apply Same.pre (Dev.linkRecord_same ..))
    | (with_reducible apply Same.pre (Dev.transition_same ..))
    | simp only [Same.upd]
    | split
    | dsimp only

theorem Dev.recheck_same (d : Dev) (q : Nat) (p : Nat) : Same d (Dev.recheck d q p) := by
  unfold Dev.recheck
  repeat' first
    | (with_reducible apply Same.refl)
    | (with_reducible intro _)
    | (with_reducible apply Same.ite)
    | (with_reducible apply Same.pre (Dev.when_same _ _ _ ?_))
    | (with_reducible apply Same.pre (Dev.setNat_same ..))
    | (with_reducible apply Same.pre (Dev.setPort_same ..))
    | simp only [Same.upd]
    | split
    | dsimp only

theorem Dev.recheckLane_same (d : Dev) (l : Nat) : Same d (Dev.recheckLane d l) := by
  unfold Dev.recheckLane
  repeat' first
    | (with_reducible apply Same.refl)
    | (with_reducible intro _)
    | (with_reducible apply Same.ite)
    | (with_reducible apply Same.pre (Dev.recheck_same ..))
    | split
    | dsimp only

theorem Dev.recheckQuad_same (d : Dev) (q : Nat) : Same d (Dev.recheckQuad d q) := by
  unfold Dev.recheckQuad
  repeat' first
    | (with_reducible apply Same.refl)
    | (with_reducible intro _)
    | (with_reducible apply Same.ite)
    | (with_reducible apply Same.pre (Dev.recheck_same ..))
    | (with_reducible apply Same.pre (Same.foldl ?_ _ _))
    | split
    | dsimp only

theorem Dev.lowPower_same (d : Dev) (i : Nat) : Same d (Dev.lowPower d i) := by
  unfold Dev.lowPower
  repeat' first
    | (with_reducible apply Same.refl)
    | (with_reducible intro _)
    | (with_reducible apply Same.ite)
    | (with_reducible apply Same.pre (Dev.when_same _ _ _ ?_))
    | (with_reducible apply Same.pre (Dev.updPort_same ..))
    | simp only [Same.upd]
    | split
    | dsimp only

theorem losAssertEffect_same (q : Nat) (k : Nat) (d : Dev) : Same d (losAssertEffect q k d) := by
  unfold losAssertEffect
  repeat' first
    | (with_reducible apply Same.refl)
    | (with_reducible intro _)
    | (with_reducible apply Same.ite)
    | (with_reducible apply Same.pre (Dev.when_same _ _ _ ?_))
    | (with_reducible apply Same.pre (Dev.inc_same ..))
    | (with_reducible apply Same.pre (Dev.setLaneBit_same ..))
    | (with_reducible apply Same.pre (Dev.unlock_same ..))
    | (with_reducible apply Same.pre (Dev.abortEye_same ..))
    | (with_reducible apply Same.pre (Dev.recheckLane_same ..))
    | (with_reducible apply Same.pre (Dev.lowPower_same ..))
    | split
    | dsimp only

theorem losDeassertEffect_same (q : Nat) (k : Nat) (d : Dev) : Same d (losDeassertEffect q k d) := by
  unfold losDeassertEffect
  repeat' first
    | (with_reducible apply Same.refl)
    | (with_reducible intro _)
    | (with_reducible apply Same.ite)
    | (with_reducible apply Same.pre (Dev.when_same _ _ _ ?_))
    | (with_reducible apply Same.pre (Dev.updPort_same ..))
    | (with_reducible apply Same.pre (Dev.setLaneBit_same ..))
    | (with_reducible apply Same.pre (Dev.relock_same ..))
    | (with_reducible apply Same.pre (Dev.recheckLane_same ..))
    | simp only [Same.upd]
    | split
    | dsimp only

theorem lolAssertEffect_same (q : Nat) (k : Nat) (d : Dev) : Same d (lolAssertEffect q k d) := by
  unfold lolAssertEffect
  repeat' first
    | (with_reducible apply Same.refl)
    | (with_reducible intro _)
    | (with_reducible apply Same.ite)
    | (with_reducible apply Same.pre (Dev.when_same _ _ _ ?_))
    | (with_reducible apply Same.pre (Dev.inc_same ..))
    | (with_reducible apply Same.pre (Dev.setLaneBit_same ..))
    | (with_reducible apply Same.pre (Dev.unlock_same ..))
    | (with_reducible apply Same.pre (Dev.abortEye_same ..))
    | (with_reducible apply Same.pre (Dev.recheckLane_same ..))
    | split
    | dsimp only

theorem lolDeassertEffect_same (q : Nat) (k : Nat) (d : Dev) : Same d (lolDeassertEffect q k d) := by
  unfold lolDeassertEffect
  repeat' first
    | (with_reducible apply Same.refl)
    | (with_reducible intro _)
    | (with_reducible apply Same.ite)
    | (with_reducible apply Same.pre (Dev.when_same _ _ _ ?_))
    | (with_reducible apply Same.pre (Dev.setLaneBit_same ..))
    | (with_reducible apply Same.pre (Dev.relock_same ..))
    | (with_reducible apply Same.pre (Dev.recheckLane_same ..))
    | split
    | dsimp only

theorem alignGainEffect_same (q : Nat) (k : Nat) (skew : Nat) (d : Dev) : Same d (alignGainEffect q k skew d) := by
  unfold alignGainEffect
  repeat' first
    | (with_reducible apply Same.refl)
    | (with_reducible intro _)
    | (with_reducible apply Same.ite)
    | (with_reducible apply Same.pre (Dev.when_same _ _ _ ?_))
    | (with_reducible apply Same.pre (Dev.setLaneBit_same ..))
    | (with_reducible apply Same.pre (Dev.relock_same ..))
    | (with_reducible apply Same.pre (Dev.recheckLane_same ..))
    | split
    | dsimp only

theorem alignLossEffect_same (q : Nat) (k : Nat) (d : Dev) : Same d (alignLossEffect q k d) := by
  unfold alignLossEffect
  repeat' first
    | (with_reducible apply Same.refl)
    | (with_reducible intro _)
    | (with_reducible apply Same.ite)
    | (with_reducible apply Same.pre (Dev.when_same _ _ _ ?_))
    | (with_reducible apply Same.pre (Dev.setLaneBit_same ..))
    | (with_reducible apply Same.pre (Dev.unlock_same ..))
    | (with_reducible apply Same.pre (Dev.recheckLane_same ..))
    | split
    | dsimp only

theorem upDebounceEffect_same (q : Nat) (p : Nat) (d : Dev) : Same d (upDebounceEffect q p d) := by
  unfold upDebounceEffect
  repeat' first
    | (with_reducible apply Same.refl)
    | (with_reducible intro _)
    | (with_reducible apply Same.ite)
    | (with_reducible apply Same.pre (Dev.when_same _ _ _ ?_))
    | (with_reducible apply Same.pre (Dev.goUp_same ..))
    | split
    | dsimp only

theorem downDebounceEffect_same (q : Nat) (p : Nat) (d : Dev) : Same d (downDebounceEffect q p d) := by
  unfold downDebounceEffect
  repeat' first
    | (with_reducible apply Same.refl)
    | (with_reducible intro _)
    | (with_reducible apply Same.ite)
    | (with_reducible apply Same.pre (Dev.when_same _ _ _ ?_))
    | (with_reducible apply Same.pre (Dev.goDown_same ..))
    | (with_reducible apply Same.pre (Dev.recheck_same ..))
    | split
    | dsimp only

theorem pcieRateEffect_same (q : Nat) (p : Nat) (speed : Nat) (width : Nat) (reversed : Bool) (inverted : Nat) (d : Dev) : Same d (pcieRateEffect q p speed width reversed inverted d) := by
  unfold pcieRateEffect
  repeat' first
    | (with_reducible apply Same.refl)
    | (with_reducible intro _)
    | (with_reducible apply Same.ite)
    | (with_reducible apply Same.pre (Dev.when_same _ _ _ ?_))
    | (with_reducible apply Same.pre (Dev.setNat_same ..))
    | (with_reducible apply Same.pre (Dev.updPort_same ..))
    | (with_reducible apply Same.pre (Dev.setLaneBit_same ..))
    | (with_reducible apply Same.pre (Dev.settleCause_same ..))
    | (with_reducible apply Same.pre (Same.foldl ?_ _ _))
    | simp only [Same.upd]
    | split
    | dsimp only

theorem retuneLimitEffect_same (q : Nat) (p : Nat) (d : Dev) : Same d (retuneLimitEffect q p d) := by
  unfold retuneLimitEffect
  repeat' first
    | (with_reducible apply Same.refl)
    | (with_reducible intro _)
    | (with_reducible apply Same.ite)
    | (with_reducible apply Same.pre (Dev.when_same _ _ _ ?_))
    | (with_reducible apply Same.pre (Dev.goDown_same ..))
    | (with_reducible apply Same.pre (Dev.recheck_same ..))
    | split
    | dsimp only

theorem idleLimitEffect_same (q : Nat) (p : Nat) (d : Dev) : Same d (idleLimitEffect q p d) := by
  unfold idleLimitEffect
  repeat' first
    | (with_reducible apply Same.refl)
    | (with_reducible intro _)
    | (with_reducible apply Same.ite)
    | (with_reducible apply Same.pre (Dev.when_same _ _ _ ?_))
    | (with_reducible apply Same.pre (Dev.goDown_same ..))
    | (with_reducible apply Same.pre (Dev.recheck_same ..))
    | split
    | dsimp only

theorem settleEndEffect_same (q : Nat) (p : Nat) (d : Dev) : Same d (settleEndEffect q p d) := by
  unfold settleEndEffect
  repeat' first
    | (with_reducible apply Same.refl)
    | (with_reducible intro _)
    | (with_reducible apply Same.ite)
    | (with_reducible apply Same.pre (Dev.when_same _ _ _ ?_))
    | (with_reducible apply Same.pre (Dev.endNs_same ..))
    | (with_reducible apply Same.pre (Dev.endSettle_same ..))
    | split
    | dsimp only

theorem Dev.commitDown_same (d : Dev) (q : Nat) (p : Nat) : Same d (Dev.commitDown d q p) := by
  unfold Dev.commitDown
  repeat' first
    | (with_reducible apply Same.refl)
    | (with_reducible intro _)
    | (with_reducible apply Same.ite)
    | (with_reducible apply Same.pre (Dev.when_same _ _ _ ?_))
    | (with_reducible apply Same.pre (Dev.setNat_same ..))
    | (with_reducible apply Same.pre (Dev.updPort_same ..))
    | (with_reducible apply Same.pre (Dev.sendFill_same ..))
    | (with_reducible apply Same.pre (Dev.goDown_same ..))
    | (with_reducible apply Same.pre (Dev.recheck_same ..))
    | simp only [Same.upd]
    | split
    | dsimp only

theorem Dev.modeChanged_same (d : Dev) (q : Nat) (p : Nat) : Same d (Dev.modeChanged d q p) := by
  unfold Dev.modeChanged
  repeat' first
    | (with_reducible apply Same.refl)
    | (with_reducible intro _)
    | (with_reducible apply Same.ite)
    | (with_reducible apply Same.pre (Dev.setLaneBit_same ..))
    | (with_reducible apply Same.pre (Dev.abortEye_same ..))
    | (with_reducible apply Same.pre (Dev.commitDown_same ..))
    | (with_reducible apply Same.pre (Same.foldl ?_ _ _))
    | split
    | dsimp only

theorem Dev.freePll_same (d : Dev) (q : Nat) (p : Nat) : Same d (Dev.freePll d q p) := by
  unfold Dev.freePll
  repeat' first
    | (with_reducible apply Same.refl)
    | (with_reducible intro _)
    | (with_reducible apply Same.ite)
    | (with_reducible apply Same.pre (Dev.setNat_same ..))
    | split
    | dsimp only

theorem Dev.assignPll_same (d : Dev) (q : Nat) (p : Nat) : Same d (Dev.assignPll d q p) := by
  unfold Dev.assignPll
  repeat' first
    | (with_reducible apply Same.refl)
    | (with_reducible intro _)
    | (with_reducible apply Same.ite)
    | (with_reducible apply Same.pre (Dev.setNat_same ..))
    | (with_reducible apply Same.pre (Dev.freePll_same ..))
    | split
    | dsimp only

theorem Dev.modesChanged_same (d : Dev) (l : List Nat) : Same d (Dev.modesChanged d l) := by
  unfold Dev.modesChanged
  repeat' first
    | (with_reducible apply Same.refl)
    | (with_reducible intro _)
    | (with_reducible apply Same.ite)
    | (with_reducible apply Same.pre (Dev.modeChanged_same ..))
    | (with_reducible apply Same.pre (Dev.freePll_same ..))
    | (with_reducible apply Same.pre (Dev.assignPll_same ..))
    | (with_reducible apply Same.pre (Same.foldl ?_ _ _))
    | split
    | dsimp only

theorem Dev.layoutChanged_same (d : Dev) (old : List (Nat × Nat)) (new : List (Nat × Nat)) : Same d (Dev.layoutChanged d old new) := by
  unfold Dev.layoutChanged
  repeat' first
    | (with_reducible apply Same.refl)
    | (with_reducible intro _)
    | (with_reducible apply Same.ite)
    | (with_reducible apply Same.pre (Dev.setNat_same ..))
    | (with_reducible apply Same.pre (Dev.commitDown_same ..))
    | (with_reducible apply Same.pre (Dev.freePll_same ..))
    | (with_reducible apply Same.pre (Dev.assignPll_same ..))
    | (with_reducible apply Same.pre (Same.foldl ?_ _ _))
    | split
    | dsimp only

theorem Dev.eyeBegin_same (d : Dev) (q : Nat) : Same d (Dev.eyeBegin d q) := by
  unfold Dev.eyeBegin
  repeat' first
    | (with_reducible apply Same.refl)
    | (with_reducible intro _)
    | (with_reducible apply Same.ite)
    | (with_reducible apply Same.pre (Dev.setNat_same ..))
    | simp only [Same.upd]
    | split
    | dsimp only

theorem eyePointEffect_same (q : Nat) (errors : Nat) (d : Dev) : Same d (eyePointEffect q errors d) := by
  unfold eyePointEffect
  repeat' first
    | (with_reducible apply Same.refl)
    | (with_reducible intro _)
    | (with_reducible apply Same.ite)
    | (with_reducible apply Same.pre (Dev.when_same _ _ _ ?_))
    | (with_reducible apply Same.pre (Dev.setNat_same ..))
    | (with_reducible apply Same.pre (Dev.inc_same ..))
    | simp only [Same.upd]
    | split
    | dsimp only

end Sys2Proof.Machine
end

