-- ==== Sys2Proof/Laws/Time.lean ====
section
/-! SUPPORT. What each operation of Machine/Time.lean keeps (`Same` and `Safe` of Laws/Frame.lean). -/

set_option Elab.async false
set_option linter.unusedTactic false
set_option linter.unreachableTactic false

namespace Sys2Proof.Machine

theorem Dev.setReplica_same (d : Dev) (r : Nat) (x : Replica) : Same d (Dev.setReplica d r x) := by
  unfold Dev.setReplica
  repeat' first
    | (with_reducible apply Same.refl)
    | (with_reducible intro _)
    | (with_reducible apply Same.ite)
    | simp only [Same.upd]
    | split
    | dsimp only

theorem Dev.compareReplica_same (d : Dev) (r : Nat) (dev : Int) : Same d (Dev.compareReplica d r dev) := by
  unfold Dev.compareReplica
  repeat' first
    | (with_reducible apply Same.refl)
    | (with_reducible intro _)
    | (with_reducible apply Same.ite)
    | (with_reducible apply Same.pre (Dev.inc_same ..))
    | (with_reducible apply Same.pre (Dev.occur_same ..))
    | (with_reducible apply Same.pre (Dev.setReplica_same ..))
    | simp only [Same.upd]
    | split
    | dsimp only

theorem parityEffect_same (seen : List (Fin 37 × Int)) (d : Dev) : Same d (parityEffect seen d) := by
  unfold parityEffect
  repeat' first
    | (with_reducible apply Same.refl)
    | (with_reducible intro _)
    | (with_reducible apply Same.ite)
    | (with_reducible apply Same.pre (Dev.compareReplica_same ..))
    | (with_reducible apply Same.pre (Same.foldl ?_ _ _))
    | split
    | dsimp only

theorem realignEffect_same (r : Nat) (d : Dev) : Same d (realignEffect r d) := by
  unfold realignEffect
  repeat' first
    | (with_reducible apply Same.refl)
    | (with_reducible intro _)
    | (with_reducible apply Same.ite)
    | (with_reducible apply Same.pre (Dev.when_same _ _ _ ?_))
    | (with_reducible apply Same.pre (Dev.markers_same ..))
    | (with_reducible apply Same.pre (Dev.setReplica_same ..))
    | (with_reducible apply Same.pre (Same.foldl ?_ _ _))
    | split
    | dsimp only

theorem markerIntervalEffect_same (d : Dev) : Same d (markerIntervalEffect d) := by
  unfold markerIntervalEffect
  repeat' first
    | (with_reducible apply Same.refl)
    | (with_reducible intro _)
    | (with_reducible apply Same.ite)
    | (with_reducible apply Same.pre (Dev.when_same _ _ _ ?_))
    | (with_reducible apply Same.pre (Dev.markers_same ..))
    | simp only [Same.upd]
    | split
    | dsimp only

theorem Dev.discipline_same (d : Dev) (st : Nat) : Same d (Dev.discipline d st) := by
  unfold Dev.discipline
  repeat' first
    | (with_reducible apply Same.refl)
    | (with_reducible intro _)
    | (with_reducible apply Same.ite)
    | (with_reducible apply Same.pre (Dev.setNat_same ..))
    | (with_reducible apply Same.pre (Dev.occur_same ..))
    | (with_reducible apply Same.pre (Dev.markers_same ..))
    | split
    | dsimp only

theorem Dev.acquire_same (d : Dev) : Same d (Dev.acquire d) := by
  unfold Dev.acquire
  repeat' first
    | (with_reducible apply Same.refl)
    | (with_reducible intro _)
    | (with_reducible apply Same.ite)
    | (with_reducible apply Same.pre (Dev.discipline_same ..))
    | simp only [Same.upd]
    | split
    | dsimp only

theorem Dev.sampleIn_same (d : Dev) (off : Int) (tick : Nat) : Same d (Dev.sampleIn d off tick) := by
  unfold Dev.sampleIn
  repeat' first
    | (with_reducible apply Same.refl)
    | (with_reducible intro _)
    | (with_reducible apply Same.ite)
    | simp only [Same.upd]
    | split
    | dsimp only

theorem ppsEffect_same (pos : Nat) (d : Dev) : Same d (ppsEffect pos d) := by
  unfold ppsEffect
  repeat' first
    | (with_reducible apply Same.refl)
    | (with_reducible intro _)
    | (with_reducible apply Same.ite)
    | (with_reducible apply Same.pre (Dev.when_same _ _ _ ?_))
    | (with_reducible apply Same.pre (Dev.inc_same ..))
    | (with_reducible apply Same.pre (Dev.sampleIn_same ..))
    | simp only [Same.upd]
    | split
    | dsimp only

theorem Dev.ptpSynced_same (d : Dev) (t1 : Int) (t2 : Int) : Same d (Dev.ptpSynced d t1 t2) := by
  unfold Dev.ptpSynced
  repeat' first
    | (with_reducible apply Same.refl)
    | (with_reducible intro _)
    | (with_reducible apply Same.ite)
    | (with_reducible apply Same.pre (Dev.sampleIn_same ..))
    | simp only [Same.upd]
    | split
    | dsimp only

theorem Dev.ptpDelay_same (d : Dev) (v : Int) : Same d (Dev.ptpDelay d v) := by
  unfold Dev.ptpDelay
  repeat' first
    | (with_reducible apply Same.refl)
    | (with_reducible intro _)
    | (with_reducible apply Same.ite)
    | simp only [Same.upd]
    | split
    | dsimp only

theorem Dev.ptpSend_same (d : Dev) (m : PtpMsg) : Same d (Dev.ptpSend d m) := by
  unfold Dev.ptpSend
  repeat' first
    | (with_reducible apply Same.refl)
    | (with_reducible intro _)
    | (with_reducible apply Same.ite)
    | (with_reducible apply Same.pre (Dev.send_same ..))
    | split
    | dsimp only

theorem Dev.ptpRequests_same (d : Dev) : Same d (Dev.ptpRequests d) := by
  unfold Dev.ptpRequests
  repeat' first
    | (with_reducible apply Same.refl)
    | (with_reducible intro _)
    | (with_reducible apply Same.ite)
    | (with_reducible apply Same.pre (Dev.drawn_same ..))
    | (with_reducible apply Same.pre (Dev.ptpSend_same ..))
    | simp only [Same.upd]
    | split
    | dsimp only

theorem ptpEffect_same (pos : Nat) (domain : Nat) (m : PtpMsg) (d : Dev) : Same d (ptpEffect pos domain m d) := by
  unfold ptpEffect
  repeat' first
    | (with_reducible apply Same.refl)
    | (with_reducible intro _)
    | (with_reducible apply Same.ite)
    | (with_reducible apply Same.pre (Dev.when_same _ _ _ ?_))
    | (with_reducible apply Same.pre (Dev.ptpSynced_same ..))
    | (with_reducible apply Same.pre (Dev.ptpDelay_same ..))
    | (with_reducible apply Same.pre (Dev.ptpSend_same ..))
    | (with_reducible apply Same.pre (Dev.ptpRequests_same ..))
    | simp only [Same.upd]
    | split
    | dsimp only

theorem Dev.setOffset_same (d : Dev) (off : Int) : Same d (Dev.setOffset d off) := by
  unfold Dev.setOffset
  repeat' first
    | (with_reducible apply Same.refl)
    | (with_reducible intro _)
    | (with_reducible apply Same.ite)
    | (with_reducible apply Same.pre (Dev.setInt_same ..))
    | (with_reducible apply Same.pre (Dev.drawn_same ..))
    | split
    | dsimp only

theorem Dev.refReturn_same (d : Dev) : Same d (Dev.refReturn d) := by
  unfold Dev.refReturn
  repeat' first
    | (with_reducible apply Same.refl)
    | (with_reducible intro _)
    | (with_reducible apply Same.ite)
    | (with_reducible apply Same.pre (Dev.acquire_same ..))
    | split
    | dsimp only

theorem Dev.measured_same (d : Dev) (off : Int) (steer : Bool) : Same d (Dev.measured d off steer) := by
  unfold Dev.measured
  repeat' first
    | (with_reducible apply Same.refl)
    | (with_reducible intro _)
    | (with_reducible apply Same.ite)
    | (with_reducible apply Same.pre (Dev.setInt_same ..))
    | (with_reducible apply Same.pre (Dev.discipline_same ..))
    | (with_reducible apply Same.pre (Dev.setOffset_same ..))
    | (with_reducible apply Same.pre (Dev.refReturn_same ..))
    | simp only [Same.upd]
    | split
    | dsimp only

theorem measureEffect_same (d : Dev) : Same d (measureEffect d) := by
  unfold measureEffect
  repeat' first
    | (with_reducible apply Same.refl)
    | (with_reducible intro _)
    | (with_reducible apply Same.ite)
    | (with_reducible apply Same.pre (Dev.setInt_same ..))
    | (with_reducible apply Same.pre (Dev.refReturn_same ..))
    | (with_reducible apply Same.pre (Dev.measured_same ..))
    | simp only [Same.upd]
    | split
    | dsimp only

theorem refLossEffect_same (d : Dev) : Same d (refLossEffect d) := by
  unfold refLossEffect
  repeat' first
    | (with_reducible apply Same.refl)
    | (with_reducible intro _)
    | (with_reducible apply Same.ite)
    | (with_reducible apply Same.pre (Dev.when_same _ _ _ ?_))
    | (with_reducible apply Same.pre (Dev.discipline_same ..))
    | simp only [Same.upd]
    | split
    | dsimp only

theorem holdoverLimitEffect_same (d : Dev) : Same d (holdoverLimitEffect d) := by
  unfold holdoverLimitEffect
  repeat' first
    | (with_reducible apply Same.refl)
    | (with_reducible intro _)
    | (with_reducible apply Same.ite)
    | (with_reducible apply Same.pre (Dev.when_same _ _ _ ?_))
    | (with_reducible apply Same.pre (Dev.discipline_same ..))
    | simp only [Same.upd]
    | split
    | dsimp only

theorem Dev.modeCommitted_same (d : Dev) (mode : Nat) : Same d (Dev.modeCommitted d mode) := by
  unfold Dev.modeCommitted
  repeat' first
    | (with_reducible apply Same.refl)
    | (with_reducible intro _)
    | (with_reducible apply Same.ite)
    | (with_reducible apply Same.pre (Dev.discipline_same ..))
    | (with_reducible apply Same.pre (Dev.acquire_same ..))
    | simp only [Same.upd]
    | split
    | dsimp only

theorem Dev.step_safe (d : Dev) (v : Nat) : Safe d (Dev.step d v) := by
  unfold Dev.step
  refine Safe.pre (Safe.foldl (fun a x => Safe.ite (Dev.stepMarker_same ..).safe (Safe.refl a)) _ _) ?_
  exact ⟨id, fun _ => Nat.mod_lt _ (Nat.two_pow_pos 64), rfl, Nat.le_refl _, id⟩

end Sys2Proof.Machine
end

