-- ==== Sys2Proof/Laws/Pair.lean ====
section
/-! SUPPORT. What each operation of Machine/Pair.lean keeps (`Same` and `Safe` of Laws/Frame.lean). -/

set_option Elab.async false
set_option linter.unusedTactic false
set_option linter.unreachableTactic false

namespace Sys2Proof.Machine

theorem Dev.mirrorAll_same (d : Dev) (kind : Nat) (es : List (List Byte)) : Same d (Dev.mirrorAll d kind es) := by
  unfold Dev.mirrorAll
  repeat' first
    | (with_reducible apply Same.refl)
    | (with_reducible intro _)
    | (with_reducible apply Same.ite)
    | (with_reducible apply Same.pre (Dev.mirror_same ..))
    | (with_reducible apply Same.pre (Same.foldl ?_ _ _))
    | split
    | dsimp only

theorem Dev.autoCommit_same (d : Dev) (key : Nat) (v : Val) : Same d (Dev.autoCommit d key v) := by
  unfold Dev.autoCommit
  repeat' first
    | (with_reducible apply Same.refl)
    | (with_reducible intro _)
    | (with_reducible apply Same.ite)
    | simp only [Same.upd]
    | split
    | dsimp only

theorem Dev.autoMode_same (d : Dev) (mode : Nat) : Same d (Dev.autoMode d mode) := by
  unfold Dev.autoMode
  repeat' first
    | (with_reducible apply Same.refl)
    | (with_reducible intro _)
    | (with_reducible apply Same.ite)
    | (with_reducible apply Same.pre (Dev.autoCommit_same ..))
    | split
    | dsimp only

theorem Dev.roleLog_same (d : Dev) (new : Nat) (old : Nat) (cause : Nat) (index : Nat) : Same d (Dev.roleLog d new old cause index) := by
  unfold Dev.roleLog
  repeat' first
    | (with_reducible apply Same.refl)
    | (with_reducible intro _)
    | (with_reducible apply Same.ite)
    | (with_reducible apply Same.pre (Dev.logNote_same ..))
    | split
    | dsimp only

theorem Dev.setRole_same (d : Dev) (new : Nat) (cause : Nat) : Same d (Dev.setRole d new cause) := by
  unfold Dev.setRole
  repeat' first
    | (with_reducible apply Same.refl)
    | (with_reducible intro _)
    | (with_reducible apply Same.ite)
    | (with_reducible apply Same.pre (Dev.setNat_same ..))
    | (with_reducible apply Same.pre (Dev.occur_same ..))
    | (with_reducible apply Same.pre (Dev.autoMode_same ..))
    | (with_reducible apply Same.pre (Dev.roleLog_same ..))
    | simp only [Same.upd]
    | split
    | dsimp only

theorem Dev.keepEpoch_same (d : Dev) : Same d (Dev.keepEpoch d) := by
  unfold Dev.keepEpoch
  repeat' first
    | (with_reducible apply Same.refl)
    | (with_reducible intro _)
    | (with_reducible apply Same.ite)
    | (with_reducible apply Same.pre (Dev.keepVals_same ..))
    | split
    | dsimp only

theorem Dev.twinTrouble_same (d : Dev) (st : Nat) : Same d (Dev.twinTrouble d st) := by
  unfold Dev.twinTrouble
  repeat' first
    | (with_reducible apply Same.refl)
    | (with_reducible intro _)
    | (with_reducible apply Same.ite)
    | (with_reducible apply Same.pre (Dev.setNat_same ..))
    | (with_reducible apply Same.pre (Dev.occur_same ..))
    | (with_reducible apply Same.pre (Dev.discipline_same ..))
    | simp only [Same.upd]
    | split
    | dsimp only

theorem Dev.shadowTimer_same (d : Dev) (n : Nat) (entry : List Byte) (t : Nat) : Same d (Dev.shadowTimer d n entry t) := by
  unfold Dev.shadowTimer
  repeat' first
    | (with_reducible apply Same.refl)
    | (with_reducible intro _)
    | (with_reducible apply Same.ite)
    | simp only [Same.upd]
    | split
    | dsimp only

theorem Dev.takeOver_same (d : Dev) : Same d (Dev.takeOver d) := by
  unfold Dev.takeOver
  repeat' first
    | (with_reducible apply Same.refl)
    | (with_reducible intro _)
    | (with_reducible apply Same.ite)
    | (with_reducible apply Same.pre (Dev.setNat_same ..))
    | (with_reducible apply Same.pre (Dev.inc_same ..))
    | (with_reducible apply Same.pre (Dev.autoMode_same ..))
    | (with_reducible apply Same.pre (Dev.keepEpoch_same ..))
    | (with_reducible apply Same.pre (Dev.shadowTimer_same ..))
    | (with_reducible apply Same.pre (Same.foldl ?_ _ _))
    | simp only [Same.upd]
    | split
    | dsimp only

theorem Dev.failover_same (d : Dev) (cause : Nat) : Same d (Dev.failover d cause) := by
  unfold Dev.failover
  repeat' first
    | (with_reducible apply Same.refl)
    | (with_reducible intro _)
    | (with_reducible apply Same.ite)
    | (with_reducible apply Same.pre (Dev.setNat_same ..))
    | (with_reducible apply Same.pre (Dev.inc_same ..))
    | (with_reducible apply Same.pre (Dev.occur_same ..))
    | (with_reducible apply Same.pre (Dev.roleLog_same ..))
    | (with_reducible apply Same.pre (Dev.takeOver_same ..))
    | split
    | dsimp only

theorem Dev.twinCheck_same (d : Dev) : Same d (Dev.twinCheck d) := by
  unfold Dev.twinCheck
  repeat' first
    | (with_reducible apply Same.refl)
    | (with_reducible intro _)
    | (with_reducible apply Same.ite)
    | (with_reducible apply Same.pre (Dev.twinTrouble_same ..))
    | (with_reducible apply Same.pre (Dev.failover_same ..))
    | split
    | dsimp only

theorem Dev.twinSync_same (d : Dev) : Same d (Dev.twinSync d) := by
  unfold Dev.twinSync
  repeat' first
    | (with_reducible apply Same.refl)
    | (with_reducible intro _)
    | (with_reducible apply Same.ite)
    | (with_reducible apply Same.pre (Dev.setNat_same ..))
    | (with_reducible apply Same.pre (Dev.mirrorAll_same ..))
    | simp only [Same.upd]
    | split
    | dsimp only

theorem Dev.twinUp_same (d : Dev) : Same d (Dev.twinUp d) := by
  unfold Dev.twinUp
  repeat' first
    | (with_reducible apply Same.refl)
    | (with_reducible intro _)
    | (with_reducible apply Same.ite)
    | (with_reducible apply Same.pre (Dev.setNat_same ..))
    | (with_reducible apply Same.pre (Dev.twinSync_same ..))
    | simp only [Same.upd]
    | split
    | dsimp only

theorem Dev.twinDown_same (d : Dev) : Same d (Dev.twinDown d) := by
  unfold Dev.twinDown
  repeat' first
    | (with_reducible apply Same.refl)
    | (with_reducible intro _)
    | (with_reducible apply Same.ite)
    | (with_reducible apply Same.pre (Dev.setNat_same ..))
    | (with_reducible apply Same.pre (Dev.twinTrouble_same ..))
    | (with_reducible apply Same.pre (Dev.twinCheck_same ..))
    | simp only [Same.upd]
    | split
    | dsimp only

end Sys2Proof.Machine
end

