-- ==== Sys2Proof/Laws/Spapax.lean ====
section
/-! SUPPORT. What each operation of Machine/Spapax.lean keeps (`Same` and `Safe` of Laws/Frame.lean). -/

set_option Elab.async false
set_option linter.unusedTactic false
set_option linter.unreachableTactic false

namespace Sys2Proof.Machine

theorem Dev.sendBlocks_same (d : Dev) (i : Nat) (frame : List Byte) (bs : List TxBlock) : Same d (Dev.sendBlocks d i frame bs) := by
  unfold Dev.sendBlocks
  repeat' first
    | (with_reducible apply Same.refl)
    | (with_reducible intro _)
    | (with_reducible apply Same.ite)
    | (with_reducible apply Same.pre (Dev.send_same ..))
    | (with_reducible apply Same.pre (Dev.setSpx_same ..))
    | split
    | dsimp only

theorem Dev.sendFrame_same (d : Dev) (i : Nat) (l : List Byte) : Same d (Dev.sendFrame d i l) := by
  unfold Dev.sendFrame
  repeat' first
    | (with_reducible apply Same.refl)
    | (with_reducible intro _)
    | (with_reducible apply Same.ite)
    | (with_reducible apply Same.pre (Dev.sendBlocks_same ..))
    | split
    | dsimp only

theorem Dev.linkKeyed_same (d : Dev) (i : Nat) : Same d (Dev.linkKeyed d i) := by
  unfold Dev.linkKeyed
  repeat' first
    | (with_reducible apply Same.refl)
    | (with_reducible intro _)
    | (with_reducible apply Same.ite)
    | (with_reducible apply Same.pre (Dev.setSpx_same ..))
    | simp only [Same.upd]
    | split
    | dsimp only

theorem Dev.sendAck_same (d : Dev) (i : Nat) (nak : Bool) : Same d (Dev.sendAck d i nak) := by
  unfold Dev.sendAck
  repeat' first
    | (with_reducible apply Same.refl)
    | (with_reducible intro _)
    | (with_reducible apply Same.ite)
    | (with_reducible apply Same.pre (Dev.sendFrame_same ..))
    | split
    | dsimp only

theorem Dev.linkHello_same (d : Dev) (i : Nat) : Same d (Dev.linkHello d i) := by
  unfold Dev.linkHello
  repeat' first
    | (with_reducible apply Same.refl)
    | (with_reducible intro _)
    | (with_reducible apply Same.ite)
    | (with_reducible apply Same.pre (Dev.queueFrame_same ..))
    | split
    | dsimp only

theorem Dev.linkNonce_same (d : Dev) (i : Nat) : Same d (Dev.linkNonce d i) := by
  unfold Dev.linkNonce
  repeat' first
    | (with_reducible apply Same.refl)
    | (with_reducible intro _)
    | (with_reducible apply Same.ite)
    | (with_reducible apply Same.pre (Dev.drawn_same ..))
    | (with_reducible apply Same.pre (Dev.setSpx_same ..))
    | (with_reducible apply Same.pre (Dev.linkHello_same ..))
    | simp only [Same.upd]
    | split
    | dsimp only

theorem Dev.eachPort_same (d : Dev) (q : Nat) (f : Dev → Nat → Dev) (h : ∀ (z : Dev) (i : Nat), Same z (f z i)) : Same d (Dev.eachPort d q f) :=
  Same.foldl h _ _
theorem Dev.eachPort_safe (d : Dev) (q : Nat) (f : Dev → Nat → Dev) (h : ∀ (z : Dev) (i : Nat), Safe z (f z i)) : Safe d (Dev.eachPort d q f) :=
  Safe.foldl h _ _

theorem Dev.sendTrain_same (d : Dev) (i : Nat) : Same d (Dev.sendTrain d i) := by
  unfold Dev.sendTrain
  repeat' first
    | (with_reducible apply Same.refl)
    | (with_reducible intro _)
    | (with_reducible apply Same.ite)
    | (with_reducible apply Same.pre (Dev.send_same ..))
    | (with_reducible apply Same.pre (Dev.sendBlocks_same ..))
    | split
    | dsimp only

theorem Dev.portStage_same (d : Dev) (st : Nat) (i : Nat) : Same d (Dev.portStage d st i) := by
  unfold Dev.portStage
  repeat' first
    | (with_reducible apply Same.refl)
    | (with_reducible intro _)
    | (with_reducible apply Same.ite)
    | (with_reducible apply Same.pre (Dev.setSpx_same ..))
    | (with_reducible apply Same.pre (Dev.linkKeyed_same ..))
    | (with_reducible apply Same.pre (Dev.linkNonce_same ..))
    | (with_reducible apply Same.pre (Dev.sendTrain_same ..))
    | simp only [Same.upd]
    | split
    | dsimp only

theorem Dev.enterStage_same (d : Dev) (q : Nat) (st : Nat) : Same d (Dev.enterStage d q st) := by
  unfold Dev.enterStage
  repeat' first
    | (with_reducible apply Same.refl)
    | (with_reducible intro _)
    | (with_reducible apply Same.ite)
    | (with_reducible apply Same.pre (Dev.eachPort_same _ _ _ ?_))
    | (with_reducible apply Same.pre (Dev.setNat_same ..))
    | (with_reducible apply Same.pre (Dev.setSpx_same ..))
    | (with_reducible apply Same.pre (Dev.twinUp_same ..))
    | (with_reducible apply Same.pre (Dev.portStage_same ..))
    | simp only [Same.upd]
    | split
    | dsimp only

theorem Dev.detectStage_same (d : Dev) (q : Nat) : Same d (Dev.detectStage d q) := by
  unfold Dev.detectStage
  repeat' first
    | (with_reducible apply Same.refl)
    | (with_reducible intro _)
    | (with_reducible apply Same.ite)
    | (with_reducible apply Same.pre (Dev.enterStage_same ..))
    | split
    | dsimp only

theorem Dev.linkTransition_same (d : Dev) (q : Nat) (p : Nat) (st : Nat) (reason : Nat) : Same d (Dev.linkTransition d q p st reason) := by
  unfold Dev.linkTransition
  repeat' first
    | (with_reducible apply Same.refl)
    | (with_reducible intro _)
    | (with_reducible apply Same.ite)
    | (with_reducible apply Same.pre (Dev.abortEye_same ..))
    | (with_reducible apply Same.pre (Dev.transition_same ..))
    | (with_reducible apply Same.pre (Dev.downReason_same ..))
    | (with_reducible apply Same.pre (Same.foldl ?_ _ _))
    | split
    | dsimp only

theorem Dev.nativeTransition_same (d : Dev) (q : Nat) (st : Nat) (reason : Nat) : Same d (Dev.nativeTransition d q st reason) := by
  unfold Dev.nativeTransition
  repeat' first
    | (with_reducible apply Same.refl)
    | (with_reducible intro _)
    | (with_reducible apply Same.ite)
    | (with_reducible apply Same.pre (Dev.eachPort_same _ _ _ ?_))
    | (with_reducible apply Same.pre (Dev.linkTransition_same ..))
    | split
    | dsimp only

theorem Dev.stageFail_same (d : Dev) (q : Nat) (reason : Nat) : Same d (Dev.stageFail d q reason) := by
  unfold Dev.stageFail
  repeat' first
    | (with_reducible apply Same.refl)
    | (with_reducible intro _)
    | (with_reducible apply Same.ite)
    | (with_reducible apply Same.pre (Dev.eachPort_same _ _ _ ?_))
    | (with_reducible apply Same.pre (Dev.setNat_same ..))
    | (with_reducible apply Same.pre (Dev.inc_same ..))
    | (with_reducible apply Same.pre (Dev.setSpx_same ..))
    | (with_reducible apply Same.pre (Dev.logNote_same ..))
    | (with_reducible apply Same.pre (Dev.occur_same ..))
    | (with_reducible apply Same.pre (Dev.enterStage_same ..))
    | simp only [Same.upd]
    | split
    | dsimp only

theorem Dev.activeFall_same (d : Dev) (q : Nat) (reason : Nat) (down : Nat) : Same d (Dev.activeFall d q reason down) := by
  unfold Dev.activeFall
  repeat' first
    | (with_reducible apply Same.refl)
    | (with_reducible intro _)
    | (with_reducible apply Same.ite)
    | (with_reducible apply Same.pre (Dev.when_same _ _ _ ?_))
    | (with_reducible apply Same.pre (Dev.setNat_same ..))
    | (with_reducible apply Same.pre (Dev.setSpx_same ..))
    | (with_reducible apply Same.pre (Dev.twinDown_same ..))
    | (with_reducible apply Same.pre (Dev.detectStage_same ..))
    | (with_reducible apply Same.pre (Dev.nativeTransition_same ..))
    | simp only [Same.upd]
    | split
    | dsimp only

theorem Dev.spxLost_same (d : Dev) (q : Nat) (down : Nat) : Same d (Dev.spxLost d q down) := by
  unfold Dev.spxLost
  repeat' first
    | (with_reducible apply Same.refl)
    | (with_reducible intro _)
    | (with_reducible apply Same.ite)
    | (with_reducible apply Same.pre (Dev.activeFall_same ..))
    | split
    | dsimp only

theorem Dev.spxEnabled_same (d : Dev) (q : Nat) (on : Bool) : Same d (Dev.spxEnabled d q on) := by
  unfold Dev.spxEnabled
  repeat' first
    | (with_reducible apply Same.refl)
    | (with_reducible intro _)
    | (with_reducible apply Same.ite)
    | (with_reducible apply Same.pre (Dev.eachPort_same _ _ _ ?_))
    | (with_reducible apply Same.pre (Dev.setSpx_same ..))
    | (with_reducible apply Same.pre (Dev.twinDown_same ..))
    | (with_reducible apply Same.pre (Dev.enterStage_same ..))
    | (with_reducible apply Same.pre (Dev.detectStage_same ..))
    | (with_reducible apply Same.pre (Dev.nativeTransition_same ..))
    | split
    | dsimp only

theorem Dev.spxResume_same (d : Dev) (q : Nat) : Same d (Dev.spxResume d q) := by
  unfold Dev.spxResume
  repeat' first
    | (with_reducible apply Same.refl)
    | (with_reducible intro _)
    | (with_reducible apply Same.ite)
    | (with_reducible apply Same.pre (Dev.detectStage_same ..))
    | split
    | dsimp only

theorem Dev.spxHold_same (d : Dev) (q : Nat) : Same d (Dev.spxHold d q) := by
  unfold Dev.spxHold
  repeat' first
    | (with_reducible apply Same.refl)
    | (with_reducible intro _)
    | (with_reducible apply Same.ite)
    | (with_reducible apply Same.pre (Dev.eachPort_same _ _ _ ?_))
    | (with_reducible apply Same.pre (Dev.setNat_same ..))
    | (with_reducible apply Same.pre (Dev.enterStage_same ..))
    | (with_reducible apply Same.pre (Dev.spxLost_same ..))
    | split
    | dsimp only

theorem Dev.replay_same (d : Dev) (i : Nat) (due : SpxKept → Bool) : Same d (Dev.replay d i due) := by
  unfold Dev.replay
  repeat' first
    | (with_reducible apply Same.refl)
    | (with_reducible intro _)
    | (with_reducible apply Same.ite)
    | (with_reducible apply Same.pre (Dev.add_same ..))
    | (with_reducible apply Same.pre (Dev.setSpx_same ..))
    | (with_reducible apply Same.pre (Dev.sendFrame_same ..))
    | (with_reducible apply Same.pre (Dev.stageFail_same ..))
    | (with_reducible apply Same.pre (Dev.activeFall_same ..))
    | (with_reducible apply Same.pre (Same.foldl ?_ _ _))
    | simp only [Same.upd]
    | split
    | dsimp only

theorem Dev.linkMessage_same (d : Dev) (i : Nat) (m : LinkMsg) : Same d (Dev.linkMessage d i m) := by
  unfold Dev.linkMessage
  repeat' first
    | (with_reducible apply Same.refl)
    | (with_reducible intro _)
    | (with_reducible apply Same.ite)
    | (with_reducible apply Same.pre (Dev.setOct_same ..))
    | (with_reducible apply Same.pre (Dev.setSpx_same ..))
    | (with_reducible apply Same.pre (Dev.queueFrame_same ..))
    | (with_reducible apply Same.pre (Dev.enterStage_same ..))
    | (with_reducible apply Same.pre (Dev.nativeTransition_same ..))
    | (with_reducible apply Same.pre (Dev.stageFail_same ..))
    | simp only [Same.upd]
    | split
    | dsimp only

theorem Dev.frameAccept_same (d : Dev) (i : Nat) (cls : Nat) (seq : Nat) (payload : List Byte) : Same d (Dev.frameAccept d i cls seq payload) := by
  unfold Dev.frameAccept
  repeat' first
    | (with_reducible apply Same.refl)
    | (with_reducible intro _)
    | (with_reducible apply Same.ite)
    | (with_reducible apply Same.pre (Dev.send_same ..))
    | (with_reducible apply Same.pre (Dev.setSpx_same ..))
    | (with_reducible apply Same.pre (Dev.linkMessage_same ..))
    | simp only [Same.upd]
    | split
    | dsimp only

theorem Dev.frameIn_same (d : Dev) (i : Nat) (l : List Byte) : Same d (Dev.frameIn d i l) := by
  unfold Dev.frameIn
  repeat' first
    | (with_reducible apply Same.refl)
    | (with_reducible intro _)
    | (with_reducible apply Same.ite)
    | (with_reducible apply Same.pre (Dev.when_same _ _ _ ?_))
    | (with_reducible apply Same.pre (Dev.inc_same ..))
    | (with_reducible apply Same.pre (Dev.setSpx_same ..))
    | (with_reducible apply Same.pre (Dev.replay_same ..))
    | (with_reducible apply Same.pre (Dev.frameAccept_same ..))
    | simp only [Same.upd]
    | split
    | dsimp only

theorem Dev.stageAdvance_same (d : Dev) (q : Nat) : Same d (Dev.stageAdvance d q) := by
  unfold Dev.stageAdvance
  repeat' first
    | (with_reducible apply Same.refl)
    | (with_reducible intro _)
    | (with_reducible apply Same.ite)
    | (with_reducible apply Same.pre (Dev.eachPort_same _ _ _ ?_))
    | (with_reducible apply Same.pre (Dev.setSpx_same ..))
    | (with_reducible apply Same.pre (Dev.sendTrain_same ..))
    | (with_reducible apply Same.pre (Dev.enterStage_same ..))
    | simp only [Same.upd]
    | split
    | dsimp only

theorem blockEffect_same (q : Nat) (p : Nat) (lane : Nat) (levels : List Nat) (d : Dev) : Same d (blockEffect q p lane levels d) := by
  unfold blockEffect
  repeat' first
    | (with_reducible apply Same.refl)
    | (with_reducible intro _)
    | (with_reducible apply Same.ite)
    | (with_reducible apply Same.pre (Dev.when_same _ _ _ ?_))
    | (with_reducible apply Same.pre (Dev.inc_same ..))
    | (with_reducible apply Same.pre (Dev.setSpx_same ..))
    | (with_reducible apply Same.pre (Dev.setLaneBit_same ..))
    | (with_reducible apply Same.pre (Dev.abortEye_same ..))
    | (with_reducible apply Same.pre (Dev.recheckLane_same ..))
    | (with_reducible apply Same.pre (Dev.spxLost_same ..))
    | (with_reducible apply Same.pre (Dev.frameIn_same ..))
    | (with_reducible apply Same.pre (Dev.stageAdvance_same ..))
    | (with_reducible apply Same.pre (Same.foldl ?_ _ _))
    | simp only [Same.upd]
    | split
    | dsimp only

theorem detectEffect_same (q : Nat) (termination : Bool) (d : Dev) : Same d (detectEffect q termination d) := by
  unfold detectEffect
  repeat' first
    | (with_reducible apply Same.refl)
    | (with_reducible intro _)
    | (with_reducible apply Same.ite)
    | (with_reducible apply Same.pre (Dev.when_same _ _ _ ?_))
    | (with_reducible apply Same.pre (Dev.send_same ..))
    | (with_reducible apply Same.pre (Dev.pulse_same ..))
    | (with_reducible apply Same.pre (Dev.enterStage_same ..))
    | split
    | dsimp only

theorem stageTimeoutEffect_same (q : Nat) (freq : Bool) (d : Dev) : Same d (stageTimeoutEffect q freq d) := by
  unfold stageTimeoutEffect
  repeat' first
    | (with_reducible apply Same.refl)
    | (with_reducible intro _)
    | (with_reducible apply Same.ite)
    | (with_reducible apply Same.pre (Dev.when_same _ _ _ ?_))
    | (with_reducible apply Same.pre (Dev.stageFail_same ..))
    | split
    | dsimp only

theorem backoffEffect_same (q : Nat) (d : Dev) : Same d (backoffEffect q d) := by
  unfold backoffEffect
  repeat' first
    | (with_reducible apply Same.refl)
    | (with_reducible intro _)
    | (with_reducible apply Same.ite)
    | (with_reducible apply Same.pre (Dev.when_same _ _ _ ?_))
    | (with_reducible apply Same.pre (Dev.detectStage_same ..))
    | split
    | dsimp only

theorem linkFrameEffect_same (q : Nat) (p : Nat) (m : LinkMsg) (d : Dev) : Same d (linkFrameEffect q p m d) := by
  unfold linkFrameEffect
  repeat' first
    | (with_reducible apply Same.refl)
    | (with_reducible intro _)
    | (with_reducible apply Same.ite)
    | (with_reducible apply Same.pre (Dev.when_same _ _ _ ?_))
    | (with_reducible apply Same.pre (Dev.setSpx_same ..))
    | (with_reducible apply Same.pre (Dev.linkMessage_same ..))
    | split
    | dsimp only

theorem frameEffect_same (q : Nat) (p : Nat) (l : List Byte) (d : Dev) : Same d (frameEffect q p l d) := by
  unfold frameEffect
  repeat' first
    | (with_reducible apply Same.refl)
    | (with_reducible intro _)
    | (with_reducible apply Same.ite)
    | (with_reducible apply Same.pre (Dev.when_same _ _ _ ?_))
    | (with_reducible apply Same.pre (Dev.frameIn_same ..))
    | split
    | dsimp only

theorem frameSendEffect_same (q : Nat) (p : Nat) (d : Dev) : Same d (frameSendEffect q p d) := by
  unfold frameSendEffect
  repeat' first
    | (with_reducible apply Same.refl)
    | (with_reducible intro _)
    | (with_reducible apply Same.ite)
    | (with_reducible apply Same.pre (Dev.when_same _ _ _ ?_))
    | (with_reducible apply Same.pre (Dev.setSpx_same ..))
    | (with_reducible apply Same.pre (Dev.sendFrame_same ..))
    | (with_reducible apply Same.pre (Dev.sendAck_same ..))
    | (with_reducible apply Same.pre (Dev.replay_same ..))
    | simp only [Same.upd]
    | split
    | dsimp only

theorem ackTimeoutEffect_same (q : Nat) (p : Nat) (d : Dev) : Same d (ackTimeoutEffect q p d) := by
  unfold ackTimeoutEffect
  repeat' first
    | (with_reducible apply Same.refl)
    | (with_reducible intro _)
    | (with_reducible apply Same.ite)
    | (with_reducible apply Same.pre (Dev.when_same _ _ _ ?_))
    | (with_reducible apply Same.pre (Dev.replay_same ..))
    | split
    | dsimp only

theorem alignInsertEffect_same (q : Nat) (p : Nat) (d : Dev) : Same d (alignInsertEffect q p d) := by
  unfold alignInsertEffect
  repeat' first
    | (with_reducible apply Same.refl)
    | (with_reducible intro _)
    | (with_reducible apply Same.ite)
    | (with_reducible apply Same.pre (Dev.when_same _ _ _ ?_))
    | (with_reducible apply Same.pre (Dev.send_same ..))
    | (with_reducible apply Same.pre (Dev.setSpx_same ..))
    | split
    | dsimp only

end Sys2Proof.Machine
end

