-- ==== Sys2Proof/Laws/Links.lean ====
section
/-! SUPPORT. What each operation of Machine/Links.lean keeps (`Same` and `Safe` of Laws/Frame.lean). -/

set_option Elab.async false
set_option linter.unusedTactic false
set_option linter.unreachableTactic false

namespace Sys2Proof.Machine

theorem Dev.dropMailboxes_same (d : Dev) : Same d (Dev.dropMailboxes d) := by
  unfold Dev.dropMailboxes
  repeat' first
    | (with_reducible apply Same.refl)
    | (with_reducible intro _)
    | (with_reducible apply Same.ite)
    | simp only [Same.upd]
    | split
    | dsimp only

theorem Dev.pcieFall_same (d : Dev) (q : Nat) (reason : Nat) : Same d (Dev.pcieFall d q reason) := by
  unfold Dev.pcieFall
  repeat' first
    | (with_reducible apply Same.refl)
    | (with_reducible intro _)
    | (with_reducible apply Same.ite)
    | (with_reducible apply Same.pre (Dev.setNat_same ..))
    | (with_reducible apply Same.pre (Dev.linkTransition_same ..))
    | split
    | dsimp only

theorem Dev.pcieDown_same (d : Dev) (q : Nat) : Same d (Dev.pcieDown d q) := by
  unfold Dev.pcieDown
  repeat' first
    | (with_reducible apply Same.refl)
    | (with_reducible intro _)
    | (with_reducible apply Same.ite)
    | (with_reducible apply Same.pre (Dev.pcieFall_same ..))
    | split
    | dsimp only

theorem hostDownEffect_same (d : Dev) : Same d (hostDownEffect d) := by
  unfold hostDownEffect
  repeat' first
    | (with_reducible apply Same.refl)
    | (with_reducible intro _)
    | (with_reducible apply Same.ite)
    | (with_reducible apply Same.pre (Dev.when_same _ _ _ ?_))
    | (with_reducible apply Same.pre (Dev.dropMailboxes_same ..))
    | (with_reducible apply Same.pre (Dev.pcieDown_same ..))
    | split
    | dsimp only

theorem completionTimeoutEffect_same (q : Nat) (ni : Nat) (d : Dev) : Same d (completionTimeoutEffect q ni d) := by
  unfold completionTimeoutEffect
  repeat' first
    | (with_reducible apply Same.refl)
    | (with_reducible intro _)
    | (with_reducible apply Same.ite)
    | (with_reducible apply Same.pre (Dev.when_same _ _ _ ?_))
    | (with_reducible apply Same.pre (Dev.inc_same ..))
    | (with_reducible apply Same.pre (Dev.send_same ..))
    | split
    | dsimp only

theorem Dev.surpriseDown_same (d : Dev) (q : Nat) : Same d (Dev.surpriseDown d q) := by
  unfold Dev.surpriseDown
  repeat' first
    | (with_reducible apply Same.refl)
    | (with_reducible intro _)
    | (with_reducible apply Same.ite)
    | (with_reducible apply Same.pre (Dev.inc_same ..))
    | (with_reducible apply Same.pre (Dev.pcieDown_same ..))
    | simp only [Same.upd]
    | split
    | dsimp only

theorem retrainEffect_same (q : Nat) (d : Dev) : Same d (retrainEffect q d) := by
  unfold retrainEffect
  repeat' first
    | (with_reducible apply Same.refl)
    | (with_reducible intro _)
    | (with_reducible apply Same.ite)
    | (with_reducible apply Same.pre (Dev.when_same _ _ _ ?_))
    | (with_reducible apply Same.pre (Dev.setNat_same ..))
    | (with_reducible apply Same.pre (Dev.inc_same ..))
    | (with_reducible apply Same.pre (Dev.send_same ..))
    | simp only [Same.upd]
    | split
    | dsimp only

theorem Dev.pcieUp_same (d : Dev) (q : Nat) (speed : Nat) (width : Nat) : Same d (Dev.pcieUp d q speed width) := by
  unfold Dev.pcieUp
  repeat' first
    | (with_reducible apply Same.refl)
    | (with_reducible intro _)
    | (with_reducible apply Same.ite)
    | (with_reducible apply Same.pre (Dev.when_same _ _ _ ?_))
    | (with_reducible apply Same.pre (Dev.setNat_same ..))
    | (with_reducible apply Same.pre (Dev.linkTransition_same ..))
    | simp only [Same.upd]
    | split
    | dsimp only

theorem flapEndEffect_same (q : Nat) (p : Nat) (d : Dev) : Same d (flapEndEffect q p d) := by
  unfold flapEndEffect
  repeat' first
    | (with_reducible apply Same.refl)
    | (with_reducible intro _)
    | (with_reducible apply Same.ite)
    | (with_reducible apply Same.pre (Dev.when_same _ _ _ ?_))
    | (with_reducible apply Same.pre (Dev.updPort_same ..))
    | (with_reducible apply Same.pre (Dev.recheck_same ..))
    | (with_reducible apply Same.pre (Dev.spxResume_same ..))
    | simp only [Same.upd]
    | split
    | dsimp only

theorem Dev.portFall_same (d : Dev) (q : Nat) (p : Nat) (reason : Nat) : Same d (Dev.portFall d q p reason) := by
  unfold Dev.portFall
  repeat' first
    | (with_reducible apply Same.refl)
    | (with_reducible intro _)
    | (with_reducible apply Same.ite)
    | (with_reducible apply Same.pre (Dev.eachPort_same _ _ _ ?_))
    | (with_reducible apply Same.pre (Dev.setNat_same ..))
    | (with_reducible apply Same.pre (Dev.goDown_same ..))
    | (with_reducible apply Same.pre (Dev.enterStage_same ..))
    | (with_reducible apply Same.pre (Dev.activeFall_same ..))
    | (with_reducible apply Same.pre (Dev.pcieFall_same ..))
    | split
    | dsimp only

theorem Dev.heldLol_same (d : Dev) (q : Nat) (p : Nat) : Same d (Dev.heldLol d q p) := by
  unfold Dev.heldLol
  repeat' first
    | (with_reducible apply Same.refl)
    | (with_reducible intro _)
    | (with_reducible apply Same.ite)
    | (with_reducible apply Same.pre (Dev.setNat_same ..))
    | split
    | dsimp only

theorem Dev.refHold_same (d : Dev) (b : Nat) : Same d (Dev.refHold d b) := by
  unfold Dev.refHold
  repeat' first
    | (with_reducible apply Same.refl)
    | (with_reducible intro _)
    | (with_reducible apply Same.ite)
    | (with_reducible apply Same.pre (Dev.spxResume_same ..))
    | (with_reducible apply Same.pre (Dev.portFall_same ..))
    | (with_reducible apply Same.pre (Dev.heldLol_same ..))
    | (with_reducible apply Same.pre (Same.foldl ?_ _ _))
    | split
    | dsimp only

theorem refclkEffect_same (q : Nat) (status : Nat) (d : Dev) : Same d (refclkEffect q status d) := by
  unfold refclkEffect
  repeat' first
    | (with_reducible apply Same.refl)
    | (with_reducible intro _)
    | (with_reducible apply Same.ite)
    | (with_reducible apply Same.pre (Dev.when_same _ _ _ ?_))
    | (with_reducible apply Same.pre (Dev.setNat_same ..))
    | (with_reducible apply Same.pre (Dev.recheckQuad_same ..))
    | (with_reducible apply Same.pre (Dev.refHold_same ..))
    | simp only [Same.upd]
    | split
    | dsimp only

theorem inboundEffect_same (q : Nat) (addr : Nat) (len : Nat) (d : Dev) : Same d (inboundEffect q addr len d) := by
  unfold inboundEffect
  repeat' first
    | (with_reducible apply Same.refl)
    | (with_reducible intro _)
    | (with_reducible apply Same.ite)
    | (with_reducible apply Same.pre (Dev.when_same _ _ _ ?_))
    | (with_reducible apply Same.pre (Dev.send_same ..))
    | simp only [Same.upd]
    | split
    | dsimp only

theorem Dev.fragment_same (d : Dev) (v : Nat) (id : Nat) : Same d (Dev.fragment d v id) := by
  unfold Dev.fragment
  repeat' first
    | (with_reducible apply Same.refl)
    | (with_reducible intro _)
    | (with_reducible apply Same.ite)
    | (with_reducible apply Same.pre (Dev.inc_same ..))
    | simp only [Same.upd]
    | split
    | dsimp only

theorem vaneFrameEffect_same (v : Nat) (k : VaneKind) (vlan : Nat) (dst : List Byte) (target : List Byte) (d : Dev) : Same d (vaneFrameEffect v k vlan dst target d) := by
  unfold vaneFrameEffect
  repeat' first
    | (with_reducible apply Same.refl)
    | (with_reducible intro _)
    | (with_reducible apply Same.ite)
    | (with_reducible apply Same.pre (Dev.when_same _ _ _ ?_))
    | (with_reducible apply Same.pre (Dev.inc_same ..))
    | (with_reducible apply Same.pre (Dev.send_same ..))
    | (with_reducible apply Same.pre (Dev.fragment_same ..))
    | split
    | dsimp only

theorem vaneLockoutEffect_same (v : Nat) (src : List Byte) (d : Dev) : Same d (vaneLockoutEffect v src d) := by
  unfold vaneLockoutEffect
  repeat' first
    | (with_reducible apply Same.refl)
    | (with_reducible intro _)
    | (with_reducible apply Same.ite)
    | simp only [Same.upd]
    | split
    | dsimp only

theorem vaneLinkEffect_same (v : Nat) (up : Bool) (d : Dev) : Same d (vaneLinkEffect v up d) := by
  unfold vaneLinkEffect
  repeat' first
    | (with_reducible apply Same.refl)
    | (with_reducible intro _)
    | (with_reducible apply Same.ite)
    | (with_reducible apply Same.pre (Dev.when_same _ _ _ ?_))
    | (with_reducible apply Same.pre (Dev.setNat_same ..))
    | split
    | dsimp only

end Sys2Proof.Machine
end

