-- ==== Sys2Proof/Laws/Dram.lean ====
section
/-! SUPPORT. What each operation of Machine/Dram.lean keeps (`Same` and `Safe` of Laws/Frame.lean). -/

set_option Elab.async false
set_option linter.unusedTactic false
set_option linter.unreachableTactic false

namespace Sys2Proof.Machine

theorem Dev.poke_safe (d : Dev) (a : Nat) (l : List Byte) : Safe d (Dev.poke d a l) :=
  ⟨fun w => Memory.wf_write a l w, id, rfl, Nat.le_refl _, id⟩

theorem Dev.scrap_safe (d : Dev) (p : Nat → Bool) : Safe d (Dev.scrap d p) :=
  ⟨fun w => Memory.wf_filter _ w, id, rfl, Nat.le_refl _, id⟩

theorem Dev.setCh_same (d : Dev) (o : ObjDef) (ch : Nat) (n : Nat) : Same d (Dev.setCh d o ch n) := by
  unfold Dev.setCh
  repeat' first
    | (with_reducible apply Same.refl)
    | (with_reducible intro _)
    | (with_reducible apply Same.ite)
    | (with_reducible apply Same.pre (Dev.setNat_same ..))
    | split
    | dsimp only

theorem Dev.incCh_same (d : Dev) (o : ObjDef) (ch : Nat) : Same d (Dev.incCh d o ch) := by
  unfold Dev.incCh
  repeat' first
    | (with_reducible apply Same.refl)
    | (with_reducible intro _)
    | (with_reducible apply Same.ite)
    | (with_reducible apply Same.pre (Dev.inc_same ..))
    | split
    | dsimp only

theorem Dev.setChan_same (d : Dev) (ch : Nat) (x : ChanAux) : Same d (Dev.setChan d ch x) := by
  unfold Dev.setChan
  repeat' first
    | (with_reducible apply Same.refl)
    | (with_reducible intro _)
    | (with_reducible apply Same.ite)
    | simp only [Same.upd]
    | split
    | dsimp only

theorem Dev.replyTo_same (d : Dev) (x : Deferred) (ok : Bool) (data : List Byte) : Same d (Dev.replyTo d x ok data) := by
  unfold Dev.replyTo
  repeat' first
    | (with_reducible apply Same.refl)
    | (with_reducible intro _)
    | (with_reducible apply Same.ite)
    | (with_reducible apply Same.pre (Dev.inc_same ..))
    | (with_reducible apply Same.pre (Dev.send_same ..))
    | split
    | dsimp only

theorem Dev.frost_same (d : Dev) (ch : Nat) (cause : Nat) (command : Nat) (initiator : Nat) (addr : Nat) (syn : Nat) : Same d (Dev.frost d ch cause command initiator addr syn) := by
  unfold Dev.frost
  repeat' first
    | (with_reducible apply Same.refl)
    | (with_reducible intro _)
    | (with_reducible apply Same.ite)
    | (with_reducible apply Same.pre (Dev.logNote_same ..))
    | (with_reducible apply Same.pre (Dev.occur_same ..))
    | (with_reducible apply Same.pre (Dev.setCh_same ..))
    | (with_reducible apply Same.pre (Dev.incCh_same ..))
    | (with_reducible apply Same.pre (Dev.setChan_same ..))
    | (with_reducible apply Same.pre (Dev.replyTo_same ..))
    | (with_reducible apply Same.pre (Same.foldl ?_ _ _))
    | simp only [Same.upd]
    | split
    | dsimp only

theorem Dev.checkpoint_same (d : Dev) : Same d (Dev.checkpoint d) := by
  unfold Dev.checkpoint
  repeat' first
    | (with_reducible apply Same.refl)
    | (with_reducible intro _)
    | (with_reducible apply Same.ite)
    | simp only [Same.upd]
    | split
    | dsimp only

theorem Dev.integrityHalt_same (d : Dev) (cause : Nat) (addr : Nat) (initiator : Nat) : Same d (Dev.integrityHalt d cause addr initiator) := by
  unfold Dev.integrityHalt
  repeat' first
    | (with_reducible apply Same.refl)
    | (with_reducible intro _)
    | (with_reducible apply Same.ite)
    | (with_reducible apply Same.pre (Dev.setNat_same ..))
    | (with_reducible apply Same.pre (Dev.send_same ..))
    | (with_reducible apply Same.pre (Dev.logNote_same ..))
    | (with_reducible apply Same.pre (Dev.dropMailboxes_same ..))
    | (with_reducible apply Same.pre (Dev.pcieDown_same ..))
    | (with_reducible apply Same.pre (Dev.checkpoint_same ..))
    | (with_reducible apply Same.pre (Same.foldl ?_ _ _))
    | simp only [Same.upd]
    | split
    | dsimp only

theorem Dev.setJob_same (d : Dev) (j : Reenc) : Same d (Dev.setJob d j) := by
  unfold Dev.setJob
  repeat' first
    | (with_reducible apply Same.refl)
    | (with_reducible intro _)
    | (with_reducible apply Same.ite)
    | simp only [Same.upd]
    | split
    | dsimp only

theorem Dev.startJob_same (d : Dev) (r : Nat) : Same d (Dev.startJob d r) := by
  unfold Dev.startJob
  repeat' first
    | (with_reducible apply Same.refl)
    | (with_reducible intro _)
    | (with_reducible apply Same.ite)
    | (with_reducible apply Same.pre (Dev.inc_same ..))
    | simp only [Same.upd]
    | split
    | dsimp only

theorem Dev.jobDone_same (d : Dev) (line : Nat) : Same d (Dev.jobDone d line) := by
  unfold Dev.jobDone
  repeat' first
    | (with_reducible apply Same.refl)
    | (with_reducible intro _)
    | (with_reducible apply Same.ite)
    | (with_reducible apply Same.pre (Dev.setJob_same ..))
    | simp only [Same.upd]
    | split
    | dsimp only

theorem Dev.endJob_same (d : Dev) (j : Reenc) : Same d (Dev.endJob d j) := by
  unfold Dev.endJob
  repeat' first
    | (with_reducible apply Same.refl)
    | (with_reducible intro _)
    | (with_reducible apply Same.ite)
    | (with_reducible apply Same.pre (Dev.inc_same ..))
    | (with_reducible apply Same.pre (Dev.occur_same ..))
    | simp only [Same.upd]
    | split
    | dsimp only

theorem Dev.finishJob_same (d : Dev) (r : Nat) : Same d (Dev.finishJob d r) := by
  unfold Dev.finishJob
  repeat' first
    | (with_reducible apply Same.refl)
    | (with_reducible intro _)
    | (with_reducible apply Same.ite)
    | (with_reducible apply Same.pre (Dev.endJob_same ..))
    | split
    | dsimp only

theorem Dev.setMinor_same (d : Dev) (line : Nat) (m : Nat) : Same d (Dev.setMinor d line m) := by
  unfold Dev.setMinor
  repeat' first
    | (with_reducible apply Same.refl)
    | (with_reducible intro _)
    | (with_reducible apply Same.ite)
    | simp only [Same.upd]
    | split
    | dsimp only

theorem Dev.disturb_same (d : Dev) (f : LineFind) : Same d (Dev.disturb d f) := by
  unfold Dev.disturb
  repeat' first
    | (with_reducible apply Same.refl)
    | (with_reducible intro _)
    | (with_reducible apply Same.ite)
    | (with_reducible apply Same.pre (Same.foldl ?_ _ _))
    | simp only [Same.upd]
    | split
    | dsimp only

theorem Dev.touch_same (d : Dev) (ch : Nat) (line : Nat) (m : Nat) : Same d (Dev.touch d ch line m) := by
  unfold Dev.touch
  repeat' first
    | (with_reducible apply Same.refl)
    | (with_reducible intro _)
    | (with_reducible apply Same.ite)
    | (with_reducible apply Same.pre (Dev.setChan_same ..))
    | simp only [Same.upd]
    | split
    | dsimp only

theorem Dev.lineCorrected_same (d : Dev) (ch : Nat) (e : Ecc) : Same d (Dev.lineCorrected d ch e) := by
  unfold Dev.lineCorrected
  repeat' first
    | (with_reducible apply Same.refl)
    | (with_reducible intro _)
    | (with_reducible apply Same.ite)
    | (with_reducible apply Same.pre (Dev.inc_same ..))
    | (with_reducible apply Same.pre (Dev.corrected_same ..))
    | split
    | dsimp only

theorem Dev.linePassed_same (d : Dev) (ch : Nat) (line : Nat) (m : Nat) : Same d (Dev.linePassed d ch line m) := by
  unfold Dev.linePassed
  repeat' first
    | (with_reducible apply Same.refl)
    | (with_reducible intro _)
    | (with_reducible apply Same.ite)
    | (with_reducible apply Same.pre (Dev.inc_same ..))
    | (with_reducible apply Same.pre (Dev.touch_same ..))
    | split
    | dsimp only

theorem Dev.checkLine_same (d : Dev) (a : Nat) (ch : Nat) (kind : Nat) (ni : Nat) : Same d (Dev.checkLine d a ch kind ni).2 := by
  unfold Dev.checkLine
  repeat' first
    | (with_reducible apply Same.refl)
    | (with_reducible intro _)
    | (with_reducible apply Same.ite)
    | (with_reducible apply Same.pre (Dev.inc_same ..))
    | (with_reducible apply Same.pre (Dev.frost_same ..))
    | (with_reducible apply Same.pre (Dev.integrityHalt_same ..))
    | (with_reducible apply Same.pre (Dev.lineCorrected_same ..))
    | (with_reducible apply Same.pre (Dev.linePassed_same ..))
    | split
    | dsimp only

theorem Dev.rowAccess_same (d : Dev) (ch : Nat) (off : Nat) (hint : Option Bool) : Same d (Dev.rowAccess d ch off hint) := by
  unfold Dev.rowAccess
  repeat' first
    | (with_reducible apply Same.refl)
    | (with_reducible intro _)
    | (with_reducible apply Same.ite)
    | (with_reducible apply Same.pre (Dev.drawn_same ..))
    | (with_reducible apply Same.pre (Dev.add_same ..))
    | (with_reducible apply Same.pre (Dev.incCh_same ..))
    | (with_reducible apply Same.pre (Dev.setChan_same ..))
    | simp only [Same.upd]
    | split
    | dsimp only

theorem Dev.setSlice_same (d : Dev) (k : Nat) (s : Slice) : Same d (Dev.setSlice d k s) := by
  unfold Dev.setSlice
  repeat' first
    | (with_reducible apply Same.refl)
    | (with_reducible intro _)
    | (with_reducible apply Same.ite)
    | simp only [Same.upd]
    | split
    | dsimp only

theorem Dev.zeroLines_same (d : Dev) (ls : List Nat) (hint : Option Bool) : Same d (Dev.zeroLines d ls hint) := by
  unfold Dev.zeroLines
  repeat' first
    | (with_reducible apply Same.refl)
    | (with_reducible intro _)
    | (with_reducible apply Same.ite)
    | (with_reducible apply Same.pre (Dev.rowAccess_same ..))
    | (with_reducible apply Same.pre (Same.foldl ?_ _ _))
    | split
    | dsimp only

theorem Dev.closeSlice_same (d : Dev) (k : Nat) : Same d (Dev.closeSlice d k) := by
  unfold Dev.closeSlice
  repeat' first
    | (with_reducible apply Same.refl)
    | (with_reducible intro _)
    | (with_reducible apply Same.ite)
    | (with_reducible apply Same.pre (Dev.setSlice_same ..))
    | (with_reducible apply Same.pre (Dev.zeroLines_same ..))
    | simp only [Same.upd]
    | split
    | dsimp only

theorem Dev.openSlice_same (d : Dev) (k : Nat) (ch : Nat) (ptr : Nat) (who : Nat) : Same d (Dev.openSlice d k ch ptr who) := by
  unfold Dev.openSlice
  repeat' first
    | (with_reducible apply Same.refl)
    | (with_reducible intro _)
    | (with_reducible apply Same.ite)
    | (with_reducible apply Same.pre (Dev.inc_same ..))
    | (with_reducible apply Same.pre (Dev.setSlice_same ..))
    | (with_reducible apply Same.pre (Dev.closeSlice_same ..))
    | simp only [Same.upd]
    | split
    | dsimp only

theorem Dev.endStream_same (d : Dev) (who : Nat) : Same d (Dev.endStream d who) := by
  unfold Dev.endStream
  repeat' first
    | (with_reducible apply Same.refl)
    | (with_reducible intro _)
    | (with_reducible apply Same.ite)
    | (with_reducible apply Same.pre (Dev.closeSlice_same ..))
    | (with_reducible apply Same.pre (Same.foldl ?_ _ _))
    | split
    | dsimp only

theorem Dev.linesDone_same (d : Dev) (r : Nat) (ls : List Nat) : Same d (Dev.linesDone d r ls) := by
  unfold Dev.linesDone
  repeat' first
    | (with_reducible apply Same.refl)
    | (with_reducible intro _)
    | (with_reducible apply Same.ite)
    | (with_reducible apply Same.pre (Dev.setJob_same ..))
    | simp only [Same.upd]
    | split
    | dsimp only

theorem Dev.zeroFill_same (d : Dev) (a ch : Nat) (hint : Option Bool) : Same d (Dev.zeroFill d a ch hint) := by
  unfold Dev.zeroFill
  extract_lets g k ls e
  have h : Same d e := ((Dev.inc_same ..).trans (Dev.linesDone_same ..)).trans (Dev.zeroLines_same ..)
  clear_value e
  split
  · exact h.trans (Dev.setSlice_same ..)
  · exact h.trans ⟨rfl, rfl, rfl, Nat.le_refl _, id⟩

theorem Dev.unpoison_same (d : Dev) (ch : Nat) (line : Nat) : Same d (Dev.unpoison d ch line) := by
  unfold Dev.unpoison
  repeat' first
    | (with_reducible apply Same.refl)
    | (with_reducible intro _)
    | (with_reducible apply Same.ite)
    | (with_reducible apply Same.pre (Dev.setChan_same ..))
    | simp only [Same.upd]
    | split
    | dsimp only

theorem Dev.poisonAdd_same (d : Dev) (ch : Nat) (line : Nat) : Same d (Dev.poisonAdd d ch line) := by
  unfold Dev.poisonAdd
  repeat' first
    | (with_reducible apply Same.refl)
    | (with_reducible intro _)
    | (with_reducible apply Same.ite)
    | (with_reducible apply Same.pre (Dev.setChan_same ..))
    | simp only [Same.upd]
    | split
    | dsimp only

theorem Dev.lay_safe (d : Dev) (a : Nat) (l : List Byte) : Safe d (Dev.lay d a l) := by
  unfold Dev.lay
  repeat' first
    | (with_reducible apply Safe.refl)
    | (with_reducible intro _)
    | (with_reducible apply Safe.ite)
    | (with_reducible apply Safe.pre (Dev.poke_safe ..))
    | simp only [Safe.upd]
    | split
    | dsimp only

theorem Dev.countWrite_same (d : Dev) (a : Nat) (m : Nat) : Same d (Dev.countWrite d a m) := by
  unfold Dev.countWrite
  repeat' first
    | (with_reducible apply Same.refl)
    | (with_reducible intro _)
    | (with_reducible apply Same.ite)
    | (with_reducible apply Same.pre (Dev.startJob_same ..))
    | (with_reducible apply Same.pre (Dev.jobDone_same ..))
    | (with_reducible apply Same.pre (Dev.setMinor_same ..))
    | split
    | dsimp only

theorem Dev.freshLine_same (d : Dev) (ch : Nat) (line : Nat) : Same d (Dev.freshLine d ch line) := by
  unfold Dev.freshLine
  repeat' first
    | (with_reducible apply Same.refl)
    | (with_reducible intro _)
    | (with_reducible apply Same.ite)
    | (with_reducible apply Same.pre (Dev.jobDone_same ..))
    | (with_reducible apply Same.pre (Dev.setMinor_same ..))
    | (with_reducible apply Same.pre (Dev.touch_same ..))
    | split
    | dsimp only

theorem Dev.writeLine_safe (d : Dev) (a : Nat) (ch : Nat) (r : MemReq) (data : List Byte) (fresh : Bool) :
    Safe d (Dev.writeLine d a ch r data fresh).2 := by
  unfold Dev.writeLine
  extract_lets line whole k idx listed d1 e1 order e2
  split
  · exact Safe.refl d
  · have h1 : Safe d d1 := (Same.ite (Dev.unpoison_same ..) (Same.refl _)).safe
    clear_value d1
    refine h1.trans ?_
    split
    · split
      · exact ((Dev.openSlice_same ..).safe.trans (Dev.lay_safe ..)).trans
          ((Same.ite (Dev.closeSlice_same ..) (Same.refl _)).trans (Dev.freshLine_same ..)).safe
      · exact ((Dev.zeroFill_same ..).safe.trans (Dev.lay_safe ..)).trans (Dev.freshLine_same ..).safe
    · split
      · exact ((Dev.setSlice_same ..).safe.trans (Dev.lay_safe ..)).trans
          ((Same.ite (Dev.closeSlice_same ..) (Same.refl _)).trans (Dev.freshLine_same ..)).safe
      · split
        · exact (Dev.lay_safe ..).trans (Dev.freshLine_same ..).safe
        · extract_lets d2 known l n c new e3
          have h2 : Safe d1 d2 := (Same.ite (Dev.closeSlice_same ..) (Same.refl _)).safe
          clear_value d2
          refine h2.trans ?_
          split
          · exact ((((Dev.startJob_same ..).trans (Dev.setMinor_same ..)).trans (Dev.jobDone_same ..)).safe.trans (Dev.lay_safe ..)).trans
              (Dev.touch_same ..).safe
          · have h3 : Same d2 n := Same.ite (Same.refl _) (Dev.inc_same ..)
            clear_value n
            have h4 : Same d2 c.2 := by
              simp only [c]
              split
              · exact h3
              · exact h3.trans (Dev.checkLine_same ..)
            clear_value c
            split
            · exact ((h4.trans (Dev.countWrite_same ..)).safe.trans (Dev.lay_safe ..)).trans (Dev.touch_same ..).safe
            · exact h4.safe

theorem Dev.releaseTest_same (d : Dev) (line : Nat) : Same d (Dev.releaseTest d line) := by
  unfold Dev.releaseTest
  repeat' first
    | (with_reducible apply Same.refl)
    | (with_reducible intro _)
    | (with_reducible apply Same.ite)
    | simp only [Same.upd]
    | split
    | dsimp only

theorem Dev.haltFrost_same (d : Dev) (a : Nat) (n : Nat) (ni : Nat) : Same d (Dev.haltFrost d a n ni) := by
  unfold Dev.haltFrost
  repeat' first
    | (with_reducible apply Same.refl)
    | (with_reducible intro _)
    | (with_reducible apply Same.ite)
    | (with_reducible apply Same.pre (Dev.when_same _ _ _ ?_))
    | (with_reducible apply Same.pre (Dev.inc_same ..))
    | (with_reducible apply Same.pre (Dev.frost_same ..))
    | (with_reducible apply Same.pre (Same.foldl ?_ _ _))
    | split
    | dsimp only

theorem Dev.refused_same (d : Dev) (a : Nat) (n : Nat) (ni : Nat) : Same d (Dev.refused d a n ni) := by
  unfold Dev.refused
  repeat' first
    | (with_reducible apply Same.refl)
    | (with_reducible intro _)
    | (with_reducible apply Same.ite)
    | (with_reducible apply Same.pre (Dev.inc_same ..))
    | (with_reducible apply Same.pre (Dev.haltFrost_same ..))
    | split
    | dsimp only

theorem Dev.readSpan_same (d : Dev) (r : MemReq) (x0 : Nat) (x1 : Nat) (x2 : Nat) (x3 : List Byte) : Same d (Dev.readSpan d r x0 x1 x2 x3).2 := by
  induction x0 generalizing d r x1 x2 x3 with
  | zero => exact Same.refl _
  | succ n ih =>
    unfold Dev.readSpan
    repeat' first
      | (with_reducible apply Same.refl)
      | (with_reducible intro _)
      | (with_reducible apply Same.pre (ih ..))
      | (with_reducible apply Same.ite)
      | (with_reducible apply Same.pre (Dev.checkLine_same ..))
      | (with_reducible apply Same.pre (Dev.rowAccess_same ..))
      | (with_reducible apply Same.pre (Dev.releaseTest_same ..))
      | split
      | dsimp only

theorem Dev.writeSpan_safe (d : Dev) (r : MemReq) (x0 : Nat) (x1 : Nat) (x2 : List Byte) (x3 : List Nat) (x4 : Bool) : Safe d (Dev.writeSpan d r x0 x1 x2 x3 x4).2 := by
  induction x0 generalizing d r x1 x2 x3 x4 with
  | zero => exact Safe.refl _
  | succ n ih =>
    unfold Dev.writeSpan
    repeat' first
      | (with_reducible apply Safe.refl)
      | (with_reducible intro _)
      | (with_reducible apply Safe.pre (ih ..))
      | (with_reducible apply Safe.ite)
      | (with_reducible apply Safe.pre (Dev.finishJob_same ..).safe)
      | (with_reducible apply Safe.pre (Dev.rowAccess_same ..).safe)
      | (with_reducible apply Safe.pre (Dev.endStream_same ..).safe)
      | (with_reducible apply Safe.pre (Dev.writeLine_safe ..))
      | (with_reducible apply Safe.pre (Dev.releaseTest_same ..).safe)
      | split
      | dsimp only

theorem Dev.defer_same (d : Dev) (x : Deferred) : Same d (Dev.defer d x) := by
  unfold Dev.defer
  repeat' first
    | (with_reducible apply Same.refl)
    | (with_reducible intro _)
    | (with_reducible apply Same.ite)
    | simp only [Same.upd]
    | split
    | dsimp only

theorem Dev.perform_safe (d : Dev) (x : Deferred) : Safe d (Dev.perform d x) := by
  unfold Dev.perform
  repeat' first
    | (with_reducible apply Safe.refl)
    | (with_reducible intro _)
    | (with_reducible apply Safe.ite)
    | (with_reducible apply Safe.pre (Dev.replyTo_same ..).safe)
    | (with_reducible apply Safe.pre (Dev.readSpan_same ..).safe)
    | (with_reducible apply Safe.pre (Dev.writeSpan_safe ..))
    | (with_reducible apply Safe.pre (Dev.defer_same ..).safe)
    | simp only [Safe.upd]
    | split
    | dsimp only

theorem Dev.wake_safe (x0 : Nat) (x1 : Dev) : Safe x1 (Dev.wake x0 x1) := by
  induction x0 generalizing x1 with
  | zero => exact Safe.refl _
  | succ n ih =>
    unfold Dev.wake
    repeat' first
      | (with_reducible apply Safe.refl)
      | (with_reducible intro _)
      | (with_reducible apply Safe.pre (ih ..))
      | (with_reducible apply Safe.ite)
      | (with_reducible apply Safe.pre (Dev.perform_safe ..))
      | (with_reducible apply Safe.pre (Safe.foldl ?_ _ _))
      | simp only [Safe.upd]
      | split
      | dsimp only

theorem Dev.wakeAll_safe (d : Dev) : Safe d (Dev.wakeAll d) := by
  unfold Dev.wakeAll
  repeat' first
    | (with_reducible apply Safe.refl)
    | (with_reducible intro _)
    | (with_reducible apply Safe.ite)
    | (with_reducible apply Safe.pre (Dev.wake_safe ..))
    | split
    | dsimp only

theorem Dev.ask_safe (d : Dev) (x : Deferred) : Safe d (Dev.ask d x) := by
  unfold Dev.ask
  repeat' first
    | (with_reducible apply Safe.refl)
    | (with_reducible intro _)
    | (with_reducible apply Safe.ite)
    | (with_reducible apply Safe.pre (Dev.incCh_same ..).safe)
    | (with_reducible apply Safe.pre (Dev.replyTo_same ..).safe)
    | (with_reducible apply Safe.pre (Dev.refused_same ..).safe)
    | (with_reducible apply Safe.pre (Dev.perform_safe ..))
    | (with_reducible apply Safe.pre (Dev.wakeAll_safe ..))
    | split
    | dsimp only

theorem Dev.hold_same (d : Dev) : Same d (Dev.hold d) := by
  unfold Dev.hold
  repeat' first
    | (with_reducible apply Same.refl)
    | (with_reducible intro _)
    | (with_reducible apply Same.ite)
    | simp only [Same.upd]
    | split
    | dsimp only

theorem Dev.orHold_same (d : Dev) (f : Dev → Dev) (hf : ∀ z : Dev, Same z (f z)) : Same d (Dev.orHold d f) := by
  unfold Dev.orHold
  repeat' first
    | (with_reducible apply Same.refl)
    | (with_reducible intro _)
    | (with_reducible apply Same.pre (hf ..))
    | (with_reducible apply Same.ite)
    | simp only [Same.upd]
    | split
    | dsimp only

theorem Dev.orHold_safe (d : Dev) (f : Dev → Dev) (hf : ∀ z : Dev, Safe z (f z)) : Safe d (Dev.orHold d f) := by
  unfold Dev.orHold
  repeat' first
    | (with_reducible apply Safe.refl)
    | (with_reducible intro _)
    | (with_reducible apply Safe.pre (hf ..))
    | (with_reducible apply Safe.ite)
    | simp only [Safe.upd]
    | split
    | dsimp only

theorem Dev.fetch_safe (d : Dev) (ni : Nat) (a : Nat) (n : Nat) (last : Bool) : Safe d (Dev.fetch d ni a n last).2 := by
  unfold Dev.fetch
  repeat' first
    | (with_reducible apply Safe.refl)
    | (with_reducible intro _)
    | (with_reducible apply Safe.ite)
    | (with_reducible apply Safe.pre (Dev.refused_same ..).safe)
    | (with_reducible apply Safe.pre (Dev.readSpan_same ..).safe)
    | (with_reducible apply Safe.pre (Dev.wakeAll_safe ..))
    | (with_reducible apply Safe.pre (Dev.hold_same ..).safe)
    | split
    | dsimp only

theorem Dev.storeAt_safe (d : Dev) (ni : Nat) (a : Nat) (l : List Byte) (stream : Bool) (last : Bool) (fin : Bool) (strm : Nat) : Safe d (Dev.storeAt d ni a l stream last fin strm).2 := by
  unfold Dev.storeAt
  repeat' first
    | (with_reducible apply Safe.refl)
    | (with_reducible intro _)
    | (with_reducible apply Safe.ite)
    | (with_reducible apply Safe.pre (Dev.refused_same ..).safe)
    | (with_reducible apply Safe.pre (Dev.writeSpan_safe ..))
    | (with_reducible apply Safe.pre (Dev.wakeAll_safe ..))
    | (with_reducible apply Safe.pre (Dev.hold_same ..).safe)
    | split
    | dsimp only

theorem Dev.postAt_safe (d : Dev) (ni : Nat) (a : Nat) (l : List Byte) : Safe d (Dev.postAt d ni a l) := by
  unfold Dev.postAt
  repeat' first
    | (with_reducible apply Safe.refl)
    | (with_reducible intro _)
    | (with_reducible apply Safe.ite)
    | (with_reducible apply Safe.pre (Dev.ask_safe ..))
    | split
    | dsimp only

theorem memReadEffect_safe (a : Nat) (r : MemReq) (f : LineFind) (n : Nat) (d : Dev) : Safe d (memReadEffect a r f n d) := by
  unfold memReadEffect
  repeat' first
    | (with_reducible apply Safe.refl)
    | (with_reducible intro _)
    | (with_reducible apply Safe.ite)
    | (with_reducible apply Safe.pre (Dev.disturb_same ..).safe)
    | (with_reducible apply Safe.pre (Dev.ask_safe ..))
    | split
    | dsimp only

theorem memWriteEffect_safe (a : Nat) (r : MemReq) (f : LineFind) (l : List Byte) (d : Dev) : Safe d (memWriteEffect a r f l d) := by
  unfold memWriteEffect
  repeat' first
    | (with_reducible apply Safe.refl)
    | (with_reducible intro _)
    | (with_reducible apply Safe.ite)
    | (with_reducible apply Safe.pre (Dev.disturb_same ..).safe)
    | (with_reducible apply Safe.pre (Dev.ask_safe ..))
    | split
    | dsimp only

theorem reencLineEffect_safe (ch : Nat) (f : LineFind) (d : Dev) : Safe d (reencLineEffect ch f d) := by
  unfold reencLineEffect
  repeat' first
    | (with_reducible apply Safe.refl)
    | (with_reducible intro _)
    | (with_reducible apply Safe.ite)
    | (with_reducible apply Safe.pre (Dev.when_safe _ _ _ ?_))
    | (with_reducible apply Safe.pre (Dev.jobDone_same ..).safe)
    | (with_reducible apply Safe.pre (Dev.finishJob_same ..).safe)
    | (with_reducible apply Safe.pre (Dev.setMinor_same ..).safe)
    | (with_reducible apply Safe.pre (Dev.disturb_same ..).safe)
    | (with_reducible apply Safe.pre (Dev.touch_same ..).safe)
    | (with_reducible apply Safe.pre (Dev.checkLine_same ..).safe)
    | (with_reducible apply Safe.pre (Dev.rowAccess_same ..).safe)
    | (with_reducible apply Safe.pre (Dev.poisonAdd_same ..).safe)
    | (with_reducible apply Safe.pre (Dev.lay_safe ..))
    | (with_reducible apply Safe.pre (Dev.releaseTest_same ..).safe)
    | (with_reducible apply Safe.pre (Dev.wakeAll_safe ..))
    | split
    | dsimp only

theorem refreshEffect_same (ch : Nat) (d : Dev) : Same d (refreshEffect ch d) := by
  unfold refreshEffect
  repeat' first
    | (with_reducible apply Same.refl)
    | (with_reducible intro _)
    | (with_reducible apply Same.ite)
    | (with_reducible apply Same.pre (Dev.when_same _ _ _ ?_))
    | (with_reducible apply Same.pre (Dev.setChan_same ..))
    | simp only [Same.upd]
    | split
    | dsimp only

theorem temperatureEffect_same (ch : Nat) (reading : Option Int) (d : Dev) : Same d (temperatureEffect ch reading d) := by
  unfold temperatureEffect
  repeat' first
    | (with_reducible apply Same.refl)
    | (with_reducible intro _)
    | (with_reducible apply Same.ite)
    | (with_reducible apply Same.pre (Dev.when_same _ _ _ ?_))
    | (with_reducible apply Same.pre (Dev.setInt_same ..))
    | (with_reducible apply Same.pre (Dev.setCh_same ..))
    | (with_reducible apply Same.pre (Dev.incCh_same ..))
    | (with_reducible apply Same.pre (Dev.setChan_same ..))
    | (with_reducible apply Same.pre (Same.foldl ?_ _ _))
    | simp only [Same.upd]
    | split
    | dsimp only

theorem caParityEffect_safe (ch : Nat) (a : Nat) (command : Nat) (ni : Nat) (d : Dev) : Safe d (caParityEffect ch a command ni d) := by
  unfold caParityEffect
  repeat' first
    | (with_reducible apply Safe.refl)
    | (with_reducible intro _)
    | (with_reducible apply Safe.ite)
    | (with_reducible apply Safe.pre (Dev.when_safe _ _ _ ?_))
    | (with_reducible apply Safe.pre (Dev.frost_same ..).safe)
    | (with_reducible apply Safe.pre (Dev.wakeAll_safe ..))
    | split
    | dsimp only

theorem lullDrainedEffect_same (d : Dev) : Same d (lullDrainedEffect d) := by
  unfold lullDrainedEffect
  repeat' first
    | (with_reducible apply Same.refl)
    | (with_reducible intro _)
    | (with_reducible apply Same.ite)
    | (with_reducible apply Same.pre (Dev.when_same _ _ _ ?_))
    | (with_reducible apply Same.pre (Dev.setNat_same ..))
    | (with_reducible apply Same.pre (Dev.setCh_same ..))
    | (with_reducible apply Same.pre (Same.foldl ?_ _ _))
    | simp only [Same.upd]
    | split
    | dsimp only

theorem Dev.renewRegion_same (d : Dev) (r : Nat) : Same d (Dev.renewRegion d r) := by
  unfold Dev.renewRegion
  repeat' first
    | (with_reducible apply Same.refl)
    | (with_reducible intro _)
    | (with_reducible apply Same.ite)
    | (with_reducible apply Same.pre (Dev.startJob_same ..))
    | (with_reducible apply Same.pre (Dev.endJob_same ..))
    | split
    | dsimp only

theorem lullRetrainEffect_safe (failed : List (Fin 136)) (d : Dev) : Safe d (lullRetrainEffect failed d) := by
  unfold lullRetrainEffect
  repeat' first
    | (with_reducible apply Safe.refl)
    | (with_reducible intro _)
    | (with_reducible apply Safe.ite)
    | (with_reducible apply Safe.pre (Dev.when_safe _ _ _ ?_))
    | (with_reducible apply Safe.pre (Dev.setNat_same ..).safe)
    | (with_reducible apply Safe.pre (Dev.scrap_safe ..))
    | (with_reducible apply Safe.pre (Dev.setCh_same ..).safe)
    | (with_reducible apply Safe.pre (Dev.frost_same ..).safe)
    | (with_reducible apply Safe.pre (Dev.renewRegion_same ..).safe)
    | (with_reducible apply Safe.pre (Safe.foldl ?_ _ _))
    | simp only [Safe.upd]
    | split
    | dsimp only

theorem Dev.thawBegin_same (d : Dev) (ch : Nat) (tc : Nat) : Same d (Dev.thawBegin d ch tc) := by
  unfold Dev.thawBegin
  repeat' first
    | (with_reducible apply Same.refl)
    | (with_reducible intro _)
    | (with_reducible apply Same.ite)
    | (with_reducible apply Same.pre (Dev.setCh_same ..))
    | (with_reducible apply Same.pre (Dev.setChan_same ..))
    | (with_reducible apply Same.pre (Dev.poisonAdd_same ..))
    | simp only [Same.upd]
    | split
    | dsimp only

theorem thawDoneEffect_same (ch : Nat) (ok : Bool) (d : Dev) : Same d (thawDoneEffect ch ok d) := by
  unfold thawDoneEffect
  repeat' first
    | (with_reducible apply Same.refl)
    | (with_reducible intro _)
    | (with_reducible apply Same.ite)
    | (with_reducible apply Same.pre (Dev.when_same _ _ _ ?_))
    | (with_reducible apply Same.pre (Dev.logNote_same ..))
    | (with_reducible apply Same.pre (Dev.setCh_same ..))
    | (with_reducible apply Same.pre (Dev.incCh_same ..))
    | (with_reducible apply Same.pre (Dev.frost_same ..))
    | split
    | dsimp only

end Sys2Proof.Machine
end

