-- ==== Sys2Proof/Laws/Integrity.lean ====
section
/-! SUPPORT. What each operation of Machine/Integrity.lean keeps (`Same` and `Safe` of Laws/Frame.lean). -/

set_option Elab.async false
set_option linter.unusedTactic false
set_option linter.unreachableTactic false

namespace Sys2Proof.Machine

theorem Dev.setSram_same (d : Dev) (inst : Nat) (word : Nat) (x : SramWord) : Same d (Dev.setSram d inst word x) := by
  unfold Dev.setSram
  repeat' first
    | (with_reducible apply Same.refl)
    | (with_reducible intro _)
    | (with_reducible apply Same.ite)
    | simp only [Same.upd]
    | split
    | dsimp only

theorem Dev.sramSeen_same (d : Dev) (inst : Nat) (e : Ecc) : Same d (Dev.sramSeen d inst e) := by
  unfold Dev.sramSeen
  repeat' first
    | (with_reducible apply Same.refl)
    | (with_reducible intro _)
    | (with_reducible apply Same.ite)
    | (with_reducible apply Same.pre (Dev.inc_same ..))
    | (with_reducible apply Same.pre (Dev.corrected_same ..))
    | (with_reducible apply Same.pre (Dev.sramFixed_same ..))
    | split
    | dsimp only

theorem Dev.sramVote_same (d : Dev) (inst : Nat) (word : Nat) (f : SramFind) : Same d (Dev.sramVote d inst word f).2 := by
  unfold Dev.sramVote
  repeat' first
    | (with_reducible apply Same.refl)
    | (with_reducible intro _)
    | (with_reducible apply Same.ite)
    | (with_reducible apply Same.pre (Dev.corrected_same ..))
    | (with_reducible apply Same.pre (Dev.setSram_same ..))
    | (with_reducible apply Same.pre (Dev.sramSeen_same ..))
    | split
    | dsimp only

theorem leakEffect_same (d : Dev) : Same d (leakEffect d) := by
  unfold leakEffect
  repeat' first
    | (with_reducible apply Same.refl)
    | (with_reducible intro _)
    | (with_reducible apply Same.ite)
    | (with_reducible apply Same.pre (Dev.when_same _ _ _ ?_))
    | (with_reducible apply Same.pre (Same.foldl ?_ _ _))
    | simp only [Same.upd]
    | split
    | dsimp only

theorem Dev.drizzleWord_same (d : Dev) (inst : Nat) (word : Nat) (f : SramFind) : Same d (Dev.drizzleWord d inst word f) := by
  unfold Dev.drizzleWord
  repeat' first
    | (with_reducible apply Same.refl)
    | (with_reducible intro _)
    | (with_reducible apply Same.ite)
    | (with_reducible apply Same.pre (Dev.inc_same ..))
    | (with_reducible apply Same.pre (Dev.corrected_same ..))
    | (with_reducible apply Same.pre (Dev.setSram_same ..))
    | (with_reducible apply Same.pre (Dev.sramSeen_same ..))
    | (with_reducible apply Same.pre (Dev.sramVote_same ..))
    | split
    | dsimp only

theorem Dev.drizzleLine_same (d : Dev) (a : Nat) : Same d (Dev.drizzleLine d a) := by
  unfold Dev.drizzleLine
  repeat' first
    | (with_reducible apply Same.refl)
    | (with_reducible intro _)
    | (with_reducible apply Same.ite)
    | (with_reducible apply Same.pre (Dev.inc_same ..))
    | (with_reducible apply Same.pre (Dev.corrected_same ..))
    | (with_reducible apply Same.pre (Dev.checkLine_same ..))
    | (with_reducible apply Same.pre (Dev.rowAccess_same ..))
    | (with_reducible apply Same.pre (Dev.releaseTest_same ..))
    | simp only [Same.upd]
    | split
    | dsimp only

theorem Dev.sweepChannel_same (d : Dev) (ch : Nat) : Same d (Dev.sweepChannel d ch) := by
  unfold Dev.sweepChannel
  repeat' first
    | (with_reducible apply Same.refl)
    | (with_reducible intro _)
    | (with_reducible apply Same.ite)
    | (with_reducible apply Same.pre (Dev.setChan_same ..))
    | (with_reducible apply Same.pre (Dev.drizzleLine_same ..))
    | simp only [Same.upd]
    | split
    | dsimp only

theorem drizzleEffect_same (target : Sum (Nat × Nat) (Fin (2 ^ 44))) (sram : SramFind) (find : LineFind) (last : Bool) (d : Dev) : Same d (drizzleEffect target sram find last d) := by
  unfold drizzleEffect
  repeat' first
    | (with_reducible apply Same.refl)
    | (with_reducible intro _)
    | (with_reducible apply Same.ite)
    | (with_reducible apply Same.pre (Dev.when_same _ _ _ ?_))
    | (with_reducible apply Same.pre (Dev.inc_same ..))
    | (with_reducible apply Same.pre (Dev.occur_same ..))
    | (with_reducible apply Same.pre (Dev.setChan_same ..))
    | (with_reducible apply Same.pre (Dev.disturb_same ..))
    | (with_reducible apply Same.pre (Dev.drizzleWord_same ..))
    | (with_reducible apply Same.pre (Dev.sweepChannel_same ..))
    | (with_reducible apply Same.pre (Same.foldl ?_ _ _))
    | simp only [Same.upd]
    | split
    | dsimp only

theorem Dev.chkWrite_same (d : Dev) : Same d (Dev.chkWrite d) := by
  unfold Dev.chkWrite
  repeat' first
    | (with_reducible apply Same.refl)
    | (with_reducible intro _)
    | (with_reducible apply Same.ite)
    | (with_reducible apply Same.pre (Dev.setSram_same ..))
    | split
    | dsimp only

theorem Dev.chkRaw_same (d : Dev) : Same d (Dev.chkRaw d).2 := by
  unfold Dev.chkRaw
  repeat' first
    | (with_reducible apply Same.refl)
    | (with_reducible intro _)
    | (with_reducible apply Same.ite)
    | (with_reducible apply Same.pre (Dev.drawn_same ..))
    | split
    | dsimp only

theorem Dev.chkReadRaw_same (d : Dev) : Same d (Dev.chkReadRaw d) := by
  unfold Dev.chkReadRaw
  repeat' first
    | (with_reducible apply Same.refl)
    | (with_reducible intro _)
    | (with_reducible apply Same.ite)
    | (with_reducible apply Same.pre (Dev.setNat_same ..))
    | (with_reducible apply Same.pre (Dev.chkRaw_same ..))
    | split
    | dsimp only

theorem Dev.chkReadDecoded_same (d : Dev) : Same d (Dev.chkReadDecoded d) := by
  unfold Dev.chkReadDecoded
  repeat' first
    | (with_reducible apply Same.refl)
    | (with_reducible intro _)
    | (with_reducible apply Same.ite)
    | (with_reducible apply Same.pre (Dev.setNat_same ..))
    | (with_reducible apply Same.pre (Dev.corrected_same ..))
    | (with_reducible apply Same.pre (Dev.sramSeen_same ..))
    | split
    | dsimp only

theorem Dev.takeTestLine_same (d : Dev) : Same d (Dev.takeTestLine d) := by
  unfold Dev.takeTestLine
  repeat' first
    | (with_reducible apply Same.refl)
    | (with_reducible intro _)
    | (with_reducible apply Same.ite)
    | simp only [Same.upd]
    | split
    | dsimp only

theorem Dev.chkDramWrite_same (d : Dev) : Same d (Dev.chkDramWrite d) := by
  unfold Dev.chkDramWrite
  repeat' first
    | (with_reducible apply Same.refl)
    | (with_reducible intro _)
    | (with_reducible apply Same.ite)
    | (with_reducible apply Same.pre (Dev.setMinor_same ..))
    | (with_reducible apply Same.pre (Dev.rowAccess_same ..))
    | (with_reducible apply Same.pre (Dev.closeSlice_same ..))
    | (with_reducible apply Same.pre (Dev.zeroFill_same ..))
    | (with_reducible apply Same.pre (Dev.takeTestLine_same ..))
    | simp only [Same.upd]
    | split
    | dsimp only

theorem Dev.chkDramRead_same (d : Dev) : Same d (Dev.chkDramRead d) := by
  unfold Dev.chkDramRead
  repeat' first
    | (with_reducible apply Same.refl)
    | (with_reducible intro _)
    | (with_reducible apply Same.ite)
    | (with_reducible apply Same.pre (Dev.setNat_same ..))
    | (with_reducible apply Same.pre (Dev.setOct_same ..))
    | (with_reducible apply Same.pre (Dev.drawn_same ..))
    | (with_reducible apply Same.pre (Dev.corrected_same ..))
    | (with_reducible apply Same.pre (Dev.lineCorrected_same ..))
    | (with_reducible apply Same.pre (Dev.linePassed_same ..))
    | (with_reducible apply Same.pre (Dev.rowAccess_same ..))
    | (with_reducible apply Same.pre (Dev.takeTestLine_same ..))
    | split
    | dsimp only

theorem Dev.chkOp_same (d : Dev) (op : Nat) : Same d (Dev.chkOp d op) := by
  unfold Dev.chkOp
  repeat' first
    | (with_reducible apply Same.refl)
    | (with_reducible intro _)
    | (with_reducible apply Same.ite)
    | (with_reducible apply Same.pre (Dev.chkWrite_same ..))
    | (with_reducible apply Same.pre (Dev.chkReadRaw_same ..))
    | (with_reducible apply Same.pre (Dev.chkReadDecoded_same ..))
    | (with_reducible apply Same.pre (Dev.chkDramWrite_same ..))
    | (with_reducible apply Same.pre (Dev.chkDramRead_same ..))
    | split
    | dsimp only

end Sys2Proof.Machine
end

