-- ==== Sys2Proof/Laws/State.lean ====
section
/-! SUPPORT. The fields of the state after each of the plain updates, and what reads as what after them. -/

set_option Elab.async false
set_option linter.unusedTactic false
set_option linter.unreachableTactic false

namespace Sys2Proof.Machine

@[simp] theorem State.with_dev (s : State) (d : Dev) : ({ s with dev := d } : State).dev = d := rfl

@[simp] theorem State.with_dev_pending (s : State) (d : Dev) : ({ s with dev := d } : State).pending = s.pending := rfl

@[simp] theorem State.with_pending (s : State) (l : List Instr) : ({ s with pending := l } : State).pending = l := rfl

@[simp] theorem State.with_pending_dev (s : State) (l : List Instr) : ({ s with pending := l } : State).dev = s.dev := rfl

/-- What a command answers: a next state with its effect and the queue as it was. -/
theorem run_next (s : State) (dt : Nat) (f : Dev → Dev) : run s dt f = .next { dev := f (s.dev.pass dt), pending := s.pending } := rfl

/-- Within one nanosecond nothing passes. -/
@[simp] theorem Dev.pass_zero (d : Dev) : d.pass 0 = d := rfl

/-! After `Dev.tick`. -/

@[simp] theorem Dev.tick_free (d : Dev) (n : Nat) : (d.tick n).free = d.free := rfl
@[simp] theorem Dev.tick_objs (d : Dev) (n : Nat) : (d.tick n).objs = d.objs := rfl
@[simp] theorem Dev.tick_inForce (d : Dev) (n : Nat) : (d.tick n).inForce = d.inForce := rfl
@[simp] theorem Dev.tick_time (d : Dev) (n : Nat) : (d.tick n).time = d.time := rfl
@[simp] theorem Dev.tick_links (d : Dev) (n : Nat) : (d.tick n).links = d.links := rfl
@[simp] theorem Dev.tick_capture (d : Dev) (n : Nat) : (d.tick n).capture = d.capture := rfl
@[simp] theorem Dev.tick_events (d : Dev) (n : Nat) : (d.tick n).events = d.events := rfl
@[simp] theorem Dev.tick_tx (d : Dev) (n : Nat) : (d.tick n).tx = d.tx := rfl
@[simp] theorem Dev.tick_mem (d : Dev) (n : Nat) : (d.tick n).mem = d.mem := rfl
@[simp] theorem Dev.tick_dict (d : Dev) (n : Nat) : (d.tick n).dict = d.dict := rfl
@[simp] theorem Dev.tick_keep (d : Dev) (n : Nat) : (d.tick n).keep = d.keep := rfl
@[simp] theorem Dev.tick_cores (d : Dev) (n : Nat) : (d.tick n).cores = d.cores := rfl
@[simp] theorem Dev.tick_clock (d : Dev) (n : Nat) : (d.tick n).clock = d.clock := rfl
@[simp] theorem Dev.tick_twin (d : Dev) (n : Nat) : (d.tick n).twin = d.twin := rfl
@[simp] theorem Dev.tick_store (d : Dev) (n : Nat) : (d.tick n).store = d.store := rfl
@[simp] theorem Dev.tick_nis (d : Dev) (n : Nat) : (d.tick n).nis = d.nis := rfl
@[simp] theorem Dev.tick_fab (d : Dev) (n : Nat) : (d.tick n).fab = d.fab := rfl
@[simp] theorem Dev.tick_boot (d : Dev) (n : Nat) : (d.tick n).boot = d.boot := rfl
@[simp] theorem Dev.tick_bundles (d : Dev) (n : Nat) : (d.tick n).bundles = d.bundles := rfl
@[simp] theorem Dev.tick_power (d : Dev) (n : Nat) : (d.tick n).power = d.power := rfl
@[simp] theorem Dev.tick_test (d : Dev) (n : Nat) : (d.tick n).test = d.test := rfl
@[simp] theorem Dev.tick_diag (d : Dev) (n : Nat) : (d.tick n).diag = d.diag := rfl
@[simp] theorem Dev.tick_jtag (d : Dev) (n : Nat) : (d.tick n).jtag = d.jtag := rfl
@[simp] theorem Dev.tick_pins (d : Dev) (n : Nat) : (d.tick n).pins = d.pins := rfl
@[simp] theorem Dev.tick_sent (d : Dev) (n : Nat) : (d.tick n).sent = d.sent := rfl
@[simp] theorem Dev.tick_ns (d : Dev) (n : Nat) : (d.tick n).ns = d.ns + n := rfl
@[simp] theorem Dev.tick_count (d : Dev) (n : Nat) : (d.tick n).count = (d.count + 4 * n) % 2 ^ 64 := rfl
@[simp] theorem Dev.tick_val (d : Dev) (n : Nat) (p1 : ObjDef) (k1 k2 k3 : Nat) : (d.tick n).val p1 k1 k2 k3 = d.val p1 k1 k2 k3 := rfl
@[simp] theorem Dev.tick_nat (d : Dev) (n : Nat) (p1 : ObjDef) (k1 k2 k3 : Nat) : (d.tick n).nat p1 k1 k2 k3 = d.nat p1 k1 k2 k3 := rfl

/-! After `Dev.put`. -/

@[simp] theorem Dev.put_count (d : Dev) (o : ObjDef) (v : Val) (a b c : Nat) : (d.put o v a b c).count = d.count := rfl
@[simp] theorem Dev.put_ns (d : Dev) (o : ObjDef) (v : Val) (a b c : Nat) : (d.put o v a b c).ns = d.ns := rfl
@[simp] theorem Dev.put_free (d : Dev) (o : ObjDef) (v : Val) (a b c : Nat) : (d.put o v a b c).free = d.free := rfl
@[simp] theorem Dev.put_inForce (d : Dev) (o : ObjDef) (v : Val) (a b c : Nat) : (d.put o v a b c).inForce = d.inForce := rfl
@[simp] theorem Dev.put_time (d : Dev) (o : ObjDef) (v : Val) (a b c : Nat) : (d.put o v a b c).time = d.time := rfl
@[simp] theorem Dev.put_links (d : Dev) (o : ObjDef) (v : Val) (a b c : Nat) : (d.put o v a b c).links = d.links := rfl
@[simp] theorem Dev.put_capture (d : Dev) (o : ObjDef) (v : Val) (a b c : Nat) : (d.put o v a b c).capture = d.capture := rfl
@[simp] theorem Dev.put_events (d : Dev) (o : ObjDef) (v : Val) (a b c : Nat) : (d.put o v a b c).events = d.events := rfl
@[simp] theorem Dev.put_tx (d : Dev) (o : ObjDef) (v : Val) (a b c : Nat) : (d.put o v a b c).tx = d.tx := rfl
@[simp] theorem Dev.put_mem (d : Dev) (o : ObjDef) (v : Val) (a b c : Nat) : (d.put o v a b c).mem = d.mem := rfl
@[simp] theorem Dev.put_dict (d : Dev) (o : ObjDef) (v : Val) (a b c : Nat) : (d.put o v a b c).dict = d.dict := rfl
@[simp] theorem Dev.put_keep (d : Dev) (o : ObjDef) (v : Val) (a b c : Nat) : (d.put o v a b c).keep = d.keep := rfl
@[simp] theorem Dev.put_cores (d : Dev) (o : ObjDef) (v : Val) (a b c : Nat) : (d.put o v a b c).cores = d.cores := rfl
@[simp] theorem Dev.put_clock (d : Dev) (o : ObjDef) (v : Val) (a b c : Nat) : (d.put o v a b c).clock = d.clock := rfl
@[simp] theorem Dev.put_twin (d : Dev) (o : ObjDef) (v : Val) (a b c : Nat) : (d.put o v a b c).twin = d.twin := rfl
@[simp] theorem Dev.put_store (d : Dev) (o : ObjDef) (v : Val) (a b c : Nat) : (d.put o v a b c).store = d.store := rfl
@[simp] theorem Dev.put_nis (d : Dev) (o : ObjDef) (v : Val) (a b c : Nat) : (d.put o v a b c).nis = d.nis := rfl
@[simp] theorem Dev.put_fab (d : Dev) (o : ObjDef) (v : Val) (a b c : Nat) : (d.put o v a b c).fab = d.fab := rfl
@[simp] theorem Dev.put_boot (d : Dev) (o : ObjDef) (v : Val) (a b c : Nat) : (d.put o v a b c).boot = d.boot := rfl
@[simp] theorem Dev.put_bundles (d : Dev) (o : ObjDef) (v : Val) (a b c : Nat) : (d.put o v a b c).bundles = d.bundles := rfl
@[simp] theorem Dev.put_power (d : Dev) (o : ObjDef) (v : Val) (a b c : Nat) : (d.put o v a b c).power = d.power := rfl
@[simp] theorem Dev.put_test (d : Dev) (o : ObjDef) (v : Val) (a b c : Nat) : (d.put o v a b c).test = d.test := rfl
@[simp] theorem Dev.put_diag (d : Dev) (o : ObjDef) (v : Val) (a b c : Nat) : (d.put o v a b c).diag = d.diag := rfl
@[simp] theorem Dev.put_jtag (d : Dev) (o : ObjDef) (v : Val) (a b c : Nat) : (d.put o v a b c).jtag = d.jtag := rfl
@[simp] theorem Dev.put_pins (d : Dev) (o : ObjDef) (v : Val) (a b c : Nat) : (d.put o v a b c).pins = d.pins := rfl
@[simp] theorem Dev.put_sent (d : Dev) (o : ObjDef) (v : Val) (a b c : Nat) : (d.put o v a b c).sent = d.sent := rfl

/-! After `Dev.setNat`. -/

@[simp] theorem Dev.setNat_count (d : Dev) (o : ObjDef) (n a b c : Nat) : (d.setNat o n a b c).count = d.count := rfl
@[simp] theorem Dev.setNat_ns (d : Dev) (o : ObjDef) (n a b c : Nat) : (d.setNat o n a b c).ns = d.ns := rfl
@[simp] theorem Dev.setNat_free (d : Dev) (o : ObjDef) (n a b c : Nat) : (d.setNat o n a b c).free = d.free := rfl
@[simp] theorem Dev.setNat_inForce (d : Dev) (o : ObjDef) (n a b c : Nat) : (d.setNat o n a b c).inForce = d.inForce := rfl
@[simp] theorem Dev.setNat_time (d : Dev) (o : ObjDef) (n a b c : Nat) : (d.setNat o n a b c).time = d.time := rfl
@[simp] theorem Dev.setNat_links (d : Dev) (o : ObjDef) (n a b c : Nat) : (d.setNat o n a b c).links = d.links := rfl
@[simp] theorem Dev.setNat_capture (d : Dev) (o : ObjDef) (n a b c : Nat) : (d.setNat o n a b c).capture = d.capture := rfl
@[simp] theorem Dev.setNat_events (d : Dev) (o : ObjDef) (n a b c : Nat) : (d.setNat o n a b c).events = d.events := rfl
@[simp] theorem Dev.setNat_tx (d : Dev) (o : ObjDef) (n a b c : Nat) : (d.setNat o n a b c).tx = d.tx := rfl
@[simp] theorem Dev.setNat_mem (d : Dev) (o : ObjDef) (n a b c : Nat) : (d.setNat o n a b c).mem = d.mem := rfl
@[simp] theorem Dev.setNat_dict (d : Dev) (o : ObjDef) (n a b c : Nat) : (d.setNat o n a b c).dict = d.dict := rfl
@[simp] theorem Dev.setNat_keep (d : Dev) (o : ObjDef) (n a b c : Nat) : (d.setNat o n a b c).keep = d.keep := rfl
@[simp] theorem Dev.setNat_cores (d : Dev) (o : ObjDef) (n a b c : Nat) : (d.setNat o n a b c).cores = d.cores := rfl
@[simp] theorem Dev.setNat_clock (d : Dev) (o : ObjDef) (n a b c : Nat) : (d.setNat o n a b c).clock = d.clock := rfl
@[simp] theorem Dev.setNat_twin (d : Dev) (o : ObjDef) (n a b c : Nat) : (d.setNat o n a b c).twin = d.twin := rfl
@[simp] theorem Dev.setNat_store (d : Dev) (o : ObjDef) (n a b c : Nat) : (d.setNat o n a b c).store = d.store := rfl
@[simp] theorem Dev.setNat_nis (d : Dev) (o : ObjDef) (n a b c : Nat) : (d.setNat o n a b c).nis = d.nis := rfl
@[simp] theorem Dev.setNat_fab (d : Dev) (o : ObjDef) (n a b c : Nat) : (d.setNat o n a b c).fab = d.fab := rfl
@[simp] theorem Dev.setNat_boot (d : Dev) (o : ObjDef) (n a b c : Nat) : (d.setNat o n a b c).boot = d.boot := rfl
@[simp] theorem Dev.setNat_bundles (d : Dev) (o : ObjDef) (n a b c : Nat) : (d.setNat o n a b c).bundles = d.bundles := rfl
@[simp] theorem Dev.setNat_power (d : Dev) (o : ObjDef) (n a b c : Nat) : (d.setNat o n a b c).power = d.power := rfl
@[simp] theorem Dev.setNat_test (d : Dev) (o : ObjDef) (n a b c : Nat) : (d.setNat o n a b c).test = d.test := rfl
@[simp] theorem Dev.setNat_diag (d : Dev) (o : ObjDef) (n a b c : Nat) : (d.setNat o n a b c).diag = d.diag := rfl
@[simp] theorem Dev.setNat_jtag (d : Dev) (o : ObjDef) (n a b c : Nat) : (d.setNat o n a b c).jtag = d.jtag := rfl
@[simp] theorem Dev.setNat_pins (d : Dev) (o : ObjDef) (n a b c : Nat) : (d.setNat o n a b c).pins = d.pins := rfl
@[simp] theorem Dev.setNat_sent (d : Dev) (o : ObjDef) (n a b c : Nat) : (d.setNat o n a b c).sent = d.sent := rfl

/-! After `Dev.setInt`. -/

@[simp] theorem Dev.setInt_count (d : Dev) (o : ObjDef) (n : Int) (a b c : Nat) : (d.setInt o n a b c).count = d.count := rfl
@[simp] theorem Dev.setInt_ns (d : Dev) (o : ObjDef) (n : Int) (a b c : Nat) : (d.setInt o n a b c).ns = d.ns := rfl
@[simp] theorem Dev.setInt_free (d : Dev) (o : ObjDef) (n : Int) (a b c : Nat) : (d.setInt o n a b c).free = d.free := rfl
@[simp] theorem Dev.setInt_inForce (d : Dev) (o : ObjDef) (n : Int) (a b c : Nat) : (d.setInt o n a b c).inForce = d.inForce := rfl
@[simp] theorem Dev.setInt_time (d : Dev) (o : ObjDef) (n : Int) (a b c : Nat) : (d.setInt o n a b c).time = d.time := rfl
@[simp] theorem Dev.setInt_links (d : Dev) (o : ObjDef) (n : Int) (a b c : Nat) : (d.setInt o n a b c).links = d.links := rfl
@[simp] theorem Dev.setInt_capture (d : Dev) (o : ObjDef) (n : Int) (a b c : Nat) : (d.setInt o n a b c).capture = d.capture := rfl
@[simp] theorem Dev.setInt_events (d : Dev) (o : ObjDef) (n : Int) (a b c : Nat) : (d.setInt o n a b c).events = d.events := rfl
@[simp] theorem Dev.setInt_tx (d : Dev) (o : ObjDef) (n : Int) (a b c : Nat) : (d.setInt o n a b c).tx = d.tx := rfl
@[simp] theorem Dev.setInt_mem (d : Dev) (o : ObjDef) (n : Int) (a b c : Nat) : (d.setInt o n a b c).mem = d.mem := rfl
@[simp] theorem Dev.setInt_dict (d : Dev) (o : ObjDef) (n : Int) (a b c : Nat) : (d.setInt o n a b c).dict = d.dict := rfl
@[simp] theorem Dev.setInt_keep (d : Dev) (o : ObjDef) (n : Int) (a b c : Nat) : (d.setInt o n a b c).keep = d.keep := rfl
@[simp] theorem Dev.setInt_cores (d : Dev) (o : ObjDef) (n : Int) (a b c : Nat) : (d.setInt o n a b c).cores = d.cores := rfl
@[simp] theorem Dev.setInt_clock (d : Dev) (o : ObjDef) (n : Int) (a b c : Nat) : (d.setInt o n a b c).clock = d.clock := rfl
@[simp] theorem Dev.setInt_twin (d : Dev) (o : ObjDef) (n : Int) (a b c : Nat) : (d.setInt o n a b c).twin = d.twin := rfl
@[simp] theorem Dev.setInt_store (d : Dev) (o : ObjDef) (n : Int) (a b c : Nat) : (d.setInt o n a b c).store = d.store := rfl
@[simp] theorem Dev.setInt_nis (d : Dev) (o : ObjDef) (n : Int) (a b c : Nat) : (d.setInt o n a b c).nis = d.nis := rfl
@[simp] theorem Dev.setInt_fab (d : Dev) (o : ObjDef) (n : Int) (a b c : Nat) : (d.setInt o n a b c).fab = d.fab := rfl
@[simp] theorem Dev.setInt_boot (d : Dev) (o : ObjDef) (n : Int) (a b c : Nat) : (d.setInt o n a b c).boot = d.boot := rfl
@[simp] theorem Dev.setInt_bundles (d : Dev) (o : ObjDef) (n : Int) (a b c : Nat) : (d.setInt o n a b c).bundles = d.bundles := rfl
@[simp] theorem Dev.setInt_power (d : Dev) (o : ObjDef) (n : Int) (a b c : Nat) : (d.setInt o n a b c).power = d.power := rfl
@[simp] theorem Dev.setInt_test (d : Dev) (o : ObjDef) (n : Int) (a b c : Nat) : (d.setInt o n a b c).test = d.test := rfl
@[simp] theorem Dev.setInt_diag (d : Dev) (o : ObjDef) (n : Int) (a b c : Nat) : (d.setInt o n a b c).diag = d.diag := rfl
@[simp] theorem Dev.setInt_jtag (d : Dev) (o : ObjDef) (n : Int) (a b c : Nat) : (d.setInt o n a b c).jtag = d.jtag := rfl
@[simp] theorem Dev.setInt_pins (d : Dev) (o : ObjDef) (n : Int) (a b c : Nat) : (d.setInt o n a b c).pins = d.pins := rfl
@[simp] theorem Dev.setInt_sent (d : Dev) (o : ObjDef) (n : Int) (a b c : Nat) : (d.setInt o n a b c).sent = d.sent := rfl

/-! After `Dev.setOct`. -/

@[simp] theorem Dev.setOct_count (d : Dev) (o : ObjDef) (l : List Byte) (a b c : Nat) : (d.setOct o l a b c).count = d.count := rfl
@[simp] theorem Dev.setOct_ns (d : Dev) (o : ObjDef) (l : List Byte) (a b c : Nat) : (d.setOct o l a b c).ns = d.ns := rfl
@[simp] theorem Dev.setOct_free (d : Dev) (o : ObjDef) (l : List Byte) (a b c : Nat) : (d.setOct o l a b c).free = d.free := rfl
@[simp] theorem Dev.setOct_inForce (d : Dev) (o : ObjDef) (l : List Byte) (a b c : Nat) : (d.setOct o l a b c).inForce = d.inForce := rfl
@[simp] theorem Dev.setOct_time (d : Dev) (o : ObjDef) (l : List Byte) (a b c : Nat) : (d.setOct o l a b c).time = d.time := rfl
@[simp] theorem Dev.setOct_links (d : Dev) (o : ObjDef) (l : List Byte) (a b c : Nat) : (d.setOct o l a b c).links = d.links := rfl
@[simp] theorem Dev.setOct_capture (d : Dev) (o : ObjDef) (l : List Byte) (a b c : Nat) : (d.setOct o l a b c).capture = d.capture := rfl
@[simp] theorem Dev.setOct_events (d : Dev) (o : ObjDef) (l : List Byte) (a b c : Nat) : (d.setOct o l a b c).events = d.events := rfl
@[simp] theorem Dev.setOct_tx (d : Dev) (o : ObjDef) (l : List Byte) (a b c : Nat) : (d.setOct o l a b c).tx = d.tx := rfl
@[simp] theorem Dev.setOct_mem (d : Dev) (o : ObjDef) (l : List Byte) (a b c : Nat) : (d.setOct o l a b c).mem = d.mem := rfl
@[simp] theorem Dev.setOct_dict (d : Dev) (o : ObjDef) (l : List Byte) (a b c : Nat) : (d.setOct o l a b c).dict = d.dict := rfl
@[simp] theorem Dev.setOct_keep (d : Dev) (o : ObjDef) (l : List Byte) (a b c : Nat) : (d.setOct o l a b c).keep = d.keep := rfl
@[simp] theorem Dev.setOct_cores (d : Dev) (o : ObjDef) (l : List Byte) (a b c : Nat) : (d.setOct o l a b c).cores = d.cores := rfl
@[simp] theorem Dev.setOct_clock (d : Dev) (o : ObjDef) (l : List Byte) (a b c : Nat) : (d.setOct o l a b c).clock = d.clock := rfl
@[simp] theorem Dev.setOct_twin (d : Dev) (o : ObjDef) (l : List Byte) (a b c : Nat) : (d.setOct o l a b c).twin = d.twin := rfl
@[simp] theorem Dev.setOct_store (d : Dev) (o : ObjDef) (l : List Byte) (a b c : Nat) : (d.setOct o l a b c).store = d.store := rfl
@[simp] theorem Dev.setOct_nis (d : Dev) (o : ObjDef) (l : List Byte) (a b c : Nat) : (d.setOct o l a b c).nis = d.nis := rfl
@[simp] theorem Dev.setOct_fab (d : Dev) (o : ObjDef) (l : List Byte) (a b c : Nat) : (d.setOct o l a b c).fab = d.fab := rfl
@[simp] theorem Dev.setOct_boot (d : Dev) (o : ObjDef) (l : List Byte) (a b c : Nat) : (d.setOct o l a b c).boot = d.boot := rfl
@[simp] theorem Dev.setOct_bundles (d : Dev) (o : ObjDef) (l : List Byte) (a b c : Nat) : (d.setOct o l a b c).bundles = d.bundles := rfl
@[simp] theorem Dev.setOct_power (d : Dev) (o : ObjDef) (l : List Byte) (a b c : Nat) : (d.setOct o l a b c).power = d.power := rfl
@[simp] theorem Dev.setOct_test (d : Dev) (o : ObjDef) (l : List Byte) (a b c : Nat) : (d.setOct o l a b c).test = d.test := rfl
@[simp] theorem Dev.setOct_diag (d : Dev) (o : ObjDef) (l : List Byte) (a b c : Nat) : (d.setOct o l a b c).diag = d.diag := rfl
@[simp] theorem Dev.setOct_jtag (d : Dev) (o : ObjDef) (l : List Byte) (a b c : Nat) : (d.setOct o l a b c).jtag = d.jtag := rfl
@[simp] theorem Dev.setOct_pins (d : Dev) (o : ObjDef) (l : List Byte) (a b c : Nat) : (d.setOct o l a b c).pins = d.pins := rfl
@[simp] theorem Dev.setOct_sent (d : Dev) (o : ObjDef) (l : List Byte) (a b c : Nat) : (d.setOct o l a b c).sent = d.sent := rfl

/-! After `Dev.drawn`. -/

@[simp] theorem Dev.drawn_count (d : Dev) : d.drawn.count = d.count := rfl
@[simp] theorem Dev.drawn_ns (d : Dev) : d.drawn.ns = d.ns := rfl
@[simp] theorem Dev.drawn_objs (d : Dev) : d.drawn.objs = d.objs := rfl
@[simp] theorem Dev.drawn_inForce (d : Dev) : d.drawn.inForce = d.inForce := rfl
@[simp] theorem Dev.drawn_time (d : Dev) : d.drawn.time = d.time := rfl
@[simp] theorem Dev.drawn_links (d : Dev) : d.drawn.links = d.links := rfl
@[simp] theorem Dev.drawn_capture (d : Dev) : d.drawn.capture = d.capture := rfl
@[simp] theorem Dev.drawn_events (d : Dev) : d.drawn.events = d.events := rfl
@[simp] theorem Dev.drawn_tx (d : Dev) : d.drawn.tx = d.tx := rfl
@[simp] theorem Dev.drawn_mem (d : Dev) : d.drawn.mem = d.mem := rfl
@[simp] theorem Dev.drawn_dict (d : Dev) : d.drawn.dict = d.dict := rfl
@[simp] theorem Dev.drawn_keep (d : Dev) : d.drawn.keep = d.keep := rfl
@[simp] theorem Dev.drawn_cores (d : Dev) : d.drawn.cores = d.cores := rfl
@[simp] theorem Dev.drawn_clock (d : Dev) : d.drawn.clock = d.clock := rfl
@[simp] theorem Dev.drawn_twin (d : Dev) : d.drawn.twin = d.twin := rfl
@[simp] theorem Dev.drawn_store (d : Dev) : d.drawn.store = d.store := rfl
@[simp] theorem Dev.drawn_nis (d : Dev) : d.drawn.nis = d.nis := rfl
@[simp] theorem Dev.drawn_fab (d : Dev) : d.drawn.fab = d.fab := rfl
@[simp] theorem Dev.drawn_boot (d : Dev) : d.drawn.boot = d.boot := rfl
@[simp] theorem Dev.drawn_bundles (d : Dev) : d.drawn.bundles = d.bundles := rfl
@[simp] theorem Dev.drawn_power (d : Dev) : d.drawn.power = d.power := rfl
@[simp] theorem Dev.drawn_test (d : Dev) : d.drawn.test = d.test := rfl
@[simp] theorem Dev.drawn_diag (d : Dev) : d.drawn.diag = d.diag := rfl
@[simp] theorem Dev.drawn_jtag (d : Dev) : d.drawn.jtag = d.jtag := rfl
@[simp] theorem Dev.drawn_pins (d : Dev) : d.drawn.pins = d.pins := rfl
@[simp] theorem Dev.drawn_sent (d : Dev) : d.drawn.sent = d.sent := rfl
@[simp] theorem Dev.drawn_free (d : Dev) : d.drawn.free = d.free + 1 := rfl
@[simp] theorem Dev.drawn_val (d : Dev) (p1 : ObjDef) (k1 k2 k3 : Nat) : d.drawn.val p1 k1 k2 k3 = d.val p1 k1 k2 k3 := rfl
@[simp] theorem Dev.drawn_nat (d : Dev) (p1 : ObjDef) (k1 k2 k3 : Nat) : d.drawn.nat p1 k1 k2 k3 = d.nat p1 k1 k2 k3 := rfl

/-! After `Dev.send`. -/

@[simp] theorem Dev.send_count (d : Dev) (o : Out) : (d.send o).count = d.count := by unfold Dev.send; split <;> rfl
@[simp] theorem Dev.send_ns (d : Dev) (o : Out) : (d.send o).ns = d.ns := by unfold Dev.send; split <;> rfl
@[simp] theorem Dev.send_free (d : Dev) (o : Out) : (d.send o).free = d.free := by unfold Dev.send; split <;> rfl
@[simp] theorem Dev.send_objs (d : Dev) (o : Out) : (d.send o).objs = d.objs := by unfold Dev.send; split <;> rfl
@[simp] theorem Dev.send_inForce (d : Dev) (o : Out) : (d.send o).inForce = d.inForce := by unfold Dev.send; split <;> rfl
@[simp] theorem Dev.send_time (d : Dev) (o : Out) : (d.send o).time = d.time := by unfold Dev.send; split <;> rfl
@[simp] theorem Dev.send_links (d : Dev) (o : Out) : (d.send o).links = d.links := by unfold Dev.send; split <;> rfl
@[simp] theorem Dev.send_capture (d : Dev) (o : Out) : (d.send o).capture = d.capture := by unfold Dev.send; split <;> rfl
@[simp] theorem Dev.send_events (d : Dev) (o : Out) : (d.send o).events = d.events := by unfold Dev.send; split <;> rfl
@[simp] theorem Dev.send_tx (d : Dev) (o : Out) : (d.send o).tx = d.tx := by unfold Dev.send; split <;> rfl
@[simp] theorem Dev.send_mem (d : Dev) (o : Out) : (d.send o).mem = d.mem := by unfold Dev.send; split <;> rfl
@[simp] theorem Dev.send_dict (d : Dev) (o : Out) : (d.send o).dict = d.dict := by unfold Dev.send; split <;> rfl
@[simp] theorem Dev.send_keep (d : Dev) (o : Out) : (d.send o).keep = d.keep := by unfold Dev.send; split <;> rfl
@[simp] theorem Dev.send_cores (d : Dev) (o : Out) : (d.send o).cores = d.cores := by unfold Dev.send; split <;> rfl
@[simp] theorem Dev.send_clock (d : Dev) (o : Out) : (d.send o).clock = d.clock := by unfold Dev.send; split <;> rfl
@[simp] theorem Dev.send_twin (d : Dev) (o : Out) : (d.send o).twin = d.twin := by unfold Dev.send; split <;> rfl
@[simp] theorem Dev.send_store (d : Dev) (o : Out) : (d.send o).store = d.store := by unfold Dev.send; split <;> rfl
@[simp] theorem Dev.send_nis (d : Dev) (o : Out) : (d.send o).nis = d.nis := by unfold Dev.send; split <;> rfl
@[simp] theorem Dev.send_fab (d : Dev) (o : Out) : (d.send o).fab = d.fab := by unfold Dev.send; split <;> rfl
@[simp] theorem Dev.send_boot (d : Dev) (o : Out) : (d.send o).boot = d.boot := by unfold Dev.send; split <;> rfl
@[simp] theorem Dev.send_bundles (d : Dev) (o : Out) : (d.send o).bundles = d.bundles := by unfold Dev.send; split <;> rfl
@[simp] theorem Dev.send_power (d : Dev) (o : Out) : (d.send o).power = d.power := by unfold Dev.send; split <;> rfl
@[simp] theorem Dev.send_test (d : Dev) (o : Out) : (d.send o).test = d.test := by unfold Dev.send; split <;> rfl
@[simp] theorem Dev.send_diag (d : Dev) (o : Out) : (d.send o).diag = d.diag := by unfold Dev.send; split <;> rfl
@[simp] theorem Dev.send_jtag (d : Dev) (o : Out) : (d.send o).jtag = d.jtag := by unfold Dev.send; split <;> rfl
@[simp] theorem Dev.send_pins (d : Dev) (o : Out) : (d.send o).pins = d.pins := by unfold Dev.send; split <;> rfl
@[simp] theorem Dev.send_sent (d : Dev) (o : Out) : (d.send o).sent = if o.onLanes && d.stopped then d.sent else d.sent ++ [o] := by unfold Dev.send; split <;> rfl
@[simp] theorem Dev.send_val (d : Dev) (o : Out) (p1 : ObjDef) (k1 k2 k3 : Nat) : (d.send o).val p1 k1 k2 k3 = d.val p1 k1 k2 k3 := by unfold Dev.send; split <;> rfl
@[simp] theorem Dev.send_nat (d : Dev) (o : Out) (p1 : ObjDef) (k1 k2 k3 : Nat) : (d.send o).nat p1 k1 k2 k3 = d.nat p1 k1 k2 k3 := by unfold Dev.send; split <;> rfl

/-! After `Dev.setPort`. -/

@[simp] theorem Dev.setPort_count (d : Dev) (i : Nat) (p : PortAux) : (d.setPort i p).count = d.count := rfl
@[simp] theorem Dev.setPort_ns (d : Dev) (i : Nat) (p : PortAux) : (d.setPort i p).ns = d.ns := rfl
@[simp] theorem Dev.setPort_free (d : Dev) (i : Nat) (p : PortAux) : (d.setPort i p).free = d.free := rfl
@[simp] theorem Dev.setPort_objs (d : Dev) (i : Nat) (p : PortAux) : (d.setPort i p).objs = d.objs := rfl
@[simp] theorem Dev.setPort_inForce (d : Dev) (i : Nat) (p : PortAux) : (d.setPort i p).inForce = d.inForce := rfl
@[simp] theorem Dev.setPort_time (d : Dev) (i : Nat) (p : PortAux) : (d.setPort i p).time = d.time := rfl
@[simp] theorem Dev.setPort_capture (d : Dev) (i : Nat) (p : PortAux) : (d.setPort i p).capture = d.capture := rfl
@[simp] theorem Dev.setPort_events (d : Dev) (i : Nat) (p : PortAux) : (d.setPort i p).events = d.events := rfl
@[simp] theorem Dev.setPort_tx (d : Dev) (i : Nat) (p : PortAux) : (d.setPort i p).tx = d.tx := rfl
@[simp] theorem Dev.setPort_mem (d : Dev) (i : Nat) (p : PortAux) : (d.setPort i p).mem = d.mem := rfl
@[simp] theorem Dev.setPort_dict (d : Dev) (i : Nat) (p : PortAux) : (d.setPort i p).dict = d.dict := rfl
@[simp] theorem Dev.setPort_keep (d : Dev) (i : Nat) (p : PortAux) : (d.setPort i p).keep = d.keep := rfl
@[simp] theorem Dev.setPort_cores (d : Dev) (i : Nat) (p : PortAux) : (d.setPort i p).cores = d.cores := rfl
@[simp] theorem Dev.setPort_clock (d : Dev) (i : Nat) (p : PortAux) : (d.setPort i p).clock = d.clock := rfl
@[simp] theorem Dev.setPort_twin (d : Dev) (i : Nat) (p : PortAux) : (d.setPort i p).twin = d.twin := rfl
@[simp] theorem Dev.setPort_store (d : Dev) (i : Nat) (p : PortAux) : (d.setPort i p).store = d.store := rfl
@[simp] theorem Dev.setPort_nis (d : Dev) (i : Nat) (p : PortAux) : (d.setPort i p).nis = d.nis := rfl
@[simp] theorem Dev.setPort_fab (d : Dev) (i : Nat) (p : PortAux) : (d.setPort i p).fab = d.fab := rfl
@[simp] theorem Dev.setPort_boot (d : Dev) (i : Nat) (p : PortAux) : (d.setPort i p).boot = d.boot := rfl
@[simp] theorem Dev.setPort_bundles (d : Dev) (i : Nat) (p : PortAux) : (d.setPort i p).bundles = d.bundles := rfl
@[simp] theorem Dev.setPort_power (d : Dev) (i : Nat) (p : PortAux) : (d.setPort i p).power = d.power := rfl
@[simp] theorem Dev.setPort_test (d : Dev) (i : Nat) (p : PortAux) : (d.setPort i p).test = d.test := rfl
@[simp] theorem Dev.setPort_diag (d : Dev) (i : Nat) (p : PortAux) : (d.setPort i p).diag = d.diag := rfl
@[simp] theorem Dev.setPort_jtag (d : Dev) (i : Nat) (p : PortAux) : (d.setPort i p).jtag = d.jtag := rfl
@[simp] theorem Dev.setPort_pins (d : Dev) (i : Nat) (p : PortAux) : (d.setPort i p).pins = d.pins := rfl
@[simp] theorem Dev.setPort_sent (d : Dev) (i : Nat) (p : PortAux) : (d.setPort i p).sent = d.sent := rfl
@[simp] theorem Dev.setPort_val (d : Dev) (i : Nat) (p : PortAux) (p1 : ObjDef) (k1 k2 k3 : Nat) : (d.setPort i p).val p1 k1 k2 k3 = d.val p1 k1 k2 k3 := rfl
@[simp] theorem Dev.setPort_nat (d : Dev) (i : Nat) (p : PortAux) (p1 : ObjDef) (k1 k2 k3 : Nat) : (d.setPort i p).nat p1 k1 k2 k3 = d.nat p1 k1 k2 k3 := rfl

/-! After `Dev.setSpx`. -/

@[simp] theorem Dev.setSpx_count (d : Dev) (m : Nat) (x : SpxAux) : (d.setSpx m x).count = d.count := rfl
@[simp] theorem Dev.setSpx_ns (d : Dev) (m : Nat) (x : SpxAux) : (d.setSpx m x).ns = d.ns := rfl
@[simp] theorem Dev.setSpx_free (d : Dev) (m : Nat) (x : SpxAux) : (d.setSpx m x).free = d.free := rfl
@[simp] theorem Dev.setSpx_objs (d : Dev) (m : Nat) (x : SpxAux) : (d.setSpx m x).objs = d.objs := rfl
@[simp] theorem Dev.setSpx_inForce (d : Dev) (m : Nat) (x : SpxAux) : (d.setSpx m x).inForce = d.inForce := rfl
@[simp] theorem Dev.setSpx_time (d : Dev) (m : Nat) (x : SpxAux) : (d.setSpx m x).time = d.time := rfl
@[simp] theorem Dev.setSpx_capture (d : Dev) (m : Nat) (x : SpxAux) : (d.setSpx m x).capture = d.capture := rfl
@[simp] theorem Dev.setSpx_events (d : Dev) (m : Nat) (x : SpxAux) : (d.setSpx m x).events = d.events := rfl
@[simp] theorem Dev.setSpx_tx (d : Dev) (m : Nat) (x : SpxAux) : (d.setSpx m x).tx = d.tx := rfl
@[simp] theorem Dev.setSpx_mem (d : Dev) (m : Nat) (x : SpxAux) : (d.setSpx m x).mem = d.mem := rfl
@[simp] theorem Dev.setSpx_dict (d : Dev) (m : Nat) (x : SpxAux) : (d.setSpx m x).dict = d.dict := rfl
@[simp] theorem Dev.setSpx_keep (d : Dev) (m : Nat) (x : SpxAux) : (d.setSpx m x).keep = d.keep := rfl
@[simp] theorem Dev.setSpx_cores (d : Dev) (m : Nat) (x : SpxAux) : (d.setSpx m x).cores = d.cores := rfl
@[simp] theorem Dev.setSpx_clock (d : Dev) (m : Nat) (x : SpxAux) : (d.setSpx m x).clock = d.clock := rfl
@[simp] theorem Dev.setSpx_twin (d : Dev) (m : Nat) (x : SpxAux) : (d.setSpx m x).twin = d.twin := rfl
@[simp] theorem Dev.setSpx_store (d : Dev) (m : Nat) (x : SpxAux) : (d.setSpx m x).store = d.store := rfl
@[simp] theorem Dev.setSpx_nis (d : Dev) (m : Nat) (x : SpxAux) : (d.setSpx m x).nis = d.nis := rfl
@[simp] theorem Dev.setSpx_fab (d : Dev) (m : Nat) (x : SpxAux) : (d.setSpx m x).fab = d.fab := rfl
@[simp] theorem Dev.setSpx_boot (d : Dev) (m : Nat) (x : SpxAux) : (d.setSpx m x).boot = d.boot := rfl
@[simp] theorem Dev.setSpx_bundles (d : Dev) (m : Nat) (x : SpxAux) : (d.setSpx m x).bundles = d.bundles := rfl
@[simp] theorem Dev.setSpx_power (d : Dev) (m : Nat) (x : SpxAux) : (d.setSpx m x).power = d.power := rfl
@[simp] theorem Dev.setSpx_test (d : Dev) (m : Nat) (x : SpxAux) : (d.setSpx m x).test = d.test := rfl
@[simp] theorem Dev.setSpx_diag (d : Dev) (m : Nat) (x : SpxAux) : (d.setSpx m x).diag = d.diag := rfl
@[simp] theorem Dev.setSpx_jtag (d : Dev) (m : Nat) (x : SpxAux) : (d.setSpx m x).jtag = d.jtag := rfl
@[simp] theorem Dev.setSpx_pins (d : Dev) (m : Nat) (x : SpxAux) : (d.setSpx m x).pins = d.pins := rfl
@[simp] theorem Dev.setSpx_sent (d : Dev) (m : Nat) (x : SpxAux) : (d.setSpx m x).sent = d.sent := rfl
@[simp] theorem Dev.setSpx_val (d : Dev) (m : Nat) (x : SpxAux) (p1 : ObjDef) (k1 k2 k3 : Nat) : (d.setSpx m x).val p1 k1 k2 k3 = d.val p1 k1 k2 k3 := rfl
@[simp] theorem Dev.setSpx_nat (d : Dev) (m : Nat) (x : SpxAux) (p1 : ObjDef) (k1 k2 k3 : Nat) : (d.setSpx m x).nat p1 k1 k2 k3 = d.nat p1 k1 k2 k3 := rfl

/-! After `Dev.setEng`. -/

@[simp] theorem Dev.setEng_count (d : Dev) (e : Nat) (x : EngAux) : (d.setEng e x).count = d.count := rfl
@[simp] theorem Dev.setEng_ns (d : Dev) (e : Nat) (x : EngAux) : (d.setEng e x).ns = d.ns := rfl
@[simp] theorem Dev.setEng_free (d : Dev) (e : Nat) (x : EngAux) : (d.setEng e x).free = d.free := rfl
@[simp] theorem Dev.setEng_objs (d : Dev) (e : Nat) (x : EngAux) : (d.setEng e x).objs = d.objs := rfl
@[simp] theorem Dev.setEng_inForce (d : Dev) (e : Nat) (x : EngAux) : (d.setEng e x).inForce = d.inForce := rfl
@[simp] theorem Dev.setEng_time (d : Dev) (e : Nat) (x : EngAux) : (d.setEng e x).time = d.time := rfl
@[simp] theorem Dev.setEng_links (d : Dev) (e : Nat) (x : EngAux) : (d.setEng e x).links = d.links := rfl
@[simp] theorem Dev.setEng_events (d : Dev) (e : Nat) (x : EngAux) : (d.setEng e x).events = d.events := rfl
@[simp] theorem Dev.setEng_tx (d : Dev) (e : Nat) (x : EngAux) : (d.setEng e x).tx = d.tx := rfl
@[simp] theorem Dev.setEng_mem (d : Dev) (e : Nat) (x : EngAux) : (d.setEng e x).mem = d.mem := rfl
@[simp] theorem Dev.setEng_dict (d : Dev) (e : Nat) (x : EngAux) : (d.setEng e x).dict = d.dict := rfl
@[simp] theorem Dev.setEng_keep (d : Dev) (e : Nat) (x : EngAux) : (d.setEng e x).keep = d.keep := rfl
@[simp] theorem Dev.setEng_cores (d : Dev) (e : Nat) (x : EngAux) : (d.setEng e x).cores = d.cores := rfl
@[simp] theorem Dev.setEng_clock (d : Dev) (e : Nat) (x : EngAux) : (d.setEng e x).clock = d.clock := rfl
@[simp] theorem Dev.setEng_twin (d : Dev) (e : Nat) (x : EngAux) : (d.setEng e x).twin = d.twin := rfl
@[simp] theorem Dev.setEng_store (d : Dev) (e : Nat) (x : EngAux) : (d.setEng e x).store = d.store := rfl
@[simp] theorem Dev.setEng_nis (d : Dev) (e : Nat) (x : EngAux) : (d.setEng e x).nis = d.nis := rfl
@[simp] theorem Dev.setEng_fab (d : Dev) (e : Nat) (x : EngAux) : (d.setEng e x).fab = d.fab := rfl
@[simp] theorem Dev.setEng_boot (d : Dev) (e : Nat) (x : EngAux) : (d.setEng e x).boot = d.boot := rfl
@[simp] theorem Dev.setEng_bundles (d : Dev) (e : Nat) (x : EngAux) : (d.setEng e x).bundles = d.bundles := rfl
@[simp] theorem Dev.setEng_power (d : Dev) (e : Nat) (x : EngAux) : (d.setEng e x).power = d.power := rfl
@[simp] theorem Dev.setEng_test (d : Dev) (e : Nat) (x : EngAux) : (d.setEng e x).test = d.test := rfl
@[simp] theorem Dev.setEng_diag (d : Dev) (e : Nat) (x : EngAux) : (d.setEng e x).diag = d.diag := rfl
@[simp] theorem Dev.setEng_jtag (d : Dev) (e : Nat) (x : EngAux) : (d.setEng e x).jtag = d.jtag := rfl
@[simp] theorem Dev.setEng_pins (d : Dev) (e : Nat) (x : EngAux) : (d.setEng e x).pins = d.pins := rfl
@[simp] theorem Dev.setEng_sent (d : Dev) (e : Nat) (x : EngAux) : (d.setEng e x).sent = d.sent := rfl
@[simp] theorem Dev.setEng_val (d : Dev) (e : Nat) (x : EngAux) (p1 : ObjDef) (k1 k2 k3 : Nat) : (d.setEng e x).val p1 k1 k2 k3 = d.val p1 k1 k2 k3 := rfl
@[simp] theorem Dev.setEng_nat (d : Dev) (e : Nat) (x : EngAux) (p1 : ObjDef) (k1 k2 k3 : Nat) : (d.setEng e x).nat p1 k1 k2 k3 = d.nat p1 k1 k2 k3 := rfl

/-! After `Dev.setIngest`. -/

@[simp] theorem Dev.setIngest_count (d : Dev) (q : Nat) (x : Ingest) : (d.setIngest q x).count = d.count := rfl
@[simp] theorem Dev.setIngest_ns (d : Dev) (q : Nat) (x : Ingest) : (d.setIngest q x).ns = d.ns := rfl
@[simp] theorem Dev.setIngest_free (d : Dev) (q : Nat) (x : Ingest) : (d.setIngest q x).free = d.free := rfl
@[simp] theorem Dev.setIngest_objs (d : Dev) (q : Nat) (x : Ingest) : (d.setIngest q x).objs = d.objs := rfl
@[simp] theorem Dev.setIngest_inForce (d : Dev) (q : Nat) (x : Ingest) : (d.setIngest q x).inForce = d.inForce := rfl
@[simp] theorem Dev.setIngest_time (d : Dev) (q : Nat) (x : Ingest) : (d.setIngest q x).time = d.time := rfl
@[simp] theorem Dev.setIngest_links (d : Dev) (q : Nat) (x : Ingest) : (d.setIngest q x).links = d.links := rfl
@[simp] theorem Dev.setIngest_events (d : Dev) (q : Nat) (x : Ingest) : (d.setIngest q x).events = d.events := rfl
@[simp] theorem Dev.setIngest_tx (d : Dev) (q : Nat) (x : Ingest) : (d.setIngest q x).tx = d.tx := rfl
@[simp] theorem Dev.setIngest_mem (d : Dev) (q : Nat) (x : Ingest) : (d.setIngest q x).mem = d.mem := rfl
@[simp] theorem Dev.setIngest_dict (d : Dev) (q : Nat) (x : Ingest) : (d.setIngest q x).dict = d.dict := rfl
@[simp] theorem Dev.setIngest_keep (d : Dev) (q : Nat) (x : Ingest) : (d.setIngest q x).keep = d.keep := rfl
@[simp] theorem Dev.setIngest_cores (d : Dev) (q : Nat) (x : Ingest) : (d.setIngest q x).cores = d.cores := rfl
@[simp] theorem Dev.setIngest_clock (d : Dev) (q : Nat) (x : Ingest) : (d.setIngest q x).clock = d.clock := rfl
@[simp] theorem Dev.setIngest_twin (d : Dev) (q : Nat) (x : Ingest) : (d.setIngest q x).twin = d.twin := rfl
@[simp] theorem Dev.setIngest_store (d : Dev) (q : Nat) (x : Ingest) : (d.setIngest q x).store = d.store := rfl
@[simp] theorem Dev.setIngest_nis (d : Dev) (q : Nat) (x : Ingest) : (d.setIngest q x).nis = d.nis := rfl
@[simp] theorem Dev.setIngest_fab (d : Dev) (q : Nat) (x : Ingest) : (d.setIngest q x).fab = d.fab := rfl
@[simp] theorem Dev.setIngest_boot (d : Dev) (q : Nat) (x : Ingest) : (d.setIngest q x).boot = d.boot := rfl
@[simp] theorem Dev.setIngest_bundles (d : Dev) (q : Nat) (x : Ingest) : (d.setIngest q x).bundles = d.bundles := rfl
@[simp] theorem Dev.setIngest_power (d : Dev) (q : Nat) (x : Ingest) : (d.setIngest q x).power = d.power := rfl
@[simp] theorem Dev.setIngest_test (d : Dev) (q : Nat) (x : Ingest) : (d.setIngest q x).test = d.test := rfl
@[simp] theorem Dev.setIngest_diag (d : Dev) (q : Nat) (x : Ingest) : (d.setIngest q x).diag = d.diag := rfl
@[simp] theorem Dev.setIngest_jtag (d : Dev) (q : Nat) (x : Ingest) : (d.setIngest q x).jtag = d.jtag := rfl
@[simp] theorem Dev.setIngest_pins (d : Dev) (q : Nat) (x : Ingest) : (d.setIngest q x).pins = d.pins := rfl
@[simp] theorem Dev.setIngest_sent (d : Dev) (q : Nat) (x : Ingest) : (d.setIngest q x).sent = d.sent := rfl
@[simp] theorem Dev.setIngest_val (d : Dev) (q : Nat) (x : Ingest) (p1 : ObjDef) (k1 k2 k3 : Nat) : (d.setIngest q x).val p1 k1 k2 k3 = d.val p1 k1 k2 k3 := rfl
@[simp] theorem Dev.setIngest_nat (d : Dev) (q : Nat) (x : Ingest) (p1 : ObjDef) (k1 k2 k3 : Nat) : (d.setIngest q x).nat p1 k1 k2 k3 = d.nat p1 k1 k2 k3 := rfl

/-! After `Dev.setFifo`. -/

@[simp] theorem Dev.setFifo_count (d : Dev) (q : Nat) (f : Fifo) : (d.setFifo q f).count = d.count := rfl
@[simp] theorem Dev.setFifo_ns (d : Dev) (q : Nat) (f : Fifo) : (d.setFifo q f).ns = d.ns := rfl
@[simp] theorem Dev.setFifo_free (d : Dev) (q : Nat) (f : Fifo) : (d.setFifo q f).free = d.free := rfl
@[simp] theorem Dev.setFifo_objs (d : Dev) (q : Nat) (f : Fifo) : (d.setFifo q f).objs = d.objs := rfl
@[simp] theorem Dev.setFifo_inForce (d : Dev) (q : Nat) (f : Fifo) : (d.setFifo q f).inForce = d.inForce := rfl
@[simp] theorem Dev.setFifo_time (d : Dev) (q : Nat) (f : Fifo) : (d.setFifo q f).time = d.time := rfl
@[simp] theorem Dev.setFifo_links (d : Dev) (q : Nat) (f : Fifo) : (d.setFifo q f).links = d.links := rfl
@[simp] theorem Dev.setFifo_events (d : Dev) (q : Nat) (f : Fifo) : (d.setFifo q f).events = d.events := rfl
@[simp] theorem Dev.setFifo_tx (d : Dev) (q : Nat) (f : Fifo) : (d.setFifo q f).tx = d.tx := rfl
@[simp] theorem Dev.setFifo_mem (d : Dev) (q : Nat) (f : Fifo) : (d.setFifo q f).mem = d.mem := rfl
@[simp] theorem Dev.setFifo_dict (d : Dev) (q : Nat) (f : Fifo) : (d.setFifo q f).dict = d.dict := rfl
@[simp] theorem Dev.setFifo_keep (d : Dev) (q : Nat) (f : Fifo) : (d.setFifo q f).keep = d.keep := rfl
@[simp] theorem Dev.setFifo_cores (d : Dev) (q : Nat) (f : Fifo) : (d.setFifo q f).cores = d.cores := rfl
@[simp] theorem Dev.setFifo_clock (d : Dev) (q : Nat) (f : Fifo) : (d.setFifo q f).clock = d.clock := rfl
@[simp] theorem Dev.setFifo_twin (d : Dev) (q : Nat) (f : Fifo) : (d.setFifo q f).twin = d.twin := rfl
@[simp] theorem Dev.setFifo_store (d : Dev) (q : Nat) (f : Fifo) : (d.setFifo q f).store = d.store := rfl
@[simp] theorem Dev.setFifo_nis (d : Dev) (q : Nat) (f : Fifo) : (d.setFifo q f).nis = d.nis := rfl
@[simp] theorem Dev.setFifo_fab (d : Dev) (q : Nat) (f : Fifo) : (d.setFifo q f).fab = d.fab := rfl
@[simp] theorem Dev.setFifo_boot (d : Dev) (q : Nat) (f : Fifo) : (d.setFifo q f).boot = d.boot := rfl
@[simp] theorem Dev.setFifo_bundles (d : Dev) (q : Nat) (f : Fifo) : (d.setFifo q f).bundles = d.bundles := rfl
@[simp] theorem Dev.setFifo_power (d : Dev) (q : Nat) (f : Fifo) : (d.setFifo q f).power = d.power := rfl
@[simp] theorem Dev.setFifo_test (d : Dev) (q : Nat) (f : Fifo) : (d.setFifo q f).test = d.test := rfl
@[simp] theorem Dev.setFifo_diag (d : Dev) (q : Nat) (f : Fifo) : (d.setFifo q f).diag = d.diag := rfl
@[simp] theorem Dev.setFifo_jtag (d : Dev) (q : Nat) (f : Fifo) : (d.setFifo q f).jtag = d.jtag := rfl
@[simp] theorem Dev.setFifo_pins (d : Dev) (q : Nat) (f : Fifo) : (d.setFifo q f).pins = d.pins := rfl
@[simp] theorem Dev.setFifo_sent (d : Dev) (q : Nat) (f : Fifo) : (d.setFifo q f).sent = d.sent := rfl
@[simp] theorem Dev.setFifo_val (d : Dev) (q : Nat) (f : Fifo) (p1 : ObjDef) (k1 k2 k3 : Nat) : (d.setFifo q f).val p1 k1 k2 k3 = d.val p1 k1 k2 k3 := rfl
@[simp] theorem Dev.setFifo_nat (d : Dev) (q : Nat) (f : Fifo) (p1 : ObjDef) (k1 k2 k3 : Nat) : (d.setFifo q f).nat p1 k1 k2 k3 = d.nat p1 k1 k2 k3 := rfl

/-! After `Dev.setCore`. -/

@[simp] theorem Dev.setCore_count (d : Dev) (c : Nat) (x : CoreAux) : (d.setCore c x).count = d.count := rfl
@[simp] theorem Dev.setCore_ns (d : Dev) (c : Nat) (x : CoreAux) : (d.setCore c x).ns = d.ns := rfl
@[simp] theorem Dev.setCore_free (d : Dev) (c : Nat) (x : CoreAux) : (d.setCore c x).free = d.free := rfl
@[simp] theorem Dev.setCore_objs (d : Dev) (c : Nat) (x : CoreAux) : (d.setCore c x).objs = d.objs := rfl
@[simp] theorem Dev.setCore_inForce (d : Dev) (c : Nat) (x : CoreAux) : (d.setCore c x).inForce = d.inForce := rfl
@[simp] theorem Dev.setCore_time (d : Dev) (c : Nat) (x : CoreAux) : (d.setCore c x).time = d.time := rfl
@[simp] theorem Dev.setCore_links (d : Dev) (c : Nat) (x : CoreAux) : (d.setCore c x).links = d.links := rfl
@[simp] theorem Dev.setCore_capture (d : Dev) (c : Nat) (x : CoreAux) : (d.setCore c x).capture = d.capture := rfl
@[simp] theorem Dev.setCore_events (d : Dev) (c : Nat) (x : CoreAux) : (d.setCore c x).events = d.events := rfl
@[simp] theorem Dev.setCore_tx (d : Dev) (c : Nat) (x : CoreAux) : (d.setCore c x).tx = d.tx := rfl
@[simp] theorem Dev.setCore_mem (d : Dev) (c : Nat) (x : CoreAux) : (d.setCore c x).mem = d.mem := rfl
@[simp] theorem Dev.setCore_dict (d : Dev) (c : Nat) (x : CoreAux) : (d.setCore c x).dict = d.dict := rfl
@[simp] theorem Dev.setCore_keep (d : Dev) (c : Nat) (x : CoreAux) : (d.setCore c x).keep = d.keep := rfl
@[simp] theorem Dev.setCore_clock (d : Dev) (c : Nat) (x : CoreAux) : (d.setCore c x).clock = d.clock := rfl
@[simp] theorem Dev.setCore_twin (d : Dev) (c : Nat) (x : CoreAux) : (d.setCore c x).twin = d.twin := rfl
@[simp] theorem Dev.setCore_store (d : Dev) (c : Nat) (x : CoreAux) : (d.setCore c x).store = d.store := rfl
@[simp] theorem Dev.setCore_nis (d : Dev) (c : Nat) (x : CoreAux) : (d.setCore c x).nis = d.nis := rfl
@[simp] theorem Dev.setCore_fab (d : Dev) (c : Nat) (x : CoreAux) : (d.setCore c x).fab = d.fab := rfl
@[simp] theorem Dev.setCore_boot (d : Dev) (c : Nat) (x : CoreAux) : (d.setCore c x).boot = d.boot := rfl
@[simp] theorem Dev.setCore_bundles (d : Dev) (c : Nat) (x : CoreAux) : (d.setCore c x).bundles = d.bundles := rfl
@[simp] theorem Dev.setCore_power (d : Dev) (c : Nat) (x : CoreAux) : (d.setCore c x).power = d.power := rfl
@[simp] theorem Dev.setCore_test (d : Dev) (c : Nat) (x : CoreAux) : (d.setCore c x).test = d.test := rfl
@[simp] theorem Dev.setCore_diag (d : Dev) (c : Nat) (x : CoreAux) : (d.setCore c x).diag = d.diag := rfl
@[simp] theorem Dev.setCore_jtag (d : Dev) (c : Nat) (x : CoreAux) : (d.setCore c x).jtag = d.jtag := rfl
@[simp] theorem Dev.setCore_pins (d : Dev) (c : Nat) (x : CoreAux) : (d.setCore c x).pins = d.pins := rfl
@[simp] theorem Dev.setCore_sent (d : Dev) (c : Nat) (x : CoreAux) : (d.setCore c x).sent = d.sent := rfl
@[simp] theorem Dev.setCore_val (d : Dev) (c : Nat) (x : CoreAux) (p1 : ObjDef) (k1 k2 k3 : Nat) : (d.setCore c x).val p1 k1 k2 k3 = d.val p1 k1 k2 k3 := rfl
@[simp] theorem Dev.setCore_nat (d : Dev) (c : Nat) (x : CoreAux) (p1 : ObjDef) (k1 k2 k3 : Nat) : (d.setCore c x).nat p1 k1 k2 k3 = d.nat p1 k1 k2 k3 := rfl

/-! What reads as put. -/

@[simp] theorem Dev.put_val (d : Dev) (o : ObjDef) (v : Val) (a b c : Nat) : (d.put o v a b c).val o a b c = v := by
  simpa [Dev.val, Dev.put, SMap.getD] using SMap.getD_setD_self d.objs (o.key a b c) (o.default a b c) v

/-- An occurrence with another key reads as before. -/
theorem Dev.put_val_ne (d : Dev) (o p : ObjDef) (v : Val) {a b c x y z : Nat} (h : p.key x y z ≠ o.key a b c) :
    (d.put o v a b c).val p x y z = d.val p x y z := by
  simpa [Dev.val, Dev.put, SMap.getD] using SMap.getD_setD_ne d.objs (o.default a b c) v (p.default x y z) h

@[simp] theorem Dev.setNat_nat (d : Dev) (o : ObjDef) (n a b c : Nat) : (d.setNat o n a b c).nat o a b c = n := by
  simp [Dev.nat, Dev.setNat, Val.nat, Val.int]

/-- An occurrence with another key reads as before. -/
theorem Dev.setNat_nat_ne (d : Dev) (o p : ObjDef) (n : Nat) {a b c x y z : Nat} (h : p.key x y z ≠ o.key a b c) :
    (d.setNat o n a b c).nat p x y z = d.nat p x y z := by
  simp [Dev.nat, Dev.setNat, Dev.put_val_ne d o p _ h]

@[simp] theorem Dev.setOct_octs (d : Dev) (o : ObjDef) (l : List Byte) (a b c : Nat) : (d.setOct o l a b c).octs o a b c = l := by
  simp [Dev.octs, Dev.setOct, Val.bytes]

@[simp] theorem Dev.setPort_port (d : Dev) (i : Nat) (p : PortAux) : (d.setPort i p).port i = p := by
  simp [Dev.port, Dev.setPort]

theorem Dev.setPort_port_ne (d : Dev) {i j : Nat} (p : PortAux) (h : j ≠ i) : (d.setPort i p).port j = d.port j := by
  simpa [Dev.port, Dev.setPort] using SMap.getD_setD_ne d.links.ports {} p {} h

@[simp] theorem Dev.setEng_eng (d : Dev) (e : Nat) (x : EngAux) : (d.setEng e x).eng e = x := by
  simp [Dev.eng, Dev.setEng]

theorem Dev.setEng_eng_ne (d : Dev) {e f : Nat} (x : EngAux) (h : f ≠ e) : (d.setEng e x).eng f = d.eng f := by
  simpa [Dev.eng, Dev.setEng] using SMap.getD_setD_ne d.capture.engines {} x {} h

@[simp] theorem Dev.setSpx_spx (d : Dev) (q : Nat) (x : SpxAux) : (d.setSpx q x).spx q = x := by
  simp [Dev.spx, Dev.setSpx]

theorem Dev.setSpx_spx_ne (d : Dev) {q r : Nat} (x : SpxAux) (h : r ≠ q) : (d.setSpx q x).spx r = d.spx r := by
  simpa [Dev.spx, Dev.setSpx] using SMap.getD_setD_ne d.links.spx {} x {} h

@[simp] theorem Dev.setCore_core (d : Dev) (c : Nat) (x : CoreAux) : (d.setCore c x).core c = x := by
  simp [Dev.core, Dev.setCore]

theorem Dev.setCore_core_ne (d : Dev) {c e : Nat} (x : CoreAux) (h : e ≠ c) : (d.setCore c x).core e = d.core e := by
  simpa [Dev.core, Dev.setCore] using SMap.getD_setD_ne d.cores {} x {} h

/-! Counters. -/

/-- Below its last value a counter takes one more. -/
theorem Dev.inc_nat (d : Dev) (o : ObjDef) (a b c : Nat) (h : ((d.nat o a b c + 1 : Nat) : Int) ≤ o.hi) :
    (d.inc o a b c).nat o a b c = d.nat o a b c + 1 := by
  unfold Dev.inc Dev.add
  rw [if_pos h]
  exact Dev.setNat_nat d o _ a b c

/-- An occurrence with another key reads as before. -/
theorem Dev.inc_val_ne (d : Dev) (o p : ObjDef) {a b c x y z : Nat} (h : p.key x y z ≠ o.key a b c) :
    (d.inc o a b c).val p x y z = d.val p x y z := by
  unfold Dev.inc Dev.add
  split
  · exact Dev.put_val_ne d o p _ h
  · exact Dev.put_val_ne d o p _ h

@[simp] theorem Dev.inc_count (d : Dev) (o : ObjDef) (a b c : Nat) : (d.inc o a b c).count = d.count := by unfold Dev.inc Dev.add; split <;> rfl
@[simp] theorem Dev.inc_ns (d : Dev) (o : ObjDef) (a b c : Nat) : (d.inc o a b c).ns = d.ns := by unfold Dev.inc Dev.add; split <;> rfl
@[simp] theorem Dev.inc_inForce (d : Dev) (o : ObjDef) (a b c : Nat) : (d.inc o a b c).inForce = d.inForce := by unfold Dev.inc Dev.add; split <;> rfl
@[simp] theorem Dev.inc_time (d : Dev) (o : ObjDef) (a b c : Nat) : (d.inc o a b c).time = d.time := by unfold Dev.inc Dev.add; split <;> rfl
@[simp] theorem Dev.inc_links (d : Dev) (o : ObjDef) (a b c : Nat) : (d.inc o a b c).links = d.links := by unfold Dev.inc Dev.add; split <;> rfl
@[simp] theorem Dev.inc_capture (d : Dev) (o : ObjDef) (a b c : Nat) : (d.inc o a b c).capture = d.capture := by unfold Dev.inc Dev.add; split <;> rfl
@[simp] theorem Dev.inc_events (d : Dev) (o : ObjDef) (a b c : Nat) : (d.inc o a b c).events = d.events := by unfold Dev.inc Dev.add; split <;> rfl
@[simp] theorem Dev.inc_tx (d : Dev) (o : ObjDef) (a b c : Nat) : (d.inc o a b c).tx = d.tx := by unfold Dev.inc Dev.add; split <;> rfl
@[simp] theorem Dev.inc_mem (d : Dev) (o : ObjDef) (a b c : Nat) : (d.inc o a b c).mem = d.mem := by unfold Dev.inc Dev.add; split <;> rfl
@[simp] theorem Dev.inc_dict (d : Dev) (o : ObjDef) (a b c : Nat) : (d.inc o a b c).dict = d.dict := by unfold Dev.inc Dev.add; split <;> rfl
@[simp] theorem Dev.inc_keep (d : Dev) (o : ObjDef) (a b c : Nat) : (d.inc o a b c).keep = d.keep := by unfold Dev.inc Dev.add; split <;> rfl
@[simp] theorem Dev.inc_cores (d : Dev) (o : ObjDef) (a b c : Nat) : (d.inc o a b c).cores = d.cores := by unfold Dev.inc Dev.add; split <;> rfl
@[simp] theorem Dev.inc_clock (d : Dev) (o : ObjDef) (a b c : Nat) : (d.inc o a b c).clock = d.clock := by unfold Dev.inc Dev.add; split <;> rfl
@[simp] theorem Dev.inc_twin (d : Dev) (o : ObjDef) (a b c : Nat) : (d.inc o a b c).twin = d.twin := by unfold Dev.inc Dev.add; split <;> rfl
@[simp] theorem Dev.inc_store (d : Dev) (o : ObjDef) (a b c : Nat) : (d.inc o a b c).store = d.store := by unfold Dev.inc Dev.add; split <;> rfl
@[simp] theorem Dev.inc_nis (d : Dev) (o : ObjDef) (a b c : Nat) : (d.inc o a b c).nis = d.nis := by unfold Dev.inc Dev.add; split <;> rfl
@[simp] theorem Dev.inc_fab (d : Dev) (o : ObjDef) (a b c : Nat) : (d.inc o a b c).fab = d.fab := by unfold Dev.inc Dev.add; split <;> rfl
@[simp] theorem Dev.inc_boot (d : Dev) (o : ObjDef) (a b c : Nat) : (d.inc o a b c).boot = d.boot := by unfold Dev.inc Dev.add; split <;> rfl
@[simp] theorem Dev.inc_bundles (d : Dev) (o : ObjDef) (a b c : Nat) : (d.inc o a b c).bundles = d.bundles := by unfold Dev.inc Dev.add; split <;> rfl
@[simp] theorem Dev.inc_power (d : Dev) (o : ObjDef) (a b c : Nat) : (d.inc o a b c).power = d.power := by unfold Dev.inc Dev.add; split <;> rfl
@[simp] theorem Dev.inc_test (d : Dev) (o : ObjDef) (a b c : Nat) : (d.inc o a b c).test = d.test := by unfold Dev.inc Dev.add; split <;> rfl
@[simp] theorem Dev.inc_diag (d : Dev) (o : ObjDef) (a b c : Nat) : (d.inc o a b c).diag = d.diag := by unfold Dev.inc Dev.add; split <;> rfl
@[simp] theorem Dev.inc_jtag (d : Dev) (o : ObjDef) (a b c : Nat) : (d.inc o a b c).jtag = d.jtag := by unfold Dev.inc Dev.add; split <;> rfl
@[simp] theorem Dev.inc_pins (d : Dev) (o : ObjDef) (a b c : Nat) : (d.inc o a b c).pins = d.pins := by unfold Dev.inc Dev.add; split <;> rfl
@[simp] theorem Dev.inc_sent (d : Dev) (o : ObjDef) (a b c : Nat) : (d.inc o a b c).sent = d.sent := by unfold Dev.inc Dev.add; split <;> rfl

end Sys2Proof.Machine
end

