-- ==== Sys2Proof/Laws/Keep.lean ====
section
/-! SUPPORT. What each operation of Machine/Keep.lean keeps (`Same` and `Safe` of Laws/Frame.lean). -/

set_option Elab.async false
set_option linter.unusedTactic false
set_option linter.unreachableTactic false

namespace Sys2Proof.Machine

theorem Dev.putPage_same (d : Dev) (avoid : Nat) (k : KeepPage) : Same d (Dev.putPage d avoid k) := by
  unfold Dev.putPage
  repeat' first
    | (with_reducible apply Same.refl)
    | (with_reducible intro _)
    | (with_reducible apply Same.ite)
    | (with_reducible apply Same.pre (Dev.setNat_same ..))
    | (with_reducible apply Same.pre (Dev.drawn_same ..))
    | (with_reducible apply Same.pre (Dev.inc_same ..))
    | simp only [Same.upd]
    | split
    | dsimp only

theorem Dev.eraseBlock_same (d : Dev) (b : Nat) : Same d (Dev.eraseBlock d b) := by
  unfold Dev.eraseBlock
  repeat' first
    | (with_reducible apply Same.refl)
    | (with_reducible intro _)
    | (with_reducible apply Same.ite)
    | (with_reducible apply Same.pre (Dev.peak_same ..))
    | (with_reducible apply Same.pre (Dev.putPage_same ..))
    | (with_reducible apply Same.pre (Same.foldl ?_ _ _))
    | simp only [Same.upd]
    | split
    | dsimp only

theorem Dev.recycle_same (d : Dev) : Same d (Dev.recycle d) := by
  unfold Dev.recycle
  repeat' first
    | (with_reducible apply Same.refl)
    | (with_reducible intro _)
    | (with_reducible apply Same.ite)
    | (with_reducible apply Same.pre (Dev.eraseBlock_same ..))
    | split
    | dsimp only

theorem Dev.wear_same (d : Dev) (page : Nat) : Same d (Dev.wear d page) := by
  unfold Dev.wear
  repeat' first
    | (with_reducible apply Same.refl)
    | (with_reducible intro _)
    | (with_reducible apply Same.ite)
    | (with_reducible apply Same.pre (Dev.setNat_same ..))
    | (with_reducible apply Same.pre (Dev.logNote_same ..))
    | split
    | dsimp only

theorem Dev.writePage_same (d : Dev) (logical : Nat) (whole : Bool) (current : Bool) (group : Nat) (size : Nat) : Same d (Dev.writePage d logical whole current group size) := by
  unfold Dev.writePage
  repeat' first
    | (with_reducible apply Same.refl)
    | (with_reducible intro _)
    | (with_reducible apply Same.ite)
    | (with_reducible apply Same.pre (Dev.putPage_same ..))
    | (with_reducible apply Same.pre (Dev.recycle_same ..))
    | (with_reducible apply Same.pre (Dev.wear_same ..))
    | split
    | dsimp only

theorem Dev.newGroup_same (d : Dev) : Same d (Dev.newGroup d) := by
  unfold Dev.newGroup
  repeat' first
    | (with_reducible apply Same.refl)
    | (with_reducible intro _)
    | (with_reducible apply Same.ite)
    | simp only [Same.upd]
    | split
    | dsimp only

theorem Dev.writeArea_same (d : Dev) (first : Nat) (key : Nat) : Same d (Dev.writeArea d first key) := by
  unfold Dev.writeArea
  repeat' first
    | (with_reducible apply Same.refl)
    | (with_reducible intro _)
    | (with_reducible apply Same.ite)
    | (with_reducible apply Same.pre (Dev.writePage_same ..))
    | (with_reducible apply Same.pre (Dev.newGroup_same ..))
    | split
    | dsimp only

theorem Dev.keepDiag_same (d : Dev) (o : ObjDef) (a : Nat) (b : Nat) (c : Nat) : Same d (Dev.keepDiag d o a b c) := by
  unfold Dev.keepDiag
  repeat' first
    | (with_reducible apply Same.refl)
    | (with_reducible intro _)
    | (with_reducible apply Same.ite)
    | (with_reducible apply Same.pre (Dev.writeArea_same ..))
    | simp only [Same.upd]
    | split
    | dsimp only

theorem Dev.durable_same (d : Dev) (g : KeepGroup) : Same d (Dev.durable d g) := by
  unfold Dev.durable
  repeat' first
    | (with_reducible apply Same.refl)
    | (with_reducible intro _)
    | (with_reducible apply Same.ite)
    | (with_reducible apply Same.pre (Dev.setNat_same ..))
    | (with_reducible apply Same.pre (Same.foldl ?_ _ _))
    | simp only [Same.upd]
    | split
    | dsimp only

theorem groupWriteEffect_same (torn : List Nat) (d : Dev) : Same d (groupWriteEffect torn d) := by
  unfold groupWriteEffect
  repeat' first
    | (with_reducible apply Same.refl)
    | (with_reducible intro _)
    | (with_reducible apply Same.ite)
    | (with_reducible apply Same.pre (Dev.when_same _ _ _ ?_))
    | (with_reducible apply Same.pre (Dev.writePage_same ..))
    | (with_reducible apply Same.pre (Dev.newGroup_same ..))
    | (with_reducible apply Same.pre (Dev.durable_same ..))
    | (with_reducible apply Same.pre (Same.foldl ?_ _ _))
    | simp only [Same.upd]
    | split
    | dsimp only

theorem pageRefreshEffect_same (page : Nat) (margin : Bool) (d : Dev) : Same d (pageRefreshEffect page margin d) := by
  unfold pageRefreshEffect
  repeat' first
    | (with_reducible apply Same.refl)
    | (with_reducible intro _)
    | (with_reducible apply Same.ite)
    | (with_reducible apply Same.pre (Dev.when_same _ _ _ ?_))
    | (with_reducible apply Same.pre (Dev.writePage_same ..))
    | (with_reducible apply Same.pre (Dev.newGroup_same ..))
    | split
    | dsimp only

theorem Dev.reclaimTorn_same (d : Dev) : Same d (Dev.reclaimTorn d) := by
  unfold Dev.reclaimTorn
  repeat' first
    | (with_reducible apply Same.refl)
    | (with_reducible intro _)
    | (with_reducible apply Same.ite)
    | (with_reducible apply Same.pre (Dev.inc_same ..))
    | (with_reducible apply Same.pre (Dev.logNote_same ..))
    | (with_reducible apply Same.pre (Dev.eraseBlock_same ..))
    | (with_reducible apply Same.pre (Same.foldl ?_ _ _))
    | split
    | dsimp only

theorem checkpointIntervalEffect_same (d : Dev) : Same d (checkpointIntervalEffect d) := by
  unfold checkpointIntervalEffect
  repeat' first
    | (with_reducible apply Same.refl)
    | (with_reducible intro _)
    | (with_reducible apply Same.ite)
    | (with_reducible apply Same.pre (Dev.when_same _ _ _ ?_))
    | (with_reducible apply Same.pre (Dev.checkpoint_same ..))
    | split
    | dsimp only

theorem checkpointCountEffect_same (d : Dev) : Same d (checkpointCountEffect d) := by
  unfold checkpointCountEffect
  repeat' first
    | (with_reducible apply Same.refl)
    | (with_reducible intro _)
    | (with_reducible apply Same.ite)
    | (with_reducible apply Same.pre (Dev.when_same _ _ _ ?_))
    | (with_reducible apply Same.pre (Dev.checkpoint_same ..))
    | split
    | dsimp only

/-- A projection that a fold's step keeps, the fold keeps. -/
theorem foldl_keeps {f : Dev → α} {g : Dev → β → Dev} (h : ∀ (d : Dev) (x : β), f (g d x) = f d) (l : List β) (d : Dev) :
    f (l.foldl g d) = f d := by
  induction l generalizing d with
  | nil => rfl
  | cons x l ih => exact (ih (g d x)).trans (h d x)

@[simp] theorem Dev.add_diag (d : Dev) (o : ObjDef) (n a b c : Nat) : (d.add o n a b c).diag = d.diag := by unfold Dev.add; split <;> simp

@[simp] theorem Dev.peak_diag (d : Dev) (o : ObjDef) (n a b c : Nat) : (d.peak o n a b c).diag = d.diag := by unfold Dev.peak; split <;> simp

@[simp] theorem Dev.mirror_diag (d : Dev) (kind status count txn : Nat) (l : List Byte) : (d.mirror kind status count txn l).diag = d.diag := by
  unfold Dev.mirror
  split
  · dsimp only
    exact foldl_keeps (f := Dev.diag) (g := fun (d : Dev) b => d.queueFrame twinPort 1 b) (fun _ _ => rfl) _ _
  · rfl

@[simp] theorem Dev.logEntry_diag (d : Dev) (e : LogEntry) : (d.logEntry e).diag = d.diag := by
  unfold Dev.logEntry
  extract_lets e1 on q g
  split
  · exact Dev.mirror_diag ..
  · rfl

@[simp] theorem Dev.putPage_diag (d : Dev) (avoid : Nat) (k : KeepPage) : (d.putPage avoid k).diag = d.diag := by unfold Dev.putPage; split <;> simp

@[simp] theorem Dev.eraseBlock_diag (d : Dev) (b : Nat) : (d.eraseBlock b).diag = d.diag := by
  simp only [Dev.eraseBlock, Dev.peak_diag]
  exact foldl_keeps (f := Dev.diag) (fun _ _ => Dev.putPage_diag ..) _ _

@[simp] theorem Dev.recycle_diag (d : Dev) : (d.recycle).diag = d.diag := by
  unfold Dev.recycle
  dsimp only
  split
  · rfl
  · split
    · rw [Dev.eraseBlock_diag]
      split <;> simp
    · rfl

@[simp] theorem Dev.wear_diag (d : Dev) (page : Nat) : (d.wear page).diag = d.diag := by unfold Dev.wear; split <;> simp [Dev.logNote]

@[simp] theorem Dev.writeArea_diag (d : Dev) (first key : Nat) : (d.writeArea first key).diag = d.diag := by simp [Dev.writeArea, Dev.writePage, Dev.newGroup]

@[simp] theorem Dev.add_bundles (d : Dev) (o : ObjDef) (n a b c : Nat) : (d.add o n a b c).bundles = d.bundles := by unfold Dev.add; split <;> simp

@[simp] theorem Dev.peak_bundles (d : Dev) (o : ObjDef) (n a b c : Nat) : (d.peak o n a b c).bundles = d.bundles := by unfold Dev.peak; split <;> simp

@[simp] theorem Dev.mirror_bundles (d : Dev) (kind status count txn : Nat) (l : List Byte) : (d.mirror kind status count txn l).bundles = d.bundles := by
  unfold Dev.mirror
  split
  · dsimp only
    exact foldl_keeps (f := Dev.bundles) (g := fun (d : Dev) b => d.queueFrame twinPort 1 b) (fun _ _ => rfl) _ _
  · rfl

@[simp] theorem Dev.logEntry_bundles (d : Dev) (e : LogEntry) : (d.logEntry e).bundles = d.bundles := by
  unfold Dev.logEntry
  extract_lets e1 on q g
  split
  · exact Dev.mirror_bundles ..
  · rfl

@[simp] theorem Dev.putPage_bundles (d : Dev) (avoid : Nat) (k : KeepPage) : (d.putPage avoid k).bundles = d.bundles := by unfold Dev.putPage; split <;> simp

@[simp] theorem Dev.eraseBlock_bundles (d : Dev) (b : Nat) : (d.eraseBlock b).bundles = d.bundles := by
  simp only [Dev.eraseBlock, Dev.peak_bundles]
  exact foldl_keeps (f := Dev.bundles) (fun _ _ => Dev.putPage_bundles ..) _ _

@[simp] theorem Dev.recycle_bundles (d : Dev) : (d.recycle).bundles = d.bundles := by
  unfold Dev.recycle
  dsimp only
  split
  · rfl
  · split
    · rw [Dev.eraseBlock_bundles]
      split <;> simp
    · rfl

@[simp] theorem Dev.wear_bundles (d : Dev) (page : Nat) : (d.wear page).bundles = d.bundles := by unfold Dev.wear; split <;> simp [Dev.logNote]

@[simp] theorem Dev.writeArea_bundles (d : Dev) (first key : Nat) : (d.writeArea first key).bundles = d.bundles := by simp [Dev.writeArea, Dev.writePage, Dev.newGroup]

end Sys2Proof.Machine
end

