-- ==== Sys2Proof/Laws/Lookup.lean ====
section
/-! SUPPORT. What each operation of Machine/Lookup.lean keeps (`Same` and `Safe` of Laws/Frame.lean). -/

set_option Elab.async false
set_option linter.unusedTactic false
set_option linter.unreachableTactic false

namespace Sys2Proof.Machine

theorem Dev.storeVal_same (d : Dev) (x : Occurrence) (v : Val) : Same d (Dev.storeVal d x v) := by
  unfold Dev.storeVal
  repeat' first
    | (with_reducible apply Same.refl)
    | (with_reducible intro _)
    | (with_reducible apply Same.ite)
    | (with_reducible apply Same.pre (Dev.put_same ..))
    | split
    | dsimp only

end Sys2Proof.Machine
end

