-- ==== Sys2Proof/Laws/Boot.lean ====
section
/-! SUPPORT. What each operation of Machine/Boot.lean keeps (`Same` and `Safe` of Laws/Frame.lean). -/

set_option Elab.async false
set_option linter.unusedTactic false
set_option linter.unreachableTactic false

namespace Sys2Proof.Machine

theorem Dev.resetGroups_same (d : Dev) : Same d (Dev.resetGroups d) := by
  unfold Dev.resetGroups
  repeat' first
    | (with_reducible apply Same.refl)
    | (with_reducible intro _)
    | (with_reducible apply Same.ite)
    | (with_reducible apply Same.pre (Dev.drawn_same ..))
    | (with_reducible apply Same.pre (groupWriteEffect_same ..))
    | (with_reducible apply Same.pre (Same.foldl ?_ _ _))
    | simp only [Same.upd]
    | split
    | dsimp only

theorem Dev.deviceReset_safe (d : Dev) (cause pins : Nat) : Safe d (Dev.deviceReset d cause pins) := by
  unfold Dev.deviceReset
  extract_lets hot d1 mode on objs kp jt n0 n1 reset n2 n3 n4 n5
  have h0 : Safe d n0 :=
    Safe.trans (Dev.resetGroups_same d).safe
      ⟨fun _ => (rfl : Memory.wf [] = true), fun _ => Nat.two_pow_pos 64, rfl, Nat.le_refl _, SMap.sorted_filter _ _⟩
  clear_value n0
  have h1 : Safe n0 n1 := by
    refine Safe.ite (Safe.foldl ?_ _ _) (Safe.refl _)
    intro a k
    refine ⟨id, id, rfl, Nat.le_refl _, ?_⟩
    intro w
    show SMap.sorted (match SMap.find d1.diag.vals k with
      | some v => SMap.ins a.objs k v
      | none => SMap.del a.objs k) = true
    split
    · exact SMap.sorted_ins _ _ _ w
    · exact SMap.sorted_filter _ _ w
  clear_value n1
  have h2 : Safe n1 n2 := ⟨id, id, rfl, Nat.le_refl _, id⟩
  clear_value n2
  have h3 : Safe n2 n3 := (Dev.setNat_same ..).safe
  have h4 : Safe n3 n4 := (Dev.setNat_same ..).safe
  have h5 : Safe n4 n5 := ((Dev.setNat_same ..).trans (Dev.setNat_same ..)).safe
  have h := h0.trans (h1.trans (h2.trans (h3.trans (h4.trans h5))))
  clear_value n5
  exact Safe.ite h (h.trans (Dev.setNat_same ..).safe)

theorem deviceResetEffect_safe (cause : Nat) (pins : Nat) (d : Dev) : Safe d (deviceResetEffect cause pins d) := by
  unfold deviceResetEffect
  repeat' first
    | (with_reducible apply Safe.refl)
    | (with_reducible intro _)
    | (with_reducible apply Safe.ite)
    | (with_reducible apply Safe.pre (Dev.when_safe _ _ _ ?_))
    | (with_reducible apply Safe.pre (Dev.deviceReset_safe ..))
    | split
    | dsimp only

theorem programPinEffect_safe (pins : Nat) (low : Bool) (d : Dev) : Safe d (programPinEffect pins low d) := by
  unfold programPinEffect
  repeat' first
    | (with_reducible apply Safe.refl)
    | (with_reducible intro _)
    | (with_reducible apply Safe.ite)
    | (with_reducible apply Safe.pre (Dev.when_safe _ _ _ ?_))
    | (with_reducible apply Safe.pre (Dev.setNat_same ..).safe)
    | (with_reducible apply Safe.pre (Dev.deviceReset_safe ..))
    | simp only [Safe.upd]
    | split
    | dsimp only

theorem powerGoodEffect_safe (pins : Nat) (d : Dev) : Safe d (powerGoodEffect pins d) := by
  unfold powerGoodEffect
  repeat' first
    | (with_reducible apply Safe.refl)
    | (with_reducible intro _)
    | (with_reducible apply Safe.ite)
    | (with_reducible apply Safe.pre (Dev.deviceReset_safe ..))
    | split
    | dsimp only

theorem Dev.bootFault_same (d : Dev) (fault : Nat) : Same d (Dev.bootFault d fault) := by
  unfold Dev.bootFault
  repeat' first
    | (with_reducible apply Same.refl)
    | (with_reducible intro _)
    | (with_reducible apply Same.ite)
    | (with_reducible apply Same.pre (Dev.setNat_same ..))
    | split
    | dsimp only

theorem Dev.loadBegin_same (d : Dev) (source : Nat) : Same d (Dev.loadBegin d source) := by
  unfold Dev.loadBegin
  repeat' first
    | (with_reducible apply Same.refl)
    | (with_reducible intro _)
    | (with_reducible apply Same.ite)
    | (with_reducible apply Same.pre (Dev.setNat_same ..))
    | simp only [Same.upd]
    | split
    | dsimp only

theorem Dev.loadFail_same (d : Dev) (fault : Nat) : Same d (Dev.loadFail d fault) := by
  unfold Dev.loadFail
  repeat' first
    | (with_reducible apply Same.refl)
    | (with_reducible intro _)
    | (with_reducible apply Same.ite)
    | (with_reducible apply Same.pre (Dev.setNat_same ..))
    | (with_reducible apply Same.pre (Dev.inc_same ..))
    | (with_reducible apply Same.pre (Dev.occur_same ..))
    | (with_reducible apply Same.pre (Dev.bootFault_same ..))
    | (with_reducible apply Same.pre (Dev.loadBegin_same ..))
    | simp only [Same.upd]
    | split
    | dsimp only

theorem Dev.bootGo_same (d : Dev) : Same d (Dev.bootGo d) := by
  unfold Dev.bootGo
  repeat' first
    | (with_reducible apply Same.refl)
    | (with_reducible intro _)
    | (with_reducible apply Same.ite)
    | (with_reducible apply Same.pre (Dev.setNat_same ..))
    | (with_reducible apply Same.pre (Dev.drawn_same ..))
    | (with_reducible apply Same.pre (Dev.loadBegin_same ..))
    | (with_reducible apply Same.pre (Same.foldl ?_ _ _))
    | split
    | dsimp only

theorem loadStartEffect_same (d : Dev) : Same d (loadStartEffect d) := by
  unfold loadStartEffect
  repeat' first
    | (with_reducible apply Same.refl)
    | (with_reducible intro _)
    | (with_reducible apply Same.ite)
    | (with_reducible apply Same.pre (Dev.when_same _ _ _ ?_))
    | (with_reducible apply Same.pre (Dev.loadBegin_same ..))
    | split
    | dsimp only

theorem loadAbortEffect_same (d : Dev) : Same d (loadAbortEffect d) := by
  unfold loadAbortEffect
  repeat' first
    | (with_reducible apply Same.refl)
    | (with_reducible intro _)
    | (with_reducible apply Same.ite)
    | (with_reducible apply Same.pre (Dev.when_same _ _ _ ?_))
    | (with_reducible apply Same.pre (Dev.loadFail_same ..))
    | split
    | dsimp only

theorem apertureEffect_same (bytes : Nat) (d : Dev) : Same d (apertureEffect bytes d) := by
  unfold apertureEffect
  repeat' first
    | (with_reducible apply Same.refl)
    | (with_reducible intro _)
    | (with_reducible apply Same.ite)
    | (with_reducible apply Same.pre (Dev.when_same _ _ _ ?_))
    | (with_reducible apply Same.pre (Dev.loadFail_same ..))
    | simp only [Same.upd]
    | split
    | dsimp only

theorem Dev.sections_same (d : Dev) (h : List Byte) (x0 : Nat) : Same d (Dev.sections d h x0) := by
  induction x0 generalizing d h with
  | zero => exact Same.refl _
  | succ n ih =>
    unfold Dev.sections
    repeat' first
      | (with_reducible apply Same.refl)
      | (with_reducible intro _)
      | (with_reducible apply Same.pre (ih ..))
      | (with_reducible apply Same.ite)
      | (with_reducible apply Same.pre (Dev.loadFail_same ..))
      | simp only [Same.upd]
      | split
      | dsimp only

theorem Dev.nativeData_same (d : Dev) (h : List Byte) (l : List Byte) : Same d (Dev.nativeData d h l) := by
  unfold Dev.nativeData
  repeat' first
    | (with_reducible apply Same.refl)
    | (with_reducible intro _)
    | (with_reducible apply Same.ite)
    | (with_reducible apply Same.pre (Dev.sections_same ..))
    | simp only [Same.upd]
    | split
    | dsimp only

theorem Dev.ek7Block_same (d : Dev) (h : List Byte) (blk : List Byte) (last : Bool) : Same d (Dev.ek7Block d h blk last) := by
  unfold Dev.ek7Block
  repeat' first
    | (with_reducible apply Same.refl)
    | (with_reducible intro _)
    | (with_reducible apply Same.ite)
    | (with_reducible apply Same.pre (Dev.loadFail_same ..))
    | (with_reducible apply Same.pre (Dev.sections_same ..))
    | simp only [Same.upd]
    | split
    | dsimp only

theorem Dev.ek7Data_same (d : Dev) (h : List Byte) (x0 : Nat) : Same d (Dev.ek7Data d h x0) := by
  induction x0 generalizing d h with
  | zero => exact Same.refl _
  | succ n ih =>
    unfold Dev.ek7Data
    repeat' first
      | (with_reducible apply Same.refl)
      | (with_reducible intro _)
      | (with_reducible apply Same.pre (ih ..))
      | (with_reducible apply Same.ite)
      | (with_reducible apply Same.pre (Dev.ek7Block_same ..))
      | simp only [Same.upd]
      | split
      | dsimp only

theorem Dev.fixModes_same (d : Dev) : Same d (Dev.fixModes d) := by
  unfold Dev.fixModes
  repeat' first
    | (with_reducible apply Same.refl)
    | (with_reducible intro _)
    | (with_reducible apply Same.ite)
    | (with_reducible apply Same.pre (Dev.setNat_same ..))
    | (with_reducible apply Same.pre (Same.foldl ?_ _ _))
    | split
    | dsimp only

theorem Dev.applyCfg_same (d : Dev) (h : List Byte) (cfg : StreamCfg) : Same d (Dev.applyCfg d h cfg) := by
  unfold Dev.applyCfg
  repeat' first
    | (with_reducible apply Same.refl)
    | (with_reducible intro _)
    | (with_reducible apply Same.ite)
    | (with_reducible apply Same.pre (Dev.setNat_same ..))
    | (with_reducible apply Same.pre (Dev.fixModes_same ..))
    | (with_reducible apply Same.pre (Same.foldl ?_ _ _))
    | simp only [Same.upd]
    | split
    | dsimp only

theorem Dev.startStream_same (d : Dev) (h : List Byte) (cfg : StreamCfg) : Same d (Dev.startStream d h cfg) := by
  unfold Dev.startStream
  repeat' first
    | (with_reducible apply Same.refl)
    | (with_reducible intro _)
    | (with_reducible apply Same.ite)
    | (with_reducible apply Same.pre (Dev.setNat_same ..))
    | (with_reducible apply Same.pre (Dev.setOct_same ..))
    | (with_reducible apply Same.pre (Same.foldl ?_ _ _))
    | simp only [Same.upd]
    | split
    | dsimp only

theorem Dev.verifyStream_same (d : Dev) (h : List Byte) (cfg : StreamCfg) : Same d (Dev.verifyStream d h cfg) := by
  unfold Dev.verifyStream
  repeat' first
    | (with_reducible apply Same.refl)
    | (with_reducible intro _)
    | (with_reducible apply Same.ite)
    | (with_reducible apply Same.pre (Dev.setNat_same ..))
    | (with_reducible apply Same.pre (Dev.loadFail_same ..))
    | (with_reducible apply Same.pre (Dev.applyCfg_same ..))
    | (with_reducible apply Same.pre (Dev.startStream_same ..))
    | split
    | dsimp only

theorem streamEffect_same (part : StreamPart) (d : Dev) : Same d (streamEffect part d) := by
  unfold streamEffect
  repeat' first
    | (with_reducible apply Same.refl)
    | (with_reducible intro _)
    | (with_reducible apply Same.ite)
    | (with_reducible apply Same.pre (Dev.when_same _ _ _ ?_))
    | (with_reducible apply Same.pre (Dev.loadFail_same ..))
    | (with_reducible apply Same.pre (Dev.nativeData_same ..))
    | (with_reducible apply Same.pre (Dev.ek7Block_same ..))
    | (with_reducible apply Same.pre (Dev.ek7Data_same ..))
    | (with_reducible apply Same.pre (Dev.verifyStream_same ..))
    | simp only [Same.upd]
    | split
    | dsimp only

theorem streamTimeoutEffect_same (d : Dev) : Same d (streamTimeoutEffect d) := by
  unfold streamTimeoutEffect
  repeat' first
    | (with_reducible apply Same.refl)
    | (with_reducible intro _)
    | (with_reducible apply Same.ite)
    | (with_reducible apply Same.pre (Dev.when_same _ _ _ ?_))
    | (with_reducible apply Same.pre (Dev.loadFail_same ..))
    | split
    | dsimp only

theorem startupEffect_same (d : Dev) : Same d (startupEffect d) := by
  unfold startupEffect
  repeat' first
    | (with_reducible apply Same.refl)
    | (with_reducible intro _)
    | (with_reducible apply Same.ite)
    | (with_reducible apply Same.pre (Dev.when_same _ _ _ ?_))
    | (with_reducible apply Same.pre (Dev.setReset_same ..))
    | (with_reducible apply Same.pre (Dev.setSram_same ..))
    | (with_reducible apply Same.pre (Same.foldl ?_ _ _))
    | simp only [Same.upd]
    | split
    | dsimp only

theorem pllWaitEffect_same (d : Dev) : Same d (pllWaitEffect d) := by
  unfold pllWaitEffect
  repeat' first
    | (with_reducible apply Same.refl)
    | (with_reducible intro _)
    | (with_reducible apply Same.ite)
    | (with_reducible apply Same.pre (Dev.when_same _ _ _ ?_))
    | (with_reducible apply Same.pre (Dev.occur_same ..))
    | (with_reducible apply Same.pre (Dev.loadFail_same ..))
    | simp only [Same.upd]
    | split
    | dsimp only

theorem bootCompleteEffect_same (d : Dev) : Same d (bootCompleteEffect d) := by
  unfold bootCompleteEffect
  repeat' first
    | (with_reducible apply Same.refl)
    | (with_reducible intro _)
    | (with_reducible apply Same.ite)
    | (with_reducible apply Same.pre (Dev.when_same _ _ _ ?_))
    | (with_reducible apply Same.pre (Dev.setNat_same ..))
    | (with_reducible apply Same.pre (Dev.sendFill_same ..))
    | (with_reducible apply Same.pre (Dev.recheckQuad_same ..))
    | (with_reducible apply Same.pre (Dev.assignPll_same ..))
    | (with_reducible apply Same.pre (Dev.spxEnabled_same ..))
    | (with_reducible apply Same.pre (Same.foldl ?_ _ _))
    | simp only [Same.upd]
    | split
    | dsimp only

theorem entropyStartEffect_same (ok : Bool) (d : Dev) : Same d (entropyStartEffect ok d) := by
  unfold entropyStartEffect
  repeat' first
    | (with_reducible apply Same.refl)
    | (with_reducible intro _)
    | (with_reducible apply Same.ite)
    | (with_reducible apply Same.pre (Dev.when_same _ _ _ ?_))
    | (with_reducible apply Same.pre (Dev.setNat_same ..))
    | (with_reducible apply Same.pre (Dev.drawn_same ..))
    | (with_reducible apply Same.pre (Dev.inc_same ..))
    | (with_reducible apply Same.pre (Dev.bootFault_same ..))
    | (with_reducible apply Same.pre (Dev.bootGo_same ..))
    | simp only [Same.upd]
    | split
    | dsimp only

theorem firmwareEffect_same (ok0 : Bool) (ok1 : Bool) (v0 : Nat) (v1 : Nat) (d : Dev) : Same d (firmwareEffect ok0 ok1 v0 v1 d) := by
  unfold firmwareEffect
  repeat' first
    | (with_reducible apply Same.refl)
    | (with_reducible intro _)
    | (with_reducible apply Same.ite)
    | (with_reducible apply Same.pre (Dev.when_same _ _ _ ?_))
    | (with_reducible apply Same.pre (Dev.setNat_same ..))
    | (with_reducible apply Same.pre (Dev.drawn_same ..))
    | (with_reducible apply Same.pre (Dev.inc_same ..))
    | (with_reducible apply Same.pre (Dev.bootFault_same ..))
    | (with_reducible apply Same.pre (Same.foldl ?_ _ _))
    | simp only [Same.upd]
    | split
    | dsimp only

theorem Dev.keysValid_same (d : Dev) : Same d (Dev.keysValid d) := by
  unfold Dev.keysValid
  repeat' first
    | (with_reducible apply Same.refl)
    | (with_reducible intro _)
    | (with_reducible apply Same.ite)
    | (with_reducible apply Same.pre (Dev.setNat_same ..))
    | (with_reducible apply Same.pre (Same.foldl ?_ _ _))
    | split
    | dsimp only

theorem Dev.restoreVal_same (d : Dev) (key : Nat) (v : Val) : Same d (Dev.restoreVal d key v) := by
  unfold Dev.restoreVal
  repeat' first
    | (with_reducible apply Same.refl)
    | (with_reducible intro _)
    | (with_reducible apply Same.ite)
    | (with_reducible apply Same.pre (Dev.storeVal_same ..))
    | simp only [Same.upd]
    | split
    | dsimp only

theorem Dev.sealFail_same (d : Dev) (index : Nat) (sub : Nat) : Same d (Dev.sealFail d index sub) := by
  unfold Dev.sealFail
  repeat' first
    | (with_reducible apply Same.refl)
    | (with_reducible intro _)
    | (with_reducible apply Same.ite)
    | (with_reducible apply Same.pre (Dev.logNote_same ..))
    | (with_reducible apply Same.pre (Dev.occur_same ..))
    | (with_reducible apply Same.pre (Dev.storeVal_same ..))
    | split
    | dsimp only

theorem Dev.restoreLog_same (d : Dev) : Same d (Dev.restoreLog d) := by
  unfold Dev.restoreLog
  repeat' first
    | (with_reducible apply Same.refl)
    | (with_reducible intro _)
    | (with_reducible apply Same.ite)
    | (with_reducible apply Same.pre (Dev.setNat_same ..))
    | (with_reducible apply Same.pre (Dev.logNote_same ..))
    | simp only [Same.upd]
    | split
    | dsimp only

theorem restoreEffect_same (badSeal : List (Nat × Nat)) (d : Dev) : Same d (restoreEffect badSeal d) := by
  unfold restoreEffect
  repeat' first
    | (with_reducible apply Same.refl)
    | (with_reducible intro _)
    | (with_reducible apply Same.ite)
    | (with_reducible apply Same.pre (Dev.when_same _ _ _ ?_))
    | (with_reducible apply Same.pre (Dev.setNat_same ..))
    | (with_reducible apply Same.pre (Dev.reclaimTorn_same ..))
    | (with_reducible apply Same.pre (Dev.bootGo_same ..))
    | (with_reducible apply Same.pre (Dev.keysValid_same ..))
    | (with_reducible apply Same.pre (Dev.restoreVal_same ..))
    | (with_reducible apply Same.pre (Dev.sealFail_same ..))
    | (with_reducible apply Same.pre (Dev.restoreLog_same ..))
    | (with_reducible apply Same.pre (Same.foldl ?_ _ _))
    | simp only [Same.upd]
    | split
    | dsimp only

theorem readbackEffect_safe (frame : Nat) (find : FrameFind) (last : Bool) (pins : Nat) (d : Dev) : Safe d (readbackEffect frame find last pins d) := by
  unfold readbackEffect
  repeat' first
    | (with_reducible apply Safe.refl)
    | (with_reducible intro _)
    | (with_reducible apply Safe.ite)
    | (with_reducible apply Safe.pre (Dev.when_safe _ _ _ ?_))
    | (with_reducible apply Safe.pre (Dev.setNat_same ..).safe)
    | (with_reducible apply Safe.pre (Dev.inc_same ..).safe)
    | (with_reducible apply Safe.pre (Dev.occur_same ..).safe)
    | (with_reducible apply Safe.pre (Dev.deviceReset_safe ..))
    | split
    | dsimp only

theorem watchdogEffect_safe (pins : Nat) (d : Dev) : Safe d (watchdogEffect pins d) := by
  unfold watchdogEffect
  repeat' first
    | (with_reducible apply Safe.refl)
    | (with_reducible intro _)
    | (with_reducible apply Safe.ite)
    | (with_reducible apply Safe.pre (Dev.when_safe _ _ _ ?_))
    | (with_reducible apply Safe.pre (Dev.deviceReset_safe ..))
    | split
    | dsimp only

theorem reconfigureDelayEffect_safe (pins : Nat) (d : Dev) : Safe d (reconfigureDelayEffect pins d) := by
  unfold reconfigureDelayEffect
  repeat' first
    | (with_reducible apply Safe.refl)
    | (with_reducible intro _)
    | (with_reducible apply Safe.ite)
    | (with_reducible apply Safe.pre (Dev.when_safe _ _ _ ?_))
    | (with_reducible apply Safe.pre (Dev.deviceReset_safe ..))
    | split
    | dsimp only

theorem Dev.keyCheck_same (d : Dev) : Same d (Dev.keyCheck d) := by
  unfold Dev.keyCheck
  repeat' first
    | (with_reducible apply Same.refl)
    | (with_reducible intro _)
    | (with_reducible apply Same.ite)
    | (with_reducible apply Same.pre (Dev.setOct_same ..))
    | split
    | dsimp only

theorem Dev.burn_same (d : Dev) (key : Nat) (v : Val) : Same d (Dev.burn d key v) := by
  unfold Dev.burn
  repeat' first
    | (with_reducible apply Same.refl)
    | (with_reducible intro _)
    | (with_reducible apply Same.ite)
    | (with_reducible apply Same.pre (Dev.setNat_same ..))
    | simp only [Same.upd]
    | split
    | dsimp only

theorem Dev.burnt_same (d : Dev) (x : Staged) : Same d (Dev.burnt d x) := by
  unfold Dev.burnt
  repeat' first
    | (with_reducible apply Same.refl)
    | (with_reducible intro _)
    | (with_reducible apply Same.ite)
    | (with_reducible apply Same.pre (Dev.setNat_same ..))
    | (with_reducible apply Same.pre (Dev.storeVal_same ..))
    | split
    | dsimp only

theorem fuseBurnEffect_same (ok : Bool) (d : Dev) : Same d (fuseBurnEffect ok d) := by
  unfold fuseBurnEffect
  repeat' first
    | (with_reducible apply Same.refl)
    | (with_reducible intro _)
    | (with_reducible apply Same.ite)
    | (with_reducible apply Same.pre (Dev.when_same _ _ _ ?_))
    | (with_reducible apply Same.pre (Dev.setNat_same ..))
    | (with_reducible apply Same.pre (Dev.keyCheck_same ..))
    | (with_reducible apply Same.pre (Dev.burnt_same ..))
    | (with_reducible apply Same.pre (Same.foldl ?_ _ _))
    | simp only [Same.upd]
    | split
    | dsimp only

theorem vbatEffect_same (d : Dev) : Same d (vbatEffect d) := by
  unfold vbatEffect
  repeat' first
    | (with_reducible apply Same.refl)
    | (with_reducible intro _)
    | (with_reducible apply Same.ite)
    | (with_reducible apply Same.pre (Dev.setNat_same ..))
    | (with_reducible apply Same.pre (Dev.setOct_same ..))
    | (with_reducible apply Same.pre (Dev.keyCheck_same ..))
    | split
    | dsimp only

theorem entropyFailEffect_same (d : Dev) : Same d (entropyFailEffect d) := by
  unfold entropyFailEffect
  repeat' first
    | (with_reducible apply Same.refl)
    | (with_reducible intro _)
    | (with_reducible apply Same.ite)
    | (with_reducible apply Same.pre (Dev.setNat_same ..))
    | (with_reducible apply Same.pre (Dev.inc_same ..))
    | (with_reducible apply Same.pre (Dev.occur_same ..))
    | split
    | dsimp only

theorem entropyPassEffect_same (d : Dev) : Same d (entropyPassEffect d) := by
  unfold entropyPassEffect
  repeat' first
    | (with_reducible apply Same.refl)
    | (with_reducible intro _)
    | (with_reducible apply Same.ite)
    | (with_reducible apply Same.pre (Dev.eachPort_same _ _ _ ?_))
    | (with_reducible apply Same.pre (Dev.setNat_same ..))
    | (with_reducible apply Same.pre (Dev.linkNonce_same ..))
    | (with_reducible apply Same.pre (Same.foldl ?_ _ _))
    | split
    | dsimp only

theorem perstAssertEffect_same (d : Dev) : Same d (perstAssertEffect d) := by
  unfold perstAssertEffect
  repeat' first
    | (with_reducible apply Same.refl)
    | (with_reducible intro _)
    | (with_reducible apply Same.ite)
    | (with_reducible apply Same.pre (Dev.when_same _ _ _ ?_))
    | (with_reducible apply Same.pre (Dev.dropMailboxes_same ..))
    | (with_reducible apply Same.pre (Dev.pcieDown_same ..))
    | simp only [Same.upd]
    | split
    | dsimp only

theorem perstDeassertEffect_same (d : Dev) : Same d (perstDeassertEffect d) := by
  unfold perstDeassertEffect
  repeat' first
    | (with_reducible apply Same.refl)
    | (with_reducible intro _)
    | (with_reducible apply Same.ite)
    | simp only [Same.upd]
    | split
    | dsimp only

theorem perstReleaseEffect_same (q : Nat) (d : Dev) : Same d (perstReleaseEffect q d) := by
  unfold perstReleaseEffect
  repeat' first
    | (with_reducible apply Same.refl)
    | (with_reducible intro _)
    | (with_reducible apply Same.ite)
    | (with_reducible apply Same.pre (Dev.when_same _ _ _ ?_))
    | (with_reducible apply Same.pre (Dev.send_same ..))
    | simp only [Same.upd]
    | split
    | dsimp only

theorem Dev.absent_same (d : Dev) (ch : Nat) : Same d (Dev.absent d ch) := by
  unfold Dev.absent
  repeat' first
    | (with_reducible apply Same.refl)
    | (with_reducible intro _)
    | (with_reducible apply Same.ite)
    | (with_reducible apply Same.pre (Dev.setCh_same ..))
    | (with_reducible apply Same.pre (Dev.setChan_same ..))
    | split
    | dsimp only

theorem dramTrainingEffect_same (ok : List (Fin 136)) (dimms : List DimmSet) (d : Dev) : Same d (dramTrainingEffect ok dimms d) := by
  unfold dramTrainingEffect
  repeat' first
    | (with_reducible apply Same.refl)
    | (with_reducible intro _)
    | (with_reducible apply Same.ite)
    | (with_reducible apply Same.pre (Dev.when_same _ _ _ ?_))
    | (with_reducible apply Same.pre (Dev.setNat_same ..))
    | (with_reducible apply Same.pre (Dev.occur_same ..))
    | (with_reducible apply Same.pre (Dev.setCh_same ..))
    | (with_reducible apply Same.pre (Dev.setChan_same ..))
    | (with_reducible apply Same.pre (Dev.absent_same ..))
    | (with_reducible apply Same.pre (Same.foldl ?_ _ _))
    | simp only [Same.upd]
    | split
    | dsimp only

end Sys2Proof.Machine
end

