-- ==== Sys2Proof/Laws/Duaxis.lean ====
section
/-! SUPPORT. What each operation of Machine/Duaxis.lean keeps (`Same` and `Safe` of Laws/Frame.lean). -/

set_option Elab.async false
set_option linter.unusedTactic false
set_option linter.unreachableTactic false

namespace Sys2Proof.Machine

theorem Dev.setBundle_same (d : Dev) (key : Nat) (x : Bundle) : Same d (Dev.setBundle d key x) := by
  unfold Dev.setBundle
  repeat' first
    | (with_reducible apply Same.refl)
    | (with_reducible intro _)
    | (with_reducible apply Same.ite)
    | simp only [Same.upd]
    | split
    | dsimp only

theorem Dev.suspect_same (d : Dev) (key : Nat) (w : Nat) : Same d (Dev.suspect d key w) := by
  unfold Dev.suspect
  repeat' first
    | (with_reducible apply Same.refl)
    | (with_reducible intro _)
    | (with_reducible apply Same.ite)
    | (with_reducible apply Same.pre (Dev.writeArea_same ..))
    | simp only [Same.upd]
    | split
    | dsimp only

theorem frameErrorEffect_same (edge : Nat) (dir : Nat) (b : Nat) (wire : Option (Fin 34)) (both : Bool) (d : Dev) : Same d (frameErrorEffect edge dir b wire both d) := by
  unfold frameErrorEffect
  repeat' first
    | (with_reducible apply Same.refl)
    | (with_reducible intro _)
    | (with_reducible apply Same.ite)
    | (with_reducible apply Same.pre (Dev.when_same _ _ _ ?_))
    | (with_reducible apply Same.pre (Dev.occur_same ..))
    | (with_reducible apply Same.pre (Dev.crossError_same ..))
    | (with_reducible apply Same.pre (Dev.corrected_same ..))
    | (with_reducible apply Same.pre (Dev.setBundle_same ..))
    | (with_reducible apply Same.pre (Dev.suspect_same ..))
    | simp only [Same.upd]
    | split
    | dsimp only

theorem Dev.trainBundle_same (d : Dev) (errs : List WireName) (fuses : List WireName) (key : Nat) : Same d (Dev.trainBundle d errs fuses key) := by
  unfold Dev.trainBundle
  repeat' first
    | (with_reducible apply Same.refl)
    | (with_reducible intro _)
    | (with_reducible apply Same.ite)
    | (with_reducible apply Same.pre (Dev.occur_same ..))
    | (with_reducible apply Same.pre (Dev.setBundle_same ..))
    | simp only [Same.upd]
    | split
    | dsimp only

theorem duaxisTrainingEffect_same (errs : List WireName) (fuses : List WireName) (d : Dev) : Same d (duaxisTrainingEffect errs fuses d) := by
  unfold duaxisTrainingEffect
  repeat' first
    | (with_reducible apply Same.refl)
    | (with_reducible intro _)
    | (with_reducible apply Same.ite)
    | (with_reducible apply Same.pre (Dev.when_same _ _ _ ?_))
    | (with_reducible apply Same.pre (Dev.bootFault_same ..))
    | (with_reducible apply Same.pre (Dev.bootGo_same ..))
    | (with_reducible apply Same.pre (Dev.trainBundle_same ..))
    | (with_reducible apply Same.pre (Same.foldl ?_ _ _))
    | simp only [Same.upd]
    | split
    | dsimp only

theorem Dev.clearSuspects_same (d : Dev) (key : Nat) : Same d (Dev.clearSuspects d key) := by
  unfold Dev.clearSuspects
  repeat' first
    | (with_reducible apply Same.refl)
    | (with_reducible intro _)
    | (with_reducible apply Same.ite)
    | (with_reducible apply Same.pre (Dev.writeArea_same ..))
    | (with_reducible apply Same.pre (Dev.suspect_same ..))
    | simp only [Same.upd]
    | split
    | dsimp only

/-- The SUSPECT marks after a wire has become SUSPECT. -/
theorem Dev.suspect_diag (d : Dev) (k w : Nat) : (d.suspect k w).diag.suspect =
    if bitOf (d.suspects k) w then d.diag.suspect else SMap.setD d.diag.suspect k 0 (Nat.lor (d.suspects k) (2 ^ w)) := by
  unfold Dev.suspect
  dsimp only
  split <;> simp

/-- A wire that becomes SUSPECT leaves the bundles. -/
@[simp] theorem Dev.suspect_bundles (d : Dev) (k w : Nat) : (d.suspect k w).bundles = d.bundles := by
  unfold Dev.suspect
  dsimp only
  split <;> simp

end Sys2Proof.Machine
end

