-- ==== Sys2Proof/Laws/Capture.lean ====
section
/-! SUPPORT. What each operation of Machine/Capture.lean keeps (`Same` and `Safe` of Laws/Frame.lean). -/

set_option Elab.async false
set_option linter.unusedTactic false
set_option linter.unreachableTactic false

namespace Sys2Proof.Machine

theorem Dev.breakFolds_same (d : Dev) (q : Nat) (p : Nat) (kind : Nat) (lane : Nat) : Same d (Dev.breakFolds d q p kind lane).2 := by
  unfold Dev.breakFolds
  repeat' first
    | (with_reducible apply Same.refl)
    | (with_reducible intro _)
    | (with_reducible apply Same.ite)
    | (with_reducible apply Same.pre (Dev.updPort_same ..))
    | (with_reducible apply Same.pre (Dev.closeFold_same ..))
    | (with_reducible apply Same.pre (Same.foldl ?_ _ _))
    | simp only [Same.upd]
    | split
    | dsimp only

theorem Dev.foldUnit_same (d : Dev) (q : Nat) (p : Nat) (kind : Nat) (lane : Nat) (tick : Nat) (fine : Nat) (stop : Nat) : Same d (Dev.foldUnit d q p kind lane tick fine stop) := by
  unfold Dev.foldUnit
  repeat' first
    | (with_reducible apply Same.refl)
    | (with_reducible intro _)
    | (with_reducible apply Same.ite)
    | (with_reducible apply Same.pre (Dev.updPort_same ..))
    | simp only [Same.upd]
    | split
    | dsimp only

theorem Dev.rawUnit_same (d : Dev) (q : Nat) (p : Nat) (u : RxUnit) (tick : Nat) (fine : Nat) (flags : Nat) : Same d (Dev.rawUnit d q p u tick fine flags) := by
  unfold Dev.rawUnit
  repeat' first
    | (with_reducible apply Same.refl)
    | (with_reducible intro _)
    | (with_reducible apply Same.ite)
    | (with_reducible apply Same.pre (Dev.setPort_same ..))
    | (with_reducible apply Same.pre (Dev.closeRaw_same ..))
    | simp only [Same.upd]
    | split
    | dsimp only

theorem Dev.rawData_same (d : Dev) (q : Nat) (p : Nat) (u : RxUnit) : Same d (Dev.rawData d q p u) := by
  unfold Dev.rawData
  repeat' first
    | (with_reducible apply Same.refl)
    | (with_reducible intro _)
    | (with_reducible apply Same.ite)
    | (with_reducible apply Same.pre (Dev.send_same ..))
    | split
    | dsimp only

theorem Dev.takeUnit_same (d : Dev) (q : Nat) (p : Nat) (u : RxUnit) : Same d (Dev.takeUnit d q p u) := by
  unfold Dev.takeUnit
  repeat' first
    | (with_reducible apply Same.refl)
    | (with_reducible intro _)
    | (with_reducible apply Same.ite)
    | (with_reducible apply Same.pre (Dev.updPort_same ..))
    | (with_reducible apply Same.pre (Dev.passUnit_same ..))
    | (with_reducible apply Same.pre (Dev.closeRaw_same ..))
    | (with_reducible apply Same.pre (Dev.breakFolds_same ..))
    | (with_reducible apply Same.pre (Dev.foldUnit_same ..))
    | (with_reducible apply Same.pre (Dev.rawUnit_same ..))
    | (with_reducible apply Same.pre (Same.foldl ?_ _ _))
    | simp only [Same.upd]
    | split
    | dsimp only

theorem unitEffect_same (q : Nat) (p : Nat) (u : RxUnit) (d : Dev) : Same d (unitEffect q p u d) := by
  unfold unitEffect
  repeat' first
    | (with_reducible apply Same.refl)
    | (with_reducible intro _)
    | (with_reducible apply Same.ite)
    | (with_reducible apply Same.pre (Dev.when_same _ _ _ ?_))
    | (with_reducible apply Same.pre (Dev.add_same ..))
    | (with_reducible apply Same.pre (Dev.updPort_same ..))
    | (with_reducible apply Same.pre (Dev.rawData_same ..))
    | (with_reducible apply Same.pre (Dev.takeUnit_same ..))
    | simp only [Same.upd]
    | split
    | dsimp only

theorem foldSpanEffect_same (q : Nat) (p : Nat) (lane : Nat) (d : Dev) : Same d (foldSpanEffect q p lane d) := by
  unfold foldSpanEffect
  repeat' first
    | (with_reducible apply Same.refl)
    | (with_reducible intro _)
    | (with_reducible apply Same.ite)
    | (with_reducible apply Same.pre (Dev.updPort_same ..))
    | (with_reducible apply Same.pre (Dev.closeFold_same ..))
    | simp only [Same.upd]
    | split
    | dsimp only

theorem Dev.setBuffer_same (d : Dev) (q : Nat) (x : Ingest) : Same d (Dev.setBuffer d q x) := by
  unfold Dev.setBuffer
  repeat' first
    | (with_reducible apply Same.refl)
    | (with_reducible intro _)
    | (with_reducible apply Same.ite)
    | (with_reducible apply Same.pre (Dev.setEng_same ..))
    | (with_reducible apply Same.pre (Dev.setIngest_same ..))
    | simp only [Same.upd]
    | split
    | dsimp only

theorem Dev.fillBuffer_same (d : Dev) (q : Nat) (x : Ingest) : Same d (Dev.fillBuffer d q x) := by
  unfold Dev.fillBuffer
  repeat' first
    | (with_reducible apply Same.refl)
    | (with_reducible intro _)
    | (with_reducible apply Same.ite)
    | (with_reducible apply Same.pre (Dev.peak_same ..))
    | (with_reducible apply Same.pre (Dev.setBuffer_same ..))
    | split
    | dsimp only

theorem Dev.setFifoOf_same (d : Dev) (q : Nat) (f : Fifo) : Same d (Dev.setFifoOf d q f) := by
  unfold Dev.setFifoOf
  repeat' first
    | (with_reducible apply Same.refl)
    | (with_reducible intro _)
    | (with_reducible apply Same.ite)
    | (with_reducible apply Same.pre (Dev.setEng_same ..))
    | (with_reducible apply Same.pre (Dev.setFifo_same ..))
    | simp only [Same.upd]
    | split
    | dsimp only

theorem Dev.makeRoom_same (d : Dev) (i : Nat) (from_ : Nat) : Same d (Dev.makeRoom d i from_) := by
  unfold Dev.makeRoom
  repeat' first
    | (with_reducible apply Same.refl)
    | (with_reducible intro _)
    | (with_reducible apply Same.ite)
    | (with_reducible apply Same.pre (Dev.updPort_same ..))
    | (with_reducible apply Same.pre (Dev.setBuffer_same ..))
    | (with_reducible apply Same.pre (Dev.setFifoOf_same ..))
    | (with_reducible apply Same.pre (Same.foldl ?_ _ _))
    | simp only [Same.upd]
    | split
    | dsimp only

theorem Dev.countGap_same (d : Dev) (q : Nat) (p : Nat) (l : LossRun) : Same d (Dev.countGap d q p l) := by
  unfold Dev.countGap
  repeat' first
    | (with_reducible apply Same.refl)
    | (with_reducible intro _)
    | (with_reducible apply Same.ite)
    | (with_reducible apply Same.pre (Dev.add_same ..))
    | (with_reducible apply Same.pre (Dev.inc_same ..))
    | split
    | dsimp only

theorem Dev.placeRun_same (d : Dev) (q : Nat) (p : Nat) (l : LossRun) : Same d (Dev.placeRun d q p l) := by
  unfold Dev.placeRun
  repeat' first
    | (with_reducible apply Same.refl)
    | (with_reducible intro _)
    | (with_reducible apply Same.ite)
    | (with_reducible apply Same.pre (Dev.updPort_same ..))
    | (with_reducible apply Same.pre (Dev.fillBuffer_same ..))
    | (with_reducible apply Same.pre (Dev.makeRoom_same ..))
    | (with_reducible apply Same.pre (Dev.countGap_same ..))
    | simp only [Same.upd]
    | split
    | dsimp only

theorem Dev.placeOwed_same (d : Dev) (q : Nat) (p : Nat) (x0 : Nat) : Same d (Dev.placeOwed d q p x0) := by
  induction x0 generalizing d q p with
  | zero => exact Same.refl _
  | succ n ih =>
    unfold Dev.placeOwed
    repeat' first
      | (with_reducible apply Same.refl)
      | (with_reducible intro _)
      | (with_reducible apply Same.pre (ih ..))
      | (with_reducible apply Same.ite)
      | (with_reducible apply Same.pre (Dev.updPort_same ..))
      | (with_reducible apply Same.pre (Dev.placeRun_same ..))
      | simp only [Same.upd]
      | split
      | dsimp only

theorem Dev.endRun_same (d : Dev) (i : Nat) : Same d (Dev.endRun d i) := by
  unfold Dev.endRun
  repeat' first
    | (with_reducible apply Same.refl)
    | (with_reducible intro _)
    | (with_reducible apply Same.ite)
    | (with_reducible apply Same.pre (Dev.updPort_same ..))
    | simp only [Same.upd]
    | split
    | dsimp only

theorem Dev.closeRun_same (d : Dev) (q : Nat) (p : Nat) : Same d (Dev.closeRun d q p) := by
  unfold Dev.closeRun
  repeat' first
    | (with_reducible apply Same.refl)
    | (with_reducible intro _)
    | (with_reducible apply Same.ite)
    | (with_reducible apply Same.pre (Dev.placeOwed_same ..))
    | (with_reducible apply Same.pre (Dev.endRun_same ..))
    | split
    | dsimp only

theorem Dev.closeDue_same (d : Dev) (q : Nat) (p : Nat) : Same d (Dev.closeDue d q p) := by
  unfold Dev.closeDue
  repeat' first
    | (with_reducible apply Same.refl)
    | (with_reducible intro _)
    | (with_reducible apply Same.ite)
    | (with_reducible apply Same.pre (Dev.updPort_same ..))
    | (with_reducible apply Same.pre (Dev.closeRun_same ..))
    | simp only [Same.upd]
    | split
    | dsimp only

theorem Dev.gapAhead_same (d : Dev) (q : Nat) (p : Nat) (l : LossRun) : Same d (Dev.gapAhead d q p l).2 := by
  unfold Dev.gapAhead
  repeat' first
    | (with_reducible apply Same.refl)
    | (with_reducible intro _)
    | (with_reducible apply Same.ite)
    | (with_reducible apply Same.pre (Dev.fillBuffer_same ..))
    | (with_reducible apply Same.pre (Dev.makeRoom_same ..))
    | (with_reducible apply Same.pre (Dev.countGap_same ..))
    | simp only [Same.upd]
    | split
    | dsimp only

theorem Dev.lose_same (d : Dev) (q : Nat) (p : Nat) (reason : Nat) (bp : Bool) (r : Rec) : Same d (Dev.lose d q p reason bp r) := by
  unfold Dev.lose
  repeat' first
    | (with_reducible apply Same.refl)
    | (with_reducible intro _)
    | (with_reducible apply Same.ite)
    | (with_reducible apply Same.pre (Dev.setPort_same ..))
    | (with_reducible apply Same.pre (Dev.occur_same ..))
    | simp only [Same.upd]
    | split
    | dsimp only

theorem Dev.arrive_same (d : Dev) (q : Nat) (p : Nat) (r : Rec) : Same d (Dev.arrive d q p r) := by
  unfold Dev.arrive
  repeat' first
    | (with_reducible apply Same.refl)
    | (with_reducible intro _)
    | (with_reducible apply Same.ite)
    | (with_reducible apply Same.pre (Dev.updPort_same ..))
    | (with_reducible apply Same.pre (Dev.fillBuffer_same ..))
    | (with_reducible apply Same.pre (Dev.closeRun_same ..))
    | (with_reducible apply Same.pre (Dev.lose_same ..))
    | simp only [Same.upd]
    | split
    | dsimp only

theorem ingestEffect_same (q : Nat) (p : Nat) (d : Dev) : Same d (ingestEffect q p d) := by
  unfold ingestEffect
  repeat' first
    | (with_reducible apply Same.refl)
    | (with_reducible intro _)
    | (with_reducible apply Same.ite)
    | (with_reducible apply Same.pre (Dev.when_same _ _ _ ?_))
    | (with_reducible apply Same.pre (Dev.updPort_same ..))
    | (with_reducible apply Same.pre (Dev.arrive_same ..))
    | simp only [Same.upd]
    | split
    | dsimp only

theorem lossTimeoutEffect_same (q : Nat) (p : Nat) (d : Dev) : Same d (lossTimeoutEffect q p d) := by
  unfold lossTimeoutEffect
  repeat' first
    | (with_reducible apply Same.refl)
    | (with_reducible intro _)
    | (with_reducible apply Same.ite)
    | (with_reducible apply Same.pre (Dev.when_same _ _ _ ?_))
    | (with_reducible apply Same.pre (Dev.closeDue_same ..))
    | split
    | dsimp only

theorem Dev.admitLoop_same (d : Dev) (q : Nat) (useCredit : Bool) (x0 : Nat) (x1 : Ingest) (x2 : Fifo) : Same d (Dev.admitLoop d q useCredit x0 x1 x2).1 := by
  induction x0 generalizing d q useCredit x1 x2 with
  | zero => exact Same.refl _
  | succ n ih =>
    unfold Dev.admitLoop
    repeat' first
      | (with_reducible apply Same.refl)
      | (with_reducible intro _)
      | (with_reducible apply Same.pre (ih ..))
      | (with_reducible apply Same.ite)
      | (with_reducible apply Same.pre (Dev.inc_same ..))
      | split
      | dsimp only

theorem Dev.earn_same (d : Dev) (quads : List Nat) : Same d (Dev.earn d quads).1 := by
  unfold Dev.earn
  repeat' first
    | (with_reducible apply Same.refl)
    | (with_reducible intro _)
    | (with_reducible apply Same.ite)
    | (with_reducible apply Same.pre (Dev.setIngest_same ..))
    | (with_reducible apply Same.pre (Same.foldl ?_ _ _))
    | (with_reducible apply Same.pre (Same.foldl_fst ?_ _ _))
    | simp only [Same.upd]
    | split
    | dsimp only

theorem Dev.shareSurplus_same (d : Dev) (quads : List Nat) (pool : Int) : Same d (Dev.shareSurplus d quads pool) := by
  unfold Dev.shareSurplus
  repeat' first
    | (with_reducible apply Same.refl)
    | (with_reducible intro _)
    | (with_reducible apply Same.ite)
    | (with_reducible apply Same.pre (Dev.setIngest_same ..))
    | (with_reducible apply Same.pre (Same.foldl ?_ _ _))
    | simp only [Same.upd]
    | split
    | dsimp only

theorem Dev.strikeBuffer_same (d : Dev) (e : Nat) (k : Nat) : Same d (Dev.strikeBuffer d e k) := by
  unfold Dev.strikeBuffer
  repeat' first
    | (with_reducible apply Same.refl)
    | (with_reducible intro _)
    | (with_reducible apply Same.ite)
    | (with_reducible apply Same.pre (Dev.inc_same ..))
    | (with_reducible apply Same.pre (Dev.updPort_same ..))
    | (with_reducible apply Same.pre (Dev.setEng_same ..))
    | (with_reducible apply Same.pre (Dev.setIngest_same ..))
    | (with_reducible apply Same.pre (Dev.endRun_same ..))
    | (with_reducible apply Same.pre (Dev.gapAhead_same ..))
    | simp only [Same.upd]
    | split
    | dsimp only

theorem Dev.settlePort_same (d : Dev) (i : Nat) : Same d (Dev.settlePort d i) := by
  unfold Dev.settlePort
  repeat' first
    | (with_reducible apply Same.refl)
    | (with_reducible intro _)
    | (with_reducible apply Same.ite)
    | (with_reducible apply Same.pre (Dev.updPort_same ..))
    | (with_reducible apply Same.pre (Dev.flushEngine_same ..))
    | (with_reducible apply Same.pre (Dev.placeOwed_same ..))
    | (with_reducible apply Same.pre (Dev.closeDue_same ..))
    | simp only [Same.upd]
    | split
    | dsimp only

theorem Dev.admitLink_same (d : Dev) (e : Nat) : Same d (Dev.admitLink d e) := by
  unfold Dev.admitLink
  repeat' first
    | (with_reducible apply Same.refl)
    | (with_reducible intro _)
    | (with_reducible apply Same.ite)
    | (with_reducible apply Same.pre (Dev.setEng_same ..))
    | (with_reducible apply Same.pre (Dev.admitLoop_same ..))
    | simp only [Same.upd]
    | split
    | dsimp only

theorem admissionEffect_same (e : Nat) (struck : List (Fin 37 × Bool)) (d : Dev) : Same d (admissionEffect e struck d) := by
  unfold admissionEffect
  repeat' first
    | (with_reducible apply Same.refl)
    | (with_reducible intro _)
    | (with_reducible apply Same.ite)
    | (with_reducible apply Same.pre (Dev.when_same _ _ _ ?_))
    | (with_reducible apply Same.pre (Dev.setIngest_same ..))
    | (with_reducible apply Same.pre (Dev.setFifo_same ..))
    | (with_reducible apply Same.pre (Dev.sramFixed_same ..))
    | (with_reducible apply Same.pre (Dev.admitLoop_same ..))
    | (with_reducible apply Same.pre (Dev.earn_same ..))
    | (with_reducible apply Same.pre (Dev.shareSurplus_same ..))
    | (with_reducible apply Same.pre (Dev.strikeBuffer_same ..))
    | (with_reducible apply Same.pre (Dev.settlePort_same ..))
    | (with_reducible apply Same.pre (Dev.admitLink_same ..))
    | (with_reducible apply Same.pre (Same.foldl ?_ _ _))
    | split
    | dsimp only

theorem flushAgeEffect_same (e : Nat) (d : Dev) : Same d (flushAgeEffect e d) := by
  unfold flushAgeEffect
  repeat' first
    | (with_reducible apply Same.refl)
    | (with_reducible intro _)
    | (with_reducible apply Same.ite)
    | (with_reducible apply Same.pre (Dev.setEng_same ..))
    | (with_reducible apply Same.pre (Dev.setFifo_same ..))
    | (with_reducible apply Same.pre (Dev.closeStage_same ..))
    | (with_reducible apply Same.pre (Same.foldl ?_ _ _))
    | simp only [Same.upd]
    | split
    | dsimp only

theorem Dev.captureStart_same (d : Dev) (q : Nat) (p : Nat) : Same d (Dev.captureStart d q p) := by
  unfold Dev.captureStart
  repeat' first
    | (with_reducible apply Same.refl)
    | (with_reducible intro _)
    | (with_reducible apply Same.ite)
    | (with_reducible apply Same.pre (Dev.markerAt_same ..))
    | (with_reducible apply Same.pre (Dev.stepMarker_same ..))
    | split
    | dsimp only

theorem Dev.captureStop_same (d : Dev) (q : Nat) (p : Nat) : Same d (Dev.captureStop d q p) := by
  unfold Dev.captureStop
  repeat' first
    | (with_reducible apply Same.refl)
    | (with_reducible intro _)
    | (with_reducible apply Same.ite)
    | (with_reducible apply Same.pre (Dev.updPort_same ..))
    | (with_reducible apply Same.pre (Dev.lapseMarks_same ..))
    | (with_reducible apply Same.pre (Dev.boundary_same ..))
    | (with_reducible apply Same.pre (Dev.closeDue_same ..))
    | (with_reducible apply Same.pre (Dev.settlePort_same ..))
    | simp only [Same.upd]
    | split
    | dsimp only

theorem Dev.quiesceBegin_same (d : Dev) (e : Nat) : Same d (Dev.quiesceBegin d e) := by
  unfold Dev.quiesceBegin
  repeat' first
    | (with_reducible apply Same.refl)
    | (with_reducible intro _)
    | (with_reducible apply Same.ite)
    | (with_reducible apply Same.pre (Dev.setNat_same ..))
    | (with_reducible apply Same.pre (Dev.setEng_same ..))
    | (with_reducible apply Same.pre (Dev.boundary_same ..))
    | (with_reducible apply Same.pre (Dev.endSettle_same ..))
    | (with_reducible apply Same.pre (Same.foldl ?_ _ _))
    | simp only [Same.upd]
    | split
    | dsimp only

theorem Dev.resumeNow_same (d : Dev) (e : Nat) : Same d (Dev.resumeNow d e) := by
  unfold Dev.resumeNow
  repeat' first
    | (with_reducible apply Same.refl)
    | (with_reducible intro _)
    | (with_reducible apply Same.ite)
    | (with_reducible apply Same.pre (Dev.setNat_same ..))
    | (with_reducible apply Same.pre (Dev.inc_same ..))
    | (with_reducible apply Same.pre (Dev.setEng_same ..))
    | (with_reducible apply Same.pre (Dev.emitIn_same ..))
    | (with_reducible apply Same.pre (Same.foldl ?_ _ _))
    | simp only [Same.upd]
    | split
    | dsimp only

theorem Dev.engineControl_same (d : Dev) (e : Nat) (v : Nat) : Same d (Dev.engineControl d e v) := by
  unfold Dev.engineControl
  repeat' first
    | (with_reducible apply Same.refl)
    | (with_reducible intro _)
    | (with_reducible apply Same.ite)
    | (with_reducible apply Same.pre (Dev.setEng_same ..))
    | (with_reducible apply Same.pre (Dev.quiesceBegin_same ..))
    | (with_reducible apply Same.pre (Dev.resumeNow_same ..))
    | simp only [Same.upd]
    | split
    | dsimp only

theorem Dev.discard_same (d : Dev) (reason : Nat) (bp : Bool) (recs : List Rec) : Same d (Dev.discard d reason bp recs) := by
  unfold Dev.discard
  repeat' first
    | (with_reducible apply Same.refl)
    | (with_reducible intro _)
    | (with_reducible apply Same.ite)
    | (with_reducible apply Same.pre (Dev.updPort_same ..))
    | (with_reducible apply Same.pre (Dev.gapAhead_same ..))
    | (with_reducible apply Same.pre (Same.foldl ?_ _ _))
    | simp only [Same.upd]
    | split
    | dsimp only

theorem Dev.discardPacket_same (d : Dev) (reason : Nat) (bp : Bool) (pk : Packet) : Same d (Dev.discardPacket d reason bp pk) := by
  unfold Dev.discardPacket
  repeat' first
    | (with_reducible apply Same.refl)
    | (with_reducible intro _)
    | (with_reducible apply Same.ite)
    | (with_reducible apply Same.pre (Dev.discard_same ..))
    | split
    | dsimp only

theorem Dev.quiesceDiscard_same (d : Dev) (e : Nat) : Same d (Dev.quiesceDiscard d e) := by
  unfold Dev.quiesceDiscard
  repeat' first
    | (with_reducible apply Same.refl)
    | (with_reducible intro _)
    | (with_reducible apply Same.ite)
    | (with_reducible apply Same.pre (Dev.setEng_same ..))
    | (with_reducible apply Same.pre (Dev.setIngest_same ..))
    | (with_reducible apply Same.pre (Dev.setFifo_same ..))
    | (with_reducible apply Same.pre (Dev.discard_same ..))
    | (with_reducible apply Same.pre (Same.foldl ?_ _ _))
    | simp only [Same.upd]
    | split
    | dsimp only

theorem quiesceDoneEffect_same (e : Nat) (d : Dev) : Same d (quiesceDoneEffect e d) := by
  unfold quiesceDoneEffect
  repeat' first
    | (with_reducible apply Same.refl)
    | (with_reducible intro _)
    | (with_reducible apply Same.ite)
    | (with_reducible apply Same.pre (Dev.when_same _ _ _ ?_))
    | (with_reducible apply Same.pre (Dev.setNat_same ..))
    | (with_reducible apply Same.pre (Dev.resumeNow_same ..))
    | (with_reducible apply Same.pre (Dev.quiesceDiscard_same ..))
    | split
    | dsimp only

end Sys2Proof.Machine
end

