-- ==== Sys2Proof/Laws/Ring.lean ====
section
/-! SUPPORT. What each operation of Machine/Ring.lean keeps (`Same` and `Safe` of Laws/Frame.lean). -/

set_option Elab.async false
set_option linter.unusedTactic false
set_option linter.unreachableTactic false

namespace Sys2Proof.Machine

theorem Dev.setFifoAt_same (d : Dev) (e : Nat) (q : Nat) (f : Fifo) : Same d (Dev.setFifoAt d e q f) := by
  unfold Dev.setFifoAt
  repeat' first
    | (with_reducible apply Same.refl)
    | (with_reducible intro _)
    | (with_reducible apply Same.ite)
    | (with_reducible apply Same.pre (Dev.setEng_same ..))
    | (with_reducible apply Same.pre (Dev.setFifo_same ..))
    | simp only [Same.upd]
    | split
    | dsimp only

theorem Dev.passOver_same (d : Dev) (e : Nat) (p : RingPkt) : Same d (Dev.passOver d e p) := by
  unfold Dev.passOver
  repeat' first
    | (with_reducible apply Same.refl)
    | (with_reducible intro _)
    | (with_reducible apply Same.ite)
    | (with_reducible apply Same.pre (Dev.inc_same ..))
    | (with_reducible apply Same.pre (Dev.occur_same ..))
    | (with_reducible apply Same.pre (Dev.setWin_same ..))
    | simp only [Same.upd]
    | split
    | dsimp only

theorem Dev.overwrite_same (d : Dev) (e : Nat) (upTo : Nat) : Same d (Dev.overwrite d e upTo) := by
  unfold Dev.overwrite
  repeat' first
    | (with_reducible apply Same.refl)
    | (with_reducible intro _)
    | (with_reducible apply Same.ite)
    | (with_reducible apply Same.pre (Dev.setEng_same ..))
    | (with_reducible apply Same.pre (Dev.passOver_same ..))
    | (with_reducible apply Same.pre (Same.foldl ?_ _ _))
    | simp only [Same.upd]
    | split
    | dsimp only

theorem Dev.ringPut_safe (d : Dev) (e : Nat) (zero : Option Nat) (abs : Nat) (p : Packet) : Safe d (Dev.ringPut d e zero abs p).2 := by
  unfold Dev.ringPut
  repeat' first
    | (with_reducible apply Safe.refl)
    | (with_reducible intro _)
    | (with_reducible apply Safe.ite)
    | (with_reducible apply Safe.pre (Dev.storeAt_safe ..))
    | split
    | dsimp only

theorem Dev.strikeFifo_same (d : Dev) (e : Nat) (q : Nat) : Same d (Dev.strikeFifo d e q) := by
  unfold Dev.strikeFifo
  repeat' first
    | (with_reducible apply Same.refl)
    | (with_reducible intro _)
    | (with_reducible apply Same.ite)
    | (with_reducible apply Same.pre (Dev.inc_same ..))
    | (with_reducible apply Same.pre (Dev.discardPacket_same ..))
    | (with_reducible apply Same.pre (Dev.setFifoAt_same ..))
    | simp only [Same.upd]
    | split
    | dsimp only

theorem ringWriteEffect_safe (e : Nat) (struck : List (Fin 37 × Bool)) (d : Dev) : Safe d (ringWriteEffect e struck d) := by
  unfold ringWriteEffect
  repeat' first
    | (with_reducible apply Safe.refl)
    | (with_reducible intro _)
    | (with_reducible apply Safe.ite)
    | (with_reducible apply Safe.pre (Dev.when_safe _ _ _ ?_))
    | (with_reducible apply Safe.pre (Dev.orHold_safe _ _ ?_))
    | (with_reducible apply Safe.pre (Dev.inc_same ..).safe)
    | (with_reducible apply Safe.pre (Dev.setEng_same ..).safe)
    | (with_reducible apply Safe.pre (Dev.sramFixed_same ..).safe)
    | (with_reducible apply Safe.pre (Dev.setFifoAt_same ..).safe)
    | (with_reducible apply Safe.pre (Dev.overwrite_same ..).safe)
    | (with_reducible apply Safe.pre (Dev.ringPut_safe ..))
    | (with_reducible apply Safe.pre (Dev.strikeFifo_same ..).safe)
    | (with_reducible apply Safe.pre (Safe.foldl ?_ _ _))
    | simp only [Safe.upd]
    | split
    | dsimp only

theorem Dev.late_same (d : Dev) (e : Nat) (s : Nat) (abs : Nat) (r : Rec) : Same d (Dev.late d e s abs r) := by
  unfold Dev.late
  repeat' first
    | (with_reducible apply Same.refl)
    | (with_reducible intro _)
    | (with_reducible apply Same.ite)
    | (with_reducible apply Same.pre (Dev.inc_same ..))
    | split
    | dsimp only

theorem Dev.landed_same (d : Dev) (e : Nat) (f : Flight) : Same d (Dev.landed d e f) := by
  unfold Dev.landed
  repeat' first
    | (with_reducible apply Same.refl)
    | (with_reducible intro _)
    | (with_reducible apply Same.ite)
    | (with_reducible apply Same.pre (Dev.setNat_same ..))
    | (with_reducible apply Same.pre (Dev.setEng_same ..))
    | (with_reducible apply Same.pre (Dev.tryClose_same ..))
    | (with_reducible apply Same.pre (Dev.late_same ..))
    | (with_reducible apply Same.pre (Same.foldl ?_ _ _))
    | simp only [Same.upd]
    | split
    | dsimp only

theorem Dev.landAll_same (e : Nat) (x0 : Nat) (x1 : Dev) : Same x1 (Dev.landAll e x0 x1) := by
  induction x0 generalizing e x1 with
  | zero => exact Same.refl _
  | succ n ih =>
    unfold Dev.landAll
    repeat' first
      | (with_reducible apply Same.refl)
      | (with_reducible intro _)
      | (with_reducible apply Same.pre (ih ..))
      | (with_reducible apply Same.ite)
      | (with_reducible apply Same.pre (Dev.landed_same ..))
      | split
      | dsimp only

theorem ringAckEffect_same (e : Nat) (ok : Bool) (d : Dev) : Same d (ringAckEffect e ok d) := by
  unfold ringAckEffect
  repeat' first
    | (with_reducible apply Same.refl)
    | (with_reducible intro _)
    | (with_reducible apply Same.ite)
    | (with_reducible apply Same.pre (Dev.inc_same ..))
    | (with_reducible apply Same.pre (Dev.setEng_same ..))
    | (with_reducible apply Same.pre (Dev.setFifoAt_same ..))
    | (with_reducible apply Same.pre (Dev.landAll_same ..))
    | simp only [Same.upd]
    | split
    | dsimp only

theorem Dev.stagePut_safe {d e : Dev} {k : Nat} {p : StagePkt} (h : d.stagePut k p = some e) : Safe d e := by
  unfold Dev.stagePut at h
  extract_lets x n room abs d1 r y at h
  have h1 : Safe d d1 := (Same.ite (Dev.endStream_same ..) (Same.refl d)).safe
  clear_value d1
  split at h
  · cases h
  · exact Option.some.inj h ▸ h1.trans ((Dev.storeAt_safe ..).trans (Dev.setEng_same ..).safe)

theorem Dev.pushStage_safe (d : Dev) (e : Nat) (x0 : Nat) : Safe d (Dev.pushStage d e x0) := by
  induction x0 generalizing d e with
  | zero => exact Safe.refl _
  | succ n ih =>
    unfold Dev.pushStage
    repeat' first
      | (with_reducible apply Safe.refl)
      | (with_reducible intro _)
      | (with_reducible apply Safe.pre (ih ..))
      | (with_reducible apply Safe.ite)
      | (with_reducible apply Safe.pre (Dev.inc_same ..).safe)
      | (with_reducible apply Safe.pre (Dev.setEng_same ..).safe)
      | (with_reducible refine Safe.pre (Dev.stagePut_safe (by assumption)) ?_)
      | simp only [Safe.upd]
      | split
      | dsimp only

theorem Dev.flushStage_safe (d : Dev) (e : Nat) : Safe d (Dev.flushStage d e) := by
  unfold Dev.flushStage
  repeat' first
    | (with_reducible apply Safe.refl)
    | (with_reducible intro _)
    | (with_reducible apply Safe.ite)
    | (with_reducible apply Safe.pre (Dev.pushStage_safe ..))
    | split
    | dsimp only

theorem Dev.stageRec_same (d : Dev) (e : Nat) (r : Rec) (src : List (Nat × Nat)) (gapSet : Bool) : Same d (Dev.stageRec d e r src gapSet) := by
  unfold Dev.stageRec
  repeat' first
    | (with_reducible apply Same.refl)
    | (with_reducible intro _)
    | (with_reducible apply Same.ite)
    | (with_reducible apply Same.pre (Dev.add_same ..))
    | (with_reducible apply Same.pre (Dev.setEng_same ..))
    | (with_reducible apply Same.pre (Dev.closeStage_same ..))
    | simp only [Same.upd]
    | split
    | dsimp only

theorem Dev.promoteRec_same (d : Dev) (e : Nat) (s : Nat) (lo : Nat) (src : List (Nat × Nat)) (r : Rec) : Same d (Dev.promoteRec d e s lo src r) := by
  unfold Dev.promoteRec
  repeat' first
    | (with_reducible apply Same.refl)
    | (with_reducible intro _)
    | (with_reducible apply Same.ite)
    | (with_reducible apply Same.pre (Dev.inc_same ..))
    | (with_reducible apply Same.pre (Dev.setWin_same ..))
    | (with_reducible apply Same.pre (Dev.stageRec_same ..))
    | simp only [Same.upd]
    | split
    | dsimp only

theorem Dev.markTaken_same (d : Dev) (e : Nat) (abs : Nat) (ix : List RingIx) : Same d (Dev.markTaken d e abs ix) := by
  unfold Dev.markTaken
  repeat' first
    | (with_reducible apply Same.refl)
    | (with_reducible intro _)
    | (with_reducible apply Same.ite)
    | (with_reducible apply Same.pre (Dev.setEng_same ..))
    | simp only [Same.upd]
    | split
    | dsimp only

theorem Dev.skipPkt_same (d : Dev) (e : Nat) (p : RingPkt) : Same d (Dev.skipPkt d e p) := by
  unfold Dev.skipPkt
  repeat' first
    | (with_reducible apply Same.refl)
    | (with_reducible intro _)
    | (with_reducible apply Same.ite)
    | (with_reducible apply Same.pre (Dev.passOver_same ..))
    | (with_reducible apply Same.pre (Dev.markTaken_same ..))
    | simp only [Same.upd]
    | split
    | dsimp only

theorem Dev.streamLog_same (d : Dev) : Same d (Dev.streamLog d) := by
  unfold Dev.streamLog
  repeat' first
    | (with_reducible apply Same.refl)
    | (with_reducible intro _)
    | (with_reducible apply Same.ite)
    | (with_reducible apply Same.pre (Dev.stageRec_same ..))
    | (with_reducible apply Same.pre (Same.foldl ?_ _ _))
    | simp only [Same.upd]
    | split
    | dsimp only

theorem promoteEffect_safe (e : Nat) (busError : Option Nat) (d : Dev) : Safe d (promoteEffect e busError d) := by
  unfold promoteEffect
  repeat' first
    | (with_reducible apply Safe.refl)
    | (with_reducible intro _)
    | (with_reducible apply Safe.ite)
    | (with_reducible apply Safe.pre (Dev.when_safe _ _ _ ?_))
    | (with_reducible apply Safe.pre (Dev.orHold_safe _ _ ?_))
    | (with_reducible apply Safe.pre (Dev.fetch_safe ..))
    | (with_reducible apply Safe.pre (Dev.flushStage_safe ..))
    | (with_reducible apply Safe.pre (Dev.promoteRec_same ..).safe)
    | (with_reducible apply Safe.pre (Dev.markTaken_same ..).safe)
    | (with_reducible apply Safe.pre (Dev.skipPkt_same ..).safe)
    | (with_reducible apply Safe.pre (Dev.streamLog_same ..).safe)
    | (with_reducible apply Safe.pre (Safe.foldl ?_ _ _))
    | simp only [Safe.upd]
    | split
    | dsimp only

theorem Dev.ringMoved_same (d : Dev) (e : Nat) : Same d (Dev.ringMoved d e) := by
  unfold Dev.ringMoved
  repeat' first
    | (with_reducible apply Same.refl)
    | (with_reducible intro _)
    | (with_reducible apply Same.ite)
    | (with_reducible apply Same.pre (Dev.setNat_same ..))
    | (with_reducible apply Same.pre (Dev.setEng_same ..))
    | (with_reducible apply Same.pre (Dev.endStream_same ..))
    | (with_reducible apply Same.pre (Dev.passOver_same ..))
    | (with_reducible apply Same.pre (Same.foldl ?_ _ _))
    | simp only [Same.upd]
    | split
    | dsimp only

theorem Dev.stageMoved_same (d : Dev) (e : Nat) : Same d (Dev.stageMoved d e) := by
  unfold Dev.stageMoved
  repeat' first
    | (with_reducible apply Same.refl)
    | (with_reducible intro _)
    | (with_reducible apply Same.ite)
    | (with_reducible apply Same.pre (Dev.setEng_same ..))
    | (with_reducible apply Same.pre (Dev.endStream_same ..))
    | simp only [Same.upd]
    | split
    | dsimp only

end Sys2Proof.Machine
end

