-- ==== Sys2Proof/Laws/Network.lean ====
section
/-! SUPPORT. What each operation of Machine/Network.lean keeps (`Same` and `Safe` of Laws/Frame.lean). -/

set_option Elab.async false
set_option linter.unusedTactic false
set_option linter.unreachableTactic false

namespace Sys2Proof.Machine

theorem Dev.setNi_same (d : Dev) (n : Nat) (x : NiAux) : Same d (Dev.setNi d n x) := by
  unfold Dev.setNi
  repeat' first
    | (with_reducible apply Same.refl)
    | (with_reducible intro _)
    | (with_reducible apply Same.ite)
    | simp only [Same.upd]
    | split
    | dsimp only

theorem nocTimeoutEffect_same (n : Nat) (tag : Nat) (d : Dev) : Same d (nocTimeoutEffect n tag d) := by
  unfold nocTimeoutEffect
  repeat' first
    | (with_reducible apply Same.refl)
    | (with_reducible intro _)
    | (with_reducible apply Same.ite)
    | (with_reducible apply Same.pre (Dev.when_same _ _ _ ?_))
    | (with_reducible apply Same.pre (Dev.inc_same ..))
    | (with_reducible apply Same.pre (Dev.send_same ..))
    | (with_reducible apply Same.pre (Dev.late_same ..))
    | (with_reducible apply Same.pre (Dev.setNi_same ..))
    | simp only [Same.upd]
    | split
    | dsimp only

theorem nocResponseEffect_same (n : Nat) (tag : Nat) (ok : Bool) (birth : Nat) (d : Dev) : Same d (nocResponseEffect n tag ok birth d) := by
  unfold nocResponseEffect
  repeat' first
    | (with_reducible apply Same.refl)
    | (with_reducible intro _)
    | (with_reducible apply Same.ite)
    | (with_reducible apply Same.pre (Dev.when_same _ _ _ ?_))
    | (with_reducible apply Same.pre (Dev.inc_same ..))
    | (with_reducible apply Same.pre (Dev.peak_same ..))
    | (with_reducible apply Same.pre (Dev.send_same ..))
    | (with_reducible apply Same.pre (Dev.late_same ..))
    | (with_reducible apply Same.pre (Dev.setNi_same ..))
    | simp only [Same.upd]
    | split
    | dsimp only

theorem postedErrorEffect_same (n : Nat) (record : List Byte) (freed : Bool) (d : Dev) : Same d (postedErrorEffect n record freed d) := by
  unfold postedErrorEffect
  repeat' first
    | (with_reducible apply Same.refl)
    | (with_reducible intro _)
    | (with_reducible apply Same.ite)
    | (with_reducible apply Same.pre (Dev.when_same _ _ _ ?_))
    | (with_reducible apply Same.pre (Dev.inc_same ..))
    | (with_reducible apply Same.pre (Dev.occur_same ..))
    | (with_reducible apply Same.pre (Dev.setNi_same ..))
    | simp only [Same.upd]
    | split
    | dsimp only

theorem flushReqEffect_same (n : Nat) (target : Nat) (d : Dev) : Same d (flushReqEffect n target d) := by
  unfold flushReqEffect
  repeat' first
    | (with_reducible apply Same.refl)
    | (with_reducible intro _)
    | (with_reducible apply Same.ite)
    | (with_reducible apply Same.pre (Dev.when_same _ _ _ ?_))
    | (with_reducible apply Same.pre (Dev.send_same ..))
    | split
    | dsimp only

theorem ekicEffect_same (c : Nat) (bits : Nat) (arriving : List (Fin 32)) (d : Dev) : Same d (ekicEffect c bits arriving d) := by
  unfold ekicEffect
  repeat' first
    | (with_reducible apply Same.refl)
    | (with_reducible intro _)
    | (with_reducible apply Same.ite)
    | (with_reducible apply Same.pre (Dev.setCore_same ..))
    | (with_reducible apply Same.pre (Dev.raiseLine_same ..))
    | (with_reducible apply Same.pre (Same.foldl ?_ _ _))
    | simp only [Same.upd]
    | split
    | dsimp only

theorem ekeqEffect_same (c : Nat) (value : Nat) (d : Dev) : Same d (ekeqEffect c value d) := by
  unfold ekeqEffect
  repeat' first
    | (with_reducible apply Same.refl)
    | (with_reducible intro _)
    | (with_reducible apply Same.ite)
    | (with_reducible apply Same.pre (Dev.setNi_same ..))
    | simp only [Same.upd]
    | split
    | dsimp only

theorem Dev.coreControlled_same (d : Dev) (c : Nat) (v : Nat) : Same d (Dev.coreControlled d c v) := by
  unfold Dev.coreControlled
  repeat' first
    | (with_reducible apply Same.refl)
    | (with_reducible intro _)
    | (with_reducible apply Same.ite)
    | (with_reducible apply Same.pre (Dev.setNat_same ..))
    | split
    | dsimp only

end Sys2Proof.Machine
end

