-- ==== Sys2Proof/Laws/Access.lean ====
section
/-! SUPPORT. What each operation of Machine/Access.lean keeps (`Same` and `Safe` of Laws/Frame.lean). -/

set_option Elab.async false
set_option linter.unusedTactic false
set_option linter.unreachableTactic false

namespace Sys2Proof.Machine

theorem Dev.readClear_same (d : Dev) (x : Occurrence) (o : Nat) (n : Nat) : Same d (Dev.readClear d x o n) := by
  unfold Dev.readClear
  repeat' first
    | (with_reducible apply Same.refl)
    | (with_reducible intro _)
    | (with_reducible apply Same.ite)
    | (with_reducible apply Same.pre (Dev.measured_same ..))
    | (with_reducible apply Same.pre (Dev.storeVal_same ..))
    | (with_reducible apply Same.pre (Dev.setNi_same ..))
    | (with_reducible apply Same.pre (Dev.setBundle_same ..))
    | simp only [Same.upd]
    | split
    | dsimp only

theorem Dev.readObj_same (d : Dev) (x : Occurrence) (o : Nat) (n : Nat) : Same d (Dev.readObj d x o n).2 := by
  unfold Dev.readObj
  repeat' first
    | (with_reducible apply Same.refl)
    | (with_reducible intro _)
    | (with_reducible apply Same.ite)
    | (with_reducible apply Same.pre (Dev.drawn_same ..))
    | (with_reducible apply Same.pre (Dev.readClear_same ..))
    | split
    | dsimp only

end Sys2Proof.Machine
end

