-- ==== Sys2Proof/Laws/Ageing.lean ====
section
/-! SUPPORT. What each operation of Machine/Ageing.lean keeps (`Same` and `Safe` of Laws/Frame.lean). -/

set_option Elab.async false
set_option linter.unusedTactic false
set_option linter.unreachableTactic false

namespace Sys2Proof.Machine

theorem Dev.setAge_same (d : Dev) (x : Nat) (a : DieAge) : Same d (Dev.setAge d x a) := by
  unfold Dev.setAge
  repeat' first
    | (with_reducible apply Same.refl)
    | (with_reducible intro _)
    | (with_reducible apply Same.ite)
    | simp only [Same.upd]
    | split
    | dsimp only

theorem Dev.openDiv_same (d : Dev) (n : Int) (k : Nat) : Same d (Dev.openDiv d n k).2 := by
  unfold Dev.openDiv
  repeat' first
    | (with_reducible apply Same.refl)
    | (with_reducible intro _)
    | (with_reducible apply Same.ite)
    | (with_reducible apply Same.pre (Dev.drawn_same ..))
    | split
    | dsimp only

theorem Dev.lifeStates_same (d : Dev) : Same d (Dev.lifeStates d) := by
  unfold Dev.lifeStates
  repeat' first
    | (with_reducible apply Same.refl)
    | (with_reducible intro _)
    | (with_reducible apply Same.ite)
    | (with_reducible apply Same.pre (Dev.setNat_same ..))
    | (with_reducible apply Same.pre (Dev.occur_same ..))
    | (with_reducible apply Same.pre (Same.foldl ?_ _ _))
    | split
    | dsimp only

theorem ageingSampleEffect_same (d : Dev) : Same d (ageingSampleEffect d) := by
  unfold ageingSampleEffect
  repeat' first
    | (with_reducible apply Same.refl)
    | (with_reducible intro _)
    | (with_reducible apply Same.ite)
    | (with_reducible apply Same.pre (Dev.setInt_same ..))
    | (with_reducible apply Same.pre (Dev.inc_same ..))
    | (with_reducible apply Same.pre (Dev.setAge_same ..))
    | (with_reducible apply Same.pre (Dev.openDiv_same ..))
    | (with_reducible apply Same.pre (Dev.lifeStates_same ..))
    | (with_reducible apply Same.pre (Same.foldl ?_ _ _))
    | simp only [Same.upd]
    | split
    | dsimp only

theorem marginEffect_same (l : List (Fin 10 × Fin 9 × Nat)) (d : Dev) : Same d (marginEffect l d) := by
  unfold marginEffect
  repeat' first
    | (with_reducible apply Same.refl)
    | (with_reducible intro _)
    | (with_reducible apply Same.ite)
    | (with_reducible apply Same.pre (Dev.setNat_same ..))
    | (with_reducible apply Same.pre (Dev.setAge_same ..))
    | (with_reducible apply Same.pre (Dev.lifeStates_same ..))
    | (with_reducible apply Same.pre (Same.foldl ?_ _ _))
    | simp only [Same.upd]
    | split
    | dsimp only

theorem Dev.projected_same (d : Dev) (x : Nat) (weeks : List Nat) : Same d (Dev.projected d x weeks).2 := by
  unfold Dev.projected
  repeat' first
    | (with_reducible apply Same.refl)
    | (with_reducible intro _)
    | (with_reducible apply Same.ite)
    | (with_reducible apply Same.pre (Dev.openDiv_same ..))
    | split
    | dsimp only

theorem weeklyEffect_same (d : Dev) : Same d (weeklyEffect d) := by
  unfold weeklyEffect
  repeat' first
    | (with_reducible apply Same.refl)
    | (with_reducible intro _)
    | (with_reducible apply Same.ite)
    | (with_reducible apply Same.pre (Dev.when_same _ _ _ ?_))
    | (with_reducible apply Same.pre (Dev.setNat_same ..))
    | (with_reducible apply Same.pre (Dev.drawn_same ..))
    | (with_reducible apply Same.pre (Dev.writeArea_same ..))
    | (with_reducible apply Same.pre (Dev.setAge_same ..))
    | (with_reducible apply Same.pre (Dev.openDiv_same ..))
    | (with_reducible apply Same.pre (Dev.lifeStates_same ..))
    | (with_reducible apply Same.pre (Dev.projected_same ..))
    | (with_reducible apply Same.pre (Same.foldl ?_ _ _))
    | simp only [Same.upd]
    | split
    | dsimp only

theorem poweredTimeEffect_same (d : Dev) : Same d (poweredTimeEffect d) := by
  unfold poweredTimeEffect
  repeat' first
    | (with_reducible apply Same.refl)
    | (with_reducible intro _)
    | (with_reducible apply Same.ite)
    | (with_reducible apply Same.pre (Dev.when_same _ _ _ ?_))
    | (with_reducible apply Same.pre (Dev.writeArea_same ..))
    | (with_reducible apply Same.pre (Same.foldl ?_ _ _))
    | simp only [Same.upd]
    | split
    | dsimp only

end Sys2Proof.Machine
end

