-- ==== Sys2Proof/Laws/Clocks.lean ====
section
/-! SUPPORT. What each operation of Machine/Clocks.lean keeps (`Same` and `Safe` of Laws/Frame.lean). -/

set_option Elab.async false
set_option linter.unusedTactic false
set_option linter.unreachableTactic false

namespace Sys2Proof.Machine

theorem Dev.setSrc_same (d : Dev) (i : Nat) (st : Nat) : Same d (Dev.setSrc d i st) := by
  unfold Dev.setSrc
  repeat' first
    | (with_reducible apply Same.refl)
    | (with_reducible intro _)
    | (with_reducible apply Same.ite)
    | (with_reducible apply Same.pre (Dev.setNat_same ..))
    | split
    | dsimp only

theorem Dev.setPll_same (d : Dev) (i : Nat) (st : Nat) : Same d (Dev.setPll d i st) := by
  unfold Dev.setPll
  repeat' first
    | (with_reducible apply Same.refl)
    | (with_reducible intro _)
    | (with_reducible apply Same.ite)
    | (with_reducible apply Same.pre (Dev.setNat_same ..))
    | split
    | dsimp only

theorem Dev.pllsStart_same (d : Dev) : Same d (Dev.pllsStart d) := by
  unfold Dev.pllsStart
  repeat' first
    | (with_reducible apply Same.refl)
    | (with_reducible intro _)
    | (with_reducible apply Same.ite)
    | (with_reducible apply Same.pre (Dev.setPll_same ..))
    | (with_reducible apply Same.pre (Same.foldl ?_ _ _))
    | split
    | dsimp only

theorem Dev.holdPll_same (d : Dev) (i : Nat) : Same d (Dev.holdPll d i) := by
  unfold Dev.holdPll
  repeat' first
    | (with_reducible apply Same.refl)
    | (with_reducible intro _)
    | (with_reducible apply Same.ite)
    | (with_reducible apply Same.pre (Dev.setPll_same ..))
    | simp only [Same.upd]
    | split
    | dsimp only

theorem Dev.switchSys_same (d : Dev) : Same d (Dev.switchSys d) := by
  unfold Dev.switchSys
  repeat' first
    | (with_reducible apply Same.refl)
    | (with_reducible intro _)
    | (with_reducible apply Same.ite)
    | (with_reducible apply Same.pre (Dev.setNat_same ..))
    | split
    | dsimp only

theorem Dev.switchTime_same (d : Dev) : Same d (Dev.switchTime d) := by
  unfold Dev.switchTime
  repeat' first
    | (with_reducible apply Same.refl)
    | (with_reducible intro _)
    | (with_reducible apply Same.ite)
    | (with_reducible apply Same.pre (Dev.setNat_same ..))
    | split
    | dsimp only

theorem Dev.sense_same (d : Dev) (fuses : List (Nat × Nat × List Byte)) : Same d (Dev.sense d fuses) := by
  unfold Dev.sense
  repeat' first
    | (with_reducible apply Same.refl)
    | (with_reducible intro _)
    | (with_reducible apply Same.ite)
    | (with_reducible apply Same.pre (Dev.setOct_same ..))
    | (with_reducible apply Same.pre (Dev.storeVal_same ..))
    | (with_reducible apply Same.pre (Same.foldl ?_ _ _))
    | split
    | dsimp only

theorem Dev.fuseSense_same (d : Dev) (fuses : Option (List (Nat × Nat × List Byte))) : Same d (Dev.fuseSense d fuses) := by
  unfold Dev.fuseSense
  repeat' first
    | (with_reducible apply Same.refl)
    | (with_reducible intro _)
    | (with_reducible apply Same.ite)
    | (with_reducible apply Same.pre (Dev.bootFault_same ..))
    | (with_reducible apply Same.pre (Dev.sense_same ..))
    | simp only [Same.upd]
    | split
    | dsimp only

theorem sourceStableEffect_same (i : Nat) (fuses : Option (List (Nat × Nat × List Byte))) (d : Dev) : Same d (sourceStableEffect i fuses d) := by
  unfold sourceStableEffect
  repeat' first
    | (with_reducible apply Same.refl)
    | (with_reducible intro _)
    | (with_reducible apply Same.ite)
    | (with_reducible apply Same.pre (Dev.when_same _ _ _ ?_))
    | (with_reducible apply Same.pre (Dev.setSrc_same ..))
    | (with_reducible apply Same.pre (Dev.pllsStart_same ..))
    | (with_reducible apply Same.pre (Dev.switchSys_same ..))
    | (with_reducible apply Same.pre (Dev.switchTime_same ..))
    | (with_reducible apply Same.pre (Dev.fuseSense_same ..))
    | split
    | dsimp only

theorem Dev.missing_same (d : Dev) : Same d (Dev.missing d) := by
  unfold Dev.missing
  repeat' first
    | (with_reducible apply Same.refl)
    | (with_reducible intro _)
    | (with_reducible apply Same.ite)
    | (with_reducible apply Same.pre (Dev.inc_same ..))
    | (with_reducible apply Same.pre (Dev.occur_same ..))
    | split
    | dsimp only

theorem clockMissingEffect_same (i : Nat) (d : Dev) : Same d (clockMissingEffect i d) := by
  unfold clockMissingEffect
  repeat' first
    | (with_reducible apply Same.refl)
    | (with_reducible intro _)
    | (with_reducible apply Same.ite)
    | (with_reducible apply Same.pre (Dev.when_same _ _ _ ?_))
    | (with_reducible apply Same.pre (Dev.setSrc_same ..))
    | (with_reducible apply Same.pre (Dev.holdPll_same ..))
    | (with_reducible apply Same.pre (Dev.switchSys_same ..))
    | (with_reducible apply Same.pre (Dev.switchTime_same ..))
    | (with_reducible apply Same.pre (Dev.missing_same ..))
    | (with_reducible apply Same.pre (Same.foldl ?_ _ _))
    | split
    | dsimp only

theorem clockReturnEffect_same (i : Nat) (d : Dev) : Same d (clockReturnEffect i d) := by
  unfold clockReturnEffect
  repeat' first
    | (with_reducible apply Same.refl)
    | (with_reducible intro _)
    | (with_reducible apply Same.ite)
    | (with_reducible apply Same.pre (Dev.when_same _ _ _ ?_))
    | (with_reducible apply Same.pre (Dev.setSrc_same ..))
    | split
    | dsimp only

theorem Dev.setTxPll_same (d : Dev) (k : Nat) (st : Nat) : Same d (Dev.setTxPll d k st) := by
  unfold Dev.setTxPll
  repeat' first
    | (with_reducible apply Same.refl)
    | (with_reducible intro _)
    | (with_reducible apply Same.ite)
    | simp only [Same.upd]
    | split
    | dsimp only

theorem pllLossEffect_same (p : Sum (Fin 11) (Sum (Fin 8 × Fin 16) (Fin 36 × Fin 2))) (d : Dev) : Same d (pllLossEffect p d) := by
  unfold pllLossEffect
  repeat' first
    | (with_reducible apply Same.refl)
    | (with_reducible intro _)
    | (with_reducible apply Same.ite)
    | (with_reducible apply Same.pre (Dev.when_same _ _ _ ?_))
    | (with_reducible apply Same.pre (Dev.setNat_same ..))
    | (with_reducible apply Same.pre (Dev.recheckQuad_same ..))
    | (with_reducible apply Same.pre (Dev.holdPll_same ..))
    | (with_reducible apply Same.pre (Dev.missing_same ..))
    | (with_reducible apply Same.pre (Dev.setTxPll_same ..))
    | simp only [Same.upd]
    | split
    | dsimp only

theorem pllLockEffect_same (p : Sum (Fin 11) (Sum (Fin 8 × Fin 16) (Fin 36 × Fin 2))) (d : Dev) : Same d (pllLockEffect p d) := by
  unfold pllLockEffect
  repeat' first
    | (with_reducible apply Same.refl)
    | (with_reducible intro _)
    | (with_reducible apply Same.ite)
    | (with_reducible apply Same.pre (Dev.when_same _ _ _ ?_))
    | (with_reducible apply Same.pre (Dev.setNat_same ..))
    | (with_reducible apply Same.pre (Dev.recheckQuad_same ..))
    | (with_reducible apply Same.pre (Dev.bootGo_same ..))
    | (with_reducible apply Same.pre (Dev.setPll_same ..))
    | (with_reducible apply Same.pre (Dev.pllsStart_same ..))
    | (with_reducible apply Same.pre (Dev.setTxPll_same ..))
    | simp only [Same.upd]
    | split
    | dsimp only

theorem Dev.frostTraining_same (d : Dev) (ch : Nat) : Same d (Dev.frostTraining d ch) := by
  unfold Dev.frostTraining
  repeat' first
    | (with_reducible apply Same.refl)
    | (with_reducible intro _)
    | (with_reducible apply Same.ite)
    | (with_reducible apply Same.pre (Dev.frost_same ..))
    | split
    | dsimp only

theorem Dev.txPllDown_same (d : Dev) (q : Nat) (p : Nat) : Same d (Dev.txPllDown d q p) := by
  unfold Dev.txPllDown
  repeat' first
    | (with_reducible apply Same.refl)
    | (with_reducible intro _)
    | (with_reducible apply Same.ite)
    | (with_reducible apply Same.pre (Dev.portFall_same ..))
    | split
    | dsimp only

theorem pllHoldoverEffect_safe (p : Sum (Fin 11) (Fin 36 × Fin 2)) (pins : Nat) (d : Dev) : Safe d (pllHoldoverEffect p pins d) := by
  unfold pllHoldoverEffect
  repeat' first
    | (with_reducible apply Safe.refl)
    | (with_reducible intro _)
    | (with_reducible apply Safe.ite)
    | (with_reducible apply Safe.pre (Dev.when_safe _ _ _ ?_))
    | (with_reducible apply Safe.pre (Dev.setNat_same ..).safe)
    | (with_reducible apply Safe.pre (Dev.deviceReset_safe ..))
    | (with_reducible apply Safe.pre (Dev.setPll_same ..).safe)
    | (with_reducible apply Safe.pre (Dev.setTxPll_same ..).safe)
    | (with_reducible apply Safe.pre (Dev.frostTraining_same ..).safe)
    | (with_reducible apply Safe.pre (Dev.txPllDown_same ..).safe)
    | (with_reducible apply Safe.pre (Safe.foldl ?_ _ _))
    | split
    | dsimp only

theorem pllLockTimeoutEffect_same (d : Dev) : Same d (pllLockTimeoutEffect d) := by
  unfold pllLockTimeoutEffect
  repeat' first
    | (with_reducible apply Same.refl)
    | (with_reducible intro _)
    | (with_reducible apply Same.ite)
    | (with_reducible apply Same.pre (Dev.when_same _ _ _ ?_))
    | (with_reducible apply Same.pre (Dev.drawn_same ..))
    | (with_reducible apply Same.pre (Dev.bootFault_same ..))
    | split
    | dsimp only

theorem Dev.gateChanged_same (d : Dev) (node : Nat) : Same d (Dev.gateChanged d node) := by
  unfold Dev.gateChanged
  repeat' first
    | (with_reducible apply Same.refl)
    | (with_reducible intro _)
    | (with_reducible apply Same.ite)
    | (with_reducible apply Same.pre (Dev.setPll_same ..))
    | (with_reducible apply Same.pre (Dev.pllsStart_same ..))
    | split
    | dsimp only

theorem Dev.xbChanged_same (d : Dev) : Same d (Dev.xbChanged d) := by
  unfold Dev.xbChanged
  repeat' first
    | (with_reducible apply Same.refl)
    | (with_reducible intro _)
    | (with_reducible apply Same.ite)
    | (with_reducible apply Same.pre (Dev.setSrc_same ..))
    | split
    | dsimp only

theorem Dev.clockReverted_same (d : Dev) : Same d (Dev.clockReverted d) := by
  unfold Dev.clockReverted
  repeat' first
    | (with_reducible apply Same.refl)
    | (with_reducible intro _)
    | (with_reducible apply Same.ite)
    | (with_reducible apply Same.pre (Dev.setNat_same ..))
    | split
    | dsimp only

theorem Dev.fabPllChanged_same (d : Dev) (f : Nat) (k : Nat) : Same d (Dev.fabPllChanged d f k) := by
  unfold Dev.fabPllChanged
  repeat' first
    | (with_reducible apply Same.refl)
    | (with_reducible intro _)
    | (with_reducible apply Same.ite)
    | (with_reducible apply Same.pre (Dev.setNat_same ..))
    | split
    | dsimp only

end Sys2Proof.Machine
end

