-- ==== Sys2Proof/Laws/SelfTest.lean ====
section
/-! SUPPORT. What each operation of Machine/SelfTest.lean keeps (`Same` and `Safe` of Laws/Frame.lean). -/

set_option Elab.async false
set_option linter.unusedTactic false
set_option linter.unreachableTactic false

namespace Sys2Proof.Machine

theorem Dev.setSliceOf_same (d : Dev) (s : Slice_) : Same d (Dev.setSliceOf d s) := by
  unfold Dev.setSliceOf
  repeat' first
    | (with_reducible apply Same.refl)
    | (with_reducible intro _)
    | (with_reducible apply Same.ite)
    | simp only [Same.upd]
    | split
    | dsimp only

theorem Dev.dropSlice_same (d : Dev) (u : Nat) (i : Nat) : Same d (Dev.dropSlice d u i) := by
  unfold Dev.dropSlice
  repeat' first
    | (with_reducible apply Same.refl)
    | (with_reducible intro _)
    | (with_reducible apply Same.ite)
    | simp only [Same.upd]
    | split
    | dsimp only

theorem Dev.deferSlice_same (d : Dev) (s : Slice_) : Same d (Dev.deferSlice d s) := by
  unfold Dev.deferSlice
  repeat' first
    | (with_reducible apply Same.refl)
    | (with_reducible intro _)
    | (with_reducible apply Same.ite)
    | (with_reducible apply Same.pre (Dev.inc_same ..))
    | (with_reducible apply Same.pre (Dev.setSliceOf_same ..))
    | simp only [Same.upd]
    | split
    | dsimp only

theorem Dev.trySlice_same (d : Dev) (s : Slice_) : Same d (Dev.trySlice d s) := by
  unfold Dev.trySlice
  repeat' first
    | (with_reducible apply Same.refl)
    | (with_reducible intro _)
    | (with_reducible apply Same.ite)
    | (with_reducible apply Same.pre (Dev.setSliceOf_same ..))
    | (with_reducible apply Same.pre (Dev.deferSlice_same ..))
    | simp only [Same.upd]
    | split
    | dsimp only

theorem sliceDueEffect_same (u : Nat) (i : Nat) (d : Dev) : Same d (sliceDueEffect u i d) := by
  unfold sliceDueEffect
  repeat' first
    | (with_reducible apply Same.refl)
    | (with_reducible intro _)
    | (with_reducible apply Same.ite)
    | (with_reducible apply Same.pre (Dev.when_same _ _ _ ?_))
    | (with_reducible apply Same.pre (Dev.trySlice_same ..))
    | split
    | dsimp only

theorem handshakeEffect_same (u : Nat) (i : Nat) (d : Dev) : Same d (handshakeEffect u i d) := by
  unfold handshakeEffect
  repeat' first
    | (with_reducible apply Same.refl)
    | (with_reducible intro _)
    | (with_reducible apply Same.ite)
    | (with_reducible apply Same.pre (Dev.when_same _ _ _ ?_))
    | (with_reducible apply Same.pre (Dev.dropSlice_same ..))
    | (with_reducible apply Same.pre (Dev.deferSlice_same ..))
    | (with_reducible apply Same.pre (Dev.setSliceOf_same ..))
    | simp only [Same.upd]
    | split
    | dsimp only

theorem handshakeLateEffect_same (u : Nat) (i : Nat) (d : Dev) : Same d (handshakeLateEffect u i d) := by
  unfold handshakeLateEffect
  repeat' first
    | (with_reducible apply Same.refl)
    | (with_reducible intro _)
    | (with_reducible apply Same.ite)
    | (with_reducible apply Same.pre (Dev.when_same _ _ _ ?_))
    | (with_reducible apply Same.pre (Dev.deferSlice_same ..))
    | split
    | dsimp only

theorem retryEffect_same (u : Nat) (i : Nat) (d : Dev) : Same d (retryEffect u i d) := by
  unfold retryEffect
  repeat' first
    | (with_reducible apply Same.refl)
    | (with_reducible intro _)
    | (with_reducible apply Same.ite)
    | (with_reducible apply Same.pre (Dev.when_same _ _ _ ?_))
    | (with_reducible apply Same.pre (Dev.dropSlice_same ..))
    | (with_reducible apply Same.pre (Dev.trySlice_same ..))
    | split
    | dsimp only

theorem Dev.testEntry_same (d : Dev) (s : Slice_) (outcome : Nat) (signature : Nat) : Same d (Dev.testEntry d s outcome signature) := by
  unfold Dev.testEntry
  repeat' first
    | (with_reducible apply Same.refl)
    | (with_reducible intro _)
    | (with_reducible apply Same.ite)
    | (with_reducible apply Same.pre (Dev.writeArea_same ..))
    | simp only [Same.upd]
    | split
    | dsimp only

theorem Dev.abortSlices_same (d : Dev) (p : Slice_ → Bool) : Same d (Dev.abortSlices d p) := by
  unfold Dev.abortSlices
  repeat' first
    | (with_reducible apply Same.refl)
    | (with_reducible intro _)
    | (with_reducible apply Same.ite)
    | (with_reducible apply Same.pre (Dev.drawn_same ..))
    | (with_reducible apply Same.pre (Dev.dropSlice_same ..))
    | (with_reducible apply Same.pre (Dev.testEntry_same ..))
    | (with_reducible apply Same.pre (Same.foldl ?_ _ _))
    | split
    | dsimp only

theorem Dev.permanent_same (d : Dev) (x : Nat) : Same d (Dev.permanent d x) := by
  unfold Dev.permanent
  repeat' first
    | (with_reducible apply Same.refl)
    | (with_reducible intro _)
    | (with_reducible apply Same.ite)
    | (with_reducible apply Same.pre (Dev.setNat_same ..))
    | (with_reducible apply Same.pre (Dev.keepDiag_same ..))
    | (with_reducible apply Same.pre (Dev.lifeStates_same ..))
    | split
    | dsimp only

theorem Dev.sliceFail_same (d : Dev) (s : Slice_) (signature : Nat) : Same d (Dev.sliceFail d s signature) := by
  unfold Dev.sliceFail
  repeat' first
    | (with_reducible apply Same.refl)
    | (with_reducible intro _)
    | (with_reducible apply Same.ite)
    | (with_reducible apply Same.pre (Dev.inc_same ..))
    | (with_reducible apply Same.pre (Dev.occur_same ..))
    | (with_reducible apply Same.pre (Dev.setAge_same ..))
    | (with_reducible apply Same.pre (Dev.testEntry_same ..))
    | (with_reducible apply Same.pre (Dev.permanent_same ..))
    | simp only [Same.upd]
    | split
    | dsimp only

theorem Dev.sliceOver_same (d : Dev) (s : Slice_) : Same d (Dev.sliceOver d s) := by
  unfold Dev.sliceOver
  repeat' first
    | (with_reducible apply Same.refl)
    | (with_reducible intro _)
    | (with_reducible apply Same.ite)
    | (with_reducible apply Same.pre (Dev.setNat_same ..))
    | (with_reducible apply Same.pre (Dev.dropSlice_same ..))
    | simp only [Same.upd]
    | split
    | dsimp only

theorem sliceEndEffect_same (u : Nat) (i : Nat) (signature : Nat) (d : Dev) : Same d (sliceEndEffect u i signature d) := by
  unfold sliceEndEffect
  repeat' first
    | (with_reducible apply Same.refl)
    | (with_reducible intro _)
    | (with_reducible apply Same.ite)
    | (with_reducible apply Same.pre (Dev.when_same _ _ _ ?_))
    | (with_reducible apply Same.pre (Dev.inc_same ..))
    | (with_reducible apply Same.pre (Dev.setSliceOf_same ..))
    | (with_reducible apply Same.pre (Dev.trySlice_same ..))
    | (with_reducible apply Same.pre (Dev.testEntry_same ..))
    | (with_reducible apply Same.pre (Dev.sliceFail_same ..))
    | (with_reducible apply Same.pre (Dev.sliceOver_same ..))
    | simp only [Same.upd]
    | split
    | dsimp only

theorem Dev.runNow_same (d : Dev) : Same d (Dev.runNow d) := by
  unfold Dev.runNow
  repeat' first
    | (with_reducible apply Same.refl)
    | (with_reducible intro _)
    | (with_reducible apply Same.ite)
    | (with_reducible apply Same.pre (Dev.setNat_same ..))
    | simp only [Same.upd]
    | split
    | dsimp only

theorem Dev.clearPermanent_same (d : Dev) (bits : Nat) : Same d (Dev.clearPermanent d bits) := by
  unfold Dev.clearPermanent
  repeat' first
    | (with_reducible apply Same.refl)
    | (with_reducible intro _)
    | (with_reducible apply Same.ite)
    | (with_reducible apply Same.pre (Dev.setNat_same ..))
    | (with_reducible apply Same.pre (Dev.keepDiag_same ..))
    | (with_reducible apply Same.pre (Dev.lifeStates_same ..))
    | (with_reducible apply Same.pre (Same.foldl ?_ _ _))
    | split
    | dsimp only

end Sys2Proof.Machine
end

