-- ==== Sys2Proof/Laws/Store.lean ====
section
/-! SUPPORT. What each operation of Machine/Store.lean keeps (`Same` and `Safe` of Laws/Frame.lean). -/

set_option Elab.async false
set_option linter.unusedTactic false
set_option linter.unreachableTactic false

namespace Sys2Proof.Machine

theorem Dev.setExt_same (d : Dev) (n : Nat) (x : Ext) : Same d (Dev.setExt d n x) := by
  unfold Dev.setExt
  repeat' first
    | (with_reducible apply Same.refl)
    | (with_reducible intro _)
    | (with_reducible apply Same.ite)
    | simp only [Same.upd]
    | split
    | dsimp only

theorem Dev.tellExt_same (d : Dev) (n : Nat) : Same d (Dev.tellExt d n) := by
  unfold Dev.tellExt
  repeat' first
    | (with_reducible apply Same.refl)
    | (with_reducible intro _)
    | (with_reducible apply Same.ite)
    | (with_reducible apply Same.pre (Dev.mirror_same ..))
    | split
    | dsimp only

theorem Dev.putExt_safe (d : Dev) (n : Nat) (x : Ext) : Safe d (Dev.putExt d n x) := by
  unfold Dev.putExt
  repeat' first
    | (with_reducible apply Safe.refl)
    | (with_reducible intro _)
    | (with_reducible apply Safe.ite)
    | (with_reducible apply Safe.pre (Dev.postAt_safe ..))
    | (with_reducible apply Safe.pre (Dev.setExt_same ..).safe)
    | (with_reducible apply Safe.pre (Dev.tellExt_same ..).safe)
    | split
    | dsimp only

theorem Dev.putRuns_safe (d : Dev) (n : Nat) : Safe d (Dev.putRuns d n) := by
  unfold Dev.putRuns
  repeat' first
    | (with_reducible apply Safe.refl)
    | (with_reducible intro _)
    | (with_reducible apply Safe.ite)
    | (with_reducible apply Safe.pre (Dev.postAt_safe ..))
    | split
    | dsimp only

theorem Dev.setStrm_same (d : Dev) (s : Nat) (e : Nat) (x : Stream) : Same d (Dev.setStrm d s e x) := by
  unfold Dev.setStrm
  repeat' first
    | (with_reducible apply Same.refl)
    | (with_reducible intro _)
    | (with_reducible apply Same.ite)
    | simp only [Same.upd]
    | split
    | dsimp only

theorem Dev.setCtl_same (d : Dev) (c : Nat) (x : CtlAux) : Same d (Dev.setCtl d c x) := by
  unfold Dev.setCtl
  repeat' first
    | (with_reducible apply Same.refl)
    | (with_reducible intro _)
    | (with_reducible apply Same.ite)
    | simp only [Same.upd]
    | split
    | dsimp only

theorem Dev.setQuery_same (d : Dev) (j : Nat) (x : QueryAux) : Same d (Dev.setQuery d j x) := by
  unfold Dev.setQuery
  repeat' first
    | (with_reducible apply Same.refl)
    | (with_reducible intro _)
    | (with_reducible apply Same.ite)
    | simp only [Same.upd]
    | split
    | dsimp only

theorem Dev.pumpCtl_same (d : Dev) (c : Nat) (x0 : Nat) : Same d (Dev.pumpCtl d c x0) := by
  induction x0 generalizing d c with
  | zero => exact Same.refl _
  | succ n ih =>
    unfold Dev.pumpCtl
    repeat' first
      | (with_reducible apply Same.refl)
      | (with_reducible intro _)
      | (with_reducible apply Same.pre (ih ..))
      | (with_reducible apply Same.ite)
      | (with_reducible apply Same.pre (Dev.send_same ..))
      | simp only [Same.upd]
      | split
      | dsimp only

theorem Dev.nvme_same (d : Dev) (c : Nat) (nsid : Nat) (use : NvmeUse) (lba : Nat) (len : Nat) (data : List Byte) (retried : Bool) : Same d (Dev.nvme d c nsid use lba len data retried) := by
  unfold Dev.nvme
  repeat' first
    | (with_reducible apply Same.refl)
    | (with_reducible intro _)
    | (with_reducible apply Same.ite)
    | (with_reducible apply Same.pre (Dev.send_same ..))
    | (with_reducible apply Same.pre (Dev.setCtl_same ..))
    | simp only [Same.upd]
    | split
    | dsimp only

theorem Dev.again_same (d : Dev) (k : NvmeCmd) : Same d (Dev.again d k) := by
  unfold Dev.again
  repeat' first
    | (with_reducible apply Same.refl)
    | (with_reducible intro _)
    | (with_reducible apply Same.ite)
    | (with_reducible apply Same.pre (Dev.nvme_same ..))
    | split
    | dsimp only

theorem Dev.nsCmd_same (d : Dev) (i : Nat) (use : NvmeUse) (lba : Nat) (len : Nat) (data : List Byte) : Same d (Dev.nsCmd d i use lba len data) := by
  unfold Dev.nsCmd
  repeat' first
    | (with_reducible apply Same.refl)
    | (with_reducible intro _)
    | (with_reducible apply Same.ite)
    | (with_reducible apply Same.pre (Dev.nvme_same ..))
    | split
    | dsimp only

theorem Dev.extCmd_same (d : Dev) (n : Nat) (off : Nat) (use : NvmeUse) (len : Nat) (data : List Byte) : Same d (Dev.extCmd d n off use len data) := by
  unfold Dev.extCmd
  repeat' first
    | (with_reducible apply Same.refl)
    | (with_reducible intro _)
    | (with_reducible apply Same.ite)
    | (with_reducible apply Same.pre (Dev.nsCmd_same ..))
    | split
    | dsimp only

theorem Dev.extWrite_same (d : Dev) (n : Nat) (off : Nat) (use : NvmeUse) (data : List Byte) : Same d (Dev.extWrite d n off use data) := by
  unfold Dev.extWrite
  repeat' first
    | (with_reducible apply Same.refl)
    | (with_reducible intro _)
    | (with_reducible apply Same.ite)
    | (with_reducible apply Same.pre (Dev.extCmd_same ..))
    | split
    | dsimp only

theorem Dev.metaWrite_same (d : Dev) (n : Nat) : Same d (Dev.metaWrite d n) := by
  unfold Dev.metaWrite
  repeat' first
    | (with_reducible apply Same.refl)
    | (with_reducible intro _)
    | (with_reducible apply Same.ite)
    | (with_reducible apply Same.pre (Dev.nsCmd_same ..))
    | split
    | dsimp only

theorem Dev.restage_same (d : Dev) (e : Nat) : Same d (Dev.restage d e) := by
  unfold Dev.restage
  repeat' first
    | (with_reducible apply Same.refl)
    | (with_reducible intro _)
    | (with_reducible apply Same.ite)
    | (with_reducible apply Same.pre (Dev.setEng_same ..))
    | simp only [Same.upd]
    | split
    | dsimp only

theorem Dev.release_same (d : Dev) (e : Nat) : Same d (Dev.release d e) := by
  unfold Dev.release
  repeat' first
    | (with_reducible apply Same.refl)
    | (with_reducible intro _)
    | (with_reducible apply Same.ite)
    | (with_reducible apply Same.pre (Dev.setEng_same ..))
    | (with_reducible apply Same.pre (Dev.restage_same ..))
    | simp only [Same.upd]
    | split
    | dsimp only

theorem Dev.closeSub_same (d : Dev) (n : Nat) : Same d (Dev.closeSub d n) := by
  unfold Dev.closeSub
  repeat' first
    | (with_reducible apply Same.refl)
    | (with_reducible intro _)
    | (with_reducible apply Same.ite)
    | (with_reducible apply Same.pre (Dev.mirror_same ..))
    | (with_reducible apply Same.pre (Dev.setExt_same ..))
    | simp only [Same.upd]
    | split
    | dsimp only

theorem Dev.writeUnits_same (d : Dev) (n : Nat) (all : Bool) (x0 : Nat) : Same d (Dev.writeUnits d n all x0) := by
  induction x0 generalizing d n all with
  | zero => exact Same.refl _
  | succ n ih =>
    unfold Dev.writeUnits
    repeat' first
      | (with_reducible apply Same.refl)
      | (with_reducible intro _)
      | (with_reducible apply Same.pre (ih ..))
      | (with_reducible apply Same.ite)
      | (with_reducible apply Same.pre (Dev.setExt_same ..))
      | (with_reducible apply Same.pre (Dev.extWrite_same ..))
      | simp only [Same.upd]
      | split
      | dsimp only

theorem Dev.closeExt_safe (d : Dev) (n : Nat) : Safe d (Dev.closeExt d n) := by
  unfold Dev.closeExt
  repeat' first
    | (with_reducible apply Safe.refl)
    | (with_reducible intro _)
    | (with_reducible apply Safe.ite)
    | (with_reducible apply Safe.pre (Dev.setExt_same ..).safe)
    | (with_reducible apply Safe.pre (Dev.putExt_safe ..))
    | (with_reducible apply Safe.pre (Dev.extWrite_same ..).safe)
    | (with_reducible apply Safe.pre (Dev.metaWrite_same ..).safe)
    | (with_reducible apply Safe.pre (Dev.closeSub_same ..).safe)
    | (with_reducible apply Safe.pre (Dev.writeUnits_same ..).safe)
    | simp only [Safe.upd]
    | split
    | dsimp only

theorem Dev.settleExt_safe (d : Dev) (n : Nat) : Safe d (Dev.settleExt d n) := by
  unfold Dev.settleExt
  repeat' first
    | (with_reducible apply Safe.refl)
    | (with_reducible intro _)
    | (with_reducible apply Safe.ite)
    | (with_reducible apply Safe.pre (Dev.putExt_safe ..))
    | simp only [Safe.upd]
    | split
    | dsimp only

theorem Dev.relink_safe (d : Dev) (n : Nat) (next : Nat) : Safe d (Dev.relink d n next) := by
  unfold Dev.relink
  repeat' first
    | (with_reducible apply Safe.refl)
    | (with_reducible intro _)
    | (with_reducible apply Safe.ite)
    | (with_reducible apply Safe.pre (Dev.putExt_safe ..))
    | (with_reducible apply Safe.pre (Dev.metaWrite_same ..).safe)
    | simp only [Safe.upd]
    | split
    | dsimp only

theorem Dev.unchain_safe (d : Dev) (n : Nat) : Safe d (Dev.unchain d n) := by
  unfold Dev.unchain
  repeat' first
    | (with_reducible apply Safe.refl)
    | (with_reducible intro _)
    | (with_reducible apply Safe.ite)
    | (with_reducible apply Safe.pre (Dev.setStrm_same ..).safe)
    | (with_reducible apply Safe.pre (Dev.relink_safe ..))
    | simp only [Safe.upd]
    | split
    | dsimp only

theorem Dev.reclaimExt_safe (d : Dev) (n : Nat) : Safe d (Dev.reclaimExt d n) := by
  unfold Dev.reclaimExt
  repeat' first
    | (with_reducible apply Safe.refl)
    | (with_reducible intro _)
    | (with_reducible apply Safe.ite)
    | (with_reducible apply Safe.pre (Dev.putExt_safe ..))
    | (with_reducible apply Safe.pre (Dev.extCmd_same ..).safe)
    | (with_reducible apply Safe.pre (Dev.metaWrite_same ..).safe)
    | (with_reducible apply Safe.pre (Dev.unchain_safe ..))
    | simp only [Safe.upd]
    | split
    | dsimp only

theorem Dev.pickFree_same {d e : Dev} {k n : Nat} (h : d.pickFree k = some (n, e)) : Same d e := by
  unfold Dev.pickFree at h
  dsimp only at h
  repeat' split at h
  all_goals cases h
  all_goals
    simp only [Same.upd]
    exact Same.refl d

theorem Dev.splitRun_safe (d : Dev) (n : Nat) (src : List (Nat × Nat)) : Safe d (Dev.splitRun d n src) := by
  unfold Dev.splitRun
  repeat' first
    | (with_reducible apply Safe.refl)
    | (with_reducible intro _)
    | (with_reducible apply Safe.ite)
    | (with_reducible apply Safe.pre (Dev.setExt_same ..).safe)
    | (with_reducible apply Safe.pre (Dev.putRuns_safe ..))
    | simp only [Safe.upd]
    | split
    | dsimp only

theorem Dev.stallTold_same (d : Dev) (s : Nat) : Same d (Dev.stallTold d s) := by
  unfold Dev.stallTold
  repeat' first
    | (with_reducible apply Same.refl)
    | (with_reducible intro _)
    | (with_reducible apply Same.ite)
    | (with_reducible apply Same.pre (Dev.setNat_same ..))
    | (with_reducible apply Same.pre (Dev.inc_same ..))
    | (with_reducible apply Same.pre (Dev.occur_same ..))
    | split
    | dsimp only

theorem Dev.stallBody_safe (d : Dev) (s : Nat) (e : Nat) : Safe d (Dev.stallBody d s e) := by
  unfold Dev.stallBody
  repeat' first
    | (with_reducible apply Safe.refl)
    | (with_reducible intro _)
    | (with_reducible apply Safe.ite)
    | (with_reducible apply Safe.pre (Dev.add_same ..).safe)
    | (with_reducible apply Safe.pre (Dev.setEng_same ..).safe)
    | (with_reducible apply Safe.pre (Dev.setStrm_same ..).safe)
    | (with_reducible apply Safe.pre (Dev.restage_same ..).safe)
    | (with_reducible apply Safe.pre (Dev.splitRun_safe ..))
    | simp only [Safe.upd]
    | split
    | dsimp only

theorem Dev.stallStream_safe (d : Dev) (s : Nat) (e : Nat) : Safe d (Dev.stallStream d s e) := by
  unfold Dev.stallStream
  repeat' first
    | (with_reducible apply Safe.refl)
    | (with_reducible intro _)
    | (with_reducible apply Safe.ite)
    | (with_reducible apply Safe.pre (Dev.stallTold_same ..).safe)
    | (with_reducible apply Safe.pre (Dev.stallBody_safe ..))
    | split
    | dsimp only

theorem Dev.stallSession_safe (d : Dev) (s : Nat) : Safe d (Dev.stallSession d s) := by
  unfold Dev.stallSession
  repeat' first
    | (with_reducible apply Safe.refl)
    | (with_reducible intro _)
    | (with_reducible apply Safe.ite)
    | (with_reducible apply Safe.pre (Dev.stallTold_same ..).safe)
    | (with_reducible apply Safe.pre (Dev.stallBody_safe ..))
    | split
    | dsimp only

theorem Dev.tableFault_safe (d : Dev) : Safe d (Dev.tableFault d) := by
  unfold Dev.tableFault
  repeat' first
    | (with_reducible apply Safe.refl)
    | (with_reducible intro _)
    | (with_reducible apply Safe.ite)
    | (with_reducible apply Safe.pre (Dev.setNat_same ..).safe)
    | (with_reducible apply Safe.pre (Dev.stallSession_safe ..))
    | (with_reducible apply Safe.pre (Safe.foldl ?_ _ _))
    | split
    | dsimp only

theorem Dev.tableRead_safe (d : Dev) (e : Nat) (n : Nat) : Safe d (Dev.tableRead d e n).2 := by
  unfold Dev.tableRead
  repeat' first
    | (with_reducible apply Safe.refl)
    | (with_reducible intro _)
    | (with_reducible apply Safe.ite)
    | (with_reducible apply Safe.pre (Dev.fetch_safe ..))
    | (with_reducible apply Safe.pre (Dev.tableFault_safe ..))
    | split
    | dsimp only

theorem Dev.unstall_same (d : Dev) (s : Nat) : Same d (Dev.unstall d s) := by
  unfold Dev.unstall
  repeat' first
    | (with_reducible apply Same.refl)
    | (with_reducible intro _)
    | (with_reducible apply Same.ite)
    | (with_reducible apply Same.pre (Dev.setNat_same ..))
    | (with_reducible apply Same.pre (Dev.setWin_same ..))
    | (with_reducible apply Same.pre (Dev.setStrm_same ..))
    | (with_reducible apply Same.pre (Same.foldl ?_ _ _))
    | simp only [Same.upd]
    | split
    | dsimp only

theorem Dev.allotExt_safe (d : Dev) (n : Nat) (x : Ext) : Safe d (Dev.allotExt d n x) := by
  unfold Dev.allotExt
  repeat' first
    | (with_reducible apply Safe.refl)
    | (with_reducible intro _)
    | (with_reducible apply Safe.ite)
    | (with_reducible apply Safe.pre (Dev.putExt_safe ..))
    | (with_reducible apply Safe.pre (Dev.putRuns_safe ..))
    | (with_reducible apply Safe.pre (Dev.metaWrite_same ..).safe)
    | simp only [Safe.upd]
    | split
    | dsimp only

theorem Dev.openExt_safe (d : Dev) (s : Nat) (e : Nat) (n : Nat) : Safe d (Dev.openExt d s e n) := by
  unfold Dev.openExt
  repeat' first
    | (with_reducible apply Safe.refl)
    | (with_reducible intro _)
    | (with_reducible apply Safe.ite)
    | (with_reducible apply Safe.pre (Dev.setStrm_same ..).safe)
    | (with_reducible apply Safe.pre (Dev.relink_safe ..))
    | (with_reducible apply Safe.pre (Dev.allotExt_safe ..))
    | simp only [Safe.upd]
    | split
    | dsimp only

theorem Dev.fullSub_same (d : Dev) (n : Nat) : Same d (Dev.fullSub d n) := by
  unfold Dev.fullSub
  repeat' first
    | (with_reducible apply Same.refl)
    | (with_reducible intro _)
    | (with_reducible apply Same.ite)
    | (with_reducible apply Same.pre (Dev.closeSub_same ..))
    | split
    | dsimp only

theorem Dev.appendExt_safe (d : Dev) (n : Nat) (p : StageIx) (bytes : List Byte) : Safe d (Dev.appendExt d n p bytes) := by
  unfold Dev.appendExt
  repeat' first
    | (with_reducible apply Safe.refl)
    | (with_reducible intro _)
    | (with_reducible apply Safe.ite)
    | (with_reducible apply Safe.pre (Dev.putExt_safe ..))
    | (with_reducible apply Safe.pre (Dev.putRuns_safe ..))
    | (with_reducible apply Safe.pre (Dev.writeUnits_same ..).safe)
    | (with_reducible apply Safe.pre (Dev.fullSub_same ..).safe)
    | simp only [Safe.upd]
    | split
    | dsimp only

theorem Dev.pinFor_safe (d : Dev) (s : Nat) (n : Nat) (r : Rec) : Safe d (Dev.pinFor d s n r) := by
  unfold Dev.pinFor
  repeat' first
    | (with_reducible apply Safe.refl)
    | (with_reducible intro _)
    | (with_reducible apply Safe.ite)
    | (with_reducible apply Safe.pre (Dev.putExt_safe ..))
    | (with_reducible apply Safe.pre (Dev.metaWrite_same ..).safe)
    | (with_reducible apply Safe.pre (Safe.foldl ?_ _ _))
    | simp only [Safe.upd]
    | split
    | dsimp only

theorem Dev.appendPkt_safe (d : Dev) (s : Nat) (e : Nat) (n : Nat) (p : StageIx) (bytes : List Byte) : Safe d (Dev.appendPkt d s e n p bytes) := by
  unfold Dev.appendPkt
  repeat' first
    | (with_reducible apply Safe.refl)
    | (with_reducible intro _)
    | (with_reducible apply Safe.ite)
    | (with_reducible apply Safe.pre (Dev.setOct_same ..).safe)
    | (with_reducible apply Safe.pre (Dev.setStrm_same ..).safe)
    | (with_reducible apply Safe.pre (Dev.appendExt_safe ..))
    | (with_reducible apply Safe.pre (Dev.pinFor_safe ..))
    | (with_reducible apply Safe.pre (Safe.foldl ?_ _ _))
    | simp only [Safe.upd]
    | split
    | dsimp only

theorem Dev.flushNs_same (d : Dev) (i : Nat) : Same d (Dev.flushNs d i) := by
  unfold Dev.flushNs
  repeat' first
    | (with_reducible apply Same.refl)
    | (with_reducible intro _)
    | (with_reducible apply Same.ite)
    | (with_reducible apply Same.pre (Dev.nsCmd_same ..))
    | split
    | dsimp only

theorem Dev.markLost_safe (d : Dev) (n : Nat) : Safe d (Dev.markLost d n) := by
  unfold Dev.markLost
  repeat' first
    | (with_reducible apply Safe.refl)
    | (with_reducible intro _)
    | (with_reducible apply Safe.ite)
    | (with_reducible apply Safe.pre (Dev.inc_same ..).safe)
    | (with_reducible apply Safe.pre (Dev.logNote_same ..).safe)
    | (with_reducible apply Safe.pre (Dev.occur_same ..).safe)
    | (with_reducible apply Safe.pre (Dev.putExt_safe ..))
    | (with_reducible apply Safe.pre (Dev.metaWrite_same ..).safe)
    | simp only [Safe.upd]
    | split
    | dsimp only

theorem Dev.storeFailure_safe (d : Dev) (n : Nat) : Safe d (Dev.storeFailure d n) := by
  unfold Dev.storeFailure
  repeat' first
    | (with_reducible apply Safe.refl)
    | (with_reducible intro _)
    | (with_reducible apply Safe.ite)
    | (with_reducible apply Safe.pre (Dev.markLost_safe ..))
    | simp only [Safe.upd]
    | split
    | dsimp only

theorem Dev.replaceExt_safe (d : Dev) (old : Nat) (new : Nat) : Safe d (Dev.replaceExt d old new) := by
  unfold Dev.replaceExt
  repeat' first
    | (with_reducible apply Safe.refl)
    | (with_reducible intro _)
    | (with_reducible apply Safe.ite)
    | (with_reducible apply Safe.pre (Dev.putExt_safe ..))
    | (with_reducible apply Safe.pre (Dev.setStrm_same ..).safe)
    | (with_reducible apply Safe.pre (Dev.metaWrite_same ..).safe)
    | (with_reducible apply Safe.pre (Dev.relink_safe ..))
    | simp only [Safe.upd]
    | split
    | dsimp only

theorem Dev.dropWrites_same (d : Dev) (n : Nat) : Same d (Dev.dropWrites d n) := by
  unfold Dev.dropWrites
  repeat' first
    | (with_reducible apply Same.refl)
    | (with_reducible intro _)
    | (with_reducible apply Same.ite)
    | simp only [Same.upd]
    | split
    | dsimp only

theorem Dev.rebuildExt_safe (d : Dev) (old : Nat) (new : Nat) (x : Ext) (ps : List (StageIx × List Byte)) : Safe d (Dev.rebuildExt d old new x ps) := by
  unfold Dev.rebuildExt
  repeat' first
    | (with_reducible apply Safe.refl)
    | (with_reducible intro _)
    | (with_reducible apply Safe.ite)
    | (with_reducible apply Safe.pre (Dev.setExt_same ..).safe)
    | (with_reducible apply Safe.pre (Dev.closeExt_safe ..))
    | (with_reducible apply Safe.pre (Dev.allotExt_safe ..))
    | (with_reducible apply Safe.pre (Dev.appendExt_safe ..))
    | (with_reducible apply Safe.pre (Dev.replaceExt_safe ..))
    | (with_reducible apply Safe.pre (Dev.dropWrites_same ..).safe)
    | (with_reducible apply Safe.pre (Safe.foldl ?_ _ _))
    | simp only [Safe.upd]
    | split
    | dsimp only

theorem Dev.moveExt_safe (d : Dev) (n : Nat) : Safe d (Dev.moveExt d n) := by
  unfold Dev.moveExt
  repeat' first
    | (with_reducible apply Safe.refl)
    | (with_reducible intro _)
    | (with_reducible apply Safe.ite)
    | (with_reducible refine Safe.pre (Dev.pickFree_same (by assumption)).safe ?_)
    | (with_reducible apply Safe.pre (Dev.rebuildExt_safe ..))
    | simp only [Safe.upd]
    | split
    | dsimp only

theorem Dev.relocate_safe (d : Dev) (n : Nat) : Safe d (Dev.relocate d n) := by
  unfold Dev.relocate
  repeat' first
    | (with_reducible apply Safe.refl)
    | (with_reducible intro _)
    | (with_reducible apply Safe.ite)
    | (with_reducible apply Safe.pre (Dev.setExt_same ..).safe)
    | (with_reducible apply Safe.pre (Dev.stallStream_safe ..))
    | (with_reducible apply Safe.pre (Dev.storeFailure_safe ..))
    | (with_reducible apply Safe.pre (Dev.dropWrites_same ..).safe)
    | (with_reducible apply Safe.pre (Dev.moveExt_safe ..))
    | simp only [Safe.upd]
    | split
    | dsimp only

theorem Dev.retryRelocs_safe (d : Dev) : Safe d (Dev.retryRelocs d) := by
  unfold Dev.retryRelocs
  repeat' first
    | (with_reducible apply Safe.refl)
    | (with_reducible intro _)
    | (with_reducible apply Safe.ite)
    | (with_reducible apply Safe.pre (Dev.moveExt_safe ..))
    | (with_reducible apply Safe.pre (Safe.foldl ?_ _ _))
    | split
    | dsimp only

theorem Dev.readFailed_safe (d : Dev) (j : Nat) (n : Nat) : Safe d (Dev.readFailed d j n) := by
  unfold Dev.readFailed
  repeat' first
    | (with_reducible apply Safe.refl)
    | (with_reducible intro _)
    | (with_reducible apply Safe.ite)
    | (with_reducible apply Safe.pre (Dev.setQuery_same ..).safe)
    | (with_reducible apply Safe.pre (Dev.storeFailure_safe ..))
    | simp only [Safe.upd]
    | split
    | dsimp only

theorem Dev.failCmd_safe (d : Dev) (k : NvmeCmd) : Safe d (Dev.failCmd d k) := by
  unfold Dev.failCmd
  repeat' first
    | (with_reducible apply Safe.refl)
    | (with_reducible intro _)
    | (with_reducible apply Safe.ite)
    | (with_reducible apply Safe.pre (Dev.again_same ..).safe)
    | (with_reducible apply Safe.pre (Dev.storeFailure_safe ..))
    | (with_reducible apply Safe.pre (Dev.relocate_safe ..))
    | (with_reducible apply Safe.pre (Dev.readFailed_safe ..))
    | (with_reducible apply Safe.pre (Safe.foldl ?_ _ _))
    | split
    | dsimp only

theorem Dev.failDead_safe (d : Dev) (x0 : Nat) : Safe d (Dev.failDead d x0) := by
  induction x0 generalizing d with
  | zero => exact Safe.refl _
  | succ n ih =>
    unfold Dev.failDead
    repeat' first
      | (with_reducible apply Safe.refl)
      | (with_reducible intro _)
      | (with_reducible apply Safe.pre (ih ..))
      | (with_reducible apply Safe.ite)
      | (with_reducible apply Safe.pre (Dev.failCmd_safe ..))
      | simp only [Safe.upd]
      | split
      | dsimp only

theorem Dev.stopEnds_same (d : Dev) : Same d (Dev.stopEnds d) := by
  unfold Dev.stopEnds
  repeat' first
    | (with_reducible apply Same.refl)
    | (with_reducible intro _)
    | (with_reducible apply Same.ite)
    | (with_reducible apply Same.pre (Dev.setNat_same ..))
    | simp only [Same.upd]
    | split
    | dsimp only

theorem Dev.stopGoesOn_safe (d : Dev) : Safe d (Dev.stopGoesOn d) := by
  unfold Dev.stopGoesOn
  repeat' first
    | (with_reducible apply Safe.refl)
    | (with_reducible intro _)
    | (with_reducible apply Safe.ite)
    | (with_reducible apply Safe.pre (Dev.closeExt_safe ..))
    | (with_reducible apply Safe.pre (Dev.flushNs_same ..).safe)
    | (with_reducible apply Safe.pre (Dev.stopEnds_same ..).safe)
    | (with_reducible apply Safe.pre (Safe.foldl ?_ _ _))
    | simp only [Safe.upd]
    | split
    | dsimp only

theorem Dev.storeTick_safe (d : Dev) : Safe d (Dev.storeTick d) := by
  unfold Dev.storeTick
  repeat' first
    | (with_reducible apply Safe.refl)
    | (with_reducible intro _)
    | (with_reducible apply Safe.ite)
    | (with_reducible apply Safe.pre (Dev.retryRelocs_safe ..))
    | (with_reducible apply Safe.pre (Dev.failDead_safe ..))
    | (with_reducible apply Safe.pre (Dev.stopGoesOn_safe ..))
    | split
    | dsimp only

theorem Dev.drainInto_safe (d : Dev) (s : Nat) (e : Nat) (n : Nat) (fresh : Bool) (p : StageIx) (bytes : List Byte) : Safe d (Dev.drainInto d s e n fresh p bytes) := by
  unfold Dev.drainInto
  repeat' first
    | (with_reducible apply Safe.refl)
    | (with_reducible intro _)
    | (with_reducible apply Safe.ite)
    | (with_reducible apply Safe.pre (Dev.release_same ..).safe)
    | (with_reducible apply Safe.pre (Dev.splitRun_safe ..))
    | (with_reducible apply Safe.pre (Dev.tableRead_safe ..))
    | (with_reducible apply Safe.pre (Dev.openExt_safe ..))
    | (with_reducible apply Safe.pre (Dev.appendPkt_safe ..))
    | simp only [Safe.upd]
    | split
    | dsimp only

theorem Dev.obtain_safe {k s e n : Nat} {d g : Dev} (h : d.obtain s e k = .got n g) : Safe d g := by
  induction k generalizing d with
  | zero => simp [Dev.obtain] at h
  | succ k ih =>
    unfold Dev.obtain at h
    split at h
    · split at h
      · exact nomatch h
      · split at h
        · exact nomatch h
        · split at h
          · exact nomatch h
          · have h1 (m : Nat) : Safe d ((d.reclaimExt m).inc O.storeSessionReclaimed s) := (Dev.reclaimExt_safe ..).trans (Dev.inc_same ..).safe
            extract_lets d1 at h
            split at h
            · exact (Obtain.got.inj h).2 ▸ h1 _
            · exact (h1 _).trans (ih h)
    · split at h
      · rename_i hp
        exact (Obtain.got.inj h).2 ▸ (Dev.pickFree_same hp).safe
      · exact nomatch h

theorem Dev.drainNew_safe (d : Dev) (s : Nat) (e : Nat) (p : StageIx) (bytes : List Byte) : Safe d (Dev.drainNew d s e p bytes) := by
  unfold Dev.drainNew
  repeat' first
    | (with_reducible apply Safe.refl)
    | (with_reducible intro _)
    | (with_reducible apply Safe.ite)
    | (with_reducible apply Safe.pre (Dev.release_same ..).safe)
    | (with_reducible apply Safe.pre (Dev.stallStream_safe ..))
    | (with_reducible apply Safe.pre (Dev.drainInto_safe ..))
    | (with_reducible refine Safe.pre (Dev.obtain_safe (by assumption)) ?_)
    | split
    | dsimp only

theorem stageDrainEffect_safe (e : Nat) (d : Dev) : Safe d (stageDrainEffect e d) := by
  unfold stageDrainEffect
  repeat' first
    | (with_reducible apply Safe.refl)
    | (with_reducible intro _)
    | (with_reducible apply Safe.ite)
    | (with_reducible apply Safe.pre (Dev.when_safe _ _ _ ?_))
    | (with_reducible apply Safe.pre (Dev.orHold_safe _ _ ?_))
    | (with_reducible apply Safe.pre (Dev.add_same ..).safe)
    | (with_reducible apply Safe.pre (Dev.fetch_safe ..))
    | (with_reducible apply Safe.pre (Dev.flushStage_safe ..))
    | (with_reducible apply Safe.pre (Dev.release_same ..).safe)
    | (with_reducible apply Safe.pre (Dev.closeExt_safe ..))
    | (with_reducible apply Safe.pre (Dev.storeTick_safe ..))
    | (with_reducible apply Safe.pre (Dev.drainInto_safe ..))
    | (with_reducible apply Safe.pre (Dev.drainNew_safe ..))
    | simp only [Safe.upd]
    | split
    | dsimp only

theorem drainAgeEffect_safe (e : Nat) (s : Nat) (d : Dev) : Safe d (drainAgeEffect e s d) := by
  unfold drainAgeEffect
  repeat' first
    | (with_reducible apply Safe.refl)
    | (with_reducible intro _)
    | (with_reducible apply Safe.ite)
    | (with_reducible apply Safe.pre (Dev.when_safe _ _ _ ?_))
    | (with_reducible apply Safe.pre (Dev.writeUnits_same ..).safe)
    | (with_reducible apply Safe.pre (Dev.storeTick_safe ..))
    | split
    | dsimp only

theorem flushIntervalEffect_safe (d : Dev) : Safe d (flushIntervalEffect d) := by
  unfold flushIntervalEffect
  repeat' first
    | (with_reducible apply Safe.refl)
    | (with_reducible intro _)
    | (with_reducible apply Safe.ite)
    | (with_reducible apply Safe.pre (Dev.when_safe _ _ _ ?_))
    | (with_reducible apply Safe.pre (Dev.flushNs_same ..).safe)
    | (with_reducible apply Safe.pre (Dev.storeTick_safe ..))
    | (with_reducible apply Safe.pre (Safe.foldl ?_ _ _))
    | simp only [Safe.upd]
    | split
    | dsimp only

theorem subAgeEffect_same (e : Nat) (s : Nat) (d : Dev) : Same d (subAgeEffect e s d) := by
  unfold subAgeEffect
  repeat' first
    | (with_reducible apply Same.refl)
    | (with_reducible intro _)
    | (with_reducible apply Same.ite)
    | (with_reducible apply Same.pre (Dev.when_same _ _ _ ?_))
    | (with_reducible apply Same.pre (Dev.closeSub_same ..))
    | split
    | dsimp only

theorem reclaimEffect_safe (s : Nat) (d : Dev) : Safe d (reclaimEffect s d) := by
  unfold reclaimEffect
  repeat' first
    | (with_reducible apply Safe.refl)
    | (with_reducible intro _)
    | (with_reducible apply Safe.ite)
    | (with_reducible apply Safe.pre (Dev.when_safe _ _ _ ?_))
    | (with_reducible apply Safe.pre (Dev.orHold_safe _ _ ?_))
    | (with_reducible apply Safe.pre (Dev.inc_same ..).safe)
    | (with_reducible apply Safe.pre (Dev.reclaimExt_safe ..))
    | (with_reducible apply Safe.pre (Dev.stallSession_safe ..))
    | (with_reducible apply Safe.pre (Dev.tableRead_safe ..))
    | (with_reducible apply Safe.pre (Dev.unstall_same ..).safe)
    | (with_reducible apply Safe.pre (Dev.storeTick_safe ..))
    | split
    | dsimp only

theorem Dev.quotaChanged_safe (d : Dev) (s : Nat) : Safe d (Dev.quotaChanged d s) := by
  unfold Dev.quotaChanged
  repeat' first
    | (with_reducible apply Safe.refl)
    | (with_reducible intro _)
    | (with_reducible apply Safe.ite)
    | (with_reducible apply Safe.pre (Dev.stallSession_safe ..))
    | (with_reducible apply Safe.pre (Dev.unstall_same ..).safe)
    | split
    | dsimp only

theorem Dev.unpinExt_safe (d : Dev) (n : Nat) : Safe d (Dev.unpinExt d n) := by
  unfold Dev.unpinExt
  repeat' first
    | (with_reducible apply Safe.refl)
    | (with_reducible intro _)
    | (with_reducible apply Safe.ite)
    | (with_reducible apply Safe.pre (Dev.putExt_safe ..))
    | (with_reducible apply Safe.pre (Dev.metaWrite_same ..).safe)
    | (with_reducible apply Safe.pre (Dev.unstall_same ..).safe)
    | simp only [Safe.upd]
    | split
    | dsimp only

theorem Dev.unpin_safe (d : Dev) (n : Nat) : Safe d (Dev.unpin d n) := by
  unfold Dev.unpin
  repeat' first
    | (with_reducible apply Safe.refl)
    | (with_reducible intro _)
    | (with_reducible apply Safe.ite)
    | (with_reducible apply Safe.pre (Dev.storeTick_safe ..))
    | (with_reducible apply Safe.pre (Dev.unpinExt_safe ..))
    | split
    | dsimp only

theorem Dev.unpinSession_safe (d : Dev) (s : Nat) : Safe d (Dev.unpinSession d s) := by
  unfold Dev.unpinSession
  repeat' first
    | (with_reducible apply Safe.refl)
    | (with_reducible intro _)
    | (with_reducible apply Safe.ite)
    | (with_reducible apply Safe.pre (Dev.storeTick_safe ..))
    | (with_reducible apply Safe.pre (Dev.unpinExt_safe ..))
    | (with_reducible apply Safe.pre (Safe.foldl ?_ _ _))
    | simp only [Safe.upd]
    | split
    | dsimp only

theorem Dev.releaseSession_same (d : Dev) (s : Nat) : Same d (Dev.releaseSession d s) := by
  unfold Dev.releaseSession
  repeat' first
    | (with_reducible apply Same.refl)
    | (with_reducible intro _)
    | (with_reducible apply Same.ite)
    | simp only [Same.upd]
    | split
    | dsimp only

theorem Dev.sessionDisabled_safe (d : Dev) (s : Nat) : Safe d (Dev.sessionDisabled d s) := by
  unfold Dev.sessionDisabled
  repeat' first
    | (with_reducible apply Safe.refl)
    | (with_reducible intro _)
    | (with_reducible apply Safe.ite)
    | (with_reducible apply Safe.pre (Dev.closeExt_safe ..))
    | (with_reducible apply Safe.pre (Dev.storeTick_safe ..))
    | (with_reducible apply Safe.pre (Safe.foldl ?_ _ _))
    | split
    | dsimp only

theorem remapEffect_safe (n : Nat) (d : Dev) : Safe d (remapEffect n d) := by
  unfold remapEffect
  repeat' first
    | (with_reducible apply Safe.refl)
    | (with_reducible intro _)
    | (with_reducible apply Safe.ite)
    | (with_reducible apply Safe.pre (Dev.when_safe _ _ _ ?_))
    | (with_reducible apply Safe.pre (Dev.orHold_safe _ _ ?_))
    | (with_reducible apply Safe.pre (Dev.inc_same ..).safe)
    | (with_reducible apply Safe.pre (Dev.logNote_same ..).safe)
    | (with_reducible apply Safe.pre (Dev.fetch_safe ..))
    | (with_reducible refine Safe.pre (Dev.pickFree_same (by assumption)).safe ?_)
    | (with_reducible apply Safe.pre (Dev.markLost_safe ..))
    | (with_reducible apply Safe.pre (Dev.rebuildExt_safe ..))
    | (with_reducible apply Safe.pre (Dev.storeTick_safe ..))
    | (with_reducible apply Safe.pre (Safe.foldl ?_ _ _))
    | (with_reducible apply Safe.pre (Safe.foldl_snd ?_ _ _))
    | simp only [Safe.upd]
    | split
    | dsimp only

theorem Dev.failAll_safe (d : Dev) (c : Nat) : Safe d (Dev.failAll d c) := by
  unfold Dev.failAll
  repeat' first
    | (with_reducible apply Safe.refl)
    | (with_reducible intro _)
    | (with_reducible apply Safe.ite)
    | (with_reducible apply Safe.pre (Dev.failCmd_safe ..))
    | (with_reducible apply Safe.pre (Safe.foldl ?_ _ _))
    | simp only [Safe.upd]
    | split
    | dsimp only

theorem Dev.ctlFailed_safe (d : Dev) (c : Nat) : Safe d (Dev.ctlFailed d c) := by
  unfold Dev.ctlFailed
  repeat' first
    | (with_reducible apply Safe.refl)
    | (with_reducible intro _)
    | (with_reducible apply Safe.ite)
    | (with_reducible apply Safe.pre (Dev.setNat_same ..).safe)
    | (with_reducible apply Safe.pre (Dev.logNote_same ..).safe)
    | (with_reducible apply Safe.pre (Dev.setCtl_same ..).safe)
    | (with_reducible apply Safe.pre (Dev.failAll_safe ..))
    | (with_reducible apply Safe.pre (Safe.foldl ?_ _ _))
    | simp only [Safe.upd]
    | split
    | dsimp only

theorem Dev.ctlReset_safe (d : Dev) (c : Nat) : Safe d (Dev.ctlReset d c) := by
  unfold Dev.ctlReset
  repeat' first
    | (with_reducible apply Safe.refl)
    | (with_reducible intro _)
    | (with_reducible apply Safe.ite)
    | (with_reducible apply Safe.pre (Dev.setNat_same ..).safe)
    | (with_reducible apply Safe.pre (Dev.inc_same ..).safe)
    | (with_reducible apply Safe.pre (Dev.setCtl_same ..).safe)
    | (with_reducible apply Safe.pre (Dev.failAll_safe ..))
    | (with_reducible apply Safe.pre (Dev.ctlFailed_safe ..))
    | simp only [Safe.upd]
    | split
    | dsimp only

theorem fatalEffect_safe (c : Nat) (d : Dev) : Safe d (fatalEffect c d) := by
  unfold fatalEffect
  repeat' first
    | (with_reducible apply Safe.refl)
    | (with_reducible intro _)
    | (with_reducible apply Safe.ite)
    | (with_reducible apply Safe.pre (Dev.when_safe _ _ _ ?_))
    | (with_reducible apply Safe.pre (Dev.storeTick_safe ..))
    | (with_reducible apply Safe.pre (Dev.ctlReset_safe ..))
    | split
    | dsimp only

theorem adminTimeoutEffect_safe (c : Nat) (d : Dev) : Safe d (adminTimeoutEffect c d) := by
  unfold adminTimeoutEffect
  repeat' first
    | (with_reducible apply Safe.refl)
    | (with_reducible intro _)
    | (with_reducible apply Safe.ite)
    | (with_reducible apply Safe.pre (Dev.when_safe _ _ _ ?_))
    | (with_reducible apply Safe.pre (Dev.inc_same ..).safe)
    | (with_reducible apply Safe.pre (Dev.storeTick_safe ..))
    | (with_reducible apply Safe.pre (Dev.ctlReset_safe ..))
    | split
    | dsimp only

theorem ioTimeoutEffect_safe (c : Nat) (cid : Nat) (d : Dev) : Safe d (ioTimeoutEffect c cid d) := by
  unfold ioTimeoutEffect
  repeat' first
    | (with_reducible apply Safe.refl)
    | (with_reducible intro _)
    | (with_reducible apply Safe.ite)
    | (with_reducible apply Safe.pre (Dev.when_safe _ _ _ ?_))
    | (with_reducible apply Safe.pre (Dev.inc_same ..).safe)
    | (with_reducible apply Safe.pre (Dev.nvme_same ..).safe)
    | (with_reducible apply Safe.pre (Dev.storeTick_safe ..))
    | (with_reducible apply Safe.pre (Dev.ctlReset_safe ..))
    | simp only [Safe.upd]
    | split
    | dsimp only

theorem ctlReadyEffect_safe (c : Nat) (rdy : Option Bool) (d : Dev) : Safe d (ctlReadyEffect c rdy d) := by
  unfold ctlReadyEffect
  repeat' first
    | (with_reducible apply Safe.refl)
    | (with_reducible intro _)
    | (with_reducible apply Safe.ite)
    | (with_reducible apply Safe.pre (Dev.when_safe _ _ _ ?_))
    | (with_reducible apply Safe.pre (Dev.setNat_same ..).safe)
    | (with_reducible apply Safe.pre (Dev.setCtl_same ..).safe)
    | (with_reducible apply Safe.pre (Dev.pumpCtl_same ..).safe)
    | (with_reducible apply Safe.pre (Dev.storeTick_safe ..))
    | (with_reducible apply Safe.pre (Dev.ctlFailed_safe ..))
    | simp only [Safe.upd]
    | split
    | dsimp only

theorem Dev.ctlRestart_safe (d : Dev) (c : Nat) : Safe d (Dev.ctlRestart d c) := by
  unfold Dev.ctlRestart
  repeat' first
    | (with_reducible apply Safe.refl)
    | (with_reducible intro _)
    | (with_reducible apply Safe.ite)
    | (with_reducible apply Safe.pre (Dev.setNat_same ..).safe)
    | (with_reducible apply Safe.pre (Dev.setCtl_same ..).safe)
    | (with_reducible apply Safe.pre (Dev.storeTick_safe ..))
    | (with_reducible apply Safe.pre (Dev.failAll_safe ..))
    | simp only [Safe.upd]
    | split
    | dsimp only

theorem Dev.badCompletion_safe (d : Dev) (c : Nat) : Safe d (Dev.badCompletion d c) := by
  unfold Dev.badCompletion
  repeat' first
    | (with_reducible apply Safe.refl)
    | (with_reducible intro _)
    | (with_reducible apply Safe.ite)
    | (with_reducible apply Safe.pre (Dev.when_safe _ _ _ ?_))
    | (with_reducible apply Safe.pre (Dev.inc_same ..).safe)
    | (with_reducible apply Safe.pre (Dev.setCtl_same ..).safe)
    | (with_reducible apply Safe.pre (Dev.ctlReset_safe ..))
    | split
    | dsimp only

theorem Dev.cmdDone_safe (d : Dev) (k : NvmeCmd) (data : List Byte) (dw3 : Nat) : Safe d (Dev.cmdDone d k data dw3) := by
  unfold Dev.cmdDone
  repeat' first
    | (with_reducible apply Safe.refl)
    | (with_reducible intro _)
    | (with_reducible apply Safe.ite)
    | (with_reducible apply Safe.pre (Dev.setNat_same ..).safe)
    | (with_reducible apply Safe.pre (Dev.setOct_same ..).safe)
    | (with_reducible apply Safe.pre (Dev.add_same ..).safe)
    | (with_reducible apply Safe.pre (Dev.setExt_same ..).safe)
    | (with_reducible apply Safe.pre (Dev.putExt_safe ..))
    | (with_reducible apply Safe.pre (Dev.setQuery_same ..).safe)
    | (with_reducible apply Safe.pre (Dev.release_same ..).safe)
    | (with_reducible apply Safe.pre (Dev.settleExt_safe ..))
    | (with_reducible apply Safe.pre (Safe.foldl ?_ _ _))
    | simp only [Safe.upd]
    | split
    | dsimp only

theorem Dev.abortDone_safe (d : Dev) (c : Nat) (cid : Nat) : Safe d (Dev.abortDone d c cid) := by
  unfold Dev.abortDone
  repeat' first
    | (with_reducible apply Safe.refl)
    | (with_reducible intro _)
    | (with_reducible apply Safe.ite)
    | (with_reducible apply Safe.pre (Dev.failCmd_safe ..))
    | simp only [Safe.upd]
    | split
    | dsimp only

theorem Dev.complete_safe (d : Dev) (c : Nat) (cid : Nat) (fin : NvmeEnd) (data : List Byte) (dw3 : Nat) : Safe d (Dev.complete d c cid fin data dw3) := by
  unfold Dev.complete
  repeat' first
    | (with_reducible apply Safe.refl)
    | (with_reducible intro _)
    | (with_reducible apply Safe.ite)
    | (with_reducible apply Safe.pre (Dev.setNat_same ..).safe)
    | (with_reducible apply Safe.pre (Dev.inc_same ..).safe)
    | (with_reducible apply Safe.pre (Dev.pumpCtl_same ..).safe)
    | (with_reducible apply Safe.pre (Dev.failCmd_safe ..))
    | (with_reducible apply Safe.pre (Dev.badCompletion_safe ..))
    | (with_reducible apply Safe.pre (Dev.cmdDone_safe ..))
    | (with_reducible apply Safe.pre (Dev.abortDone_safe ..))
    | (with_reducible apply Safe.elim)
    | simp only [Safe.upd]
    | split
    | dsimp only

theorem completionEffect_safe (c : Nat) (cid : Nat) (fin : NvmeEnd) (data : List Byte) (dw3 : Nat) (d : Dev) : Safe d (completionEffect c cid fin data dw3 d) := by
  unfold completionEffect
  repeat' first
    | (with_reducible apply Safe.refl)
    | (with_reducible intro _)
    | (with_reducible apply Safe.ite)
    | (with_reducible apply Safe.pre (Dev.storeTick_safe ..))
    | (with_reducible apply Safe.pre (Dev.complete_safe ..))
    | split
    | dsimp only

theorem Dev.adminCmd_same (d : Dev) (c : Nat) (entry : List Byte) : Same d (Dev.adminCmd d c entry) := by
  unfold Dev.adminCmd
  repeat' first
    | (with_reducible apply Same.refl)
    | (with_reducible intro _)
    | (with_reducible apply Same.ite)
    | (with_reducible apply Same.pre (Dev.drawn_same ..))
    | (with_reducible apply Same.pre (Dev.nvme_same ..))
    | split
    | dsimp only

theorem surpriseEffect_safe (q : Nat) (d : Dev) : Safe d (surpriseEffect q d) := by
  unfold surpriseEffect
  repeat' first
    | (with_reducible apply Safe.refl)
    | (with_reducible intro _)
    | (with_reducible apply Safe.ite)
    | (with_reducible apply Safe.pre (Dev.when_safe _ _ _ ?_))
    | (with_reducible apply Safe.pre (Dev.surpriseDown_same ..).safe)
    | (with_reducible apply Safe.pre (Dev.setCtl_same ..).safe)
    | (with_reducible apply Safe.pre (Dev.storeTick_safe ..))
    | (with_reducible apply Safe.pre (Dev.failAll_safe ..))
    | (with_reducible apply Safe.pre (Safe.foldl ?_ _ _))
    | simp only [Safe.upd]
    | split
    | dsimp only

theorem linkUpEffect_safe (q : Nat) (speed : Nat) (width : Nat) (d : Dev) : Safe d (linkUpEffect q speed width d) := by
  unfold linkUpEffect
  repeat' first
    | (with_reducible apply Safe.refl)
    | (with_reducible intro _)
    | (with_reducible apply Safe.ite)
    | (with_reducible apply Safe.pre (Dev.when_safe _ _ _ ?_))
    | (with_reducible apply Safe.pre (Dev.pcieUp_same ..).safe)
    | (with_reducible apply Safe.pre (Dev.setCtl_same ..).safe)
    | (with_reducible apply Safe.pre (Dev.storeTick_safe ..))
    | (with_reducible apply Safe.pre (Dev.ctlReset_safe ..))
    | (with_reducible apply Safe.pre (Safe.foldl ?_ _ _))
    | simp only [Safe.upd]
    | split
    | dsimp only

theorem Dev.scanExt_same (d : Dev) (n : Nat) (data : List Byte) : Same d (Dev.scanExt d n data) := by
  unfold Dev.scanExt
  repeat' first
    | (with_reducible apply Same.refl)
    | (with_reducible intro _)
    | (with_reducible apply Same.ite)
    | (with_reducible apply Same.pre (Dev.setExt_same ..))
    | (with_reducible apply Same.pre (Dev.fullSub_same ..))
    | (with_reducible apply Same.pre (Same.foldl ?_ _ _))
    | simp only [Same.upd]
    | split
    | dsimp only

theorem Dev.recoverExt_safe (d : Dev) (n : Nat) (data : List Byte) : Safe d (Dev.recoverExt d n data) := by
  unfold Dev.recoverExt
  repeat' first
    | (with_reducible apply Safe.refl)
    | (with_reducible intro _)
    | (with_reducible apply Safe.ite)
    | (with_reducible apply Safe.pre (Dev.inc_same ..).safe)
    | (with_reducible apply Safe.pre (Dev.setExt_same ..).safe)
    | (with_reducible apply Safe.pre (Dev.closeExt_safe ..))
    | (with_reducible apply Safe.pre (Dev.scanExt_same ..).safe)
    | simp only [Safe.upd]
    | split
    | dsimp only

theorem Dev.recoverPeer_safe (d : Dev) (n : Nat) (data : List Byte) : Safe d (Dev.recoverPeer d n data) := by
  unfold Dev.recoverPeer
  repeat' first
    | (with_reducible apply Safe.refl)
    | (with_reducible intro _)
    | (with_reducible apply Safe.ite)
    | (with_reducible apply Safe.pre (Dev.inc_same ..).safe)
    | (with_reducible apply Safe.pre (Dev.putExt_safe ..))
    | (with_reducible apply Safe.pre (Dev.metaWrite_same ..).safe)
    | (with_reducible apply Safe.pre (Dev.closeSub_same ..).safe)
    | (with_reducible apply Safe.pre (Dev.scanExt_same ..).safe)
    | simp only [Safe.upd]
    | split
    | dsimp only

theorem Dev.mountCtls_same (d : Dev) (l : List CtlFound) : Same d (Dev.mountCtls d l) := by
  unfold Dev.mountCtls
  repeat' first
    | (with_reducible apply Same.refl)
    | (with_reducible intro _)
    | (with_reducible apply Same.ite)
    | (with_reducible apply Same.pre (Dev.setNat_same ..))
    | (with_reducible apply Same.pre (Dev.setOct_same ..))
    | (with_reducible apply Same.pre (Dev.drawn_same ..))
    | (with_reducible apply Same.pre (Dev.logNote_same ..))
    | (with_reducible apply Same.pre (Dev.setCtl_same ..))
    | (with_reducible apply Same.pre (Same.foldl ?_ _ _))
    | simp only [Same.upd]
    | split
    | dsimp only

theorem Dev.mountNs_same (d : Dev) (l : List NsFound) : Same d (Dev.mountNs d l) := by
  unfold Dev.mountNs
  repeat' first
    | (with_reducible apply Same.refl)
    | (with_reducible intro _)
    | (with_reducible apply Same.ite)
    | (with_reducible apply Same.pre (Dev.setNat_same ..))
    | (with_reducible apply Same.pre (Same.foldl ?_ _ _))
    | simp only [Same.upd]
    | split
    | dsimp only

theorem Dev.loadNs_same (d : Dev) (f : NsFound) : Same d (Dev.loadNs d f) := by
  unfold Dev.loadNs
  repeat' first
    | (with_reducible apply Same.refl)
    | (with_reducible intro _)
    | (with_reducible apply Same.ite)
    | (with_reducible apply Same.pre (Dev.setExt_same ..))
    | (with_reducible apply Same.pre (Dev.tellExt_same ..))
    | (with_reducible apply Same.pre (Same.foldl ?_ _ _))
    | split
    | dsimp only

theorem Dev.putTable_safe (d : Dev) (i : Nat) : Safe d (Dev.putTable d i) := by
  unfold Dev.putTable
  repeat' first
    | (with_reducible apply Safe.refl)
    | (with_reducible intro _)
    | (with_reducible apply Safe.ite)
    | (with_reducible apply Safe.pre (Dev.postAt_safe ..))
    | split
    | dsimp only

theorem Dev.rebuild_same (d : Dev) : Same d (Dev.rebuild d) := by
  unfold Dev.rebuild
  repeat' first
    | (with_reducible apply Same.refl)
    | (with_reducible intro _)
    | (with_reducible apply Same.ite)
    | (with_reducible apply Same.pre (Dev.setStrm_same ..))
    | (with_reducible apply Same.pre (Same.foldl ?_ _ _))
    | simp only [Same.upd]
    | split
    | dsimp only

theorem Dev.clearStore_same (d : Dev) (nss : List NsFound) : Same d (Dev.clearStore d nss) := by
  unfold Dev.clearStore
  repeat' first
    | (with_reducible apply Same.refl)
    | (with_reducible intro _)
    | (with_reducible apply Same.ite)
    | (with_reducible apply Same.pre (Same.foldl ?_ _ _))
    | simp only [Same.upd]
    | split
    | dsimp only

theorem Dev.mount_safe (d : Dev) (ctls : List CtlFound) (nss : List NsFound) : Safe d (Dev.mount d ctls nss) := by
  unfold Dev.mount
  repeat' first
    | (with_reducible apply Safe.refl)
    | (with_reducible intro _)
    | (with_reducible apply Safe.ite)
    | (with_reducible apply Safe.pre (Dev.when_safe _ _ _ ?_))
    | (with_reducible apply Safe.pre (Dev.setNat_same ..).safe)
    | (with_reducible apply Safe.pre (Dev.setOct_same ..).safe)
    | (with_reducible apply Safe.pre (Dev.pumpCtl_same ..).safe)
    | (with_reducible apply Safe.pre (Dev.unstall_same ..).safe)
    | (with_reducible apply Safe.pre (Dev.storeTick_safe ..))
    | (with_reducible apply Safe.pre (Dev.recoverExt_safe ..))
    | (with_reducible apply Safe.pre (Dev.mountCtls_same ..).safe)
    | (with_reducible apply Safe.pre (Dev.mountNs_same ..).safe)
    | (with_reducible apply Safe.pre (Dev.loadNs_same ..).safe)
    | (with_reducible apply Safe.pre (Dev.putTable_safe ..))
    | (with_reducible apply Safe.pre (Dev.rebuild_same ..).safe)
    | (with_reducible apply Safe.pre (Dev.clearStore_same ..).safe)
    | (with_reducible apply Safe.pre (Safe.foldl ?_ _ _))
    | simp only [Safe.upd]
    | split
    | dsimp only

theorem Dev.closeStages_safe (d : Dev) : Safe d (Dev.closeStages d) := by
  unfold Dev.closeStages
  repeat' first
    | (with_reducible apply Safe.refl)
    | (with_reducible intro _)
    | (with_reducible apply Safe.ite)
    | (with_reducible apply Safe.pre (Dev.closeStage_same ..).safe)
    | (with_reducible apply Safe.pre (Dev.flushStage_safe ..))
    | split
    | dsimp only

theorem Dev.storeControl_safe (d : Dev) (v : Nat) : Safe d (Dev.storeControl d v) := by
  unfold Dev.storeControl
  repeat' first
    | (with_reducible apply Safe.refl)
    | (with_reducible intro _)
    | (with_reducible apply Safe.ite)
    | (with_reducible apply Safe.pre (Dev.setNat_same ..).safe)
    | (with_reducible apply Safe.pre (Dev.stallTold_same ..).safe)
    | (with_reducible apply Safe.pre (Dev.storeTick_safe ..))
    | (with_reducible apply Safe.pre (Dev.closeStages_safe ..))
    | (with_reducible apply Safe.pre (Safe.foldl ?_ _ _))
    | split
    | dsimp only

theorem Dev.nsInitialise_same (d : Dev) (n : Nat) : Same d (Dev.nsInitialise d n) := by
  unfold Dev.nsInitialise
  repeat' first
    | (with_reducible apply Same.refl)
    | (with_reducible intro _)
    | (with_reducible apply Same.ite)
    | (with_reducible apply Same.pre (Dev.setExt_same ..))
    | (with_reducible apply Same.pre (Dev.tellExt_same ..))
    | (with_reducible apply Same.pre (Dev.nsCmd_same ..))
    | (with_reducible apply Same.pre (Same.foldl ?_ _ _))
    | simp only [Same.upd]
    | split
    | dsimp only

end Sys2Proof.Machine
end

