-- ==== Sys2Proof/Laws/Power.lean ====
section
/-! SUPPORT. What each operation of Machine/Power.lean keeps (`Same` and `Safe` of Laws/Frame.lean). -/

set_option Elab.async false
set_option linter.unusedTactic false
set_option linter.unreachableTactic false

namespace Sys2Proof.Machine

theorem Dev.avsAnswer_same (d : Dev) : Same d (Dev.avsAnswer d) := by
  unfold Dev.avsAnswer
  repeat' first
    | (with_reducible apply Same.refl)
    | (with_reducible intro _)
    | (with_reducible apply Same.ite)
    | simp only [Same.upd]
    | split
    | dsimp only

theorem avsEffect_same (answered : Bool) (d : Dev) : Same d (avsEffect answered d) := by
  unfold avsEffect
  repeat' first
    | (with_reducible apply Same.refl)
    | (with_reducible intro _)
    | (with_reducible apply Same.ite)
    | (with_reducible apply Same.pre (Dev.when_same _ _ _ ?_))
    | (with_reducible apply Same.pre (Dev.setNat_same ..))
    | (with_reducible apply Same.pre (Dev.inc_same ..))
    | (with_reducible apply Same.pre (Dev.occur_same ..))
    | (with_reducible apply Same.pre (Dev.avsAnswer_same ..))
    | simp only [Same.upd]
    | split
    | dsimp only

theorem railEffect_safe (rail : Nat) (pins : Nat) (d : Dev) : Safe d (railEffect rail pins d) := by
  unfold railEffect
  repeat' first
    | (with_reducible apply Safe.refl)
    | (with_reducible intro _)
    | (with_reducible apply Safe.ite)
    | (with_reducible apply Safe.pre (Dev.setNat_same ..).safe)
    | (with_reducible apply Safe.pre (Dev.deviceReset_safe ..))
    | split
    | dsimp only

theorem failWarnEffect_same (d : Dev) : Same d (failWarnEffect d) := by
  unfold failWarnEffect
  repeat' first
    | (with_reducible apply Same.refl)
    | (with_reducible intro _)
    | (with_reducible apply Same.ite)
    | (with_reducible apply Same.pre (Dev.when_same _ _ _ ?_))
    | (with_reducible apply Same.pre (Dev.setNat_same ..))
    | (with_reducible apply Same.pre (Dev.inc_same ..))
    | (with_reducible apply Same.pre (Dev.checkpoint_same ..))
    | (with_reducible apply Same.pre (Dev.flushNs_same ..))
    | (with_reducible apply Same.pre (Same.foldl ?_ _ _))
    | simp only [Same.upd]
    | split
    | dsimp only

theorem failClearEffect_same (d : Dev) : Same d (failClearEffect d) := by
  unfold failClearEffect
  repeat' first
    | (with_reducible apply Same.refl)
    | (with_reducible intro _)
    | (with_reducible apply Same.ite)
    | (with_reducible apply Same.pre (Dev.when_same _ _ _ ?_))
    | (with_reducible apply Same.pre (Dev.setNat_same ..))
    | simp only [Same.upd]
    | split
    | dsimp only

theorem Dev.throttling_same (d : Dev) : Same d (Dev.throttling d) := by
  unfold Dev.throttling
  repeat' first
    | (with_reducible apply Same.refl)
    | (with_reducible intro _)
    | (with_reducible apply Same.ite)
    | (with_reducible apply Same.pre (Dev.setNat_same ..))
    | (with_reducible apply Same.pre (Same.foldl ?_ _ _))
    | split
    | dsimp only

theorem diePowerEffect_same (x : Nat) (mw : Nat) (d : Dev) : Same d (diePowerEffect x mw d) := by
  unfold diePowerEffect
  repeat' first
    | (with_reducible apply Same.refl)
    | (with_reducible intro _)
    | (with_reducible apply Same.ite)
    | (with_reducible apply Same.pre (Dev.setNat_same ..))
    | (with_reducible apply Same.pre (Dev.occur_same ..))
    | (with_reducible apply Same.pre (Dev.throttling_same ..))
    | simp only [Same.upd]
    | split
    | dsimp only

theorem Dev.setDom_same (d : Dev) (n : Nat) (st : Nat) : Same d (Dev.setDom d n st) := by
  unfold Dev.setDom
  repeat' first
    | (with_reducible apply Same.refl)
    | (with_reducible intro _)
    | (with_reducible apply Same.ite)
    | (with_reducible apply Same.pre (Dev.setNat_same ..))
    | split
    | dsimp only

theorem Dev.quadrantLost_same (d : Dev) (n : Nat) : Same d (Dev.quadrantLost d n) := by
  unfold Dev.quadrantLost
  repeat' first
    | (with_reducible apply Same.refl)
    | (with_reducible intro _)
    | (with_reducible apply Same.ite)
    | (with_reducible apply Same.pre (Dev.logicLost_same ..))
    | simp only [Same.upd]
    | split
    | dsimp only

theorem Dev.groupLost_same (d : Dev) (g : Nat) (reason : Nat) : Same d (Dev.groupLost d g reason) := by
  unfold Dev.groupLost
  repeat' first
    | (with_reducible apply Same.refl)
    | (with_reducible intro _)
    | (with_reducible apply Same.ite)
    | (with_reducible apply Same.pre (Dev.setNat_same ..))
    | (with_reducible apply Same.pre (Dev.updPort_same ..))
    | (with_reducible apply Same.pre (Dev.portFall_same ..))
    | (with_reducible apply Same.pre (Dev.setTxPll_same ..))
    | (with_reducible apply Same.pre (Same.foldl ?_ _ _))
    | simp only [Same.upd]
    | split
    | dsimp only

theorem Dev.engineLost_same (d : Dev) (e : Nat) : Same d (Dev.engineLost d e) := by
  unfold Dev.engineLost
  repeat' first
    | (with_reducible apply Same.refl)
    | (with_reducible intro _)
    | (with_reducible apply Same.ite)
    | (with_reducible apply Same.pre (Dev.setNat_same ..))
    | (with_reducible apply Same.pre (Dev.setEng_same ..))
    | (with_reducible apply Same.pre (Dev.setIngest_same ..))
    | (with_reducible apply Same.pre (Dev.setFifo_same ..))
    | (with_reducible apply Same.pre (Dev.ringMoved_same ..))
    | (with_reducible apply Same.pre (Same.foldl ?_ _ _))
    | split
    | dsimp only

theorem Dev.storeLost_same (d : Dev) : Same d (Dev.storeLost d) := by
  unfold Dev.storeLost
  repeat' first
    | (with_reducible apply Same.refl)
    | (with_reducible intro _)
    | (with_reducible apply Same.ite)
    | (with_reducible apply Same.pre (Dev.setNat_same ..))
    | (with_reducible apply Same.pre (Same.foldl ?_ _ _))
    | simp only [Same.upd]
    | split
    | dsimp only

theorem Dev.domainLost_same (d : Dev) (n : Nat) (reason : Nat) : Same d (Dev.domainLost d n reason) := by
  unfold Dev.domainLost
  repeat' first
    | (with_reducible apply Same.refl)
    | (with_reducible intro _)
    | (with_reducible apply Same.ite)
    | (with_reducible apply Same.pre (Dev.setNat_same ..))
    | (with_reducible apply Same.pre (Dev.setCore_same ..))
    | (with_reducible apply Same.pre (Dev.quadrantLost_same ..))
    | (with_reducible apply Same.pre (Dev.groupLost_same ..))
    | (with_reducible apply Same.pre (Dev.engineLost_same ..))
    | (with_reducible apply Same.pre (Dev.storeLost_same ..))
    | (with_reducible apply Same.pre (Same.foldl ?_ _ _))
    | split
    | dsimp only

theorem Dev.pumpDomains_same (d : Dev) : Same d (Dev.pumpDomains d) := by
  unfold Dev.pumpDomains
  repeat' first
    | (with_reducible apply Same.refl)
    | (with_reducible intro _)
    | (with_reducible apply Same.ite)
    | simp only [Same.upd]
    | split
    | dsimp only

theorem Dev.domainSet_same (d : Dev) (n : Nat) (v : Nat) : Same d (Dev.domainSet d n v) := by
  unfold Dev.domainSet
  repeat' first
    | (with_reducible apply Same.refl)
    | (with_reducible intro _)
    | (with_reducible apply Same.ite)
    | (with_reducible apply Same.pre (Dev.abortSlices_same ..))
    | (with_reducible apply Same.pre (Dev.setDom_same ..))
    | simp only [Same.upd]
    | split
    | dsimp only

theorem Dev.useStarts_safe (d : Dev) (n : Nat) (v : Val) : Safe d (Dev.useStarts d n v) := by
  unfold Dev.useStarts
  repeat' first
    | (with_reducible apply Safe.refl)
    | (with_reducible intro _)
    | (with_reducible apply Safe.ite)
    | (with_reducible apply Safe.pre (Dev.engineControl_same ..).safe)
    | (with_reducible apply Safe.pre (Dev.storeControl_safe ..))
    | split
    | dsimp only

theorem Dev.domainUp_safe (d : Dev) (n : Nat) : Safe d (Dev.domainUp d n) := by
  unfold Dev.domainUp
  repeat' first
    | (with_reducible apply Safe.refl)
    | (with_reducible intro _)
    | (with_reducible apply Safe.ite)
    | (with_reducible apply Safe.pre (Dev.setNat_same ..).safe)
    | (with_reducible apply Safe.pre (Dev.recheckQuad_same ..).safe)
    | (with_reducible apply Safe.pre (Dev.coreControlled_same ..).safe)
    | (with_reducible apply Safe.pre (Dev.setDom_same ..).safe)
    | (with_reducible apply Safe.pre (Dev.useStarts_safe ..))
    | (with_reducible apply Safe.pre (Safe.foldl ?_ _ _))
    | simp only [Safe.upd]
    | split
    | dsimp only

theorem Dev.domainFault_same (d : Dev) (n : Nat) : Same d (Dev.domainFault d n) := by
  unfold Dev.domainFault
  repeat' first
    | (with_reducible apply Same.refl)
    | (with_reducible intro _)
    | (with_reducible apply Same.ite)
    | (with_reducible apply Same.pre (Dev.inc_same ..))
    | (with_reducible apply Same.pre (Dev.occur_same ..))
    | (with_reducible apply Same.pre (Dev.setDom_same ..))
    | (with_reducible apply Same.pre (Dev.domainLost_same ..))
    | (with_reducible apply Same.pre (Dev.pumpDomains_same ..))
    | simp only [Same.upd]
    | split
    | dsimp only

theorem switchDoneEffect_safe (n : Nat) (d : Dev) : Safe d (switchDoneEffect n d) := by
  unfold switchDoneEffect
  repeat' first
    | (with_reducible apply Safe.refl)
    | (with_reducible intro _)
    | (with_reducible apply Safe.ite)
    | (with_reducible apply Safe.pre (Dev.when_safe _ _ _ ?_))
    | (with_reducible apply Safe.pre (Dev.setDom_same ..).safe)
    | (with_reducible apply Safe.pre (Dev.domainLost_same ..).safe)
    | (with_reducible apply Safe.pre (Dev.pumpDomains_same ..).safe)
    | (with_reducible apply Safe.pre (Dev.domainUp_safe ..))
    | simp only [Safe.upd]
    | split
    | dsimp only

theorem switchLateEffect_same (n : Nat) (d : Dev) : Same d (switchLateEffect n d) := by
  unfold switchLateEffect
  repeat' first
    | (with_reducible apply Same.refl)
    | (with_reducible intro _)
    | (with_reducible apply Same.ite)
    | (with_reducible apply Same.pre (Dev.when_same _ _ _ ?_))
    | (with_reducible apply Same.pre (Dev.domainFault_same ..))
    | split
    | dsimp only

theorem droopEffect_same (n : Nat) (d : Dev) : Same d (droopEffect n d) := by
  unfold droopEffect
  repeat' first
    | (with_reducible apply Same.refl)
    | (with_reducible intro _)
    | (with_reducible apply Same.ite)
    | (with_reducible apply Same.pre (Dev.when_same _ _ _ ?_))
    | (with_reducible apply Same.pre (Dev.domainFault_same ..))
    | split
    | dsimp only

theorem Dev.sampleThresh_same (d : Dev) (x : Nat) (kind : Nat) (lim : Int) (t : Int) : Same d (Dev.sampleThresh d x kind lim t).2 := by
  unfold Dev.sampleThresh
  repeat' first
    | (with_reducible apply Same.refl)
    | (with_reducible intro _)
    | (with_reducible apply Same.ite)
    | simp only [Same.upd]
    | split
    | dsimp only

theorem Dev.warnThresh_same (d : Dev) (x : Nat) (kind : Nat) (lim : Int) (t : Int) : Same d (Dev.warnThresh d x kind lim t) := by
  unfold Dev.warnThresh
  repeat' first
    | (with_reducible apply Same.refl)
    | (with_reducible intro _)
    | (with_reducible apply Same.ite)
    | (with_reducible apply Same.pre (Dev.inc_same ..))
    | (with_reducible apply Same.pre (Dev.occur_same ..))
    | (with_reducible apply Same.pre (Dev.sampleThresh_same ..))
    | split
    | dsimp only

theorem Dev.trip_same (d : Dev) (source : Nat) (sensor : Nat) (t : Int) : Same d (Dev.trip d source sensor t) := by
  unfold Dev.trip
  repeat' first
    | (with_reducible apply Same.refl)
    | (with_reducible intro _)
    | (with_reducible apply Same.ite)
    | (with_reducible apply Same.pre (Dev.setNat_same ..))
    | (with_reducible apply Same.pre (Dev.setOct_same ..))
    | (with_reducible apply Same.pre (Dev.drawn_same ..))
    | (with_reducible apply Same.pre (Dev.inc_same ..))
    | (with_reducible apply Same.pre (Dev.dropMailboxes_same ..))
    | (with_reducible apply Same.pre (Dev.pcieDown_same ..))
    | (with_reducible apply Same.pre (Dev.keepDiag_same ..))
    | (with_reducible apply Same.pre (Dev.setDom_same ..))
    | (with_reducible apply Same.pre (Dev.domainLost_same ..))
    | (with_reducible apply Same.pre (Same.foldl ?_ _ _))
    | simp only [Same.upd]
    | split
    | dsimp only

theorem Dev.dieThresholds_same (d : Dev) (x : Nat) : Same d (Dev.dieThresholds d x) := by
  unfold Dev.dieThresholds
  repeat' first
    | (with_reducible apply Same.refl)
    | (with_reducible intro _)
    | (with_reducible apply Same.ite)
    | (with_reducible apply Same.pre (Dev.setInt_same ..))
    | (with_reducible apply Same.pre (Dev.occur_same ..))
    | (with_reducible apply Same.pre (Dev.sampleThresh_same ..))
    | (with_reducible apply Same.pre (Dev.warnThresh_same ..))
    | (with_reducible apply Same.pre (Dev.trip_same ..))
    | (with_reducible apply Same.pre (Same.foldl ?_ _ _))
    | split
    | dsimp only

theorem thermalEffect_same (sensors : List (Fin 10 × Fin 9 × Int)) (hbms : List (Fin 8 × Int)) (dimms : List (Fin 8 × Int)) (d : Dev) : Same d (thermalEffect sensors hbms dimms d) := by
  unfold thermalEffect
  repeat' first
    | (with_reducible apply Same.refl)
    | (with_reducible intro _)
    | (with_reducible apply Same.ite)
    | (with_reducible apply Same.pre (Dev.setInt_same ..))
    | (with_reducible apply Same.pre (Dev.drawn_same ..))
    | (with_reducible apply Same.pre (Dev.throttling_same ..))
    | (with_reducible apply Same.pre (Dev.sampleThresh_same ..))
    | (with_reducible apply Same.pre (Dev.warnThresh_same ..))
    | (with_reducible apply Same.pre (Dev.trip_same ..))
    | (with_reducible apply Same.pre (Dev.dieThresholds_same ..))
    | (with_reducible apply Same.pre (Same.foldl ?_ _ _))
    | split
    | dsimp only

end Sys2Proof.Machine
end

