-- ==== Sys2Proof/Laws/Query.lean ====
section
/-! SUPPORT. What each operation of Machine/Query.lean keeps (`Same` and `Safe` of Laws/Frame.lean). -/

set_option Elab.async false
set_option linter.unusedTactic false
set_option linter.unreachableTactic false

namespace Sys2Proof.Machine

theorem Dev.scanRec_same (d : Dev) (j : Nat) (e : Nat) (r : Rec) (bytes : List Byte) : Same d (Dev.scanRec d j e r bytes) := by
  unfold Dev.scanRec
  repeat' first
    | (with_reducible apply Same.refl)
    | (with_reducible intro _)
    | (with_reducible apply Same.ite)
    | (with_reducible apply Same.pre (Dev.inc_same ..))
    | (with_reducible apply Same.pre (Dev.setQuery_same ..))
    | simp only [Same.upd]
    | split
    | dsimp only

theorem Dev.queryDecide_same (d : Dev) (j : Nat) (ended : Bool) (x0 : Nat) : Same d (Dev.queryDecide d j ended x0) := by
  induction x0 generalizing d j ended with
  | zero => exact Same.refl _
  | succ n ih =>
    unfold Dev.queryDecide
    repeat' first
      | (with_reducible apply Same.refl)
      | (with_reducible intro _)
      | (with_reducible apply Same.pre (ih ..))
      | (with_reducible apply Same.ite)
      | (with_reducible apply Same.pre (Dev.setQuery_same ..))
      | simp only [Same.upd]
      | split
      | dsimp only

theorem Dev.queryTail_same (d : Dev) (j : Nat) : Same d (Dev.queryTail d j) := by
  unfold Dev.queryTail
  repeat' first
    | (with_reducible apply Same.refl)
    | (with_reducible intro _)
    | (with_reducible apply Same.ite)
    | (with_reducible apply Same.pre (Dev.drawn_same ..))
    | (with_reducible apply Same.pre (Dev.setQuery_same ..))
    | simp only [Same.upd]
    | split
    | dsimp only

theorem Dev.queryEnd_same (d : Dev) (j : Nat) (st : Nat) : Same d (Dev.queryEnd d j st) := by
  unfold Dev.queryEnd
  repeat' first
    | (with_reducible apply Same.refl)
    | (with_reducible intro _)
    | (with_reducible apply Same.ite)
    | (with_reducible apply Same.pre (Dev.setNat_same ..))
    | (with_reducible apply Same.pre (Dev.occur_same ..))
    | (with_reducible apply Same.pre (Dev.endStream_same ..))
    | (with_reducible apply Same.pre (Dev.setQuery_same ..))
    | split
    | dsimp only

theorem Dev.queryWrite_safe (d : Dev) (j : Nat) (hostOk : Bool) (x0 : Nat) : Safe d (Dev.queryWrite d j hostOk x0) := by
  induction x0 generalizing d j hostOk with
  | zero => exact Safe.refl _
  | succ n ih =>
    unfold Dev.queryWrite
    repeat' first
      | (with_reducible apply Safe.refl)
      | (with_reducible intro _)
      | (with_reducible apply Safe.pre (ih ..))
      | (with_reducible apply Safe.ite)
      | (with_reducible apply Safe.pre (Dev.setNat_same ..).safe)
      | (with_reducible apply Safe.pre (Dev.send_same ..).safe)
      | (with_reducible apply Safe.pre (Dev.storeAt_safe ..))
      | (with_reducible apply Safe.pre (Dev.setQuery_same ..).safe)
      | (with_reducible apply Safe.pre (Dev.queryEnd_same ..).safe)
      | simp only [Safe.upd]
      | split
      | dsimp only

theorem Dev.queryStream_same (d : Dev) (j : Nat) : Same d (Dev.queryStream d j) := by
  unfold Dev.queryStream
  repeat' first
    | (with_reducible apply Same.refl)
    | (with_reducible intro _)
    | (with_reducible apply Same.ite)
    | (with_reducible apply Same.pre (Dev.setQuery_same ..))
    | simp only [Same.upd]
    | split
    | dsimp only

theorem Dev.queryAdvance_same (d : Dev) (j : Nat) (x0 : Nat) : Same d (Dev.queryAdvance d j x0) := by
  induction x0 generalizing d j with
  | zero => exact Same.refl _
  | succ n ih =>
    unfold Dev.queryAdvance
    repeat' first
      | (with_reducible apply Same.refl)
      | (with_reducible intro _)
      | (with_reducible apply Same.pre (ih ..))
      | (with_reducible apply Same.ite)
      | (with_reducible apply Same.pre (Dev.inc_same ..))
      | (with_reducible apply Same.pre (Dev.setQuery_same ..))
      | (with_reducible apply Same.pre (Dev.extCmd_same ..))
      | (with_reducible apply Same.pre (Dev.queryStream_same ..))
      | simp only [Same.upd]
      | split
      | dsimp only

theorem Dev.queryTake_same (d : Dev) (j : Nat) : Same d (Dev.queryTake d j) := by
  unfold Dev.queryTake
  repeat' first
    | (with_reducible apply Same.refl)
    | (with_reducible intro _)
    | (with_reducible apply Same.ite)
    | (with_reducible apply Same.pre (Dev.add_same ..))
    | (with_reducible apply Same.pre (Dev.setQuery_same ..))
    | (with_reducible apply Same.pre (Dev.scanRec_same ..))
    | (with_reducible apply Same.pre (Same.foldl ?_ _ _))
    | simp only [Same.upd]
    | split
    | dsimp only

theorem Dev.queryPut_safe (d : Dev) (j : Nat) (hostOk : Bool) : Safe d (Dev.queryPut d j hostOk) := by
  unfold Dev.queryPut
  repeat' first
    | (with_reducible apply Safe.refl)
    | (with_reducible intro _)
    | (with_reducible apply Safe.ite)
    | (with_reducible apply Safe.pre (Dev.queryDecide_same ..).safe)
    | (with_reducible apply Safe.pre (Dev.queryTail_same ..).safe)
    | (with_reducible apply Safe.pre (Dev.queryEnd_same ..).safe)
    | (with_reducible apply Safe.pre (Dev.queryWrite_safe ..))
    | split
    | dsimp only

theorem Dev.queryGo_safe (d : Dev) (j : Nat) (hostOk : Bool) : Safe d (Dev.queryGo d j hostOk) := by
  unfold Dev.queryGo
  repeat' first
    | (with_reducible apply Safe.refl)
    | (with_reducible intro _)
    | (with_reducible apply Safe.ite)
    | (with_reducible apply Safe.pre (Dev.queryAdvance_same ..).safe)
    | (with_reducible apply Safe.pre (Dev.queryPut_safe ..))
    | split
    | dsimp only

theorem queryScanEffect_safe (j : Nat) (fin : NvmeEnd) (data : List Byte) (hostOk : Bool) (d : Dev) : Safe d (queryScanEffect j fin data hostOk d) := by
  unfold queryScanEffect
  repeat' first
    | (with_reducible apply Safe.refl)
    | (with_reducible intro _)
    | (with_reducible apply Safe.ite)
    | (with_reducible apply Safe.pre (Dev.when_safe _ _ _ ?_))
    | (with_reducible apply Safe.pre (Dev.orHold_safe _ _ ?_))
    | (with_reducible apply Safe.pre (Dev.tableRead_safe ..))
    | (with_reducible apply Safe.pre (Dev.storeTick_safe ..))
    | (with_reducible apply Safe.pre (Dev.complete_safe ..))
    | (with_reducible apply Safe.pre (Dev.queryTake_same ..).safe)
    | (with_reducible apply Safe.pre (Dev.queryGo_safe ..))
    | split
    | dsimp only

theorem Dev.queryBegin_safe (d : Dev) (j : Nat) : Safe d (Dev.queryBegin d j) := by
  unfold Dev.queryBegin
  repeat' first
    | (with_reducible apply Safe.refl)
    | (with_reducible intro _)
    | (with_reducible apply Safe.ite)
    | (with_reducible apply Safe.pre (Dev.setNat_same ..).safe)
    | (with_reducible apply Safe.pre (Dev.setQuery_same ..).safe)
    | (with_reducible apply Safe.pre (Dev.storeTick_safe ..))
    | (with_reducible apply Safe.pre (Dev.queryEnd_same ..).safe)
    | (with_reducible apply Safe.pre (Dev.queryStream_same ..).safe)
    | (with_reducible apply Safe.pre (Dev.queryAdvance_same ..).safe)
    | split
    | dsimp only

theorem Dev.queryAbort_same (d : Dev) (j : Nat) : Same d (Dev.queryAbort d j) := by
  unfold Dev.queryAbort
  repeat' first
    | (with_reducible apply Same.refl)
    | (with_reducible intro _)
    | (with_reducible apply Same.ite)
    | (with_reducible apply Same.pre (Dev.setNat_same ..))
    | (with_reducible apply Same.pre (Dev.endStream_same ..))
    | (with_reducible apply Same.pre (Dev.setQuery_same ..))
    | simp only [Same.upd]
    | split
    | dsimp only

theorem Dev.queryControl_safe (d : Dev) (j : Nat) (v : Nat) : Safe d (Dev.queryControl d j v) := by
  unfold Dev.queryControl
  repeat' first
    | (with_reducible apply Safe.refl)
    | (with_reducible intro _)
    | (with_reducible apply Safe.ite)
    | (with_reducible apply Safe.pre (Dev.setNat_same ..).safe)
    | (with_reducible apply Safe.pre (Dev.endStream_same ..).safe)
    | (with_reducible apply Safe.pre (Dev.queryBegin_safe ..))
    | (with_reducible apply Safe.pre (Dev.queryAbort_same ..).safe)
    | split
    | dsimp only

end Sys2Proof.Machine
end

