-- ==== Sys2Proof/Laws/Transmit.lean ====
section
/-! SUPPORT. What each operation of Machine/Transmit.lean keeps (`Same` and `Safe` of Laws/Frame.lean). -/

set_option Elab.async false
set_option linter.unusedTactic false
set_option linter.unreachableTactic false

namespace Sys2Proof.Machine

theorem anchorEffect_same (q : Nat) (p : Nat) (d : Dev) : Same d (anchorEffect q p d) := by
  unfold anchorEffect
  repeat' first
    | (with_reducible apply Same.refl)
    | (with_reducible intro _)
    | (with_reducible apply Same.ite)
    | (with_reducible apply Same.pre (Dev.when_same _ _ _ ?_))
    | (with_reducible apply Same.pre (Dev.setNat_same ..))
    | (with_reducible apply Same.pre (Dev.setTx_same ..))
    | (with_reducible apply Same.pre (Dev.txFinish_same ..))
    | simp only [Same.upd]
    | split
    | dsimp only

theorem unitStartEffect_same (q : Nat) (p : Nat) (pos : Nat) (d : Dev) : Same d (unitStartEffect q p pos d) := by
  unfold unitStartEffect
  repeat' first
    | (with_reducible apply Same.refl)
    | (with_reducible intro _)
    | (with_reducible apply Same.ite)
    | (with_reducible apply Same.pre (Dev.when_same _ _ _ ?_))
    | (with_reducible apply Same.pre (Dev.setNat_same ..))
    | (with_reducible apply Same.pre (Dev.add_same ..))
    | (with_reducible apply Same.pre (Dev.inc_same ..))
    | (with_reducible apply Same.pre (Dev.peak_same ..))
    | (with_reducible apply Same.pre (Dev.setTx_same ..))
    | simp only [Same.upd]
    | split
    | dsimp only

theorem unitEndEffect_same (q : Nat) (p : Nat) (d : Dev) : Same d (unitEndEffect q p d) := by
  unfold unitEndEffect
  repeat' first
    | (with_reducible apply Same.refl)
    | (with_reducible intro _)
    | (with_reducible apply Same.ite)
    | (with_reducible apply Same.pre (Dev.add_same ..))
    | (with_reducible apply Same.pre (Dev.inc_same ..))
    | (with_reducible apply Same.pre (Dev.send_same ..))
    | (with_reducible apply Same.pre (Dev.setTx_same ..))
    | (with_reducible apply Same.pre (Dev.sendFill_same ..))
    | (with_reducible apply Same.pre (Dev.txIdle_same ..))
    | (with_reducible apply Same.pre (Dev.txFinish_same ..))
    | simp only [Same.upd]
    | split
    | dsimp only

theorem Dev.txStop_same (d : Dev) (q : Nat) (p : Nat) (fault : Nat) (pos : Option Nat) : Same d (Dev.txStop d q p fault pos) := by
  unfold Dev.txStop
  repeat' first
    | (with_reducible apply Same.refl)
    | (with_reducible intro _)
    | (with_reducible apply Same.ite)
    | (with_reducible apply Same.pre (Dev.setTx_same ..))
    | (with_reducible apply Same.pre (Dev.txFinish_same ..))
    | simp only [Same.upd]
    | split
    | dsimp only

theorem Dev.txTake_same (d : Dev) (q : Nat) (p : Nat) (u : TxUnit) (next : TxCursor) : Same d (Dev.txTake d q p u next) := by
  unfold Dev.txTake
  repeat' first
    | (with_reducible apply Same.refl)
    | (with_reducible intro _)
    | (with_reducible apply Same.ite)
    | (with_reducible apply Same.pre (Dev.send_same ..))
    | (with_reducible apply Same.pre (Dev.setTx_same ..))
    | simp only [Same.upd]
    | split
    | dsimp only

theorem Dev.fetchPattern_safe (d : Dev) (q : Nat) (p : Nat) (busError : Bool) : Safe d (Dev.fetchPattern d q p busError) := by
  unfold Dev.fetchPattern
  repeat' first
    | (with_reducible apply Safe.refl)
    | (with_reducible intro _)
    | (with_reducible apply Safe.ite)
    | (with_reducible apply Safe.pre (Dev.fetch_safe ..))
    | (with_reducible apply Safe.pre (Dev.txStop_same ..).safe)
    | (with_reducible apply Safe.pre (Dev.txTake_same ..).safe)
    | split
    | dsimp only

theorem Dev.fetchReplay_safe (d : Dev) (q : Nat) (p : Nat) (busError : Bool) : Safe d (Dev.fetchReplay d q p busError) := by
  unfold Dev.fetchReplay
  repeat' first
    | (with_reducible apply Safe.refl)
    | (with_reducible intro _)
    | (with_reducible apply Safe.ite)
    | (with_reducible apply Safe.pre (Dev.setNat_same ..).safe)
    | (with_reducible apply Safe.pre (Dev.inc_same ..).safe)
    | (with_reducible apply Safe.pre (Dev.setTx_same ..).safe)
    | (with_reducible apply Safe.pre (Dev.fetch_safe ..))
    | (with_reducible apply Safe.pre (Dev.txStop_same ..).safe)
    | (with_reducible apply Safe.pre (Dev.txTake_same ..).safe)
    | simp only [Safe.upd]
    | split
    | dsimp only

theorem fetchEffect_safe (q : Nat) (p : Nat) (busError : Bool) (d : Dev) : Safe d (fetchEffect q p busError d) := by
  unfold fetchEffect
  repeat' first
    | (with_reducible apply Safe.refl)
    | (with_reducible intro _)
    | (with_reducible apply Safe.ite)
    | (with_reducible apply Safe.pre (Dev.when_safe _ _ _ ?_))
    | (with_reducible apply Safe.pre (Dev.orHold_safe _ _ ?_))
    | (with_reducible apply Safe.pre (Dev.txStop_same ..).safe)
    | (with_reducible apply Safe.pre (Dev.fetchPattern_safe ..))
    | (with_reducible apply Safe.pre (Dev.fetchReplay_safe ..))
    | split
    | dsimp only

theorem hookEffect_same (q : Nat) (p : Nat) (v : HookVerdict) (d : Dev) : Same d (hookEffect q p v d) := by
  unfold hookEffect
  repeat' first
    | (with_reducible apply Same.refl)
    | (with_reducible intro _)
    | (with_reducible apply Same.ite)
    | (with_reducible apply Same.pre (Dev.when_same _ _ _ ?_))
    | (with_reducible apply Same.pre (Dev.inc_same ..))
    | (with_reducible apply Same.pre (Dev.setTx_same ..))
    | (with_reducible apply Same.pre (Dev.txFinish_same ..))
    | simp only [Same.upd]
    | split
    | dsimp only

theorem hookTimeoutEffect_same (q : Nat) (p : Nat) (d : Dev) : Same d (hookTimeoutEffect q p d) := by
  unfold hookTimeoutEffect
  repeat' first
    | (with_reducible apply Same.refl)
    | (with_reducible intro _)
    | (with_reducible apply Same.ite)
    | (with_reducible apply Same.pre (Dev.when_same _ _ _ ?_))
    | (with_reducible apply Same.pre (Dev.inc_same ..))
    | (with_reducible apply Same.pre (Dev.setTx_same ..))
    | (with_reducible apply Same.pre (Dev.txFinish_same ..))
    | simp only [Same.upd]
    | split
    | dsimp only

theorem holdEffect_same (q : Nat) (p : Nat) (d : Dev) : Same d (holdEffect q p d) := by
  unfold holdEffect
  repeat' first
    | (with_reducible apply Same.refl)
    | (with_reducible intro _)
    | (with_reducible apply Same.ite)
    | (with_reducible apply Same.pre (Dev.when_same _ _ _ ?_))
    | (with_reducible apply Same.pre (Dev.txFlush_same ..))
    | split
    | dsimp only

theorem Dev.txBegin_same (d : Dev) (q : Nat) (p : Nat) (tc : Nat) : Same d (Dev.txBegin d q p tc) := by
  unfold Dev.txBegin
  repeat' first
    | (with_reducible apply Same.refl)
    | (with_reducible intro _)
    | (with_reducible apply Same.ite)
    | (with_reducible apply Same.pre (Dev.setNat_same ..))
    | (with_reducible apply Same.pre (Dev.setTx_same ..))
    | split
    | dsimp only

theorem Dev.txResume_same (d : Dev) (q : Nat) (p : Nat) (tc : Nat) : Same d (Dev.txResume d q p tc) := by
  unfold Dev.txResume
  repeat' first
    | (with_reducible apply Same.refl)
    | (with_reducible intro _)
    | (with_reducible apply Same.ite)
    | (with_reducible apply Same.pre (Dev.setNat_same ..))
    | (with_reducible apply Same.pre (Dev.setTx_same ..))
    | (with_reducible apply Same.pre (Dev.txBegin_same ..))
    | simp only [Same.upd]
    | split
    | dsimp only

theorem Dev.txHalt_same (d : Dev) (q : Nat) (p : Nat) : Same d (Dev.txHalt d q p) := by
  unfold Dev.txHalt
  repeat' first
    | (with_reducible apply Same.refl)
    | (with_reducible intro _)
    | (with_reducible apply Same.ite)
    | (with_reducible apply Same.pre (Dev.setTx_same ..))
    | (with_reducible apply Same.pre (Dev.txIdle_same ..))
    | simp only [Same.upd]
    | split
    | dsimp only

theorem Dev.txControl_same (d : Dev) (q : Nat) (p : Nat) (v : Nat) (tc : Nat) : Same d (Dev.txControl d q p v tc) := by
  unfold Dev.txControl
  repeat' first
    | (with_reducible apply Same.refl)
    | (with_reducible intro _)
    | (with_reducible apply Same.ite)
    | (with_reducible apply Same.pre (Dev.txBegin_same ..))
    | (with_reducible apply Same.pre (Dev.txResume_same ..))
    | (with_reducible apply Same.pre (Dev.txHalt_same ..))
    | split
    | dsimp only

theorem Dev.txForced_same (d : Dev) (q : Nat) (p : Nat) (down : Bool) (stop : Bool) : Same d (Dev.txForced d q p down stop) := by
  unfold Dev.txForced
  repeat' first
    | (with_reducible apply Same.refl)
    | (with_reducible intro _)
    | (with_reducible apply Same.ite)
    | (with_reducible apply Same.pre (Dev.setTx_same ..))
    | (with_reducible apply Same.pre (Dev.sendFill_same ..))
    | (with_reducible apply Same.pre (Dev.recheck_same ..))
    | (with_reducible apply Same.pre (Dev.commitDown_same ..))
    | simp only [Same.upd]
    | split
    | dsimp only

end Sys2Proof.Machine
end

