-- ==== Sys2Proof/Laws/Apply.lean ====
section
/-! SUPPORT. What each operation of Machine/Apply.lean keeps (`Same` and `Safe` of Laws/Frame.lean). -/

set_option Elab.async false
set_option linter.unusedTactic false
set_option linter.unreachableTactic false

namespace Sys2Proof.Machine

theorem Dev.twinAlign_safe (d : Dev) : Safe d (Dev.twinAlign d) := by
  unfold Dev.twinAlign
  repeat' first
    | (with_reducible apply Safe.refl)
    | (with_reducible intro _)
    | (with_reducible apply Safe.ite)
    | (with_reducible apply Safe.pre (Dev.step_safe ..))
    | simp only [Safe.upd]
    | split
    | dsimp only

theorem Dev.twinLeave_same (d : Dev) : Same d (Dev.twinLeave d) := by
  unfold Dev.twinLeave
  repeat' first
    | (with_reducible apply Same.refl)
    | (with_reducible intro _)
    | (with_reducible apply Same.ite)
    | (with_reducible apply Same.pre (Dev.mirror_same ..))
    | simp only [Same.upd]
    | split
    | dsimp only

theorem Dev.twinTakeover_same (d : Dev) : Same d (Dev.twinTakeover d) := by
  unfold Dev.twinTakeover
  repeat' first
    | (with_reducible apply Same.refl)
    | (with_reducible intro _)
    | (with_reducible apply Same.ite)
    | (with_reducible apply Same.pre (Dev.failover_same ..))
    | split
    | dsimp only

theorem Dev.frontSideChanged_same (d : Dev) (old : Nat) : Same d (Dev.frontSideChanged d old) := by
  unfold Dev.frontSideChanged
  repeat' first
    | (with_reducible apply Same.refl)
    | (with_reducible intro _)
    | (with_reducible apply Same.ite)
    | (with_reducible apply Same.pre (Dev.setTimer_same ..))
    | (with_reducible apply Same.pre (Dev.shadowTimer_same ..))
    | (with_reducible apply Same.pre (Same.foldl ?_ _ _))
    | simp only [Same.upd]
    | split
    | dsimp only

theorem Dev.adoptStorage_same (d : Dev) : Same d (Dev.adoptStorage d) := by
  unfold Dev.adoptStorage
  repeat' first
    | (with_reducible apply Same.refl)
    | (with_reducible intro _)
    | (with_reducible apply Same.ite)
    | (with_reducible apply Same.pre (Dev.drawn_same ..))
    | (with_reducible apply Same.pre (Dev.nsCmd_same ..))
    | (with_reducible apply Same.pre (Same.foldl ?_ _ _))
    | split
    | dsimp only

theorem Dev.firmwareWrite_same (d : Dev) (slot : Nat) (image : List Byte) : Same d (Dev.firmwareWrite d slot image) := by
  unfold Dev.firmwareWrite
  repeat' first
    | (with_reducible apply Same.refl)
    | (with_reducible intro _)
    | (with_reducible apply Same.ite)
    | (with_reducible apply Same.pre (Dev.setNat_same ..))
    | simp only [Same.upd]
    | split
    | dsimp only

theorem Dev.firmwareUpdate_same (d : Dev) : Same d (Dev.firmwareUpdate d) := by
  unfold Dev.firmwareUpdate
  repeat' first
    | (with_reducible apply Same.refl)
    | (with_reducible intro _)
    | (with_reducible apply Same.ite)
    | (with_reducible apply Same.pre (Dev.setNat_same ..))
    | (with_reducible apply Same.pre (Dev.refused_same ..))
    | (with_reducible apply Same.pre (Dev.readSpan_same ..))
    | (with_reducible apply Same.pre (Dev.firmwareWrite_same ..))
    | split
    | dsimp only

theorem Dev.applyBefore_same (d : Dev) (tc : Nat) (c : Change) : Same d (Dev.applyBefore d tc c) := by
  unfold Dev.applyBefore
  repeat' first
    | (with_reducible apply Same.refl)
    | (with_reducible intro _)
    | (with_reducible apply Same.ite)
    | (with_reducible apply Same.pre (Dev.boundary_same ..))
    | (with_reducible apply Same.pre (Dev.captureStop_same ..))
    | simp only [Same.upd]
    | split
    | dsimp only

theorem Dev.applyStore_same (d : Dev) (c : Change) : Same d (Dev.applyStore d c) := by
  unfold Dev.applyStore
  repeat' first
    | (with_reducible apply Same.refl)
    | (with_reducible intro _)
    | (with_reducible apply Same.ite)
    | (with_reducible apply Same.pre (Dev.storeVal_same ..))
    | (with_reducible apply Same.pre (Dev.burn_same ..))
    | split
    | dsimp only

theorem Dev.useDomain_same (d : Dev) (n : Nat) (key : Nat) (v : Val) (f : Dev → Dev) (hf : ∀ z : Dev, Same z (f z)) : Same d (Dev.useDomain d n key v f) := by
  unfold Dev.useDomain
  repeat' first
    | (with_reducible apply Same.refl)
    | (with_reducible intro _)
    | (with_reducible apply Same.pre (hf ..))
    | (with_reducible apply Same.ite)
    | simp only [Same.upd]
    | split
    | dsimp only

theorem Dev.useDomain_safe (d : Dev) (n : Nat) (key : Nat) (v : Val) (f : Dev → Dev) (hf : ∀ z : Dev, Safe z (f z)) : Safe d (Dev.useDomain d n key v f) := by
  unfold Dev.useDomain
  repeat' first
    | (with_reducible apply Safe.refl)
    | (with_reducible intro _)
    | (with_reducible apply Safe.pre (hf ..))
    | (with_reducible apply Safe.ite)
    | simp only [Safe.upd]
    | split
    | dsimp only

theorem Dev.eqFreeze_same (d : Dev) (q : Nat) (k : Nat) (old : Nat) : Same d (Dev.eqFreeze d q k old) := by
  unfold Dev.eqFreeze
  repeat' first
    | (with_reducible apply Same.refl)
    | (with_reducible intro _)
    | (with_reducible apply Same.ite)
    | (with_reducible apply Same.pre (Dev.drawn_same ..))
    | (with_reducible apply Same.pre (Same.foldl ?_ _ _))
    | simp only [Same.upd]
    | split
    | dsimp only

theorem Dev.applyOne_safe (d : Dev) (tc : Nat) (cs : List Change) (c : Change) : Safe d (Dev.applyOne d tc cs c) := by
  unfold Dev.applyOne
  repeat' first
    | (with_reducible apply Safe.refl)
    | (with_reducible intro _)
    | (with_reducible apply Safe.ite)
    | (with_reducible apply Safe.pre (Dev.useDomain_safe _ _ _ _ _ ?_))
    | (with_reducible apply Safe.pre (Dev.setNat_same ..).safe)
    | (with_reducible apply Safe.pre (Dev.setOct_same ..).safe)
    | (with_reducible apply Safe.pre (Dev.setEng_same ..).safe)
    | (with_reducible apply Safe.pre (Dev.flushEngine_same ..).safe)
    | (with_reducible apply Safe.pre (Dev.tryClose_same ..).safe)
    | (with_reducible apply Safe.pre (Dev.commitTrigger_same ..).safe)
    | (with_reducible apply Safe.pre (Dev.retModeChanged_same ..).safe)
    | (with_reducible apply Safe.pre (Dev.frontControl_same ..).safe)
    | (with_reducible apply Safe.pre (Dev.modeCommitted_same ..).safe)
    | (with_reducible apply Safe.pre (Dev.step_safe ..))
    | (with_reducible apply Safe.pre (Dev.abortEye_same ..).safe)
    | (with_reducible apply Safe.pre (Dev.eyeBegin_same ..).safe)
    | (with_reducible apply Safe.pre (Dev.spxEnabled_same ..).safe)
    | (with_reducible apply Safe.pre (Dev.captureStart_same ..).safe)
    | (with_reducible apply Safe.pre (Dev.engineControl_same ..).safe)
    | (with_reducible apply Safe.pre (Dev.setChan_same ..).safe)
    | (with_reducible apply Safe.pre (Dev.checkpoint_same ..).safe)
    | (with_reducible apply Safe.pre (Dev.thawBegin_same ..).safe)
    | (with_reducible apply Safe.pre (Dev.ringMoved_same ..).safe)
    | (with_reducible apply Safe.pre (Dev.stageMoved_same ..).safe)
    | (with_reducible apply Safe.pre (Dev.txControl_same ..).safe)
    | (with_reducible apply Safe.pre (Dev.txForced_same ..).safe)
    | (with_reducible apply Safe.pre (Dev.chkOp_same ..).safe)
    | (with_reducible apply Safe.pre (Dev.keyCheck_same ..).safe)
    | (with_reducible apply Safe.pre (Dev.gateChanged_same ..).safe)
    | (with_reducible apply Safe.pre (Dev.xbChanged_same ..).safe)
    | (with_reducible apply Safe.pre (Dev.clockReverted_same ..).safe)
    | (with_reducible apply Safe.pre (Dev.fabPllChanged_same ..).safe)
    | (with_reducible apply Safe.pre (Dev.coreControlled_same ..).safe)
    | (with_reducible apply Safe.pre (Dev.clearSuspects_same ..).safe)
    | (with_reducible apply Safe.pre (Dev.runNow_same ..).safe)
    | (with_reducible apply Safe.pre (Dev.clearPermanent_same ..).safe)
    | (with_reducible apply Safe.pre (Dev.release_same ..).safe)
    | (with_reducible apply Safe.pre (Dev.quotaChanged_safe ..))
    | (with_reducible apply Safe.pre (Dev.unpin_safe ..))
    | (with_reducible apply Safe.pre (Dev.unpinSession_safe ..))
    | (with_reducible apply Safe.pre (Dev.releaseSession_same ..).safe)
    | (with_reducible apply Safe.pre (Dev.sessionDisabled_safe ..))
    | (with_reducible apply Safe.pre (Dev.ctlReset_safe ..))
    | (with_reducible apply Safe.pre (Dev.ctlRestart_safe ..))
    | (with_reducible apply Safe.pre (Dev.adminCmd_same ..).safe)
    | (with_reducible apply Safe.pre (Dev.storeControl_safe ..))
    | (with_reducible apply Safe.pre (Dev.nsInitialise_same ..).safe)
    | (with_reducible apply Safe.pre (Dev.domainSet_same ..).safe)
    | (with_reducible apply Safe.pre (Dev.queryControl_safe ..))
    | (with_reducible apply Safe.pre (Dev.twinAlign_safe ..))
    | (with_reducible apply Safe.pre (Dev.twinLeave_same ..).safe)
    | (with_reducible apply Safe.pre (Dev.twinTakeover_same ..).safe)
    | (with_reducible apply Safe.pre (Dev.frontSideChanged_same ..).safe)
    | (with_reducible apply Safe.pre (Dev.adoptStorage_same ..).safe)
    | (with_reducible apply Safe.pre (Dev.firmwareUpdate_same ..).safe)
    | (with_reducible apply Safe.pre (Dev.eqFreeze_same ..).safe)
    | simp only [Safe.upd]
    | split
    | dsimp only

theorem Dev.applyPhase_safe (d : Dev) (tc : Nat) (cs : List Change) (ph : Nat) : Safe d (Dev.applyPhase d tc cs ph) := by
  unfold Dev.applyPhase
  repeat' first
    | (with_reducible apply Safe.refl)
    | (with_reducible intro _)
    | (with_reducible apply Safe.ite)
    | (with_reducible apply Safe.pre (Dev.pumpDomains_same ..).safe)
    | (with_reducible apply Safe.pre (Dev.applyOne_safe ..))
    | (with_reducible apply Safe.pre (Safe.foldl ?_ _ _))
    | split
    | dsimp only

theorem Dev.applySettle_same (d : Dev) (cs : List Change) : Same d (Dev.applySettle d cs) := by
  unfold Dev.applySettle
  repeat' first
    | (with_reducible apply Same.refl)
    | (with_reducible intro _)
    | (with_reducible apply Same.ite)
    | (with_reducible apply Same.pre (Dev.settleCause_same ..))
    | (with_reducible apply Same.pre (Same.foldl ?_ _ _))
    | split
    | dsimp only

theorem Dev.applyTests_same (d : Dev) (cs : List Change) : Same d (Dev.applyTests d cs) := by
  unfold Dev.applyTests
  repeat' first
    | (with_reducible apply Same.refl)
    | (with_reducible intro _)
    | (with_reducible apply Same.ite)
    | (with_reducible apply Same.pre (Dev.abortSlices_same ..))
    | split
    | dsimp only

theorem Dev.storeAll_same (d : Dev) (cs : List Change) (tc : Nat) : Same d (Dev.storeAll d cs tc) := by
  unfold Dev.storeAll
  repeat' first
    | (with_reducible apply Same.refl)
    | (with_reducible intro _)
    | (with_reducible apply Same.ite)
    | (with_reducible apply Same.pre (Dev.applyBefore_same ..))
    | (with_reducible apply Same.pre (Dev.applyStore_same ..))
    | (with_reducible apply Same.pre (Dev.applyTests_same ..))
    | (with_reducible apply Same.pre (Same.foldl ?_ _ _))
    | split
    | dsimp only

theorem Dev.applyAll_safe (d : Dev) (cs : List Change) (tc : Nat) : Safe d (Dev.applyAll d cs tc) := by
  unfold Dev.applyAll
  repeat' first
    | (with_reducible apply Safe.refl)
    | (with_reducible intro _)
    | (with_reducible apply Safe.ite)
    | (with_reducible apply Safe.pre (Dev.sendFill_same ..).safe)
    | (with_reducible apply Safe.pre (Dev.modesChanged_same ..).safe)
    | (with_reducible apply Safe.pre (Dev.layoutChanged_same ..).safe)
    | (with_reducible apply Safe.pre (Dev.applyPhase_safe ..))
    | (with_reducible apply Safe.pre (Dev.applySettle_same ..).safe)
    | (with_reducible apply Safe.pre (Safe.foldl ?_ _ _))
    | split
    | dsimp only

end Sys2Proof.Machine
end

