-- ==== Sys2Proof/Laws/Cache.lean ====
section
/-! SUPPORT. What each operation of Machine/Cache.lean keeps (`Same` and `Safe` of Laws/Frame.lean). -/

set_option Elab.async false
set_option linter.unusedTactic false
set_option linter.unreachableTactic false

namespace Sys2Proof.Machine

theorem Dev.readLine_safe (d : Dev) (c : Nat) (line : Nat) : Safe d (Dev.readLine d c line).2 := by
  unfold Dev.readLine
  repeat' first
    | (with_reducible apply Safe.refl)
    | (with_reducible intro _)
    | (with_reducible apply Safe.ite)
    | (with_reducible apply Safe.pre (Dev.fetch_safe ..))
    | split
    | dsimp only

theorem Dev.noteWrite_same (d : Dev) (c a : Nat) : Same d (Dev.noteWrite d c a) := by
  unfold Dev.noteWrite
  repeat' first
    | (with_reducible apply Same.refl)
    | (with_reducible intro _)
    | (with_reducible apply Same.ite)
    | (with_reducible apply Same.pre (Dev.setCore_same ..))
    | split
    | dsimp only

theorem Dev.coreFence_same (d : Dev) (c : Nat) : Same d (Dev.coreFence d c).2 := Dev.setCore_same ..

/-- A fence leaves the core with no target to flush (R324). -/
theorem Dev.coreFence_written (d : Dev) (c : Nat) : ((Dev.coreFence d c).2.core c).written = [] := by
  simp [Dev.coreFence, Dev.setCore_core]

theorem Dev.backLine_safe (d : Dev) (c : Nat) (x : CacheLine) : Safe d (Dev.backLine d c x) := by
  unfold Dev.backLine
  repeat' first
    | (with_reducible apply Safe.refl)
    | (with_reducible intro _)
    | (with_reducible apply Safe.ite)
    | (with_reducible apply Safe.pre (Dev.poke_safe ..))
    | (with_reducible apply Safe.pre (Dev.postAt_safe ..))
    | (with_reducible apply Safe.pre (Dev.noteWrite_same ..).safe)
    | split
    | dsimp only

theorem Dev.setShared_same (d : Dev) (e : Nat) (l : List CacheLine) : Same d (Dev.setShared d e l) := by
  unfold Dev.setShared
  repeat' first
    | (with_reducible apply Same.refl)
    | (with_reducible intro _)
    | (with_reducible apply Same.ite)
    | simp only [Same.upd]
    | split
    | dsimp only

theorem Dev.invalidate_safe (d : Dev) (line : Nat) (write : Bool) (but : Option Nat) : Safe d (Dev.invalidate d line write but) := by
  unfold Dev.invalidate
  repeat' first
    | (with_reducible apply Safe.refl)
    | (with_reducible intro _)
    | (with_reducible apply Safe.ite)
    | (with_reducible apply Safe.pre (Dev.setCore_same ..).safe)
    | (with_reducible apply Safe.pre (Dev.backLine_safe ..))
    | (with_reducible apply Safe.pre (Safe.foldl ?_ _ _))
    | simp only [Safe.upd]
    | split
    | dsimp only

theorem Dev.snoopShare_safe (d : Dev) (line : Nat) (me : Nat) : Safe d (Dev.snoopShare d line me).2 := by
  unfold Dev.snoopShare
  repeat' first
    | (with_reducible apply Safe.refl)
    | (with_reducible intro _)
    | (with_reducible apply Safe.ite)
    | (with_reducible apply Safe.pre (Dev.setCore_same ..).safe)
    | (with_reducible apply Safe.pre (Dev.backLine_safe ..))
    | (with_reducible apply Safe.pre (Dev.setShared_same ..).safe)
    | (with_reducible apply Safe.pre (Safe.foldl ?_ _ _))
    | (with_reducible apply Safe.pre (Safe.foldl_snd ?_ _ _))
    | simp only [Safe.upd]
    | split
    | dsimp only

theorem Dev.sharedRoom_safe (d : Dev) (e : Nat) : Safe d (Dev.sharedRoom d e) := by
  unfold Dev.sharedRoom
  repeat' first
    | (with_reducible apply Safe.refl)
    | (with_reducible intro _)
    | (with_reducible apply Safe.ite)
    | (with_reducible apply Safe.pre (Dev.drawn_same ..).safe)
    | (with_reducible apply Safe.pre (Dev.setCore_same ..).safe)
    | (with_reducible apply Safe.pre (Dev.backLine_safe ..))
    | (with_reducible apply Safe.pre (Dev.setShared_same ..).safe)
    | (with_reducible apply Safe.pre (Safe.foldl ?_ _ _))
    | simp only [Safe.upd]
    | split
    | dsimp only

theorem Dev.fill_safe (d : Dev) (c : Nat) (inst : Bool) (y : CacheLine) : Safe d (Dev.fill d c inst y) := by
  unfold Dev.fill
  repeat' first
    | (with_reducible apply Safe.refl)
    | (with_reducible intro _)
    | (with_reducible apply Safe.ite)
    | (with_reducible apply Safe.pre (Dev.drawn_same ..).safe)
    | (with_reducible apply Safe.pre (Dev.setCore_same ..).safe)
    | (with_reducible apply Safe.pre (Dev.backLine_safe ..))
    | simp only [Safe.upd]
    | split
    | dsimp only

theorem Dev.takeLine_safe (d : Dev) (c : Nat) (line : Nat) (inst : Bool) (write : Bool) : Safe d (Dev.takeLine d c line inst write).2 := by
  unfold Dev.takeLine
  repeat' first
    | (with_reducible apply Safe.refl)
    | (with_reducible intro _)
    | (with_reducible apply Safe.ite)
    | (with_reducible apply Safe.pre (Dev.setCore_same ..).safe)
    | (with_reducible apply Safe.pre (Dev.readLine_safe ..))
    | (with_reducible apply Safe.pre (Dev.setShared_same ..).safe)
    | (with_reducible apply Safe.pre (Dev.invalidate_safe ..))
    | (with_reducible apply Safe.pre (Dev.snoopShare_safe ..))
    | (with_reducible apply Safe.pre (Dev.sharedRoom_safe ..))
    | (with_reducible apply Safe.pre (Dev.fill_safe ..))
    | simp only [Safe.upd]
    | split
    | dsimp only

theorem Dev.coreRead_safe (d : Dev) (c : Nat) (a : Nat) (n : Nat) (inst : Bool) : Safe d (Dev.coreRead d c a n inst).2 := by
  unfold Dev.coreRead
  repeat' first
    | (with_reducible apply Safe.refl)
    | (with_reducible intro _)
    | (with_reducible apply Safe.ite)
    | (with_reducible apply Safe.pre (Dev.takeLine_safe ..))
    | split
    | dsimp only

theorem Dev.coreWrite_safe (d : Dev) (c : Nat) (a : Nat) (l : List Byte) : Safe d (Dev.coreWrite d c a l).2 := by
  unfold Dev.coreWrite
  repeat' first
    | (with_reducible apply Safe.refl)
    | (with_reducible intro _)
    | (with_reducible apply Safe.ite)
    | (with_reducible apply Safe.pre (Dev.setCore_same ..).safe)
    | (with_reducible apply Safe.pre (Dev.setShared_same ..).safe)
    | (with_reducible apply Safe.pre (Dev.takeLine_safe ..))
    | simp only [Safe.upd]
    | split
    | dsimp only

theorem Dev.coreTimer_same (d : Dev) (c v : Nat) : Same d (Dev.coreTimer d c v) := by
  unfold Dev.coreTimer
  exact Same.trans (Dev.setCore_same ..) (Dev.noteWrite_same ..)

theorem Dev.coreCsrWrite_same (d : Dev) (c csr v : Nat) : Same d (Dev.coreCsrWrite d c csr v) := by
  unfold Dev.coreCsrWrite
  split
  · exact Dev.setCore_same ..
  · exact Dev.setCore_same ..
  · exact Same.refl _

theorem Dev.cboClean_safe (d : Dev) (line : Nat) : Safe d (Dev.cboClean d line) := by
  unfold Dev.cboClean
  repeat' first
    | (with_reducible apply Safe.refl)
    | (with_reducible intro _)
    | (with_reducible apply Safe.ite)
    | (with_reducible apply Safe.pre (Dev.setCore_same ..).safe)
    | (with_reducible apply Safe.pre (Dev.backLine_safe ..))
    | (with_reducible apply Safe.pre (Safe.foldl ?_ _ _))
    | simp only [Safe.upd]
    | split
    | dsimp only

theorem Dev.cboInval_safe (d : Dev) (line : Nat) : Safe d (Dev.cboInval d line) := by
  unfold Dev.cboInval
  repeat' first
    | (with_reducible apply Safe.refl)
    | (with_reducible intro _)
    | (with_reducible apply Safe.ite)
    | (with_reducible apply Safe.pre (Dev.setShared_same ..).safe)
    | (with_reducible apply Safe.pre (Dev.invalidate_safe ..))
    | (with_reducible apply Safe.pre (Safe.foldl ?_ _ _))
    | split
    | dsimp only

theorem Dev.cboFlush_safe (d : Dev) (line : Nat) : Safe d (Dev.cboFlush d line) := by
  unfold Dev.cboFlush
  repeat' first
    | (with_reducible apply Safe.refl)
    | (with_reducible intro _)
    | (with_reducible apply Safe.ite)
    | (with_reducible apply Safe.pre (Dev.cboClean_safe ..))
    | (with_reducible apply Safe.pre (Dev.cboInval_safe ..))
    | split
    | dsimp only

end Sys2Proof.Machine
end

