-- ==== Sys2Proof/Laws/Check.lean ====
section
/-! SUPPORT. What each operation of Machine/Check.lean keeps (`Same` and `Safe` of Laws/Frame.lean). -/

set_option Elab.async false
set_option linter.unusedTactic false
set_option linter.unreachableTactic false

namespace Sys2Proof.Machine

theorem Dev.overlay_same (d : Dev) (l : List Staged) : Same d (Dev.overlay d l) := by
  unfold Dev.overlay
  repeat' first
    | (with_reducible apply Same.refl)
    | (with_reducible intro _)
    | (with_reducible apply Same.ite)
    | (with_reducible apply Same.pre (Dev.setNat_same ..))
    | (with_reducible apply Same.pre (Dev.storeVal_same ..))
    | (with_reducible apply Same.pre (Same.foldl ?_ _ _))
    | split
    | dsimp only

end Sys2Proof.Machine
end

