-- ==== Sys2Proof/Laws/Commit.lean ====
section
/-! SUPPORT. What each operation of Machine/Commit.lean keeps (`Same` and `Safe` of Laws/Frame.lean). -/

set_option Elab.async false
set_option linter.unusedTactic false
set_option linter.unreachableTactic false

namespace Sys2Proof.Machine

theorem Dev.setBox_same (d : Dev) (k : Nat) (x : Mailbox) : Same d (Dev.setBox d k x) := by
  unfold Dev.setBox
  repeat' first
    | (with_reducible apply Same.refl)
    | (with_reducible intro _)
    | (with_reducible apply Same.ite)
    | simp only [Same.upd]
    | split
    | dsimp only

theorem Dev.setCoreBox_same (d : Dev) (c : Nat) (x : Mailbox) : Same d (Dev.setCoreBox d c x) := by
  unfold Dev.setCoreBox
  repeat' first
    | (with_reducible apply Same.refl)
    | (with_reducible intro _)
    | (with_reducible apply Same.ite)
    | simp only [Same.upd]
    | split
    | dsimp only

theorem Dev.boxDone_same (d : Dev) (k : Nat) (resp : List Byte) : Same d (Dev.boxDone d k resp) := by
  unfold Dev.boxDone
  repeat' first
    | (with_reducible apply Same.refl)
    | (with_reducible intro _)
    | (with_reducible apply Same.ite)
    | (with_reducible apply Same.pre (Dev.setBox_same ..))
    | simp only [Same.upd]
    | split
    | dsimp only

theorem Dev.coreDone_same (d : Dev) (c : Nat) (resp : List Byte) : Same d (Dev.coreDone d c resp) := by
  unfold Dev.coreDone
  repeat' first
    | (with_reducible apply Same.refl)
    | (with_reducible intro _)
    | (with_reducible apply Same.ite)
    | (with_reducible apply Same.pre (Dev.raiseLine_same ..))
    | (with_reducible apply Same.pre (Dev.setCoreBox_same ..))
    | simp only [Same.upd]
    | split
    | dsimp only

theorem Dev.sendReply_same (d : Dev) (r : Reply) (tick : Nat) : Same d (Dev.sendReply d r tick) := by
  unfold Dev.sendReply
  repeat' first
    | (with_reducible apply Same.refl)
    | (with_reducible intro _)
    | (with_reducible apply Same.ite)
    | (with_reducible apply Same.pre (Dev.send_same ..))
    | (with_reducible apply Same.pre (Dev.sendPdu_same ..))
    | (with_reducible apply Same.pre (Dev.boxDone_same ..))
    | (with_reducible apply Same.pre (Dev.coreDone_same ..))
    | (with_reducible apply Same.pre (Same.foldl ?_ _ _))
    | simp only [Same.upd]
    | split
    | dsimp only

theorem Dev.putReply_same (d : Dev) (n : Nat) (r : Reply) (tick : Nat) : Same d (Dev.putReply d n r tick) := by
  unfold Dev.putReply
  repeat' first
    | (with_reducible apply Same.refl)
    | (with_reducible intro _)
    | (with_reducible apply Same.ite)
    | (with_reducible apply Same.pre (Dev.sendReply_same ..))
    | simp only [Same.upd]
    | split
    | dsimp only

theorem Dev.settleReply_same (d : Dev) (n : Nat) (f : RItem → RItem) (tick : Nat) : Same d (Dev.settleReply d n f tick) := by
  unfold Dev.settleReply
  repeat' first
    | (with_reducible apply Same.refl)
    | (with_reducible intro _)
    | (with_reducible apply Same.ite)
    | (with_reducible apply Same.pre (Dev.putReply_same ..))
    | simp only [Same.upd]
    | split
    | dsimp only

theorem Dev.swapTxn_same (d : Dev) (t : Txn) (u : Txn) : Same d (Dev.swapTxn d t u) := by
  unfold Dev.swapTxn
  repeat' first
    | (with_reducible apply Same.refl)
    | (with_reducible intro _)
    | (with_reducible apply Same.ite)
    | simp only [Same.upd]
    | split
    | dsimp only

theorem Dev.dropTxn_same (d : Dev) (t : Txn) : Same d (Dev.dropTxn d t) := by
  unfold Dev.dropTxn
  repeat' first
    | (with_reducible apply Same.refl)
    | (with_reducible intro _)
    | (with_reducible apply Same.ite)
    | simp only [Same.upd]
    | split
    | dsimp only

theorem Dev.failNote_same (d : Dev) (key : Nat) (status : Nat) : Same d (Dev.failNote d key status) := by
  unfold Dev.failNote
  repeat' first
    | (with_reducible apply Same.refl)
    | (with_reducible intro _)
    | (with_reducible apply Same.ite)
    | (with_reducible apply Same.pre (Dev.setNat_same ..))
    | split
    | dsimp only

theorem Dev.sendVerdict_same (d : Dev) (txn : Nat) (key : Nat) (status : Nat) : Same d (Dev.sendVerdict d txn key status) := by
  unfold Dev.sendVerdict
  repeat' first
    | (with_reducible apply Same.refl)
    | (with_reducible intro _)
    | (with_reducible apply Same.ite)
    | (with_reducible apply Same.pre (Dev.mirror_same ..))
    | split
    | dsimp only

theorem Dev.sendShadows_same (d : Dev) (l : List Staged) (tc : Nat) : Same d (Dev.sendShadows d l tc) := by
  unfold Dev.sendShadows
  repeat' first
    | (with_reducible apply Same.refl)
    | (with_reducible intro _)
    | (with_reducible apply Same.ite)
    | (with_reducible apply Same.pre (Dev.mirror_same ..))
    | (with_reducible apply Same.pre (Same.foldl ?_ _ _))
    | split
    | dsimp only

theorem Dev.usedOld_same (d : Dev) (key : Nat) : Same d (Dev.usedOld d key) := by
  unfold Dev.usedOld
  repeat' first
    | (with_reducible apply Same.refl)
    | (with_reducible intro _)
    | (with_reducible apply Same.ite)
    | (with_reducible apply Same.pre (Dev.drawn_same ..))
    | split
    | dsimp only

theorem Dev.itemEntries_same (d : Dev) (t : Txn) (tc : Nat) : Same d (Dev.itemEntries d t tc).2 := by
  unfold Dev.itemEntries
  repeat' first
    | (with_reducible apply Same.refl)
    | (with_reducible intro _)
    | (with_reducible apply Same.ite)
    | (with_reducible apply Same.pre (Dev.usedOld_same ..))
    | (with_reducible apply Same.pre (Same.foldl ?_ _ _))
    | (with_reducible apply Same.pre (Same.foldl_snd ?_ _ _))
    | split
    | dsimp only

theorem Dev.applyUser_same (d : Dev) (l : List Staged) : Same d (Dev.applyUser d l) := by
  unfold Dev.applyUser
  repeat' first
    | (with_reducible apply Same.refl)
    | (with_reducible intro _)
    | (with_reducible apply Same.ite)
    | (with_reducible apply Same.pre (Same.foldl ?_ _ _))
    | simp only [Same.upd]
    | split
    | dsimp only

theorem Dev.applyCommit_safe (d : Dev) (t : Txn) (tc : Nat) : Safe d (Dev.applyCommit d t tc) := by
  unfold Dev.applyCommit
  repeat' first
    | (with_reducible apply Safe.refl)
    | (with_reducible intro _)
    | (with_reducible apply Safe.ite)
    | (with_reducible apply Safe.pre (Dev.setNat_same ..).safe)
    | (with_reducible apply Safe.pre (Dev.inc_same ..).safe)
    | (with_reducible apply Safe.pre (Dev.keepVals_same ..).safe)
    | (with_reducible apply Safe.pre (Dev.logEntry_same ..).safe)
    | (with_reducible apply Safe.pre (Dev.occurAs_same ..).safe)
    | (with_reducible apply Safe.pre (Dev.storeAll_same ..).safe)
    | (with_reducible apply Safe.pre (Dev.applyAll_safe ..))
    | (with_reducible apply Safe.pre (Dev.sendShadows_same ..).safe)
    | (with_reducible apply Safe.pre (Dev.itemEntries_same ..).safe)
    | (with_reducible apply Safe.pre (Dev.applyUser_same ..).safe)
    | (with_reducible apply Safe.pre (Safe.foldl ?_ _ _))
    | simp only [Safe.upd]
    | split
    | dsimp only

theorem Dev.autoFallback_same (d : Dev) (t : Txn) : Same d (Dev.autoFallback d t) := by
  unfold Dev.autoFallback
  repeat' first
    | (with_reducible apply Same.refl)
    | (with_reducible intro _)
    | (with_reducible apply Same.ite)
    | (with_reducible apply Same.pre (Dev.autoMode_same ..))
    | split
    | dsimp only

theorem Dev.txnFail_same (d : Dev) (t : Txn) (key : Nat) (status : Nat) (tick : Nat) (late : Bool) : Same d (Dev.txnFail d t key status tick late) := by
  unfold Dev.txnFail
  repeat' first
    | (with_reducible apply Same.refl)
    | (with_reducible intro _)
    | (with_reducible apply Same.ite)
    | (with_reducible apply Same.pre (Dev.mirror_same ..))
    | (with_reducible apply Same.pre (Dev.settleReply_same ..))
    | (with_reducible apply Same.pre (Dev.swapTxn_same ..))
    | (with_reducible apply Same.pre (Dev.dropTxn_same ..))
    | (with_reducible apply Same.pre (Dev.failNote_same ..))
    | (with_reducible apply Same.pre (Dev.sendVerdict_same ..))
    | (with_reducible apply Same.pre (Dev.autoFallback_same ..))
    | simp only [Same.upd]
    | split
    | dsimp only

theorem validationStartEffect_same (d : Dev) : Same d (validationStartEffect d) := by
  unfold validationStartEffect
  repeat' first
    | (with_reducible apply Same.refl)
    | (with_reducible intro _)
    | (with_reducible apply Same.ite)
    | (with_reducible apply Same.pre (Dev.swapTxn_same ..))
    | (with_reducible apply Same.pre (Same.foldl ?_ _ _))
    | simp only [Same.upd]
    | split
    | dsimp only

theorem Dev.scheduleTxn_same (d : Dev) (t : Txn) (lead : Nat) : Same d (Dev.scheduleTxn d t lead) := by
  unfold Dev.scheduleTxn
  repeat' first
    | (with_reducible apply Same.refl)
    | (with_reducible intro _)
    | (with_reducible apply Same.ite)
    | (with_reducible apply Same.pre (Dev.mirror_same ..))
    | (with_reducible apply Same.pre (Dev.settleReply_same ..))
    | (with_reducible apply Same.pre (Dev.swapTxn_same ..))
    | (with_reducible apply Same.pre (Dev.txnFail_same ..))
    | simp only [Same.upd]
    | split
    | dsimp only

theorem validationEndEffect_same (d : Dev) : Same d (validationEndEffect d) := by
  unfold validationEndEffect
  repeat' first
    | (with_reducible apply Same.refl)
    | (with_reducible intro _)
    | (with_reducible apply Same.ite)
    | (with_reducible apply Same.pre (Dev.mirror_same ..))
    | (with_reducible apply Same.pre (Dev.swapTxn_same ..))
    | (with_reducible apply Same.pre (Dev.dropTxn_same ..))
    | (with_reducible apply Same.pre (Dev.sendVerdict_same ..))
    | (with_reducible apply Same.pre (Dev.txnFail_same ..))
    | (with_reducible apply Same.pre (Dev.scheduleTxn_same ..))
    | simp only [Same.upd]
    | split
    | dsimp only

theorem commitTickEffect_safe (d : Dev) : Safe d (commitTickEffect d) := by
  unfold commitTickEffect
  repeat' first
    | (with_reducible apply Safe.refl)
    | (with_reducible intro _)
    | (with_reducible apply Safe.ite)
    | (with_reducible apply Safe.pre (Dev.when_safe _ _ _ ?_))
    | (with_reducible apply Safe.pre (Dev.settleReply_same ..).safe)
    | (with_reducible apply Safe.pre (Dev.dropTxn_same ..).safe)
    | (with_reducible apply Safe.pre (Dev.applyCommit_safe ..))
    | (with_reducible apply Safe.pre (Dev.txnFail_same ..).safe)
    | split
    | dsimp only

theorem Dev.readItem_same (d : Dev) (og : Nat) (t : Option Txn) (it : ReqItem) : Same d (Dev.readItem d og t it).2 := by
  unfold Dev.readItem
  repeat' first
    | (with_reducible apply Same.refl)
    | (with_reducible intro _)
    | (with_reducible apply Same.ite)
    | (with_reducible apply Same.pre (Dev.readObj_same ..))
    | simp only [Same.upd]
    | split
    | dsimp only

theorem serveItems_same (n og : Nat) (named : Bool) (l : List ReqItem) (s : Served) : Same s.dev (serveItems n og named l s).dev := by
  unfold serveItems
  induction l generalizing s with
  | nil => exact Same.refl _
  | cons it l ih =>
    rw [List.foldl_cons]
    refine Same.trans ?_ (ih _)
    dsimp only
    split
    · dsimp only
      apply Same.pre ?_ (Dev.readItem_same s.dev og (some s.txn) it)
      split
      · simp only [Same.upd]
        with_reducible exact Same.refl _
      · with_reducible exact Same.refl _
    · split <;> exact Same.refl _
    · exact Same.refl _
    · exact Same.refl _

theorem Dev.beginOp_same (d : Dev) (og : Nat) (keyId : Nat) : Same d (Dev.beginOp d og keyId).2 := by
  unfold Dev.beginOp
  repeat' first
    | (with_reducible apply Same.refl)
    | (with_reducible intro _)
    | (with_reducible apply Same.ite)
    | simp only [Same.upd]
    | split
    | dsimp only

theorem Dev.commitOp_same (d : Dev) (t : Txn) (n : Nat) (keyId : Nat) (it : ReqItem) : Same d (Dev.commitOp d t n keyId it).2 := by
  unfold Dev.commitOp
  repeat' first
    | (with_reducible apply Same.refl)
    | (with_reducible intro _)
    | (with_reducible apply Same.ite)
    | (with_reducible apply Same.pre (Dev.dropTxn_same ..))
    | simp only [Same.upd]
    | split
    | dsimp only

theorem Dev.rollBack_same (d : Dev) (t : Txn) (code : Nat) (og : Nat) (keyId : Nat) : Same d (Dev.rollBack d t code og keyId) := by
  unfold Dev.rollBack
  repeat' first
    | (with_reducible apply Same.refl)
    | (with_reducible intro _)
    | (with_reducible apply Same.ite)
    | (with_reducible apply Same.pre (Dev.logEntry_same ..))
    | (with_reducible apply Same.pre (Dev.dropTxn_same ..))
    | split
    | dsimp only

theorem Dev.rollbackOp_same (d : Dev) (t : Txn) (keyId : Nat) : Same d (Dev.rollbackOp d t keyId).2 := by
  unfold Dev.rollbackOp
  repeat' first
    | (with_reducible apply Same.refl)
    | (with_reducible intro _)
    | (with_reducible apply Same.ite)
    | (with_reducible apply Same.pre (Dev.settleReply_same ..))
    | (with_reducible apply Same.pre (Dev.rollBack_same ..))
    | simp only [Same.upd]
    | split
    | dsimp only

theorem Dev.haltedRequest_same (d : Dev) (r : Reply) (l : List ReqItem) : Same d (Dev.haltedRequest d r l) := by
  unfold Dev.haltedRequest
  repeat' first
    | (with_reducible apply Same.refl)
    | (with_reducible intro _)
    | (with_reducible apply Same.ite)
    | (with_reducible apply Same.pre (Dev.sendReply_same ..))
    | (with_reducible apply Same.pre (Dev.readItem_same ..))
    | (with_reducible apply Same.pre (Same.foldl ?_ _ _))
    | (with_reducible apply Same.pre (Same.foldl_snd ?_ _ _))
    | simp only [Same.upd]
    | split
    | dsimp only

theorem Dev.controlRequest_same (d : Dev) (n : Nat) (r : Reply) (t : Option Txn) (it : ReqItem) : Same d (Dev.controlRequest d n r t it).2 := by
  unfold Dev.controlRequest
  repeat' first
    | (with_reducible apply Same.refl)
    | (with_reducible intro _)
    | (with_reducible apply Same.ite)
    | (with_reducible apply Same.pre (Dev.beginOp_same ..))
    | (with_reducible apply Same.pre (Dev.commitOp_same ..))
    | (with_reducible apply Same.pre (Dev.rollbackOp_same ..))
    | split
    | dsimp only

theorem Dev.itemRequest_same (d : Dev) (n : Nat) (r : Reply) (t : Option Txn) (l : List ReqItem) : Same d (Dev.itemRequest d n r t l) := by
  unfold Dev.itemRequest
  repeat' first
    | (with_reducible apply Same.refl)
    | (with_reducible intro _)
    | (with_reducible apply Same.ite)
    | (with_reducible apply Same.pre (Dev.putReply_same ..))
    | (with_reducible apply Same.pre (Dev.swapTxn_same ..))
    | (with_reducible apply Same.pre (serveItems_same ..))
    | simp only [Same.upd]
    | split
    | dsimp only

theorem Dev.request_same (d : Dev) (r : Reply) (l : List ReqItem) : Same d (Dev.request d r l) := by
  unfold Dev.request
  repeat' first
    | (with_reducible apply Same.refl)
    | (with_reducible intro _)
    | (with_reducible apply Same.ite)
    | (with_reducible apply Same.pre (Dev.sendReply_same ..))
    | (with_reducible apply Same.pre (Dev.putReply_same ..))
    | (with_reducible apply Same.pre (Dev.swapTxn_same ..))
    | (with_reducible apply Same.pre (Dev.haltedRequest_same ..))
    | (with_reducible apply Same.pre (Dev.controlRequest_same ..))
    | (with_reducible apply Same.pre (Dev.itemRequest_same ..))
    | simp only [Same.upd]
    | split
    | dsimp only

theorem Dev.rush_safe (d : Dev) : Safe d (Dev.rush d) := by
  unfold Dev.rush
  repeat' first
    | (with_reducible apply Safe.refl)
    | (with_reducible intro _)
    | (with_reducible apply Safe.ite)
    | (with_reducible apply Safe.pre (Dev.settleReply_same ..).safe)
    | (with_reducible apply Safe.pre (Dev.swapTxn_same ..).safe)
    | (with_reducible apply Safe.pre (Dev.dropTxn_same ..).safe)
    | (with_reducible apply Safe.pre (Dev.applyCommit_safe ..))
    | (with_reducible apply Safe.pre (Dev.txnFail_same ..).safe)
    | simp only [Safe.upd]
    | split
    | dsimp only

theorem Dev.commitItems_safe (d : Dev) (og : Origin) (l : List ReqItem) : Safe d (Dev.commitItems d og l) := by
  unfold Dev.commitItems
  repeat' first
    | (with_reducible apply Safe.refl)
    | (with_reducible intro _)
    | (with_reducible apply Safe.ite)
    | (with_reducible apply Safe.pre (Dev.request_same ..).safe)
    | (with_reducible apply Safe.pre (Dev.rush_safe ..))
    | split
    | dsimp only

theorem Dev.commitNow_safe (d : Dev) (og : Origin) (l : List (Nat × Val)) : Safe d (Dev.commitNow d og l) := by
  unfold Dev.commitNow
  repeat' first
    | (with_reducible apply Safe.refl)
    | (with_reducible intro _)
    | (with_reducible apply Safe.ite)
    | (with_reducible apply Safe.pre (Dev.commitItems_safe ..))
    | split
    | dsimp only

end Sys2Proof.Machine
end

