-- ==== Sys2Proof/Laws/Commands.lean ====
section
/-! SUPPORT. What each operation of Machine/Commands.lean keeps (`Same` and `Safe` of Laws/Frame.lean). -/

set_option Elab.async false
set_option linter.unusedTactic false
set_option linter.unreachableTactic false

namespace Sys2Proof.Machine

theorem Dev.write1_safe (d : Dev) (og : Origin) (key : Nat) (v : Int) : Safe d (Dev.write1 d og key v) := by
  unfold Dev.write1
  repeat' first
    | (with_reducible apply Safe.refl)
    | (with_reducible intro _)
    | (with_reducible apply Safe.ite)
    | (with_reducible apply Safe.pre (Dev.commitNow_safe ..))
    | split
    | dsimp only

theorem Dev.writeOct_safe (d : Dev) (og : Origin) (key : Nat) (l : List Byte) : Safe d (Dev.writeOct d og key l) := by
  unfold Dev.writeOct
  repeat' first
    | (with_reducible apply Safe.refl)
    | (with_reducible intro _)
    | (with_reducible apply Safe.ite)
    | (with_reducible apply Safe.pre (Dev.commitNow_safe ..))
    | split
    | dsimp only

theorem Dev.linkLoss_same (d : Dev) (q : Nat) (down : Nat) : Same d (Dev.linkLoss d q down) := by
  unfold Dev.linkLoss
  repeat' first
    | (with_reducible apply Same.refl)
    | (with_reducible intro _)
    | (with_reducible apply Same.ite)
    | (with_reducible apply Same.pre (Dev.twinCheck_same ..))
    | (with_reducible apply Same.pre (Dev.spxLost_same ..))
    | split
    | dsimp only

theorem Dev.storeMount_safe (d : Dev) (og : Origin) (ctls : List CtlFound) (nss : List NsFound) : Safe d (Dev.storeMount d og ctls nss) := by
  unfold Dev.storeMount
  repeat' first
    | (with_reducible apply Safe.refl)
    | (with_reducible intro _)
    | (with_reducible apply Safe.ite)
    | (with_reducible apply Safe.pre (Dev.when_safe _ _ _ ?_))
    | (with_reducible apply Safe.pre (Dev.mount_safe ..))
    | (with_reducible apply Safe.pre (Dev.storeControl_safe ..))
    | (with_reducible apply Safe.pre (Dev.write1_safe ..))
    | split
    | dsimp only

theorem Dev.chkDram_safe (d : Dev) (og : Origin) (line : Nat) (op : Nat) : Safe d (Dev.chkDram d og line op) := by
  unfold Dev.chkDram
  repeat' first
    | (with_reducible apply Safe.refl)
    | (with_reducible intro _)
    | (with_reducible apply Safe.ite)
    | (with_reducible apply Safe.pre (Dev.commitNow_safe ..))
    | split
    | dsimp only

theorem Dev.fuseWrite_safe (d : Dev) (og : Origin) (index : Nat) (sub : Nat) (value : List Byte) : Safe d (Dev.fuseWrite d og index sub value) := by
  unfold Dev.fuseWrite
  repeat' first
    | (with_reducible apply Safe.refl)
    | (with_reducible intro _)
    | (with_reducible apply Safe.ite)
    | (with_reducible apply Safe.pre (Dev.when_safe _ _ _ ?_))
    | (with_reducible apply Safe.pre (Dev.commitItems_safe ..))
    | split
    | dsimp only

end Sys2Proof.Machine
end

