-- ==== Sys2Proof/Laws/Dictionary.lean ====
section
/-! SUPPORT. What each operation of Machine/Dictionary.lean keeps (`Same` and `Safe` of Laws/Frame.lean). -/

set_option Elab.async false
set_option linter.unusedTactic false
set_option linter.unreachableTactic false

namespace Sys2Proof.Machine

theorem Dev.monitorItem_same (d : Dev) (it : ReqItem) : Same d (Dev.monitorItem d it).2.2 := by
  unfold Dev.monitorItem
  repeat' first
    | (with_reducible apply Same.refl)
    | (with_reducible intro _)
    | (with_reducible apply Same.ite)
    | (with_reducible apply Same.pre (Dev.storeVal_same ..))
    | (with_reducible apply Same.pre (Dev.firmwareWrite_same ..))
    | (with_reducible apply Same.pre (Dev.readItem_same ..))
    | simp only [Same.upd]
    | split
    | dsimp only

theorem Dev.monitorRequest_safe (d : Dev) (r : Reply) (l : List ReqItem) : Safe d (Dev.monitorRequest d r l) := by
  unfold Dev.monitorRequest
  extract_lets s m
  have h : Same d s.2.2 := by
    refine Dev.monitorItems_same _ l (([], false, d) : List RItem × Bool × Dev) ?_
    intro a it
    with_reducible exact Dev.monitorItem_same ..
  clear_value s
  have hm : Same s.2.2 m := Dev.sendReply_same ..
  clear_value m
  refine (h.trans hm).safe.trans ?_
  refine Safe.ite ?_ (Safe.refl _)
  exact (Dev.drawn_same m).safe.trans (Dev.deviceReset_safe ..)

theorem Dev.serve_safe (d : Dev) (r : Reply) (l : List ReqItem) : Safe d (Dev.serve d r l) := by
  unfold Dev.serve
  repeat' first
    | (with_reducible apply Safe.refl)
    | (with_reducible intro _)
    | (with_reducible apply Safe.ite)
    | (with_reducible apply Safe.pre (Dev.request_same ..).safe)
    | (with_reducible apply Safe.pre (Dev.monitorRequest_safe ..))
    | split
    | dsimp only

theorem Dev.setVaneSource_same (d : Dev) (x : VaneSource) : Same d (Dev.setVaneSource d x) := by
  unfold Dev.setVaneSource
  repeat' first
    | (with_reducible apply Same.refl)
    | (with_reducible intro _)
    | (with_reducible apply Same.ite)
    | simp only [Same.upd]
    | split
    | dsimp only

theorem Dev.authFailed_same (d : Dev) (v : Nat) (src : List Byte) : Same d (Dev.authFailed d v src) := by
  unfold Dev.authFailed
  repeat' first
    | (with_reducible apply Same.refl)
    | (with_reducible intro _)
    | (with_reducible apply Same.ite)
    | (with_reducible apply Same.pre (Dev.inc_same ..))
    | (with_reducible apply Same.pre (Dev.logNote_same ..))
    | (with_reducible apply Same.pre (Dev.occur_same ..))
    | (with_reducible apply Same.pre (Dev.setVaneSource_same ..))
    | simp only [Same.upd]
    | split
    | dsimp only

theorem Dev.vaneServe_safe (d : Dev) (v : Nat) (src : List Byte) (pdu : List Byte) (l : List ReqItem) : Safe d (Dev.vaneServe d v src pdu l) := by
  unfold Dev.vaneServe
  repeat' first
    | (with_reducible apply Safe.refl)
    | (with_reducible intro _)
    | (with_reducible apply Safe.ite)
    | (with_reducible apply Safe.pre (Dev.sendReply_same ..).safe)
    | (with_reducible apply Safe.pre (Dev.serve_safe ..))
    | simp only [Safe.upd]
    | split
    | dsimp only

theorem Dev.vaneCheck_safe (d : Dev) (v : Nat) (src : List Byte) (pdu : List Byte) : Safe d (Dev.vaneCheck d v src pdu) := by
  unfold Dev.vaneCheck
  repeat' first
    | (with_reducible apply Safe.refl)
    | (with_reducible intro _)
    | (with_reducible apply Safe.ite)
    | (with_reducible apply Safe.pre (Dev.inc_same ..).safe)
    | (with_reducible apply Safe.pre (Dev.authFailed_same ..).safe)
    | (with_reducible apply Safe.pre (Dev.vaneServe_safe ..))
    | split
    | dsimp only

theorem vanePduEffect_safe (v : Nat) (src : List Byte) (frag : Option Nat) (pdu : List Byte) (d : Dev) : Safe d (vanePduEffect v src frag pdu d) := by
  unfold vanePduEffect
  repeat' first
    | (with_reducible apply Safe.refl)
    | (with_reducible intro _)
    | (with_reducible apply Safe.ite)
    | (with_reducible apply Safe.pre (Dev.when_safe _ _ _ ?_))
    | (with_reducible apply Safe.pre (Dev.inc_same ..).safe)
    | (with_reducible apply Safe.pre (Dev.vaneCheck_safe ..))
    | simp only [Safe.upd]
    | split
    | dsimp only

theorem reassemblyEffect_same (v : Nat) (id : Nat) (d : Dev) : Same d (reassemblyEffect v id d) := by
  unfold reassemblyEffect
  repeat' first
    | (with_reducible apply Same.refl)
    | (with_reducible intro _)
    | (with_reducible apply Same.ite)
    | simp only [Same.upd]
    | split
    | dsimp only

theorem Dev.setBoxOf_same (d : Dev) (k : BoxId) (x : Mailbox) : Same d (Dev.setBoxOf d k x) := by
  unfold Dev.setBoxOf
  repeat' first
    | (with_reducible apply Same.refl)
    | (with_reducible intro _)
    | (with_reducible apply Same.ite)
    | (with_reducible apply Same.pre (Dev.setBox_same ..))
    | (with_reducible apply Same.pre (Dev.setCoreBox_same ..))
    | split
    | dsimp only

theorem postEffect_same (k : BoxId) (len : Nat) (req : List Byte) (d : Dev) : Same d (postEffect k len req d) := by
  unfold postEffect
  repeat' first
    | (with_reducible apply Same.refl)
    | (with_reducible intro _)
    | (with_reducible apply Same.ite)
    | (with_reducible apply Same.pre (Dev.when_same _ _ _ ?_))
    | (with_reducible apply Same.pre (Dev.setBoxOf_same ..))
    | split
    | dsimp only

theorem releaseEffect_same (k : BoxId) (d : Dev) : Same d (releaseEffect k d) := by
  unfold releaseEffect
  repeat' first
    | (with_reducible apply Same.refl)
    | (with_reducible intro _)
    | (with_reducible apply Same.ite)
    | (with_reducible apply Same.pre (Dev.when_same _ _ _ ?_))
    | (with_reducible apply Same.pre (Dev.setBoxOf_same ..))
    | split
    | dsimp only

theorem Dev.boxOfDone_same (d : Dev) (k : BoxId) (resp : List Byte) : Same d (Dev.boxOfDone d k resp) := by
  unfold Dev.boxOfDone
  repeat' first
    | (with_reducible apply Same.refl)
    | (with_reducible intro _)
    | (with_reducible apply Same.ite)
    | (with_reducible apply Same.pre (Dev.boxDone_same ..))
    | (with_reducible apply Same.pre (Dev.coreDone_same ..))
    | split
    | dsimp only

theorem takeEffect_safe (k : BoxId) (d : Dev) : Safe d (takeEffect k d) := by
  unfold takeEffect
  repeat' first
    | (with_reducible apply Safe.refl)
    | (with_reducible intro _)
    | (with_reducible apply Safe.ite)
    | (with_reducible apply Safe.pre (Dev.when_safe _ _ _ ?_))
    | (with_reducible apply Safe.pre (Dev.request_same ..).safe)
    | (with_reducible apply Safe.pre (Dev.serve_safe ..))
    | (with_reducible apply Safe.pre (Dev.setBoxOf_same ..).safe)
    | (with_reducible apply Safe.pre (Dev.boxOfDone_same ..).safe)
    | simp only [Safe.upd]
    | split
    | dsimp only

theorem fabricRequestEffect_safe (f : Nat) (req : List Byte) (d : Dev) : Safe d (fabricRequestEffect f req d) := by
  unfold fabricRequestEffect
  repeat' first
    | (with_reducible apply Safe.refl)
    | (with_reducible intro _)
    | (with_reducible apply Safe.ite)
    | (with_reducible apply Safe.pre (Dev.when_safe _ _ _ ?_))
    | (with_reducible apply Safe.pre (Dev.send_same ..).safe)
    | (with_reducible apply Safe.pre (Dev.serve_safe ..))
    | simp only [Safe.upd]
    | split
    | dsimp only

theorem oneEffect_safe (og : Origin) (txn : Nat) (it : ReqItem) (d : Dev) : Safe d (oneEffect og txn it d) := by
  unfold oneEffect
  repeat' first
    | (with_reducible apply Safe.refl)
    | (with_reducible intro _)
    | (with_reducible apply Safe.ite)
    | (with_reducible apply Safe.pre (Dev.serve_safe ..))
    | split
    | dsimp only

theorem txnIdleEffect_same (slot : Nat) (d : Dev) : Same d (txnIdleEffect slot d) := by
  unfold txnIdleEffect
  repeat' first
    | (with_reducible apply Same.refl)
    | (with_reducible intro _)
    | (with_reducible apply Same.ite)
    | (with_reducible apply Same.pre (Dev.when_same _ _ _ ?_))
    | (with_reducible apply Same.pre (Dev.rollBack_same ..))
    | split
    | dsimp only

theorem Dev.sampleReply_same (d : Dev) (x : Sample) (f : RItem → RItem) : Same d (Dev.sampleReply d x f) := by
  unfold Dev.sampleReply
  repeat' first
    | (with_reducible apply Same.refl)
    | (with_reducible intro _)
    | (with_reducible apply Same.ite)
    | (with_reducible apply Same.pre (Dev.putReply_same ..))
    | simp only [Same.upd]
    | split
    | dsimp only

theorem sampleEffect_same (index : Nat) (sub : Nat) (value : List Byte) (again : Nat) (d : Dev) : Same d (sampleEffect index sub value again d) := by
  unfold sampleEffect
  repeat' first
    | (with_reducible apply Same.refl)
    | (with_reducible intro _)
    | (with_reducible apply Same.ite)
    | (with_reducible apply Same.pre (Dev.when_same _ _ _ ?_))
    | (with_reducible apply Same.pre (Dev.sampleReply_same ..))
    | simp only [Same.upd]
    | split
    | dsimp only

theorem sampleTimeoutEffect_same (index : Nat) (sub : Nat) (d : Dev) : Same d (sampleTimeoutEffect index sub d) := by
  unfold sampleTimeoutEffect
  repeat' first
    | (with_reducible apply Same.refl)
    | (with_reducible intro _)
    | (with_reducible apply Same.ite)
    | (with_reducible apply Same.pre (Dev.when_same _ _ _ ?_))
    | (with_reducible apply Same.pre (Dev.inc_same ..))
    | (with_reducible apply Same.pre (Dev.sampleReply_same ..))
    | simp only [Same.upd]
    | split
    | dsimp only

theorem Dev.bar0Put_same (d : Dev) (o : Nat) (b : Byte) : Same d (Dev.bar0Put d o b) := by
  unfold Dev.bar0Put
  repeat' first
    | (with_reducible apply Same.refl)
    | (with_reducible intro _)
    | (with_reducible apply Same.ite)
    | (with_reducible apply Same.pre (Dev.setBox_same ..))
    | (with_reducible apply Same.pre (Dev.request_same ..))
    | simp only [Same.upd]
    | split
    | dsimp only

theorem Dev.doorbell_same (d : Dev) (k : Fin 8) (w : Nat) : Same d (Dev.doorbell d k w) := by
  unfold Dev.doorbell
  repeat' first
    | (with_reducible apply Same.refl)
    | (with_reducible intro _)
    | (with_reducible apply Same.ite)
    | (with_reducible apply Same.pre (Dev.request_same ..))
    | (with_reducible apply Same.pre (postEffect_same ..))
    | (with_reducible apply Same.pre (releaseEffect_same ..))
    | split
    | dsimp only

theorem Dev.bar0Write_same (d : Dev) (o : Nat) (l : List Byte) : Same d (Dev.bar0Write d o l) := by
  unfold Dev.bar0Write
  repeat' first
    | (with_reducible apply Same.refl)
    | (with_reducible intro _)
    | (with_reducible apply Same.ite)
    | (with_reducible apply Same.pre (Dev.bar0Put_same ..))
    | (with_reducible apply Same.pre (Dev.doorbell_same ..))
    | (with_reducible apply Same.pre (Same.foldl ?_ _ _))
    | split
    | dsimp only

theorem Dev.bar2Access_safe (d : Dev) (offset : Nat) (op : WinOp) (find : LineFind) : Safe d (Dev.bar2Access d offset op find) := by
  unfold Dev.bar2Access
  repeat' first
    | (with_reducible apply Safe.refl)
    | (with_reducible intro _)
    | (with_reducible apply Safe.ite)
    | (with_reducible apply Safe.pre (Dev.when_safe _ _ _ ?_))
    | (with_reducible apply Safe.pre (Dev.inc_same ..).safe)
    | (with_reducible apply Safe.pre (Dev.send_same ..).safe)
    | (with_reducible apply Safe.pre (Dev.disturb_same ..).safe)
    | (with_reducible apply Safe.pre (Dev.ask_safe ..))
    | split
    | dsimp only

theorem Dev.bar0Access_same (d : Dev) (o : Nat) (op : WinOp) : Same d (Dev.bar0Access d o op) := by
  unfold Dev.bar0Access
  repeat' first
    | (with_reducible apply Same.refl)
    | (with_reducible intro _)
    | (with_reducible apply Same.ite)
    | (with_reducible apply Same.pre (Dev.when_same _ _ _ ?_))
    | (with_reducible apply Same.pre (Dev.send_same ..))
    | (with_reducible apply Same.pre (Dev.bar0Write_same ..))
    | split
    | dsimp only

theorem Dev.msixControlAccess_same (d : Dev) (op : WinOp) : Same d (Dev.msixControlAccess d op) := by
  unfold Dev.msixControlAccess
  repeat' first
    | (with_reducible apply Same.refl)
    | (with_reducible intro _)
    | (with_reducible apply Same.ite)
    | (with_reducible apply Same.pre (Dev.send_same ..))
    | simp only [Same.upd]
    | split
    | dsimp only

theorem windowEffect_safe (offset : BarAddr) (op : WinOp) (find : LineFind) (d : Dev) : Safe d (windowEffect offset op find d) := by
  unfold windowEffect
  repeat' first
    | (with_reducible apply Safe.refl)
    | (with_reducible intro _)
    | (with_reducible apply Safe.ite)
    | (with_reducible apply Safe.pre (Dev.when_safe _ _ _ ?_))
    | (with_reducible apply Safe.pre (Dev.bar2Access_safe ..))
    | (with_reducible apply Safe.pre (Dev.bar0Access_same ..).safe)
    | (with_reducible apply Safe.pre (Dev.msixControlAccess_same ..).safe)
    | simp only [Safe.upd]
    | split
    | dsimp only

end Sys2Proof.Machine
end

