-- ==== Sys2Proof/Laws/Fabric.lean ====
section
/-! SUPPORT. What each operation of Machine/Fabric.lean keeps (`Same` and `Safe` of Laws/Frame.lean). -/

set_option Elab.async false
set_option linter.unusedTactic false
set_option linter.unreachableTactic false

namespace Sys2Proof.Machine

theorem fabricEventEffect_same (f : Nat) (j : Nat) (d : Dev) : Same d (fabricEventEffect f j d) := by
  unfold fabricEventEffect
  repeat' first
    | (with_reducible apply Same.refl)
    | (with_reducible intro _)
    | (with_reducible apply Same.ite)
    | (with_reducible apply Same.pre (Dev.when_same _ _ _ ?_))
    | (with_reducible apply Same.pre (Dev.occur_same ..))
    | split
    | dsimp only

theorem markRequestEffect_same (f : Nat) (set : Nat) (value : Nat) (d : Dev) : Same d (markRequestEffect f set value d) := by
  unfold markRequestEffect
  repeat' first
    | (with_reducible apply Same.refl)
    | (with_reducible intro _)
    | (with_reducible apply Same.ite)
    | (with_reducible apply Same.pre (Dev.when_same _ _ _ ?_))
    | (with_reducible apply Same.pre (Dev.inc_same ..))
    | (with_reducible apply Same.pre (Dev.captureMark_same ..))
    | simp only [Same.upd]
    | split
    | dsimp only

theorem pePopEffect_same (n : Nat) (d : Dev) : Same d (pePopEffect n d) := by
  unfold pePopEffect
  repeat' first
    | (with_reducible apply Same.refl)
    | (with_reducible intro _)
    | (with_reducible apply Same.ite)
    | (with_reducible apply Same.pre (Dev.when_same _ _ _ ?_))
    | (with_reducible apply Same.pre (Dev.send_same ..))
    | (with_reducible apply Same.pre (Dev.setNi_same ..))
    | simp only [Same.upd]
    | split
    | dsimp only

theorem Dev.ramSeen_same (d : Dev) (inst : Nat) (x : SramWord) (acc : RamAcc) (f : SramFind) : Same d (Dev.ramSeen d inst x acc f) := by
  unfold Dev.ramSeen
  repeat' first
    | (with_reducible apply Same.refl)
    | (with_reducible intro _)
    | (with_reducible apply Same.ite)
    | (with_reducible apply Same.pre (Dev.sramSeen_same ..))
    | split
    | dsimp only

theorem ramEffect_same (blk : Nat) (a : Option RamAcc) (b : Option RamAcc) (sameClock : Bool) (fa : SramFind) (fb : SramFind) (d : Dev) : Same d (ramEffect blk a b sameClock fa fb d) := by
  unfold ramEffect
  repeat' first
    | (with_reducible apply Same.refl)
    | (with_reducible intro _)
    | (with_reducible apply Same.ite)
    | (with_reducible apply Same.pre (Dev.when_same _ _ _ ?_))
    | (with_reducible apply Same.pre (Dev.drawn_same ..))
    | (with_reducible apply Same.pre (Dev.setSram_same ..))
    | (with_reducible apply Same.pre (Dev.sramVote_same ..))
    | (with_reducible apply Same.pre (Dev.ramSeen_same ..))
    | simp only [Same.upd]
    | split
    | dsimp only

theorem bankEffect_same (b : Nat) (mv : Nat) (d : Dev) : Same d (bankEffect b mv d) := by
  unfold bankEffect
  repeat' first
    | (with_reducible apply Same.refl)
    | (with_reducible intro _)
    | (with_reducible apply Same.ite)
    | (with_reducible apply Same.pre (Dev.setNat_same ..))
    | (with_reducible apply Same.pre (Dev.occur_same ..))
    | simp only [Same.upd]
    | split
    | dsimp only

theorem shadowAckEffect_same (index : Nat) (sub : Nat) (d : Dev) : Same d (shadowAckEffect index sub d) := by
  unfold shadowAckEffect
  repeat' first
    | (with_reducible apply Same.refl)
    | (with_reducible intro _)
    | (with_reducible apply Same.ite)
    | (with_reducible apply Same.pre (Dev.when_same _ _ _ ?_))
    | simp only [Same.upd]
    | split
    | dsimp only

end Sys2Proof.Machine
end

