-- ==== Sys2Proof/Laws/Fronts.lean ====
section
/-! SUPPORT. What each operation of Machine/Fronts.lean keeps (`Same` and `Safe` of Laws/Frame.lean). -/

set_option Elab.async false
set_option linter.unusedTactic false
set_option linter.unreachableTactic false

namespace Sys2Proof.Machine

theorem frontEffect_same (n : Nat) (d : Dev) : Same d (frontEffect n d) := by
  unfold frontEffect
  repeat' first
    | (with_reducible apply Same.refl)
    | (with_reducible intro _)
    | (with_reducible apply Same.ite)
    | (with_reducible apply Same.pre (Dev.when_same _ _ _ ?_))
    | (with_reducible apply Same.pre (Dev.frontControl_same ..))
    | simp only [Same.upd]
    | split
    | dsimp only

theorem windowEndEffect_same (s : Nat) (d : Dev) : Same d (windowEndEffect s d) := by
  unfold windowEndEffect
  repeat' first
    | (with_reducible apply Same.refl)
    | (with_reducible intro _)
    | (with_reducible apply Same.ite)
    | (with_reducible apply Same.pre (Dev.when_same _ _ _ ?_))
    | (with_reducible apply Same.pre (Dev.setNat_same ..))
    | (with_reducible apply Same.pre (Dev.tryClose_same ..))
    | split
    | dsimp only

theorem notifyEffect_same (v : Nat) (d : Dev) : Same d (notifyEffect v d) := by
  unfold notifyEffect
  repeat' first
    | (with_reducible apply Same.refl)
    | (with_reducible intro _)
    | (with_reducible apply Same.ite)
    | (with_reducible apply Same.pre (Dev.when_same _ _ _ ?_))
    | (with_reducible apply Same.pre (Dev.inc_same ..))
    | (with_reducible apply Same.pre (Dev.sendPdu_same ..))
    | (with_reducible apply Same.pre (Same.foldl ?_ _ _))
    | simp only [Same.upd]
    | split
    | dsimp only

theorem msixEffect_same (v : Nat) (d : Dev) : Same d (msixEffect v d) := by
  unfold msixEffect
  repeat' first
    | (with_reducible apply Same.refl)
    | (with_reducible intro _)
    | (with_reducible apply Same.ite)
    | (with_reducible apply Same.pre (Dev.when_same _ _ _ ?_))
    | (with_reducible apply Same.pre (Dev.send_same ..))
    | simp only [Same.upd]
    | split
    | dsimp only

end Sys2Proof.Machine
end

