-- ==== Sys2Proof/Laws/Jtag.lean ====
section
/-! SUPPORT. What each operation of Machine/Jtag.lean keeps (`Same` and `Safe` of Laws/Frame.lean). -/

set_option Elab.async false
set_option linter.unusedTactic false
set_option linter.unreachableTactic false

namespace Sys2Proof.Machine

theorem Dev.setIr_same (d : Dev) (code : Nat) (drive : Nat) : Same d (Dev.setIr d code drive) := by
  unfold Dev.setIr
  repeat' first
    | (with_reducible apply Same.refl)
    | (with_reducible intro _)
    | (with_reducible apply Same.ite)
    | simp only [Same.upd]
    | split
    | dsimp only

theorem Dev.bypassed_same (d : Dev) : Same d (Dev.bypassed d) := by
  unfold Dev.bypassed
  repeat' first
    | (with_reducible apply Same.refl)
    | (with_reducible intro _)
    | (with_reducible apply Same.ite)
    | (with_reducible apply Same.pre (Dev.send_same ..))
    | (with_reducible apply Same.pre (Dev.setIr_same ..))
    | split
    | dsimp only

theorem idcodeEffect_same (d : Dev) : Same d (idcodeEffect d) := by
  unfold idcodeEffect
  repeat' first
    | (with_reducible apply Same.refl)
    | (with_reducible intro _)
    | (with_reducible apply Same.ite)
    | (with_reducible apply Same.pre (Dev.send_same ..))
    | (with_reducible apply Same.pre (Dev.setIr_same ..))
    | split
    | dsimp only

theorem sampleEffectJ_same (balls : List Bool) (shiftIn : Option (List Bool)) (d : Dev) : Same d (sampleEffectJ balls shiftIn d) := by
  unfold sampleEffectJ
  repeat' first
    | (with_reducible apply Same.refl)
    | (with_reducible intro _)
    | (with_reducible apply Same.ite)
    | (with_reducible apply Same.pre (Dev.send_same ..))
    | (with_reducible apply Same.pre (Dev.setIr_same ..))
    | simp only [Same.upd]
    | split
    | dsimp only

theorem boundaryEffect_same (code : Nat) (drive : Nat) (d : Dev) : Same d (boundaryEffect code drive d) := by
  unfold boundaryEffect
  repeat' first
    | (with_reducible apply Same.refl)
    | (with_reducible intro _)
    | (with_reducible apply Same.ite)
    | (with_reducible apply Same.pre (Dev.setIr_same ..))
    | (with_reducible apply Same.pre (Dev.bypassed_same ..))
    | split
    | dsimp only

theorem cfgLoadEffect_same (bytes : List Byte) (d : Dev) : Same d (cfgLoadEffect bytes d) := by
  unfold cfgLoadEffect
  repeat' first
    | (with_reducible apply Same.refl)
    | (with_reducible intro _)
    | (with_reducible apply Same.ite)
    | (with_reducible apply Same.pre (Dev.loadBegin_same ..))
    | (with_reducible apply Same.pre (Dev.setIr_same ..))
    | (with_reducible apply Same.pre (Dev.bypassed_same ..))
    | simp only [Same.upd]
    | split
    | dsimp only

theorem dictPostEffect_safe (req : List Byte) (d : Dev) : Safe d (dictPostEffect req d) := by
  unfold dictPostEffect
  repeat' first
    | (with_reducible apply Safe.refl)
    | (with_reducible intro _)
    | (with_reducible apply Safe.ite)
    | (with_reducible apply Safe.pre (Dev.when_safe _ _ _ ?_))
    | (with_reducible apply Safe.pre (Dev.serve_safe ..))
    | (with_reducible apply Safe.pre (Dev.setIr_same ..).safe)
    | simp only [Safe.upd]
    | split
    | dsimp only

theorem dictPollEffect_same (d : Dev) : Same d (dictPollEffect d) := by
  unfold dictPollEffect
  repeat' first
    | (with_reducible apply Same.refl)
    | (with_reducible intro _)
    | (with_reducible apply Same.ite)
    | (with_reducible apply Same.pre (Dev.send_same ..))
    | (with_reducible apply Same.pre (Dev.setIr_same ..))
    | split
    | dsimp only

theorem dictReadEffect_same (count : Nat) (d : Dev) : Same d (dictReadEffect count d) := by
  unfold dictReadEffect
  repeat' first
    | (with_reducible apply Same.refl)
    | (with_reducible intro _)
    | (with_reducible apply Same.ite)
    | (with_reducible apply Same.pre (Dev.send_same ..))
    | (with_reducible apply Same.pre (Dev.setIr_same ..))
    | split
    | dsimp only

theorem debugEffect_same (c : Nat) (halt : Bool) (d : Dev) : Same d (debugEffect c halt d) := by
  unfold debugEffect
  repeat' first
    | (with_reducible apply Same.refl)
    | (with_reducible intro _)
    | (with_reducible apply Same.ite)
    | (with_reducible apply Same.pre (Dev.when_same _ _ _ ?_))
    | (with_reducible apply Same.pre (Dev.setNat_same ..))
    | (with_reducible apply Same.pre (Dev.setIr_same ..))
    | split
    | dsimp only

theorem devresetEffect_safe (pins : Nat) (d : Dev) : Safe d (devresetEffect pins d) := by
  unfold devresetEffect
  repeat' first
    | (with_reducible apply Safe.refl)
    | (with_reducible intro _)
    | (with_reducible apply Safe.ite)
    | (with_reducible apply Safe.pre (Dev.deviceReset_safe ..))
    | (with_reducible apply Safe.pre (Dev.setIr_same ..).safe)
    | split
    | dsimp only

end Sys2Proof.Machine
end

