-- ==== Sys2Proof/Laws/Twin.lean ====
section
/-! SUPPORT. What each operation of Machine/Twin.lean keeps (`Same` and `Safe` of Laws/Frame.lean). -/

set_option Elab.async false
set_option linter.unusedTactic false
set_option linter.unreachableTactic false

namespace Sys2Proof.Machine

theorem Dev.take_same (d : Dev) (msgSeq : Nat) (again : Bool) (f : Dev → Dev) (hf : ∀ z : Dev, Same z (f z)) : Same d (Dev.take d msgSeq again f) := by
  unfold Dev.take
  repeat' first
    | (with_reducible apply Same.refl)
    | (with_reducible intro _)
    | (with_reducible apply Same.pre (hf ..))
    | (with_reducible apply Same.ite)
    | (with_reducible apply Same.pre (Dev.when_same _ _ _ ?_))
    | simp only [Same.upd]
    | split
    | dsimp only

theorem Dev.take_safe (d : Dev) (msgSeq : Nat) (again : Bool) (f : Dev → Dev) (hf : ∀ z : Dev, Safe z (f z)) : Safe d (Dev.take d msgSeq again f) := by
  unfold Dev.take
  repeat' first
    | (with_reducible apply Safe.refl)
    | (with_reducible intro _)
    | (with_reducible apply Safe.pre (hf ..))
    | (with_reducible apply Safe.ite)
    | (with_reducible apply Safe.pre (Dev.when_safe _ _ _ ?_))
    | simp only [Safe.upd]
    | split
    | dsimp only

theorem proposeEffect_same (msgSeq : Nat) (txn : Nat) (items : List (Nat × Nat × List Byte)) (d : Dev) : Same d (proposeEffect msgSeq txn items d) := by
  unfold proposeEffect
  repeat' first
    | (with_reducible apply Same.refl)
    | (with_reducible intro _)
    | (with_reducible apply Same.ite)
    | (with_reducible apply Same.pre (Dev.take_same _ _ _ _ ?_))
    | (with_reducible apply Same.pre (Dev.mirror_same ..))
    | (with_reducible apply Same.pre (Dev.sendVerdict_same ..))
    | simp only [Same.upd]
    | split
    | dsimp only

theorem verdictEffect_same (msgSeq : Nat) (txn : Nat) (status : Nat) (index : Nat) (sub : Nat) (d : Dev) : Same d (verdictEffect msgSeq txn status index sub d) := by
  unfold verdictEffect
  repeat' first
    | (with_reducible apply Same.refl)
    | (with_reducible intro _)
    | (with_reducible apply Same.ite)
    | (with_reducible apply Same.pre (Dev.take_same _ _ _ _ ?_))
    | (with_reducible apply Same.pre (Dev.txnFail_same ..))
    | (with_reducible apply Same.pre (Dev.scheduleTxn_same ..))
    | split
    | dsimp only

theorem scheduleEffect_same (msgSeq : Nat) (txn : Nat) (tc : Nat) (d : Dev) : Same d (scheduleEffect msgSeq txn tc d) := by
  unfold scheduleEffect
  repeat' first
    | (with_reducible apply Same.refl)
    | (with_reducible intro _)
    | (with_reducible apply Same.ite)
    | (with_reducible apply Same.pre (Dev.take_same _ _ _ _ ?_))
    | (with_reducible apply Same.pre (Dev.mirror_same ..))
    | (with_reducible apply Same.pre (Dev.twinSync_same ..))
    | (with_reducible apply Same.pre (Dev.swapTxn_same ..))
    | (with_reducible apply Same.pre (Dev.dropTxn_same ..))
    | simp only [Same.upd]
    | split
    | dsimp only

theorem shadowEffect_same (msgSeq : Nat) (tc : Nat) (items : List (Nat × Nat × List Byte)) (d : Dev) : Same d (shadowEffect msgSeq tc items d) := by
  unfold shadowEffect
  repeat' first
    | (with_reducible apply Same.refl)
    | (with_reducible intro _)
    | (with_reducible apply Same.ite)
    | (with_reducible apply Same.pre (Dev.take_same _ _ _ _ ?_))
    | (with_reducible apply Same.pre (Dev.peak_same ..))
    | (with_reducible apply Same.pre (Same.foldl ?_ _ _))
    | simp only [Same.upd]
    | split
    | dsimp only

theorem logbookEffect_same (msgSeq : Nat) (entries : List (List Byte)) (d : Dev) : Same d (logbookEffect msgSeq entries d) := by
  unfold logbookEffect
  repeat' first
    | (with_reducible apply Same.refl)
    | (with_reducible intro _)
    | (with_reducible apply Same.ite)
    | (with_reducible apply Same.pre (Dev.take_same _ _ _ _ ?_))
    | (with_reducible apply Same.pre (Dev.setNat_same ..))
    | (with_reducible apply Same.pre (Same.foldl ?_ _ _))
    | simp only [Same.upd]
    | split
    | dsimp only

theorem extentEffect_safe (msgSeq : Nat) (number : Nat) (entry : List Byte) (d : Dev) : Safe d (extentEffect msgSeq number entry d) := by
  unfold extentEffect
  repeat' first
    | (with_reducible apply Safe.refl)
    | (with_reducible intro _)
    | (with_reducible apply Safe.ite)
    | (with_reducible apply Safe.pre (Dev.take_safe _ _ _ _ ?_))
    | (with_reducible apply Safe.pre (Dev.postAt_safe ..))
    | (with_reducible apply Safe.pre (Dev.setExt_same ..).safe)
    | simp only [Safe.upd]
    | split
    | dsimp only

theorem subentryEffect_same (msgSeq : Nat) (number : Nat) (entry : List Byte) (d : Dev) : Same d (subentryEffect msgSeq number entry d) := by
  unfold subentryEffect
  repeat' first
    | (with_reducible apply Same.refl)
    | (with_reducible intro _)
    | (with_reducible apply Same.ite)
    | (with_reducible apply Same.pre (Dev.take_same _ _ _ _ ?_))
    | (with_reducible apply Same.pre (Dev.setExt_same ..))
    | simp only [Same.upd]
    | split
    | dsimp only

theorem frontMsgEffect_same (msgSeq : Nat) (entry : List Byte) (d : Dev) : Same d (frontMsgEffect msgSeq entry d) := by
  unfold frontMsgEffect
  repeat' first
    | (with_reducible apply Same.refl)
    | (with_reducible intro _)
    | (with_reducible apply Same.ite)
    | (with_reducible apply Same.pre (Dev.take_same _ _ _ _ ?_))
    | (with_reducible apply Same.pre (Dev.setNat_same ..))
    | (with_reducible apply Same.pre (Dev.frontControl_same ..))
    | simp only [Same.upd]
    | split
    | dsimp only

theorem Dev.joinEnd_same (d : Dev) : Same d (Dev.joinEnd d) := by
  unfold Dev.joinEnd
  repeat' first
    | (with_reducible apply Same.refl)
    | (with_reducible intro _)
    | (with_reducible apply Same.ite)
    | (with_reducible apply Same.pre (Dev.setNat_same ..))
    | simp only [Same.upd]
    | split
    | dsimp only

theorem Dev.sendAllShadows_same (d : Dev) : Same d (Dev.sendAllShadows d) := by
  unfold Dev.sendAllShadows
  repeat' first
    | (with_reducible apply Same.refl)
    | (with_reducible intro _)
    | (with_reducible apply Same.ite)
    | (with_reducible apply Same.pre (Dev.sendShadows_same ..))
    | (with_reducible apply Same.pre (Same.foldl ?_ _ _))
    | split
    | dsimp only

theorem Dev.resync_same (d : Dev) (logNext : Nat) : Same d (Dev.resync d logNext) := by
  unfold Dev.resync
  repeat' first
    | (with_reducible apply Same.refl)
    | (with_reducible intro _)
    | (with_reducible apply Same.ite)
    | (with_reducible apply Same.pre (Dev.mirror_same ..))
    | (with_reducible apply Same.pre (Dev.mirrorAll_same ..))
    | (with_reducible apply Same.pre (Dev.sendAllShadows_same ..))
    | simp only [Same.upd]
    | split
    | dsimp only

theorem Dev.compat_same (d : Dev) (schema : Nat) : Same d (Dev.compat d schema) := by
  unfold Dev.compat
  repeat' first
    | (with_reducible apply Same.refl)
    | (with_reducible intro _)
    | (with_reducible apply Same.ite)
    | (with_reducible apply Same.pre (Dev.setNat_same ..))
    | (with_reducible apply Same.pre (Dev.occur_same ..))
    | (with_reducible apply Same.pre (Dev.roleLog_same ..))
    | split
    | dsimp only

theorem Dev.sideConflict_same (d : Dev) : Same d (Dev.sideConflict d) := by
  unfold Dev.sideConflict
  repeat' first
    | (with_reducible apply Same.refl)
    | (with_reducible intro _)
    | (with_reducible apply Same.ite)
    | (with_reducible apply Same.pre (Dev.setNat_same ..))
    | (with_reducible apply Same.pre (Dev.roleLog_same ..))
    | split
    | dsimp only

theorem Dev.shareFronts_same (d : Dev) : Same d (Dev.shareFronts d) := by
  unfold Dev.shareFronts
  repeat' first
    | (with_reducible apply Same.refl)
    | (with_reducible intro _)
    | (with_reducible apply Same.ite)
    | (with_reducible apply Same.pre (Dev.setTimer_same ..))
    | (with_reducible apply Same.pre (Same.foldl ?_ _ _))
    | simp only [Same.upd]
    | split
    | dsimp only

theorem Dev.meetPeer_same (d : Dev) (words : List Nat) (side : Nat) (epoch : Nat) (schema : Nat) (logNext : Nat) : Same d (Dev.meetPeer d words side epoch schema logNext) := by
  unfold Dev.meetPeer
  repeat' first
    | (with_reducible apply Same.refl)
    | (with_reducible intro _)
    | (with_reducible apply Same.ite)
    | (with_reducible apply Same.pre (Dev.setNat_same ..))
    | (with_reducible apply Same.pre (Dev.autoMode_same ..))
    | (with_reducible apply Same.pre (Dev.setRole_same ..))
    | (with_reducible apply Same.pre (Dev.keepEpoch_same ..))
    | (with_reducible apply Same.pre (Dev.resync_same ..))
    | (with_reducible apply Same.pre (Dev.compat_same ..))
    | (with_reducible apply Same.pre (Dev.shareFronts_same ..))
    | simp only [Same.upd]
    | split
    | dsimp only

theorem Dev.takeCatalogue_same (d : Dev) (words : List Nat) (side : Nat) (epoch : Nat) (schema : Nat) (logNext : Nat) : Same d (Dev.takeCatalogue d words side epoch schema logNext) := by
  unfold Dev.takeCatalogue
  repeat' first
    | (with_reducible apply Same.refl)
    | (with_reducible intro _)
    | (with_reducible apply Same.ite)
    | (with_reducible apply Same.pre (Dev.sideConflict_same ..))
    | (with_reducible apply Same.pre (Dev.meetPeer_same ..))
    | split
    | dsimp only

theorem catalogueEffect_same (msgSeq : Nat) (words : List Nat) (side : Nat) (epoch : Nat) (schema : Nat) (logNext : Nat) (d : Dev) : Same d (catalogueEffect msgSeq words side epoch schema logNext d) := by
  unfold catalogueEffect
  repeat' first
    | (with_reducible apply Same.refl)
    | (with_reducible intro _)
    | (with_reducible apply Same.ite)
    | (with_reducible apply Same.pre (Dev.twinSync_same ..))
    | (with_reducible apply Same.pre (Dev.takeCatalogue_same ..))
    | simp only [Same.upd]
    | split
    | dsimp only

theorem resyncBeginEffect_same (msgSeq : Nat) (shared : List (Nat × Nat × List Byte)) (d : Dev) : Same d (resyncBeginEffect msgSeq shared d) := by
  unfold resyncBeginEffect
  repeat' first
    | (with_reducible apply Same.refl)
    | (with_reducible intro _)
    | (with_reducible apply Same.ite)
    | (with_reducible apply Same.pre (Dev.take_same _ _ _ _ ?_))
    | simp only [Same.upd]
    | split
    | dsimp only

theorem resyncEndEffect_same (msgSeq : Nat) (d : Dev) : Same d (resyncEndEffect msgSeq d) := by
  unfold resyncEndEffect
  repeat' first
    | (with_reducible apply Same.refl)
    | (with_reducible intro _)
    | (with_reducible apply Same.ite)
    | (with_reducible apply Same.pre (Dev.take_same _ _ _ _ ?_))
    | (with_reducible apply Same.pre (Dev.joinEnd_same ..))
    | simp only [Same.upd]
    | split
    | dsimp only

theorem leaveEffect_same (msgSeq : Nat) (d : Dev) : Same d (leaveEffect msgSeq d) := by
  unfold leaveEffect
  repeat' first
    | (with_reducible apply Same.refl)
    | (with_reducible intro _)
    | (with_reducible apply Same.ite)
    | (with_reducible apply Same.pre (Dev.take_same _ _ _ _ ?_))
    | (with_reducible apply Same.pre (Dev.setNat_same ..))
    | (with_reducible apply Same.pre (Dev.occur_same ..))
    | (with_reducible apply Same.pre (Dev.roleLog_same ..))
    | (with_reducible apply Same.pre (Dev.takeOver_same ..))
    | split
    | dsimp only

theorem beatSendEffect_same (d : Dev) : Same d (beatSendEffect d) := by
  unfold beatSendEffect
  repeat' first
    | (with_reducible apply Same.refl)
    | (with_reducible intro _)
    | (with_reducible apply Same.ite)
    | (with_reducible apply Same.pre (Dev.when_same _ _ _ ?_))
    | (with_reducible apply Same.pre (Dev.queueFrame_same ..))
    | split
    | dsimp only

theorem Dev.setTimeOffset_same (d : Dev) (off : Int) : Same d (Dev.setTimeOffset d off) := by
  unfold Dev.setTimeOffset
  repeat' first
    | (with_reducible apply Same.refl)
    | (with_reducible intro _)
    | (with_reducible apply Same.ite)
    | (with_reducible apply Same.pre (Dev.setInt_same ..))
    | (with_reducible apply Same.pre (Dev.drawn_same ..))
    | split
    | dsimp only

theorem Dev.alignCheck_same (d : Dev) (off : Int) (rx : Nat) : Same d (Dev.alignCheck d off rx) := by
  unfold Dev.alignCheck
  repeat' first
    | (with_reducible apply Same.refl)
    | (with_reducible intro _)
    | (with_reducible apply Same.ite)
    | (with_reducible apply Same.pre (Dev.setNat_same ..))
    | (with_reducible apply Same.pre (Dev.markers_same ..))
    | simp only [Same.upd]
    | split
    | dsimp only

theorem Dev.beatMeasure_same (d : Dev) (off : Int) (rx : Nat) : Same d (Dev.beatMeasure d off rx) := by
  unfold Dev.beatMeasure
  repeat' first
    | (with_reducible apply Same.refl)
    | (with_reducible intro _)
    | (with_reducible apply Same.ite)
    | (with_reducible apply Same.pre (Dev.setNat_same ..))
    | (with_reducible apply Same.pre (Dev.sampleIn_same ..))
    | (with_reducible apply Same.pre (Dev.measured_same ..))
    | (with_reducible apply Same.pre (Dev.setTimeOffset_same ..))
    | (with_reducible apply Same.pre (Dev.alignCheck_same ..))
    | simp only [Same.upd]
    | split
    | dsimp only

theorem beatEffect_same (pos : Nat) (lane : Nat) (payload : List Byte) (d : Dev) : Same d (beatEffect pos lane payload d) := by
  unfold beatEffect
  repeat' first
    | (with_reducible apply Same.refl)
    | (with_reducible intro _)
    | (with_reducible apply Same.ite)
    | (with_reducible apply Same.pre (Dev.when_same _ _ _ ?_))
    | (with_reducible apply Same.pre (Dev.setNat_same ..))
    | (with_reducible apply Same.pre (Dev.beatMeasure_same ..))
    | simp only [Same.upd]
    | split
    | dsimp only

theorem beatMissedEffect_same (d : Dev) : Same d (beatMissedEffect d) := by
  unfold beatMissedEffect
  repeat' first
    | (with_reducible apply Same.refl)
    | (with_reducible intro _)
    | (with_reducible apply Same.ite)
    | (with_reducible apply Same.pre (Dev.when_same _ _ _ ?_))
    | (with_reducible apply Same.pre (Dev.inc_same ..))
    | (with_reducible apply Same.pre (Dev.twinCheck_same ..))
    | simp only [Same.upd]
    | split
    | dsimp only

theorem twinEventEffect_same (originTick : Nat) (slot : Nat) (forwarded : Bool) (input : Nat) (mult : Nat) (d : Dev) : Same d (twinEventEffect originTick slot forwarded input mult d) := by
  unfold twinEventEffect
  repeat' first
    | (with_reducible apply Same.refl)
    | (with_reducible intro _)
    | (with_reducible apply Same.ite)
    | (with_reducible apply Same.pre (Dev.when_same _ _ _ ?_))
    | (with_reducible apply Same.pre (Dev.occurAs_same ..))
    | simp only [Same.upd]
    | split
    | dsimp only

theorem Dev.ownSet_same (d : Dev) (o : ObjDef) (a : Nat) (n : Nat) : Same d (Dev.ownSet d o a n) := by
  unfold Dev.ownSet
  repeat' first
    | (with_reducible apply Same.refl)
    | (with_reducible intro _)
    | (with_reducible apply Same.ite)
    | (with_reducible apply Same.pre (Dev.setNat_same ..))
    | (with_reducible apply Same.pre (Dev.logEntry_same ..))
    | split
    | dsimp only

theorem Dev.takeNs_safe (d : Dev) (f : NsFound) : Safe d (Dev.takeNs d f) := by
  unfold Dev.takeNs
  repeat' first
    | (with_reducible apply Safe.refl)
    | (with_reducible intro _)
    | (with_reducible apply Safe.ite)
    | (with_reducible apply Safe.pre (Dev.setNat_same ..).safe)
    | (with_reducible apply Safe.pre (Dev.loadNs_same ..).safe)
    | (with_reducible apply Safe.pre (Dev.putTable_safe ..))
    | (with_reducible apply Safe.pre (Dev.ownSet_same ..).safe)
    | simp only [Safe.upd]
    | split
    | dsimp only

theorem storageTakeoverEffect_safe (nss : List NsFound) (d : Dev) : Safe d (storageTakeoverEffect nss d) := by
  unfold storageTakeoverEffect
  repeat' first
    | (with_reducible apply Safe.refl)
    | (with_reducible intro _)
    | (with_reducible apply Safe.ite)
    | (with_reducible apply Safe.pre (Dev.when_safe _ _ _ ?_))
    | (with_reducible apply Safe.pre (Dev.flushNs_same ..).safe)
    | (with_reducible apply Safe.pre (Dev.recoverPeer_safe ..))
    | (with_reducible apply Safe.pre (Dev.takeNs_safe ..))
    | (with_reducible apply Safe.pre (Safe.foldl ?_ _ _))
    | split
    | dsimp only

end Sys2Proof.Machine
end

