-- ==== Sys2Proof/Laws/Exec.lean ====
section
/-! SUPPORT. What each command keeps (`Same` and `Safe` of Laws/Frame.lean): the time before it passes, and its effect is Same or Safe. -/

set_option Elab.async false
set_option linter.unusedTactic false
set_option linter.unreachableTactic false

namespace Sys2Proof.Machine

theorem execParityBroadcast_same (dt : Nat) (seen : List (Fin 37 × Int)) (s : State) : ∃ g : Dev → Dev, execParityBroadcast dt seen s = run s dt g ∧ ∀ d, Same d (g d) := by
  refine ⟨_, rfl, fun d => ?_⟩
  repeat' first
    | (with_reducible apply Same.refl)
    | (with_reducible intro _)
    | (with_reducible apply Same.ite)
    | (with_reducible apply Same.pre (parityEffect_same ..))
    | simp only [Same.upd]
    | split
    | dsimp only

theorem execReplicaRealign_same (dt : Nat) (r : Fin 37) (s : State) : ∃ g : Dev → Dev, execReplicaRealign dt r s = run s dt g ∧ ∀ d, Same d (g d) := by
  refine ⟨_, rfl, fun d => ?_⟩
  repeat' first
    | (with_reducible apply Same.refl)
    | (with_reducible intro _)
    | (with_reducible apply Same.ite)
    | (with_reducible apply Same.pre (realignEffect_same ..))
    | simp only [Same.upd]
    | split
    | dsimp only

theorem execTimeMarkerInterval_same (dt : Nat) (s : State) : ∃ g : Dev → Dev, execTimeMarkerInterval dt s = run s dt g ∧ ∀ d, Same d (g d) := by
  refine ⟨_, rfl, fun d => ?_⟩
  repeat' first
    | (with_reducible apply Same.refl)
    | (with_reducible intro _)
    | (with_reducible apply Same.ite)
    | (with_reducible apply Same.pre (markerIntervalEffect_same ..))
    | simp only [Same.upd]
    | split
    | dsimp only

theorem execPpsEdge_same (dt : Nat) (pos : Fin 1024) (s : State) : ∃ g : Dev → Dev, execPpsEdge dt pos s = run s dt g ∧ ∀ d, Same d (g d) := by
  refine ⟨_, rfl, fun d => ?_⟩
  repeat' first
    | (with_reducible apply Same.refl)
    | (with_reducible intro _)
    | (with_reducible apply Same.ite)
    | (with_reducible apply Same.pre (ppsEffect_same ..))
    | simp only [Same.upd]
    | split
    | dsimp only

theorem execPtpSync_same (dt : Nat) (pos : Fin 1024) (pdu : PtpPdu) (s : State) : ∃ g : Dev → Dev, execPtpSync dt pos pdu s = run s dt g ∧ ∀ d, Same d (g d) := by
  refine ⟨_, rfl, fun d => ?_⟩
  repeat' first
    | (with_reducible apply Same.refl)
    | (with_reducible intro _)
    | (with_reducible apply Same.ite)
    | (with_reducible apply Same.pre (ptpEffect_same ..))
    | simp only [Same.upd]
    | split
    | dsimp only

theorem execDisciplineMeasurement_same (dt : Nat) (s : State) : ∃ g : Dev → Dev, execDisciplineMeasurement dt s = run s dt g ∧ ∀ d, Same d (g d) := by
  refine ⟨_, rfl, fun d => ?_⟩
  repeat' first
    | (with_reducible apply Same.refl)
    | (with_reducible intro _)
    | (with_reducible apply Same.ite)
    | (with_reducible apply Same.pre (measureEffect_same ..))
    | simp only [Same.upd]
    | split
    | dsimp only

theorem execReferenceLoss_same (dt : Nat) (s : State) : ∃ g : Dev → Dev, execReferenceLoss dt s = run s dt g ∧ ∀ d, Same d (g d) := by
  refine ⟨_, rfl, fun d => ?_⟩
  repeat' first
    | (with_reducible apply Same.refl)
    | (with_reducible intro _)
    | (with_reducible apply Same.ite)
    | (with_reducible apply Same.pre (refLossEffect_same ..))
    | simp only [Same.upd]
    | split
    | dsimp only

theorem execHoldoverLimit_same (dt : Nat) (s : State) : ∃ g : Dev → Dev, execHoldoverLimit dt s = run s dt g ∧ ∀ d, Same d (g d) := by
  refine ⟨_, rfl, fun d => ?_⟩
  repeat' first
    | (with_reducible apply Same.refl)
    | (with_reducible intro _)
    | (with_reducible apply Same.ite)
    | (with_reducible apply Same.pre (holdoverLimitEffect_same ..))
    | simp only [Same.upd]
    | split
    | dsimp only

theorem execDisciplineModeSet_safe (dt : Nat) (og : Origin) (mode : Nat) (s : State) : ∃ g : Dev → Dev, execDisciplineModeSet dt og mode s = run s dt g ∧ ∀ d, Safe d (g d) := by
  refine ⟨_, rfl, fun d => ?_⟩
  repeat' first
    | (with_reducible apply Safe.refl)
    | (with_reducible intro _)
    | (with_reducible apply Safe.ite)
    | (with_reducible apply Safe.pre (Dev.write1_safe ..))
    | simp only [Safe.upd]
    | split
    | dsimp only

theorem execTimebaseSet_safe (dt : Nat) (og : Origin) (value : Nat) (s : State) : ∃ g : Dev → Dev, execTimebaseSet dt og value s = run s dt g ∧ ∀ d, Safe d (g d) := by
  refine ⟨_, rfl, fun d => ?_⟩
  repeat' first
    | (with_reducible apply Safe.refl)
    | (with_reducible intro _)
    | (with_reducible apply Safe.ite)
    | (with_reducible apply Safe.pre (Dev.write1_safe ..))
    | simp only [Safe.upd]
    | split
    | dsimp only

theorem execLosAssert_same (dt : Nat) (q : Fin 36) (k : Fin 4) (s : State) : ∃ g : Dev → Dev, execLosAssert dt q k s = run s dt g ∧ ∀ d, Same d (g d) := by
  refine ⟨_, rfl, fun d => ?_⟩
  repeat' first
    | (with_reducible apply Same.refl)
    | (with_reducible intro _)
    | (with_reducible apply Same.ite)
    | (with_reducible apply Same.pre (Dev.linkLoss_same ..))
    | (with_reducible apply Same.pre (Dev.when_same _ _ _ ?_))
    | (with_reducible apply Same.pre (losAssertEffect_same ..))
    | simp only [Same.upd]
    | split
    | dsimp only

theorem execLosDeassert_same (dt : Nat) (q : Fin 36) (k : Fin 4) (s : State) : ∃ g : Dev → Dev, execLosDeassert dt q k s = run s dt g ∧ ∀ d, Same d (g d) := by
  refine ⟨_, rfl, fun d => ?_⟩
  repeat' first
    | (with_reducible apply Same.refl)
    | (with_reducible intro _)
    | (with_reducible apply Same.ite)
    | (with_reducible apply Same.pre (losDeassertEffect_same ..))
    | simp only [Same.upd]
    | split
    | dsimp only

theorem execLolAssert_same (dt : Nat) (q : Fin 36) (k : Fin 4) (s : State) : ∃ g : Dev → Dev, execLolAssert dt q k s = run s dt g ∧ ∀ d, Same d (g d) := by
  refine ⟨_, rfl, fun d => ?_⟩
  repeat' first
    | (with_reducible apply Same.refl)
    | (with_reducible intro _)
    | (with_reducible apply Same.ite)
    | (with_reducible apply Same.pre (Dev.linkLoss_same ..))
    | (with_reducible apply Same.pre (Dev.when_same _ _ _ ?_))
    | (with_reducible apply Same.pre (lolAssertEffect_same ..))
    | simp only [Same.upd]
    | split
    | dsimp only

theorem execLolDeassert_same (dt : Nat) (q : Fin 36) (k : Fin 4) (s : State) : ∃ g : Dev → Dev, execLolDeassert dt q k s = run s dt g ∧ ∀ d, Same d (g d) := by
  refine ⟨_, rfl, fun d => ?_⟩
  repeat' first
    | (with_reducible apply Same.refl)
    | (with_reducible intro _)
    | (with_reducible apply Same.ite)
    | (with_reducible apply Same.pre (lolDeassertEffect_same ..))
    | simp only [Same.upd]
    | split
    | dsimp only

theorem execAlignmentGained_same (dt : Nat) (lane : LaneOf) (skew : Nat) (s : State) : ∃ g : Dev → Dev, execAlignmentGained dt lane skew s = run s dt g ∧ ∀ d, Same d (g d) := by
  refine ⟨_, rfl, fun d => ?_⟩
  repeat' first
    | (with_reducible apply Same.refl)
    | (with_reducible intro _)
    | (with_reducible apply Same.ite)
    | (with_reducible apply Same.pre (alignGainEffect_same ..))
    | simp only [Same.upd]
    | split
    | dsimp only

theorem execAlignmentLost_same (dt : Nat) (q : Fin 36) (k : Fin 4) (s : State) : ∃ g : Dev → Dev, execAlignmentLost dt q k s = run s dt g ∧ ∀ d, Same d (g d) := by
  refine ⟨_, rfl, fun d => ?_⟩
  repeat' first
    | (with_reducible apply Same.refl)
    | (with_reducible intro _)
    | (with_reducible apply Same.ite)
    | (with_reducible apply Same.pre (alignLossEffect_same ..))
    | simp only [Same.upd]
    | split
    | dsimp only

theorem execUpDebounceExpiry_same (dt : Nat) (q : Fin 36) (p : Fin 4) (s : State) : ∃ g : Dev → Dev, execUpDebounceExpiry dt q p s = run s dt g ∧ ∀ d, Same d (g d) := by
  refine ⟨_, rfl, fun d => ?_⟩
  repeat' first
    | (with_reducible apply Same.refl)
    | (with_reducible intro _)
    | (with_reducible apply Same.ite)
    | (with_reducible apply Same.pre (upDebounceEffect_same ..))
    | simp only [Same.upd]
    | split
    | dsimp only

theorem execDownDebounceExpiry_same (dt : Nat) (q : Fin 36) (p : Fin 4) (s : State) : ∃ g : Dev → Dev, execDownDebounceExpiry dt q p s = run s dt g ∧ ∀ d, Same d (g d) := by
  refine ⟨_, rfl, fun d => ?_⟩
  repeat' first
    | (with_reducible apply Same.refl)
    | (with_reducible intro _)
    | (with_reducible apply Same.ite)
    | (with_reducible apply Same.pre (downDebounceEffect_same ..))
    | simp only [Same.upd]
    | split
    | dsimp only

theorem execFlapHoldExpiry_same (dt : Nat) (q : Fin 36) (p : Fin 4) (s : State) : ∃ g : Dev → Dev, execFlapHoldExpiry dt q p s = run s dt g ∧ ∀ d, Same d (g d) := by
  refine ⟨_, rfl, fun d => ?_⟩
  repeat' first
    | (with_reducible apply Same.refl)
    | (with_reducible intro _)
    | (with_reducible apply Same.ite)
    | (with_reducible apply Same.pre (flapEndEffect_same ..))
    | simp only [Same.upd]
    | split
    | dsimp only

theorem execRefclkStatusChange_same (dt : Nat) (q : Fin 36) (status : Fin 3) (s : State) : ∃ g : Dev → Dev, execRefclkStatusChange dt q status s = run s dt g ∧ ∀ d, Same d (g d) := by
  refine ⟨_, rfl, fun d => ?_⟩
  repeat' first
    | (with_reducible apply Same.refl)
    | (with_reducible intro _)
    | (with_reducible apply Same.ite)
    | (with_reducible apply Same.pre (refclkEffect_same ..))
    | simp only [Same.upd]
    | split
    | dsimp only

theorem execPcieRateChange_same (dt : Nat) (q : Fin 36) (p : Fin 4) (speed : Fin 7) (lanes : LinkLanes) (s : State) : ∃ g : Dev → Dev, execPcieRateChange dt q p speed lanes s = run s dt g ∧ ∀ d, Same d (g d) := by
  refine ⟨_, rfl, fun d => ?_⟩
  repeat' first
    | (with_reducible apply Same.refl)
    | (with_reducible intro _)
    | (with_reducible apply Same.ite)
    | (with_reducible apply Same.pre (pcieRateEffect_same ..))
    | simp only [Same.upd]
    | split
    | dsimp only

theorem execRetuneLimitExpiry_same (dt : Nat) (q : Fin 36) (p : Fin 4) (s : State) : ∃ g : Dev → Dev, execRetuneLimitExpiry dt q p s = run s dt g ∧ ∀ d, Same d (g d) := by
  refine ⟨_, rfl, fun d => ?_⟩
  repeat' first
    | (with_reducible apply Same.refl)
    | (with_reducible intro _)
    | (with_reducible apply Same.ite)
    | (with_reducible apply Same.pre (retuneLimitEffect_same ..))
    | simp only [Same.upd]
    | split
    | dsimp only

theorem execPcieIdleLimitExpiry_same (dt : Nat) (q : Fin 36) (p : Fin 4) (s : State) : ∃ g : Dev → Dev, execPcieIdleLimitExpiry dt q p s = run s dt g ∧ ∀ d, Same d (g d) := by
  refine ⟨_, rfl, fun d => ?_⟩
  repeat' first
    | (with_reducible apply Same.refl)
    | (with_reducible intro _)
    | (with_reducible apply Same.ite)
    | (with_reducible apply Same.pre (idleLimitEffect_same ..))
    | simp only [Same.upd]
    | split
    | dsimp only

theorem execQuadLayoutSet_safe (dt : Nat) (og : Origin) (layouts : List (Fin 36 × Nat)) (s : State) : ∃ g : Dev → Dev, execQuadLayoutSet dt og layouts s = run s dt g ∧ ∀ d, Safe d (g d) := by
  refine ⟨_, rfl, fun d => ?_⟩
  repeat' first
    | (with_reducible apply Safe.refl)
    | (with_reducible intro _)
    | (with_reducible apply Safe.ite)
    | (with_reducible apply Safe.pre (Dev.commitNow_safe ..))
    | simp only [Safe.upd]
    | split
    | dsimp only

theorem execPortModeSet_safe (dt : Nat) (og : Origin) (q : Fin 36) (p : Fin 4) (standard : Option Nat) (rate : Option Nat) (s : State) : ∃ g : Dev → Dev, execPortModeSet dt og q p standard rate s = run s dt g ∧ ∀ d, Safe d (g d) := by
  refine ⟨_, rfl, fun d => ?_⟩
  repeat' first
    | (with_reducible apply Safe.refl)
    | (with_reducible intro _)
    | (with_reducible apply Safe.ite)
    | (with_reducible apply Safe.pre (Dev.commitNow_safe ..))
    | simp only [Safe.upd]
    | split
    | dsimp only

theorem execPortDirectionSet_safe (dt : Nat) (og : Origin) (q : Fin 36) (p : Fin 4) (dir : Bool) (s : State) : ∃ g : Dev → Dev, execPortDirectionSet dt og q p dir s = run s dt g ∧ ∀ d, Safe d (g d) := by
  refine ⟨_, rfl, fun d => ?_⟩
  repeat' first
    | (with_reducible apply Safe.refl)
    | (with_reducible intro _)
    | (with_reducible apply Safe.ite)
    | (with_reducible apply Safe.pre (Dev.write1_safe ..))
    | simp only [Safe.upd]
    | split
    | dsimp only

theorem execLaneEqSet_safe (dt : Nat) (og : Origin) (q : Fin 36) (k : Fin 4) (mode : Option Nat) (ctle : Option (Nat × Nat)) (taps : List (Fin 12 × Int)) (ffe : List (Fin 5 × Int)) (s : State) : ∃ g : Dev → Dev, execLaneEqSet dt og q k mode ctle taps ffe s = run s dt g ∧ ∀ d, Safe d (g d) := by
  refine ⟨_, rfl, fun d => ?_⟩
  repeat' first
    | (with_reducible apply Safe.refl)
    | (with_reducible intro _)
    | (with_reducible apply Safe.ite)
    | (with_reducible apply Safe.pre (Dev.commitNow_safe ..))
    | simp only [Safe.upd]
    | split
    | dsimp only

theorem execSettleWindowExpiry_same (dt : Nat) (q : Fin 36) (p : Fin 4) (s : State) : ∃ g : Dev → Dev, execSettleWindowExpiry dt q p s = run s dt g ∧ ∀ d, Same d (g d) := by
  refine ⟨_, rfl, fun d => ?_⟩
  repeat' first
    | (with_reducible apply Same.refl)
    | (with_reducible intro _)
    | (with_reducible apply Same.ite)
    | (with_reducible apply Same.pre (settleEndEffect_same ..))
    | simp only [Same.upd]
    | split
    | dsimp only

theorem execEyescanStart_safe (dt : Nat) (og : Origin) (q : Fin 36) (s : State) : ∃ g : Dev → Dev, execEyescanStart dt og q s = run s dt g ∧ ∀ d, Safe d (g d) := by
  refine ⟨_, rfl, fun d => ?_⟩
  repeat' first
    | (with_reducible apply Safe.refl)
    | (with_reducible intro _)
    | (with_reducible apply Safe.ite)
    | (with_reducible apply Safe.pre (Dev.write1_safe ..))
    | simp only [Safe.upd]
    | split
    | dsimp only

theorem execEyescanPoint_same (dt : Nat) (q : Fin 36) (errors : Nat) (s : State) : ∃ g : Dev → Dev, execEyescanPoint dt q errors s = run s dt g ∧ ∀ d, Same d (g d) := by
  refine ⟨_, rfl, fun d => ?_⟩
  repeat' first
    | (with_reducible apply Same.refl)
    | (with_reducible intro _)
    | (with_reducible apply Same.ite)
    | (with_reducible apply Same.pre (eyePointEffect_same ..))
    | simp only [Same.upd]
    | split
    | dsimp only

theorem execSpapaxEnable_safe (dt : Nat) (og : Origin) (q : Fin 36) (on : Bool) (s : State) : ∃ g : Dev → Dev, execSpapaxEnable dt og q on s = run s dt g ∧ ∀ d, Safe d (g d) := by
  refine ⟨_, rfl, fun d => ?_⟩
  repeat' first
    | (with_reducible apply Safe.refl)
    | (with_reducible intro _)
    | (with_reducible apply Safe.ite)
    | (with_reducible apply Safe.pre (Dev.write1_safe ..))
    | simp only [Safe.upd]
    | split
    | dsimp only

theorem execReceiverDetectPulse_same (dt : Nat) (q : Fin 36) (termination : Bool) (s : State) : ∃ g : Dev → Dev, execReceiverDetectPulse dt q termination s = run s dt g ∧ ∀ d, Same d (g d) := by
  refine ⟨_, rfl, fun d => ?_⟩
  repeat' first
    | (with_reducible apply Same.refl)
    | (with_reducible intro _)
    | (with_reducible apply Same.ite)
    | (with_reducible apply Same.pre (detectEffect_same ..))
    | simp only [Same.upd]
    | split
    | dsimp only

theorem execSpapaxBlock_same (dt : Nat) (port : LinkEnd) (lane : Fin 8) (levels : List (Fin 4)) (s : State) : ∃ g : Dev → Dev, execSpapaxBlock dt port lane levels s = run s dt g ∧ ∀ d, Same d (g d) := by
  refine ⟨_, rfl, fun d => ?_⟩
  repeat' first
    | (with_reducible apply Same.refl)
    | (with_reducible intro _)
    | (with_reducible apply Same.ite)
    | (with_reducible apply Same.pre (blockEffect_same ..))
    | simp only [Same.upd]
    | split
    | dsimp only

theorem execSpapaxStageTimeout_same (dt : Nat) (q : Fin 36) (freq : Bool) (s : State) : ∃ g : Dev → Dev, execSpapaxStageTimeout dt q freq s = run s dt g ∧ ∀ d, Same d (g d) := by
  refine ⟨_, rfl, fun d => ?_⟩
  repeat' first
    | (with_reducible apply Same.refl)
    | (with_reducible intro _)
    | (with_reducible apply Same.ite)
    | (with_reducible apply Same.pre (stageTimeoutEffect_same ..))
    | simp only [Same.upd]
    | split
    | dsimp only

theorem execSpapaxBackoffExpiry_same (dt : Nat) (q : Fin 36) (s : State) : ∃ g : Dev → Dev, execSpapaxBackoffExpiry dt q s = run s dt g ∧ ∀ d, Same d (g d) := by
  refine ⟨_, rfl, fun d => ?_⟩
  repeat' first
    | (with_reducible apply Same.refl)
    | (with_reducible intro _)
    | (with_reducible apply Same.ite)
    | (with_reducible apply Same.pre (backoffEffect_same ..))
    | simp only [Same.upd]
    | split
    | dsimp only

theorem execLinkManagementFrame_same (dt : Nat) (port : LinkEnd) (msg : LinkMsg) (s : State) : ∃ g : Dev → Dev, execLinkManagementFrame dt port msg s = run s dt g ∧ ∀ d, Same d (g d) := by
  refine ⟨_, rfl, fun d => ?_⟩
  repeat' first
    | (with_reducible apply Same.refl)
    | (with_reducible intro _)
    | (with_reducible apply Same.ite)
    | (with_reducible apply Same.pre (linkFrameEffect_same ..))
    | simp only [Same.upd]
    | split
    | dsimp only

theorem execSpapaxFrame_same (dt : Nat) (port : LinkEnd) (bytes : List Byte) (s : State) : ∃ g : Dev → Dev, execSpapaxFrame dt port bytes s = run s dt g ∧ ∀ d, Same d (g d) := by
  refine ⟨_, rfl, fun d => ?_⟩
  repeat' first
    | (with_reducible apply Same.refl)
    | (with_reducible intro _)
    | (with_reducible apply Same.ite)
    | (with_reducible apply Same.pre (frameEffect_same ..))
    | simp only [Same.upd]
    | split
    | dsimp only

theorem execSpapaxFrameSend_same (dt : Nat) (port : LinkEnd) (s : State) : ∃ g : Dev → Dev, execSpapaxFrameSend dt port s = run s dt g ∧ ∀ d, Same d (g d) := by
  refine ⟨_, rfl, fun d => ?_⟩
  repeat' first
    | (with_reducible apply Same.refl)
    | (with_reducible intro _)
    | (with_reducible apply Same.ite)
    | (with_reducible apply Same.pre (frameSendEffect_same ..))
    | simp only [Same.upd]
    | split
    | dsimp only

theorem execSpapaxAckTimeout_same (dt : Nat) (port : LinkEnd) (s : State) : ∃ g : Dev → Dev, execSpapaxAckTimeout dt port s = run s dt g ∧ ∀ d, Same d (g d) := by
  refine ⟨_, rfl, fun d => ?_⟩
  repeat' first
    | (with_reducible apply Same.refl)
    | (with_reducible intro _)
    | (with_reducible apply Same.ite)
    | (with_reducible apply Same.pre (ackTimeoutEffect_same ..))
    | simp only [Same.upd]
    | split
    | dsimp only

theorem execSpapaxAlignInsert_same (dt : Nat) (port : LinkEnd) (s : State) : ∃ g : Dev → Dev, execSpapaxAlignInsert dt port s = run s dt g ∧ ∀ d, Same d (g d) := by
  refine ⟨_, rfl, fun d => ?_⟩
  repeat' first
    | (with_reducible apply Same.refl)
    | (with_reducible intro _)
    | (with_reducible apply Same.ite)
    | (with_reducible apply Same.pre (alignInsertEffect_same ..))
    | simp only [Same.upd]
    | split
    | dsimp only

theorem execHostLinkDown_same (dt : Nat) (s : State) : ∃ g : Dev → Dev, execHostLinkDown dt s = run s dt g ∧ ∀ d, Same d (g d) := by
  refine ⟨_, rfl, fun d => ?_⟩
  repeat' first
    | (with_reducible apply Same.refl)
    | (with_reducible intro _)
    | (with_reducible apply Same.ite)
    | (with_reducible apply Same.pre (hostDownEffect_same ..))
    | simp only [Same.upd]
    | split
    | dsimp only

theorem execPcieCompletionTimeout_same (dt : Nat) (read : HostRead) (s : State) : ∃ g : Dev → Dev, execPcieCompletionTimeout dt read s = run s dt g ∧ ∀ d, Same d (g d) := by
  refine ⟨_, rfl, fun d => ?_⟩
  repeat' first
    | (with_reducible apply Same.refl)
    | (with_reducible intro _)
    | (with_reducible apply Same.ite)
    | (with_reducible apply Same.pre (completionTimeoutEffect_same ..))
    | simp only [Same.upd]
    | split
    | dsimp only

theorem execPcieSurpriseDown_safe (dt : Nat) (q : Fin 36) (s : State) : ∃ g : Dev → Dev, execPcieSurpriseDown dt q s = run s dt g ∧ ∀ d, Safe d (g d) := by
  refine ⟨_, rfl, fun d => ?_⟩
  repeat' first
    | (with_reducible apply Safe.refl)
    | (with_reducible intro _)
    | (with_reducible apply Safe.ite)
    | (with_reducible apply Safe.pre (surpriseEffect_safe ..))
    | simp only [Safe.upd]
    | split
    | dsimp only

theorem execPcieRetrain_same (dt : Nat) (q : Fin 36) (s : State) : ∃ g : Dev → Dev, execPcieRetrain dt q s = run s dt g ∧ ∀ d, Same d (g d) := by
  refine ⟨_, rfl, fun d => ?_⟩
  repeat' first
    | (with_reducible apply Same.refl)
    | (with_reducible intro _)
    | (with_reducible apply Same.ite)
    | (with_reducible apply Same.pre (retrainEffect_same ..))
    | simp only [Same.upd]
    | split
    | dsimp only

theorem execPcieInboundRequest_same (dt : Nat) (q : Fin 36) (addr : Nat) (len : Nat) (s : State) : ∃ g : Dev → Dev, execPcieInboundRequest dt q addr len s = run s dt g ∧ ∀ d, Same d (g d) := by
  refine ⟨_, rfl, fun d => ?_⟩
  repeat' first
    | (with_reducible apply Same.refl)
    | (with_reducible intro _)
    | (with_reducible apply Same.ite)
    | (with_reducible apply Same.pre (inboundEffect_same ..))
    | simp only [Same.upd]
    | split
    | dsimp only

theorem execVaneFrame_same (dt : Nat) (v : Fin 2) (kind : VaneKind) (dest : VaneDest) (s : State) : ∃ g : Dev → Dev, execVaneFrame dt v kind dest s = run s dt g ∧ ∀ d, Same d (g d) := by
  refine ⟨_, rfl, fun d => ?_⟩
  repeat' first
    | (with_reducible apply Same.refl)
    | (with_reducible intro _)
    | (with_reducible apply Same.ite)
    | (with_reducible apply Same.pre (vaneFrameEffect_same ..))
    | simp only [Same.upd]
    | split
    | dsimp only

theorem execVaneLockoutExpiry_same (dt : Nat) (v : Fin 2) (source : List Byte) (s : State) : ∃ g : Dev → Dev, execVaneLockoutExpiry dt v source s = run s dt g ∧ ∀ d, Same d (g d) := by
  refine ⟨_, rfl, fun d => ?_⟩
  repeat' first
    | (with_reducible apply Same.refl)
    | (with_reducible intro _)
    | (with_reducible apply Same.ite)
    | (with_reducible apply Same.pre (vaneLockoutEffect_same ..))
    | simp only [Same.upd]
    | split
    | dsimp only

theorem execVaneLinkChange_same (dt : Nat) (v : Fin 2) (up : Bool) (s : State) : ∃ g : Dev → Dev, execVaneLinkChange dt v up s = run s dt g ∧ ∀ d, Same d (g d) := by
  refine ⟨_, rfl, fun d => ?_⟩
  repeat' first
    | (with_reducible apply Same.refl)
    | (with_reducible intro _)
    | (with_reducible apply Same.ite)
    | (with_reducible apply Same.pre (vaneLinkEffect_same ..))
    | simp only [Same.upd]
    | split
    | dsimp only

theorem execUnitReceived_same (dt : Nat) (q : Fin 36) (p : Fin 4) (u : RxUnit) (s : State) : ∃ g : Dev → Dev, execUnitReceived dt q p u s = run s dt g ∧ ∀ d, Same d (g d) := by
  refine ⟨_, rfl, fun d => ?_⟩
  repeat' first
    | (with_reducible apply Same.refl)
    | (with_reducible intro _)
    | (with_reducible apply Same.ite)
    | (with_reducible apply Same.pre (unitEffect_same ..))
    | simp only [Same.upd]
    | split
    | dsimp only

theorem execFoldMaxSpanExpiry_same (dt : Nat) (q : Fin 36) (p : Fin 4) (lane : Nat) (s : State) : ∃ g : Dev → Dev, execFoldMaxSpanExpiry dt q p lane s = run s dt g ∧ ∀ d, Same d (g d) := by
  refine ⟨_, rfl, fun d => ?_⟩
  repeat' first
    | (with_reducible apply Same.refl)
    | (with_reducible intro _)
    | (with_reducible apply Same.ite)
    | (with_reducible apply Same.pre (foldSpanEffect_same ..))
    | simp only [Same.upd]
    | split
    | dsimp only

theorem execRecordIngest_same (dt : Nat) (q : Fin 36) (p : Fin 4) (s : State) : ∃ g : Dev → Dev, execRecordIngest dt q p s = run s dt g ∧ ∀ d, Same d (g d) := by
  refine ⟨_, rfl, fun d => ?_⟩
  repeat' first
    | (with_reducible apply Same.refl)
    | (with_reducible intro _)
    | (with_reducible apply Same.ite)
    | (with_reducible apply Same.pre (ingestEffect_same ..))
    | simp only [Same.upd]
    | split
    | dsimp only

theorem execLossRunTimeout_same (dt : Nat) (q : Fin 36) (p : Fin 4) (s : State) : ∃ g : Dev → Dev, execLossRunTimeout dt q p s = run s dt g ∧ ∀ d, Same d (g d) := by
  refine ⟨_, rfl, fun d => ?_⟩
  repeat' first
    | (with_reducible apply Same.refl)
    | (with_reducible intro _)
    | (with_reducible apply Same.ite)
    | (with_reducible apply Same.pre (lossTimeoutEffect_same ..))
    | simp only [Same.upd]
    | split
    | dsimp only

theorem execAdmissionCycle_same (dt : Nat) (e : Fin 2) (struck : List (Fin 37 × Bool)) (s : State) : ∃ g : Dev → Dev, execAdmissionCycle dt e struck s = run s dt g ∧ ∀ d, Same d (g d) := by
  refine ⟨_, rfl, fun d => ?_⟩
  repeat' first
    | (with_reducible apply Same.refl)
    | (with_reducible intro _)
    | (with_reducible apply Same.ite)
    | (with_reducible apply Same.pre (admissionEffect_same ..))
    | simp only [Same.upd]
    | split
    | dsimp only

theorem execFlushAgeExpiry_same (dt : Nat) (e : Fin 2) (s : State) : ∃ g : Dev → Dev, execFlushAgeExpiry dt e s = run s dt g ∧ ∀ d, Same d (g d) := by
  refine ⟨_, rfl, fun d => ?_⟩
  repeat' first
    | (with_reducible apply Same.refl)
    | (with_reducible intro _)
    | (with_reducible apply Same.ite)
    | (with_reducible apply Same.pre (flushAgeEffect_same ..))
    | simp only [Same.upd]
    | split
    | dsimp only

theorem execCaptureFlush_safe (dt : Nat) (og : Origin) (e : Fin 2) (s : State) : ∃ g : Dev → Dev, execCaptureFlush dt og e s = run s dt g ∧ ∀ d, Safe d (g d) := by
  refine ⟨_, rfl, fun d => ?_⟩
  repeat' first
    | (with_reducible apply Safe.refl)
    | (with_reducible intro _)
    | (with_reducible apply Safe.ite)
    | (with_reducible apply Safe.pre (Dev.write1_safe ..))
    | simp only [Safe.upd]
    | split
    | dsimp only

theorem execRingWrite_safe (dt : Nat) (e : Fin 2) (struck : List (Fin 37 × Bool)) (s : State) : ∃ g : Dev → Dev, execRingWrite dt e struck s = run s dt g ∧ ∀ d, Safe d (g d) := by
  refine ⟨_, rfl, fun d => ?_⟩
  repeat' first
    | (with_reducible apply Safe.refl)
    | (with_reducible intro _)
    | (with_reducible apply Safe.ite)
    | (with_reducible apply Safe.pre (ringWriteEffect_safe ..))
    | simp only [Safe.upd]
    | split
    | dsimp only

theorem execRingWriteAck_same (dt : Nat) (e : Fin 2) (ok : Bool) (s : State) : ∃ g : Dev → Dev, execRingWriteAck dt e ok s = run s dt g ∧ ∀ d, Same d (g d) := by
  refine ⟨_, rfl, fun d => ?_⟩
  repeat' first
    | (with_reducible apply Same.refl)
    | (with_reducible intro _)
    | (with_reducible apply Same.ite)
    | (with_reducible apply Same.pre (ringAckEffect_same ..))
    | simp only [Same.upd]
    | split
    | dsimp only

theorem execFlowAgeingVisit_same (dt : Nat) (e : Fin 2) (hits : List (Fin 8)) (s : State) : ∃ g : Dev → Dev, execFlowAgeingVisit dt e hits s = run s dt g ∧ ∀ d, Same d (g d) := by
  refine ⟨_, rfl, fun d => ?_⟩
  repeat' first
    | (with_reducible apply Same.refl)
    | (with_reducible intro _)
    | (with_reducible apply Same.ite)
    | (with_reducible apply Same.pre (flowVisitEffect_same ..))
    | simp only [Same.upd]
    | split
    | dsimp only

theorem execFlowClear_safe (dt : Nat) (og : Origin) (e : Fin 2) (s : State) : ∃ g : Dev → Dev, execFlowClear dt og e s = run s dt g ∧ ∀ d, Safe d (g d) := by
  refine ⟨_, rfl, fun d => ?_⟩
  repeat' first
    | (with_reducible apply Safe.refl)
    | (with_reducible intro _)
    | (with_reducible apply Safe.ite)
    | (with_reducible apply Safe.pre (Dev.write1_safe ..))
    | simp only [Safe.upd]
    | split
    | dsimp only

theorem execCaptureEnable_safe (dt : Nat) (og : Origin) (q : Fin 36) (p : Fin 4) (s : State) : ∃ g : Dev → Dev, execCaptureEnable dt og q p s = run s dt g ∧ ∀ d, Safe d (g d) := by
  refine ⟨_, rfl, fun d => ?_⟩
  repeat' first
    | (with_reducible apply Safe.refl)
    | (with_reducible intro _)
    | (with_reducible apply Safe.ite)
    | (with_reducible apply Safe.pre (Dev.write1_safe ..))
    | simp only [Safe.upd]
    | split
    | dsimp only

theorem execCaptureDisable_safe (dt : Nat) (og : Origin) (q : Fin 36) (p : Fin 4) (s : State) : ∃ g : Dev → Dev, execCaptureDisable dt og q p s = run s dt g ∧ ∀ d, Safe d (g d) := by
  refine ⟨_, rfl, fun d => ?_⟩
  repeat' first
    | (with_reducible apply Safe.refl)
    | (with_reducible intro _)
    | (with_reducible apply Safe.ite)
    | (with_reducible apply Safe.pre (Dev.write1_safe ..))
    | simp only [Safe.upd]
    | split
    | dsimp only

theorem execCaptureQuiesce_safe (dt : Nat) (og : Origin) (e : Fin 2) (s : State) : ∃ g : Dev → Dev, execCaptureQuiesce dt og e s = run s dt g ∧ ∀ d, Safe d (g d) := by
  refine ⟨_, rfl, fun d => ?_⟩
  repeat' first
    | (with_reducible apply Safe.refl)
    | (with_reducible intro _)
    | (with_reducible apply Safe.ite)
    | (with_reducible apply Safe.pre (Dev.write1_safe ..))
    | simp only [Safe.upd]
    | split
    | dsimp only

theorem execQuiesceComplete_same (dt : Nat) (e : Fin 2) (s : State) : ∃ g : Dev → Dev, execQuiesceComplete dt e s = run s dt g ∧ ∀ d, Same d (g d) := by
  refine ⟨_, rfl, fun d => ?_⟩
  repeat' first
    | (with_reducible apply Same.refl)
    | (with_reducible intro _)
    | (with_reducible apply Same.ite)
    | (with_reducible apply Same.pre (quiesceDoneEffect_same ..))
    | simp only [Same.upd]
    | split
    | dsimp only

theorem execCaptureResume_safe (dt : Nat) (og : Origin) (e : Fin 2) (s : State) : ∃ g : Dev → Dev, execCaptureResume dt og e s = run s dt g ∧ ∀ d, Safe d (g d) := by
  refine ⟨_, rfl, fun d => ?_⟩
  repeat' first
    | (with_reducible apply Safe.refl)
    | (with_reducible intro _)
    | (with_reducible apply Safe.ite)
    | (with_reducible apply Safe.pre (Dev.write1_safe ..))
    | simp only [Safe.upd]
    | split
    | dsimp only

theorem execFrontEvaluate_same (dt : Nat) (n : Fin 16) (s : State) : ∃ g : Dev → Dev, execFrontEvaluate dt n s = run s dt g ∧ ∀ d, Same d (g d) := by
  refine ⟨_, rfl, fun d => ?_⟩
  repeat' first
    | (with_reducible apply Same.refl)
    | (with_reducible intro _)
    | (with_reducible apply Same.ite)
    | (with_reducible apply Same.pre (frontEffect_same ..))
    | simp only [Same.upd]
    | split
    | dsimp only

theorem execFrontTimerExpiry_same (dt : Nat) (n : Fin 16) (t : Fin 2) (s : State) : ∃ g : Dev → Dev, execFrontTimerExpiry dt n t s = run s dt g ∧ ∀ d, Same d (g d) := by
  refine ⟨_, rfl, fun d => ?_⟩
  repeat' first
    | (with_reducible apply Same.refl)
    | (with_reducible intro _)
    | (with_reducible apply Same.ite)
    | (with_reducible apply Same.pre (timerEffect_same ..))
    | simp only [Same.upd]
    | split
    | dsimp only

theorem execFrontRun_safe (dt : Nat) (og : Origin) (n : Fin 16) (s : State) : ∃ g : Dev → Dev, execFrontRun dt og n s = run s dt g ∧ ∀ d, Safe d (g d) := by
  refine ⟨_, rfl, fun d => ?_⟩
  repeat' first
    | (with_reducible apply Safe.refl)
    | (with_reducible intro _)
    | (with_reducible apply Safe.ite)
    | (with_reducible apply Safe.pre (Dev.frontControl_same ..).safe)
    | (with_reducible apply Safe.pre (Dev.write1_safe ..))
    | simp only [Safe.upd]
    | split
    | dsimp only

theorem execFrontIdle_safe (dt : Nat) (og : Origin) (n : Fin 16) (s : State) : ∃ g : Dev → Dev, execFrontIdle dt og n s = run s dt g ∧ ∀ d, Safe d (g d) := by
  refine ⟨_, rfl, fun d => ?_⟩
  repeat' first
    | (with_reducible apply Safe.refl)
    | (with_reducible intro _)
    | (with_reducible apply Safe.ite)
    | (with_reducible apply Safe.pre (Dev.frontControl_same ..).safe)
    | (with_reducible apply Safe.pre (Dev.write1_safe ..))
    | simp only [Safe.upd]
    | split
    | dsimp only

theorem execRetentionTrigger_safe (dt : Nat) (og : Origin) (s0 : Fin 256) (s : State) : ∃ g : Dev → Dev, execRetentionTrigger dt og s0 s = run s dt g ∧ ∀ d, Safe d (g d) := by
  refine ⟨_, rfl, fun d => ?_⟩
  repeat' first
    | (with_reducible apply Safe.refl)
    | (with_reducible intro _)
    | (with_reducible apply Safe.ite)
    | (with_reducible apply Safe.pre (Dev.write1_safe ..))
    | simp only [Safe.upd]
    | split
    | dsimp only

theorem execWindowEndReached_same (dt : Nat) (w : Fin 256) (s : State) : ∃ g : Dev → Dev, execWindowEndReached dt w s = run s dt g ∧ ∀ d, Same d (g d) := by
  refine ⟨_, rfl, fun d => ?_⟩
  repeat' first
    | (with_reducible apply Same.refl)
    | (with_reducible intro _)
    | (with_reducible apply Same.ite)
    | (with_reducible apply Same.pre (windowEndEffect_same ..))
    | simp only [Same.upd]
    | split
    | dsimp only

theorem execCloseLimitExpiry_same (dt : Nat) (w : Fin 256) (s : State) : ∃ g : Dev → Dev, execCloseLimitExpiry dt w s = run s dt g ∧ ∀ d, Same d (g d) := by
  refine ⟨_, rfl, fun d => ?_⟩
  repeat' first
    | (with_reducible apply Same.refl)
    | (with_reducible intro _)
    | (with_reducible apply Same.ite)
    | (with_reducible apply Same.pre (Dev.tryClose_same ..))
    | simp only [Same.upd]
    | split
    | dsimp only

theorem execPromote_safe (dt : Nat) (e : Fin 2) (busError : Option Nat) (s : State) : ∃ g : Dev → Dev, execPromote dt e busError s = run s dt g ∧ ∀ d, Safe d (g d) := by
  refine ⟨_, rfl, fun d => ?_⟩
  repeat' first
    | (with_reducible apply Safe.refl)
    | (with_reducible intro _)
    | (with_reducible apply Safe.ite)
    | (with_reducible apply Safe.pre (promoteEffect_safe ..))
    | simp only [Safe.upd]
    | split
    | dsimp only

theorem execNotification_same (dt : Nat) (v : Fin 2) (s : State) : ∃ g : Dev → Dev, execNotification dt v s = run s dt g ∧ ∀ d, Same d (g d) := by
  refine ⟨_, rfl, fun d => ?_⟩
  repeat' first
    | (with_reducible apply Same.refl)
    | (with_reducible intro _)
    | (with_reducible apply Same.ite)
    | (with_reducible apply Same.pre (notifyEffect_same ..))
    | simp only [Same.upd]
    | split
    | dsimp only

theorem execMsixMessage_same (dt : Nat) (v : Fin 2048) (s : State) : ∃ g : Dev → Dev, execMsixMessage dt v s = run s dt g ∧ ∀ d, Same d (g d) := by
  refine ⟨_, rfl, fun d => ?_⟩
  repeat' first
    | (with_reducible apply Same.refl)
    | (with_reducible intro _)
    | (with_reducible apply Same.ite)
    | (with_reducible apply Same.pre (msixEffect_same ..))
    | simp only [Same.upd]
    | split
    | dsimp only

theorem execTxStart_safe (dt : Nat) (og : Origin) (q : Fin 36) (p : Fin 4) (s : State) : ∃ g : Dev → Dev, execTxStart dt og q p s = run s dt g ∧ ∀ d, Safe d (g d) := by
  refine ⟨_, rfl, fun d => ?_⟩
  repeat' first
    | (with_reducible apply Safe.refl)
    | (with_reducible intro _)
    | (with_reducible apply Safe.ite)
    | (with_reducible apply Safe.pre (Dev.txControl_same ..).safe)
    | (with_reducible apply Safe.pre (Dev.write1_safe ..))
    | simp only [Safe.upd]
    | split
    | dsimp only

theorem execTxStop_safe (dt : Nat) (og : Origin) (q : Fin 36) (p : Fin 4) (s : State) : ∃ g : Dev → Dev, execTxStop dt og q p s = run s dt g ∧ ∀ d, Safe d (g d) := by
  refine ⟨_, rfl, fun d => ?_⟩
  repeat' first
    | (with_reducible apply Safe.refl)
    | (with_reducible intro _)
    | (with_reducible apply Safe.ite)
    | (with_reducible apply Safe.pre (Dev.txControl_same ..).safe)
    | (with_reducible apply Safe.pre (Dev.write1_safe ..))
    | simp only [Safe.upd]
    | split
    | dsimp only

theorem execTxResume_safe (dt : Nat) (og : Origin) (q : Fin 36) (p : Fin 4) (s : State) : ∃ g : Dev → Dev, execTxResume dt og q p s = run s dt g ∧ ∀ d, Safe d (g d) := by
  refine ⟨_, rfl, fun d => ?_⟩
  repeat' first
    | (with_reducible apply Safe.refl)
    | (with_reducible intro _)
    | (with_reducible apply Safe.ite)
    | (with_reducible apply Safe.pre (Dev.txControl_same ..).safe)
    | (with_reducible apply Safe.pre (Dev.write1_safe ..))
    | simp only [Safe.upd]
    | split
    | dsimp only

theorem execTxForceDown_safe (dt : Nat) (og : Origin) (q : Fin 36) (p : Fin 4) (down : Bool) (s : State) : ∃ g : Dev → Dev, execTxForceDown dt og q p down s = run s dt g ∧ ∀ d, Safe d (g d) := by
  refine ⟨_, rfl, fun d => ?_⟩
  repeat' first
    | (with_reducible apply Safe.refl)
    | (with_reducible intro _)
    | (with_reducible apply Safe.ite)
    | (with_reducible apply Safe.pre (Dev.write1_safe ..))
    | simp only [Safe.upd]
    | split
    | dsimp only

theorem execTxAnchor_same (dt : Nat) (q : Fin 36) (p : Fin 4) (s : State) : ∃ g : Dev → Dev, execTxAnchor dt q p s = run s dt g ∧ ∀ d, Same d (g d) := by
  refine ⟨_, rfl, fun d => ?_⟩
  repeat' first
    | (with_reducible apply Same.refl)
    | (with_reducible intro _)
    | (with_reducible apply Same.ite)
    | (with_reducible apply Same.pre (anchorEffect_same ..))
    | simp only [Same.upd]
    | split
    | dsimp only

theorem execTxUnitStart_same (dt : Nat) (q : Fin 36) (p : Fin 4) (pos : Fin 1024) (s : State) : ∃ g : Dev → Dev, execTxUnitStart dt q p pos s = run s dt g ∧ ∀ d, Same d (g d) := by
  refine ⟨_, rfl, fun d => ?_⟩
  repeat' first
    | (with_reducible apply Same.refl)
    | (with_reducible intro _)
    | (with_reducible apply Same.ite)
    | (with_reducible apply Same.pre (unitStartEffect_same ..))
    | simp only [Same.upd]
    | split
    | dsimp only

theorem execTxUnitEnd_same (dt : Nat) (q : Fin 36) (p : Fin 4) (s : State) : ∃ g : Dev → Dev, execTxUnitEnd dt q p s = run s dt g ∧ ∀ d, Same d (g d) := by
  refine ⟨_, rfl, fun d => ?_⟩
  repeat' first
    | (with_reducible apply Same.refl)
    | (with_reducible intro _)
    | (with_reducible apply Same.ite)
    | (with_reducible apply Same.pre (unitEndEffect_same ..))
    | simp only [Same.upd]
    | split
    | dsimp only

theorem execTxFetch_safe (dt : Nat) (q : Fin 36) (p : Fin 4) (busError : Bool) (s : State) : ∃ g : Dev → Dev, execTxFetch dt q p busError s = run s dt g ∧ ∀ d, Safe d (g d) := by
  refine ⟨_, rfl, fun d => ?_⟩
  repeat' first
    | (with_reducible apply Safe.refl)
    | (with_reducible intro _)
    | (with_reducible apply Safe.ite)
    | (with_reducible apply Safe.pre (fetchEffect_safe ..))
    | simp only [Safe.upd]
    | split
    | dsimp only

theorem execHookReturn_same (dt : Nat) (q : Fin 36) (p : Fin 4) (v : HookVerdict) (s : State) : ∃ g : Dev → Dev, execHookReturn dt q p v s = run s dt g ∧ ∀ d, Same d (g d) := by
  refine ⟨_, rfl, fun d => ?_⟩
  repeat' first
    | (with_reducible apply Same.refl)
    | (with_reducible intro _)
    | (with_reducible apply Same.ite)
    | (with_reducible apply Same.pre (hookEffect_same ..))
    | simp only [Same.upd]
    | split
    | dsimp only

theorem execHookTimeout_same (dt : Nat) (q : Fin 36) (p : Fin 4) (s : State) : ∃ g : Dev → Dev, execHookTimeout dt q p s = run s dt g ∧ ∀ d, Same d (g d) := by
  refine ⟨_, rfl, fun d => ?_⟩
  repeat' first
    | (with_reducible apply Same.refl)
    | (with_reducible intro _)
    | (with_reducible apply Same.ite)
    | (with_reducible apply Same.pre (hookTimeoutEffect_same ..))
    | simp only [Same.upd]
    | split
    | dsimp only

theorem execHoldWindowExpiry_same (dt : Nat) (q : Fin 36) (p : Fin 4) (s : State) : ∃ g : Dev → Dev, execHoldWindowExpiry dt q p s = run s dt g ∧ ∀ d, Same d (g d) := by
  refine ⟨_, rfl, fun d => ?_⟩
  repeat' first
    | (with_reducible apply Same.refl)
    | (with_reducible intro _)
    | (with_reducible apply Same.ite)
    | (with_reducible apply Same.pre (holdEffect_same ..))
    | simp only [Same.upd]
    | split
    | dsimp only

theorem execMemoryRead_safe (dt : Nat) (addr : Fin (2 ^ 44)) (req : MemReq) (find : LineFind) (bytes : Nat) (s : State) : ∃ g : Dev → Dev, execMemoryRead dt addr req find bytes s = run s dt g ∧ ∀ d, Safe d (g d) := by
  refine ⟨_, rfl, fun d => ?_⟩
  repeat' first
    | (with_reducible apply Safe.refl)
    | (with_reducible intro _)
    | (with_reducible apply Safe.ite)
    | (with_reducible apply Safe.pre (memReadEffect_safe ..))
    | simp only [Safe.upd]
    | split
    | dsimp only

theorem execMemoryWrite_safe (dt : Nat) (addr : Fin (2 ^ 44)) (req : MemReq) (find : LineFind) (data : List Byte) (s : State) : ∃ g : Dev → Dev, execMemoryWrite dt addr req find data s = run s dt g ∧ ∀ d, Safe d (g d) := by
  refine ⟨_, rfl, fun d => ?_⟩
  repeat' first
    | (with_reducible apply Safe.refl)
    | (with_reducible intro _)
    | (with_reducible apply Safe.ite)
    | (with_reducible apply Safe.pre (memWriteEffect_safe ..))
    | simp only [Safe.upd]
    | split
    | dsimp only

theorem execReencryptionLine_safe (dt : Nat) (ch : Fin 136) (find : LineFind) (s : State) : ∃ g : Dev → Dev, execReencryptionLine dt ch find s = run s dt g ∧ ∀ d, Safe d (g d) := by
  refine ⟨_, rfl, fun d => ?_⟩
  repeat' first
    | (with_reducible apply Safe.refl)
    | (with_reducible intro _)
    | (with_reducible apply Safe.ite)
    | (with_reducible apply Safe.pre (reencLineEffect_safe ..))
    | simp only [Safe.upd]
    | split
    | dsimp only

theorem execRefresh_same (dt : Nat) (ch : Fin 136) (s : State) : ∃ g : Dev → Dev, execRefresh dt ch s = run s dt g ∧ ∀ d, Same d (g d) := by
  refine ⟨_, rfl, fun d => ?_⟩
  repeat' first
    | (with_reducible apply Same.refl)
    | (with_reducible intro _)
    | (with_reducible apply Same.ite)
    | (with_reducible apply Same.pre (refreshEffect_same ..))
    | simp only [Same.upd]
    | split
    | dsimp only

theorem execMemoryTemperatureRead_same (dt : Nat) (ch : Fin 136) (reading : Option Int) (s : State) : ∃ g : Dev → Dev, execMemoryTemperatureRead dt ch reading s = run s dt g ∧ ∀ d, Same d (g d) := by
  refine ⟨_, rfl, fun d => ?_⟩
  repeat' first
    | (with_reducible apply Same.refl)
    | (with_reducible intro _)
    | (with_reducible apply Same.ite)
    | (with_reducible apply Same.pre (temperatureEffect_same ..))
    | simp only [Same.upd]
    | split
    | dsimp only

theorem execCaParityFailure_safe (dt : Nat) (ch : Fin 136) (addr : Fin (2 ^ 44)) (command : Nat) (initiator : Nat) (s : State) : ∃ g : Dev → Dev, execCaParityFailure dt ch addr command initiator s = run s dt g ∧ ∀ d, Safe d (g d) := by
  refine ⟨_, rfl, fun d => ?_⟩
  repeat' first
    | (with_reducible apply Safe.refl)
    | (with_reducible intro _)
    | (with_reducible apply Safe.ite)
    | (with_reducible apply Safe.pre (caParityEffect_safe ..))
    | simp only [Safe.upd]
    | split
    | dsimp only

theorem execLullEnter_safe (dt : Nat) (og : Origin) (s : State) : ∃ g : Dev → Dev, execLullEnter dt og s = run s dt g ∧ ∀ d, Safe d (g d) := by
  refine ⟨_, rfl, fun d => ?_⟩
  repeat' first
    | (with_reducible apply Safe.refl)
    | (with_reducible intro _)
    | (with_reducible apply Safe.ite)
    | (with_reducible apply Safe.pre (Dev.write1_safe ..))
    | simp only [Safe.upd]
    | split
    | dsimp only

theorem execLullDrained_same (dt : Nat) (s : State) : ∃ g : Dev → Dev, execLullDrained dt s = run s dt g ∧ ∀ d, Same d (g d) := by
  refine ⟨_, rfl, fun d => ?_⟩
  repeat' first
    | (with_reducible apply Same.refl)
    | (with_reducible intro _)
    | (with_reducible apply Same.ite)
    | (with_reducible apply Same.pre (lullDrainedEffect_same ..))
    | simp only [Same.upd]
    | split
    | dsimp only

theorem execLullExit_safe (dt : Nat) (og : Origin) (s : State) : ∃ g : Dev → Dev, execLullExit dt og s = run s dt g ∧ ∀ d, Safe d (g d) := by
  refine ⟨_, rfl, fun d => ?_⟩
  repeat' first
    | (with_reducible apply Safe.refl)
    | (with_reducible intro _)
    | (with_reducible apply Safe.ite)
    | (with_reducible apply Safe.pre (Dev.write1_safe ..))
    | simp only [Safe.upd]
    | split
    | dsimp only

theorem execLullRetrainDone_safe (dt : Nat) (failed : List (Fin 136)) (s : State) : ∃ g : Dev → Dev, execLullRetrainDone dt failed s = run s dt g ∧ ∀ d, Safe d (g d) := by
  refine ⟨_, rfl, fun d => ?_⟩
  repeat' first
    | (with_reducible apply Safe.refl)
    | (with_reducible intro _)
    | (with_reducible apply Safe.ite)
    | (with_reducible apply Safe.pre (lullRetrainEffect_safe ..))
    | simp only [Safe.upd]
    | split
    | dsimp only

theorem execThaw_safe (dt : Nat) (og : Origin) (ch : Fin 136) (s : State) : ∃ g : Dev → Dev, execThaw dt og ch s = run s dt g ∧ ∀ d, Safe d (g d) := by
  refine ⟨_, rfl, fun d => ?_⟩
  repeat' first
    | (with_reducible apply Safe.refl)
    | (with_reducible intro _)
    | (with_reducible apply Safe.ite)
    | (with_reducible apply Safe.pre (Dev.write1_safe ..))
    | simp only [Safe.upd]
    | split
    | dsimp only

theorem execThawRetrainDone_same (dt : Nat) (ch : Fin 136) (ok : Bool) (s : State) : ∃ g : Dev → Dev, execThawRetrainDone dt ch ok s = run s dt g ∧ ∀ d, Same d (g d) := by
  refine ⟨_, rfl, fun d => ?_⟩
  repeat' first
    | (with_reducible apply Same.refl)
    | (with_reducible intro _)
    | (with_reducible apply Same.ite)
    | (with_reducible apply Same.pre (thawDoneEffect_same ..))
    | simp only [Same.upd]
    | split
    | dsimp only

theorem execPoisonClear_safe (dt : Nat) (og : Origin) (ch : Fin 136) (i : Fin 16) (s : State) : ∃ g : Dev → Dev, execPoisonClear dt og ch i s = run s dt g ∧ ∀ d, Safe d (g d) := by
  refine ⟨_, rfl, fun d => ?_⟩
  repeat' first
    | (with_reducible apply Safe.refl)
    | (with_reducible intro _)
    | (with_reducible apply Safe.ite)
    | (with_reducible apply Safe.pre (Dev.write1_safe ..))
    | simp only [Safe.upd]
    | split
    | dsimp only

theorem execLeakPeriod_same (dt : Nat) (s : State) : ∃ g : Dev → Dev, execLeakPeriod dt s = run s dt g ∧ ∀ d, Same d (g d) := by
  refine ⟨_, rfl, fun d => ?_⟩
  repeat' first
    | (with_reducible apply Same.refl)
    | (with_reducible intro _)
    | (with_reducible apply Same.ite)
    | (with_reducible apply Same.pre (leakEffect_same ..))
    | simp only [Same.upd]
    | split
    | dsimp only

theorem execDrizzleScrub_same (dt : Nat) (target : Sum (Nat × Nat) (Fin (2 ^ 44))) (sram : SramFind) (find : LineFind) (last : Bool) (s : State) : ∃ g : Dev → Dev, execDrizzleScrub dt target sram find last s = run s dt g ∧ ∀ d, Same d (g d) := by
  refine ⟨_, rfl, fun d => ?_⟩
  repeat' first
    | (with_reducible apply Same.refl)
    | (with_reducible intro _)
    | (with_reducible apply Same.ite)
    | (with_reducible apply Same.pre (drizzleEffect_same ..))
    | simp only [Same.upd]
    | split
    | dsimp only

theorem execChktestWriteRaw_safe (dt : Nat) (og : Origin) (s : State) : ∃ g : Dev → Dev, execChktestWriteRaw dt og s = run s dt g ∧ ∀ d, Safe d (g d) := by
  refine ⟨_, rfl, fun d => ?_⟩
  repeat' first
    | (with_reducible apply Safe.refl)
    | (with_reducible intro _)
    | (with_reducible apply Safe.ite)
    | (with_reducible apply Safe.pre (Dev.write1_safe ..))
    | simp only [Safe.upd]
    | split
    | dsimp only

theorem execChktestReadRaw_safe (dt : Nat) (og : Origin) (s : State) : ∃ g : Dev → Dev, execChktestReadRaw dt og s = run s dt g ∧ ∀ d, Safe d (g d) := by
  refine ⟨_, rfl, fun d => ?_⟩
  repeat' first
    | (with_reducible apply Safe.refl)
    | (with_reducible intro _)
    | (with_reducible apply Safe.ite)
    | (with_reducible apply Safe.pre (Dev.write1_safe ..))
    | simp only [Safe.upd]
    | split
    | dsimp only

theorem execChktestReadDecoded_safe (dt : Nat) (og : Origin) (s : State) : ∃ g : Dev → Dev, execChktestReadDecoded dt og s = run s dt g ∧ ∀ d, Safe d (g d) := by
  refine ⟨_, rfl, fun d => ?_⟩
  repeat' first
    | (with_reducible apply Safe.refl)
    | (with_reducible intro _)
    | (with_reducible apply Safe.ite)
    | (with_reducible apply Safe.pre (Dev.write1_safe ..))
    | simp only [Safe.upd]
    | split
    | dsimp only

theorem execChktestDramWrite_safe (dt : Nat) (og : Origin) (line : Fin (2 ^ 44)) (s : State) : ∃ g : Dev → Dev, execChktestDramWrite dt og line s = run s dt g ∧ ∀ d, Safe d (g d) := by
  refine ⟨_, rfl, fun d => ?_⟩
  repeat' first
    | (with_reducible apply Safe.refl)
    | (with_reducible intro _)
    | (with_reducible apply Safe.ite)
    | (with_reducible apply Safe.pre (Dev.chkDram_safe ..))
    | simp only [Safe.upd]
    | split
    | dsimp only

theorem execChktestDramRead_safe (dt : Nat) (og : Origin) (line : Fin (2 ^ 44)) (s : State) : ∃ g : Dev → Dev, execChktestDramRead dt og line s = run s dt g ∧ ∀ d, Safe d (g d) := by
  refine ⟨_, rfl, fun d => ?_⟩
  repeat' first
    | (with_reducible apply Safe.refl)
    | (with_reducible intro _)
    | (with_reducible apply Safe.ite)
    | (with_reducible apply Safe.pre (Dev.chkDram_safe ..))
    | simp only [Safe.upd]
    | split
    | dsimp only

theorem execStoreMount_safe (dt : Nat) (og : Origin) (ctls : List CtlFound) (nss : List NsFound) (s : State) : ∃ g : Dev → Dev, execStoreMount dt og ctls nss s = run s dt g ∧ ∀ d, Safe d (g d) := by
  refine ⟨_, rfl, fun d => ?_⟩
  repeat' first
    | (with_reducible apply Safe.refl)
    | (with_reducible intro _)
    | (with_reducible apply Safe.ite)
    | (with_reducible apply Safe.pre (Dev.storeMount_safe ..))
    | simp only [Safe.upd]
    | split
    | dsimp only

theorem execStoreStop_safe (dt : Nat) (og : Origin) (s : State) : ∃ g : Dev → Dev, execStoreStop dt og s = run s dt g ∧ ∀ d, Safe d (g d) := by
  refine ⟨_, rfl, fun d => ?_⟩
  repeat' first
    | (with_reducible apply Safe.refl)
    | (with_reducible intro _)
    | (with_reducible apply Safe.ite)
    | (with_reducible apply Safe.pre (Dev.storeControl_safe ..))
    | (with_reducible apply Safe.pre (Dev.write1_safe ..))
    | simp only [Safe.upd]
    | split
    | dsimp only

theorem execNvmeCompletion_safe (dt : Nat) (c : Fin 64) (cid : Nat) (fin : NvmeEnd) (data : List Byte) (dw3 : Nat) (s : State) : ∃ g : Dev → Dev, execNvmeCompletion dt c cid fin data dw3 s = run s dt g ∧ ∀ d, Safe d (g d) := by
  refine ⟨_, rfl, fun d => ?_⟩
  repeat' first
    | (with_reducible apply Safe.refl)
    | (with_reducible intro _)
    | (with_reducible apply Safe.ite)
    | (with_reducible apply Safe.pre (completionEffect_safe ..))
    | simp only [Safe.upd]
    | split
    | dsimp only

theorem execAdminTimeout_safe (dt : Nat) (c : Fin 64) (s : State) : ∃ g : Dev → Dev, execAdminTimeout dt c s = run s dt g ∧ ∀ d, Safe d (g d) := by
  refine ⟨_, rfl, fun d => ?_⟩
  repeat' first
    | (with_reducible apply Safe.refl)
    | (with_reducible intro _)
    | (with_reducible apply Safe.ite)
    | (with_reducible apply Safe.pre (adminTimeoutEffect_safe ..))
    | simp only [Safe.upd]
    | split
    | dsimp only

theorem execIoTimeout_safe (dt : Nat) (c : Fin 64) (cid : Nat) (s : State) : ∃ g : Dev → Dev, execIoTimeout dt c cid s = run s dt g ∧ ∀ d, Safe d (g d) := by
  refine ⟨_, rfl, fun d => ?_⟩
  repeat' first
    | (with_reducible apply Safe.refl)
    | (with_reducible intro _)
    | (with_reducible apply Safe.ite)
    | (with_reducible apply Safe.pre (ioTimeoutEffect_safe ..))
    | simp only [Safe.upd]
    | split
    | dsimp only

theorem execControllerFatal_safe (dt : Nat) (c : Fin 64) (s : State) : ∃ g : Dev → Dev, execControllerFatal dt c s = run s dt g ∧ ∀ d, Safe d (g d) := by
  refine ⟨_, rfl, fun d => ?_⟩
  repeat' first
    | (with_reducible apply Safe.refl)
    | (with_reducible intro _)
    | (with_reducible apply Safe.ite)
    | (with_reducible apply Safe.pre (fatalEffect_safe ..))
    | simp only [Safe.upd]
    | split
    | dsimp only

theorem execStageDrain_safe (dt : Nat) (e : Fin 2) (s : State) : ∃ g : Dev → Dev, execStageDrain dt e s = run s dt g ∧ ∀ d, Safe d (g d) := by
  refine ⟨_, rfl, fun d => ?_⟩
  repeat' first
    | (with_reducible apply Safe.refl)
    | (with_reducible intro _)
    | (with_reducible apply Safe.ite)
    | (with_reducible apply Safe.pre (stageDrainEffect_safe ..))
    | simp only [Safe.upd]
    | split
    | dsimp only

theorem execDrainAgeExpiry_safe (dt : Nat) (e : Fin 2) (n : Fin 256) (s : State) : ∃ g : Dev → Dev, execDrainAgeExpiry dt e n s = run s dt g ∧ ∀ d, Safe d (g d) := by
  refine ⟨_, rfl, fun d => ?_⟩
  repeat' first
    | (with_reducible apply Safe.refl)
    | (with_reducible intro _)
    | (with_reducible apply Safe.ite)
    | (with_reducible apply Safe.pre (drainAgeEffect_safe ..))
    | simp only [Safe.upd]
    | split
    | dsimp only

theorem execFlushInterval_safe (dt : Nat) (s : State) : ∃ g : Dev → Dev, execFlushInterval dt s = run s dt g ∧ ∀ d, Safe d (g d) := by
  refine ⟨_, rfl, fun d => ?_⟩
  repeat' first
    | (with_reducible apply Safe.refl)
    | (with_reducible intro _)
    | (with_reducible apply Safe.ite)
    | (with_reducible apply Safe.pre (flushIntervalEffect_safe ..))
    | simp only [Safe.upd]
    | split
    | dsimp only

theorem execSubentryAgeExpiry_same (dt : Nat) (e : Fin 2) (n : Fin 256) (s : State) : ∃ g : Dev → Dev, execSubentryAgeExpiry dt e n s = run s dt g ∧ ∀ d, Same d (g d) := by
  refine ⟨_, rfl, fun d => ?_⟩
  repeat' first
    | (with_reducible apply Same.refl)
    | (with_reducible intro _)
    | (with_reducible apply Same.ite)
    | (with_reducible apply Same.pre (subAgeEffect_same ..))
    | simp only [Same.upd]
    | split
    | dsimp only

theorem execReclaim_safe (dt : Nat) (n : Fin 256) (s : State) : ∃ g : Dev → Dev, execReclaim dt n s = run s dt g ∧ ∀ d, Safe d (g d) := by
  refine ⟨_, rfl, fun d => ?_⟩
  repeat' first
    | (with_reducible apply Safe.refl)
    | (with_reducible intro _)
    | (with_reducible apply Safe.ite)
    | (with_reducible apply Safe.pre (reclaimEffect_safe ..))
    | simp only [Safe.upd]
    | split
    | dsimp only

theorem execQuotaCut_safe (dt : Nat) (og : Origin) (s0 : Fin 256) (quota : Nat) (s : State) : ∃ g : Dev → Dev, execQuotaCut dt og s0 quota s = run s dt g ∧ ∀ d, Safe d (g d) := by
  refine ⟨_, rfl, fun d => ?_⟩
  repeat' first
    | (with_reducible apply Safe.refl)
    | (with_reducible intro _)
    | (with_reducible apply Safe.ite)
    | (with_reducible apply Safe.pre (Dev.write1_safe ..))
    | simp only [Safe.upd]
    | split
    | dsimp only

theorem execRemapCopy_safe (dt : Nat) (extent : Nat) (s : State) : ∃ g : Dev → Dev, execRemapCopy dt extent s = run s dt g ∧ ∀ d, Safe d (g d) := by
  refine ⟨_, rfl, fun d => ?_⟩
  repeat' first
    | (with_reducible apply Safe.refl)
    | (with_reducible intro _)
    | (with_reducible apply Safe.ite)
    | (with_reducible apply Safe.pre (remapEffect_safe ..))
    | simp only [Safe.upd]
    | split
    | dsimp only

theorem execStoreUnpin_safe (dt : Nat) (og : Origin) (extent : Nat) (s : State) : ∃ g : Dev → Dev, execStoreUnpin dt og extent s = run s dt g ∧ ∀ d, Safe d (g d) := by
  refine ⟨_, rfl, fun d => ?_⟩
  repeat' first
    | (with_reducible apply Safe.refl)
    | (with_reducible intro _)
    | (with_reducible apply Safe.ite)
    | (with_reducible apply Safe.pre (Dev.write1_safe ..))
    | simp only [Safe.upd]
    | split
    | dsimp only

theorem execUnpinAll_safe (dt : Nat) (og : Origin) (s0 : Fin 256) (s : State) : ∃ g : Dev → Dev, execUnpinAll dt og s0 s = run s dt g ∧ ∀ d, Safe d (g d) := by
  refine ⟨_, rfl, fun d => ?_⟩
  repeat' first
    | (with_reducible apply Safe.refl)
    | (with_reducible intro _)
    | (with_reducible apply Safe.ite)
    | (with_reducible apply Safe.pre (Dev.write1_safe ..))
    | simp only [Safe.upd]
    | split
    | dsimp only

theorem execSessionRelease_safe (dt : Nat) (og : Origin) (s0 : Fin 256) (s : State) : ∃ g : Dev → Dev, execSessionRelease dt og s0 s = run s dt g ∧ ∀ d, Safe d (g d) := by
  refine ⟨_, rfl, fun d => ?_⟩
  repeat' first
    | (with_reducible apply Safe.refl)
    | (with_reducible intro _)
    | (with_reducible apply Safe.ite)
    | (with_reducible apply Safe.pre (Dev.write1_safe ..))
    | simp only [Safe.upd]
    | split
    | dsimp only

theorem execControllerReset_safe (dt : Nat) (og : Origin) (c : Fin 64) (s : State) : ∃ g : Dev → Dev, execControllerReset dt og c s = run s dt g ∧ ∀ d, Safe d (g d) := by
  refine ⟨_, rfl, fun d => ?_⟩
  repeat' first
    | (with_reducible apply Safe.refl)
    | (with_reducible intro _)
    | (with_reducible apply Safe.ite)
    | (with_reducible apply Safe.pre (Dev.write1_safe ..))
    | simp only [Safe.upd]
    | split
    | dsimp only

theorem execAdminCommand_safe (dt : Nat) (og : Origin) (c : Fin 64) (entry : List Byte) (s : State) : ∃ g : Dev → Dev, execAdminCommand dt og c entry s = run s dt g ∧ ∀ d, Safe d (g d) := by
  refine ⟨_, rfl, fun d => ?_⟩
  repeat' first
    | (with_reducible apply Safe.refl)
    | (with_reducible intro _)
    | (with_reducible apply Safe.ite)
    | (with_reducible apply Safe.pre (Dev.writeOct_safe ..))
    | simp only [Safe.upd]
    | split
    | dsimp only

theorem execNamespaceInitialise_safe (dt : Nat) (og : Origin) (n : Fin 1024) (s : State) : ∃ g : Dev → Dev, execNamespaceInitialise dt og n s = run s dt g ∧ ∀ d, Safe d (g d) := by
  refine ⟨_, rfl, fun d => ?_⟩
  repeat' first
    | (with_reducible apply Safe.refl)
    | (with_reducible intro _)
    | (with_reducible apply Safe.ite)
    | (with_reducible apply Safe.pre (Dev.write1_safe ..))
    | simp only [Safe.upd]
    | split
    | dsimp only

theorem execQueryStart_safe (dt : Nat) (og : Origin) (j : Fin 8) (s : State) : ∃ g : Dev → Dev, execQueryStart dt og j s = run s dt g ∧ ∀ d, Safe d (g d) := by
  refine ⟨_, rfl, fun d => ?_⟩
  repeat' first
    | (with_reducible apply Safe.refl)
    | (with_reducible intro _)
    | (with_reducible apply Safe.ite)
    | (with_reducible apply Safe.pre (Dev.queryControl_safe ..))
    | (with_reducible apply Safe.pre (Dev.write1_safe ..))
    | simp only [Safe.upd]
    | split
    | dsimp only

theorem execQueryContinue_safe (dt : Nat) (og : Origin) (j : Fin 8) (addr : Nat) (bytes : Nat) (s : State) : ∃ g : Dev → Dev, execQueryContinue dt og j addr bytes s = run s dt g ∧ ∀ d, Safe d (g d) := by
  refine ⟨_, rfl, fun d => ?_⟩
  repeat' first
    | (with_reducible apply Safe.refl)
    | (with_reducible intro _)
    | (with_reducible apply Safe.ite)
    | (with_reducible apply Safe.pre (Dev.commitNow_safe ..))
    | (with_reducible apply Safe.pre (Dev.queryControl_safe ..))
    | simp only [Safe.upd]
    | split
    | dsimp only

theorem execQueryAbort_safe (dt : Nat) (og : Origin) (j : Fin 8) (s : State) : ∃ g : Dev → Dev, execQueryAbort dt og j s = run s dt g ∧ ∀ d, Safe d (g d) := by
  refine ⟨_, rfl, fun d => ?_⟩
  repeat' first
    | (with_reducible apply Safe.refl)
    | (with_reducible intro _)
    | (with_reducible apply Safe.ite)
    | (with_reducible apply Safe.pre (Dev.queryControl_safe ..))
    | (with_reducible apply Safe.pre (Dev.write1_safe ..))
    | simp only [Safe.upd]
    | split
    | dsimp only

theorem execQueryScan_safe (dt : Nat) (j : Fin 8) (fin : NvmeEnd) (data : List Byte) (hostOk : Bool) (s : State) : ∃ g : Dev → Dev, execQueryScan dt j fin data hostOk s = run s dt g ∧ ∀ d, Safe d (g d) := by
  refine ⟨_, rfl, fun d => ?_⟩
  repeat' first
    | (with_reducible apply Safe.refl)
    | (with_reducible intro _)
    | (with_reducible apply Safe.ite)
    | (with_reducible apply Safe.pre (queryScanEffect_safe ..))
    | simp only [Safe.upd]
    | split
    | dsimp only

theorem execVanePdu_safe (dt : Nat) (v : Fin 2) (source : List Byte) (frag : Option Nat) (pdu : List Byte) (s : State) : ∃ g : Dev → Dev, execVanePdu dt v source frag pdu s = run s dt g ∧ ∀ d, Safe d (g d) := by
  refine ⟨_, rfl, fun d => ?_⟩
  repeat' first
    | (with_reducible apply Safe.refl)
    | (with_reducible intro _)
    | (with_reducible apply Safe.ite)
    | (with_reducible apply Safe.pre (vanePduEffect_safe ..))
    | simp only [Safe.upd]
    | split
    | dsimp only

theorem execReassemblyTimeout_same (dt : Nat) (v : Fin 2) (id : Nat) (s : State) : ∃ g : Dev → Dev, execReassemblyTimeout dt v id s = run s dt g ∧ ∀ d, Same d (g d) := by
  refine ⟨_, rfl, fun d => ?_⟩
  repeat' first
    | (with_reducible apply Same.refl)
    | (with_reducible intro _)
    | (with_reducible apply Same.ite)
    | (with_reducible apply Same.pre (reassemblyEffect_same ..))
    | simp only [Same.upd]
    | split
    | dsimp only

theorem execMailboxPost_same (dt : Nat) (slot : Sum (Fin 8) (Fin 16)) (reqLength : Nat) (request : List Byte) (s : State) : ∃ g : Dev → Dev, execMailboxPost dt slot reqLength request s = run s dt g ∧ ∀ d, Same d (g d) := by
  refine ⟨_, rfl, fun d => ?_⟩
  repeat' first
    | (with_reducible apply Same.refl)
    | (with_reducible intro _)
    | (with_reducible apply Same.ite)
    | (with_reducible apply Same.pre (postEffect_same ..))
    | simp only [Same.upd]
    | split
    | dsimp only

theorem execMailboxRelease_same (dt : Nat) (slot : Sum (Fin 8) (Fin 16)) (s : State) : ∃ g : Dev → Dev, execMailboxRelease dt slot s = run s dt g ∧ ∀ d, Same d (g d) := by
  refine ⟨_, rfl, fun d => ?_⟩
  repeat' first
    | (with_reducible apply Same.refl)
    | (with_reducible intro _)
    | (with_reducible apply Same.ite)
    | (with_reducible apply Same.pre (releaseEffect_same ..))
    | simp only [Same.upd]
    | split
    | dsimp only

theorem execMailboxTake_safe (dt : Nat) (slot : Sum (Fin 8) (Fin 16)) (s : State) : ∃ g : Dev → Dev, execMailboxTake dt slot s = run s dt g ∧ ∀ d, Safe d (g d) := by
  refine ⟨_, rfl, fun d => ?_⟩
  repeat' first
    | (with_reducible apply Safe.refl)
    | (with_reducible intro _)
    | (with_reducible apply Safe.ite)
    | (with_reducible apply Safe.pre (takeEffect_safe ..))
    | simp only [Safe.upd]
    | split
    | dsimp only

theorem execRead_safe (dt : Nat) (og : Origin) (txn : Nat) (index : Nat) (sub : Nat) (offset : Nat) (length : Nat) (s : State) : ∃ g : Dev → Dev, execRead dt og txn index sub offset length s = run s dt g ∧ ∀ d, Safe d (g d) := by
  refine ⟨_, rfl, fun d => ?_⟩
  repeat' first
    | (with_reducible apply Safe.refl)
    | (with_reducible intro _)
    | (with_reducible apply Safe.ite)
    | (with_reducible apply Safe.pre (oneEffect_safe ..))
    | simp only [Safe.upd]
    | split
    | dsimp only

theorem execWrite_safe (dt : Nat) (og : Origin) (txn : Nat) (index : Nat) (sub : Nat) (type : Nat) (value : List Byte) (s : State) : ∃ g : Dev → Dev, execWrite dt og txn index sub type value s = run s dt g ∧ ∀ d, Safe d (g d) := by
  refine ⟨_, rfl, fun d => ?_⟩
  repeat' first
    | (with_reducible apply Safe.refl)
    | (with_reducible intro _)
    | (with_reducible apply Safe.ite)
    | (with_reducible apply Safe.pre (oneEffect_safe ..))
    | simp only [Safe.upd]
    | split
    | dsimp only

theorem execDescribe_safe (dt : Nat) (og : Origin) (index : Nat) (sub : Nat) (s : State) : ∃ g : Dev → Dev, execDescribe dt og index sub s = run s dt g ∧ ∀ d, Safe d (g d) := by
  refine ⟨_, rfl, fun d => ?_⟩
  repeat' first
    | (with_reducible apply Safe.refl)
    | (with_reducible intro _)
    | (with_reducible apply Safe.ite)
    | (with_reducible apply Safe.pre (oneEffect_safe ..))
    | simp only [Safe.upd]
    | split
    | dsimp only

theorem execBeginTxn_safe (dt : Nat) (og : Origin) (s : State) : ∃ g : Dev → Dev, execBeginTxn dt og s = run s dt g ∧ ∀ d, Safe d (g d) := by
  refine ⟨_, rfl, fun d => ?_⟩
  repeat' first
    | (with_reducible apply Safe.refl)
    | (with_reducible intro _)
    | (with_reducible apply Safe.ite)
    | (with_reducible apply Safe.pre (oneEffect_safe ..))
    | simp only [Safe.upd]
    | split
    | dsimp only

theorem execCommit_safe (dt : Nat) (og : Origin) (txn : Nat) (tick : Option Nat) (s : State) : ∃ g : Dev → Dev, execCommit dt og txn tick s = run s dt g ∧ ∀ d, Safe d (g d) := by
  refine ⟨_, rfl, fun d => ?_⟩
  repeat' first
    | (with_reducible apply Safe.refl)
    | (with_reducible intro _)
    | (with_reducible apply Safe.ite)
    | (with_reducible apply Safe.pre (oneEffect_safe ..))
    | simp only [Safe.upd]
    | split
    | dsimp only

theorem execRollback_safe (dt : Nat) (og : Origin) (txn : Nat) (s : State) : ∃ g : Dev → Dev, execRollback dt og txn s = run s dt g ∧ ∀ d, Safe d (g d) := by
  refine ⟨_, rfl, fun d => ?_⟩
  repeat' first
    | (with_reducible apply Safe.refl)
    | (with_reducible intro _)
    | (with_reducible apply Safe.ite)
    | (with_reducible apply Safe.pre (oneEffect_safe ..))
    | simp only [Safe.upd]
    | split
    | dsimp only

theorem execValidationStart_same (dt : Nat) (s : State) : ∃ g : Dev → Dev, execValidationStart dt s = run s dt g ∧ ∀ d, Same d (g d) := by
  refine ⟨_, rfl, fun d => ?_⟩
  repeat' first
    | (with_reducible apply Same.refl)
    | (with_reducible intro _)
    | (with_reducible apply Same.ite)
    | (with_reducible apply Same.pre (validationStartEffect_same ..))
    | simp only [Same.upd]
    | split
    | dsimp only

theorem execValidationEnd_same (dt : Nat) (s : State) : ∃ g : Dev → Dev, execValidationEnd dt s = run s dt g ∧ ∀ d, Same d (g d) := by
  refine ⟨_, rfl, fun d => ?_⟩
  repeat' first
    | (with_reducible apply Same.refl)
    | (with_reducible intro _)
    | (with_reducible apply Same.ite)
    | (with_reducible apply Same.pre (validationEndEffect_same ..))
    | simp only [Same.upd]
    | split
    | dsimp only

theorem execCommitTick_safe (dt : Nat) (s : State) : ∃ g : Dev → Dev, execCommitTick dt s = run s dt g ∧ ∀ d, Safe d (g d) := by
  refine ⟨_, rfl, fun d => ?_⟩
  repeat' first
    | (with_reducible apply Safe.refl)
    | (with_reducible intro _)
    | (with_reducible apply Safe.ite)
    | (with_reducible apply Safe.pre (commitTickEffect_safe ..))
    | simp only [Safe.upd]
    | split
    | dsimp only

theorem execObjectWrite_safe (dt : Nat) (og : Origin) (index : Nat) (sub : Nat) (value : List Byte) (s : State) : ∃ g : Dev → Dev, execObjectWrite dt og index sub value s = run s dt g ∧ ∀ d, Safe d (g d) := by
  refine ⟨_, rfl, fun d => ?_⟩
  repeat' first
    | (with_reducible apply Safe.refl)
    | (with_reducible intro _)
    | (with_reducible apply Safe.ite)
    | (with_reducible apply Safe.pre (Dev.commitItems_safe ..))
    | simp only [Safe.upd]
    | split
    | dsimp only

theorem execTxnIdleTimeout_same (dt : Nat) (slot : Fin 8) (s : State) : ∃ g : Dev → Dev, execTxnIdleTimeout dt slot s = run s dt g ∧ ∀ d, Same d (g d) := by
  refine ⟨_, rfl, fun d => ?_⟩
  repeat' first
    | (with_reducible apply Same.refl)
    | (with_reducible intro _)
    | (with_reducible apply Same.ite)
    | (with_reducible apply Same.pre (txnIdleEffect_same ..))
    | simp only [Same.upd]
    | split
    | dsimp only

theorem execCheckpointInterval_same (dt : Nat) (s : State) : ∃ g : Dev → Dev, execCheckpointInterval dt s = run s dt g ∧ ∀ d, Same d (g d) := by
  refine ⟨_, rfl, fun d => ?_⟩
  repeat' first
    | (with_reducible apply Same.refl)
    | (with_reducible intro _)
    | (with_reducible apply Same.ite)
    | (with_reducible apply Same.pre (checkpointIntervalEffect_same ..))
    | simp only [Same.upd]
    | split
    | dsimp only

theorem execCheckpointCount_same (dt : Nat) (s : State) : ∃ g : Dev → Dev, execCheckpointCount dt s = run s dt g ∧ ∀ d, Same d (g d) := by
  refine ⟨_, rfl, fun d => ?_⟩
  repeat' first
    | (with_reducible apply Same.refl)
    | (with_reducible intro _)
    | (with_reducible apply Same.ite)
    | (with_reducible apply Same.pre (checkpointCountEffect_same ..))
    | simp only [Same.upd]
    | split
    | dsimp only

theorem execLogbookCheckpoint_safe (dt : Nat) (og : Origin) (s : State) : ∃ g : Dev → Dev, execLogbookCheckpoint dt og s = run s dt g ∧ ∀ d, Safe d (g d) := by
  refine ⟨_, rfl, fun d => ?_⟩
  repeat' first
    | (with_reducible apply Safe.refl)
    | (with_reducible intro _)
    | (with_reducible apply Safe.ite)
    | (with_reducible apply Safe.pre (Dev.write1_safe ..))
    | simp only [Safe.upd]
    | split
    | dsimp only

theorem execKeepGroupWrite_same (dt : Nat) (torn : List Nat) (s : State) : ∃ g : Dev → Dev, execKeepGroupWrite dt torn s = run s dt g ∧ ∀ d, Same d (g d) := by
  refine ⟨_, rfl, fun d => ?_⟩
  repeat' first
    | (with_reducible apply Same.refl)
    | (with_reducible intro _)
    | (with_reducible apply Same.ite)
    | (with_reducible apply Same.pre (groupWriteEffect_same ..))
    | simp only [Same.upd]
    | split
    | dsimp only

theorem execKeepPageRefresh_same (dt : Nat) (page : Nat) (margin : Bool) (s : State) : ∃ g : Dev → Dev, execKeepPageRefresh dt page margin s = run s dt g ∧ ∀ d, Same d (g d) := by
  refine ⟨_, rfl, fun d => ?_⟩
  repeat' first
    | (with_reducible apply Same.refl)
    | (with_reducible intro _)
    | (with_reducible apply Same.ite)
    | (with_reducible apply Same.pre (pageRefreshEffect_same ..))
    | simp only [Same.upd]
    | split
    | dsimp only

theorem execWindowAccess_safe (dt : Nat) (offset : BarAddr) (op : WinOp) (find : LineFind) (s : State) : ∃ g : Dev → Dev, execWindowAccess dt offset op find s = run s dt g ∧ ∀ d, Safe d (g d) := by
  refine ⟨_, rfl, fun d => ?_⟩
  repeat' first
    | (with_reducible apply Safe.refl)
    | (with_reducible intro _)
    | (with_reducible apply Safe.ite)
    | (with_reducible apply Safe.pre (windowEffect_safe ..))
    | simp only [Safe.upd]
    | split
    | dsimp only

theorem execAuthKeyWrite_safe (dt : Nat) (og : Origin) (v : Fin 2) (slot : Fin 4) (key : List Byte) (s : State) : ∃ g : Dev → Dev, execAuthKeyWrite dt og v slot key s = run s dt g ∧ ∀ d, Safe d (g d) := by
  refine ⟨_, rfl, fun d => ?_⟩
  repeat' first
    | (with_reducible apply Safe.refl)
    | (with_reducible intro _)
    | (with_reducible apply Safe.ite)
    | (with_reducible apply Safe.pre (Dev.writeOct_safe ..))
    | simp only [Safe.upd]
    | split
    | dsimp only

theorem execPropose_same (dt : Nat) (msgSeq : Nat) (txn : Nat) (items : List (Nat × Nat × List Byte)) (s : State) : ∃ g : Dev → Dev, execPropose dt msgSeq txn items s = run s dt g ∧ ∀ d, Same d (g d) := by
  refine ⟨_, rfl, fun d => ?_⟩
  repeat' first
    | (with_reducible apply Same.refl)
    | (with_reducible intro _)
    | (with_reducible apply Same.ite)
    | (with_reducible apply Same.pre (proposeEffect_same ..))
    | simp only [Same.upd]
    | split
    | dsimp only

theorem execVerdict_same (dt : Nat) (msgSeq : Nat) (txn : Nat) (status : Nat) (index : Nat) (sub : Nat) (s : State) : ∃ g : Dev → Dev, execVerdict dt msgSeq txn status index sub s = run s dt g ∧ ∀ d, Same d (g d) := by
  refine ⟨_, rfl, fun d => ?_⟩
  repeat' first
    | (with_reducible apply Same.refl)
    | (with_reducible intro _)
    | (with_reducible apply Same.ite)
    | (with_reducible apply Same.pre (verdictEffect_same ..))
    | simp only [Same.upd]
    | split
    | dsimp only

theorem execSchedule_same (dt : Nat) (msgSeq : Nat) (txn : Nat) (tc : Nat) (s : State) : ∃ g : Dev → Dev, execSchedule dt msgSeq txn tc s = run s dt g ∧ ∀ d, Same d (g d) := by
  refine ⟨_, rfl, fun d => ?_⟩
  repeat' first
    | (with_reducible apply Same.refl)
    | (with_reducible intro _)
    | (with_reducible apply Same.ite)
    | (with_reducible apply Same.pre (scheduleEffect_same ..))
    | simp only [Same.upd]
    | split
    | dsimp only

theorem execShadow_same (dt : Nat) (msgSeq : Nat) (tc : Nat) (items : List (Nat × Nat × List Byte)) (s : State) : ∃ g : Dev → Dev, execShadow dt msgSeq tc items s = run s dt g ∧ ∀ d, Same d (g d) := by
  refine ⟨_, rfl, fun d => ?_⟩
  repeat' first
    | (with_reducible apply Same.refl)
    | (with_reducible intro _)
    | (with_reducible apply Same.ite)
    | (with_reducible apply Same.pre (shadowEffect_same ..))
    | simp only [Same.upd]
    | split
    | dsimp only

theorem execLogbook_same (dt : Nat) (msgSeq : Nat) (entries : List (List Byte)) (s : State) : ∃ g : Dev → Dev, execLogbook dt msgSeq entries s = run s dt g ∧ ∀ d, Same d (g d) := by
  refine ⟨_, rfl, fun d => ?_⟩
  repeat' first
    | (with_reducible apply Same.refl)
    | (with_reducible intro _)
    | (with_reducible apply Same.ite)
    | (with_reducible apply Same.pre (logbookEffect_same ..))
    | simp only [Same.upd]
    | split
    | dsimp only

theorem execExtent_safe (dt : Nat) (msgSeq : Nat) (number : Nat) (entry : List Byte) (s : State) : ∃ g : Dev → Dev, execExtent dt msgSeq number entry s = run s dt g ∧ ∀ d, Safe d (g d) := by
  refine ⟨_, rfl, fun d => ?_⟩
  repeat' first
    | (with_reducible apply Safe.refl)
    | (with_reducible intro _)
    | (with_reducible apply Safe.ite)
    | (with_reducible apply Safe.pre (extentEffect_safe ..))
    | simp only [Safe.upd]
    | split
    | dsimp only

theorem execSubentry_same (dt : Nat) (msgSeq : Nat) (number : Nat) (entry : List Byte) (s : State) : ∃ g : Dev → Dev, execSubentry dt msgSeq number entry s = run s dt g ∧ ∀ d, Same d (g d) := by
  refine ⟨_, rfl, fun d => ?_⟩
  repeat' first
    | (with_reducible apply Same.refl)
    | (with_reducible intro _)
    | (with_reducible apply Same.ite)
    | (with_reducible apply Same.pre (subentryEffect_same ..))
    | simp only [Same.upd]
    | split
    | dsimp only

theorem execFront_same (dt : Nat) (msgSeq : Nat) (entry : List Byte) (s : State) : ∃ g : Dev → Dev, execFront dt msgSeq entry s = run s dt g ∧ ∀ d, Same d (g d) := by
  refine ⟨_, rfl, fun d => ?_⟩
  repeat' first
    | (with_reducible apply Same.refl)
    | (with_reducible intro _)
    | (with_reducible apply Same.ite)
    | (with_reducible apply Same.pre (frontMsgEffect_same ..))
    | simp only [Same.upd]
    | split
    | dsimp only

theorem execCatalogue_same (dt : Nat) (msgSeq : Nat) (words : List Nat) (side : Nat) (epoch : Nat) (schema : Nat) (logNext : Nat) (s : State) : ∃ g : Dev → Dev, execCatalogue dt msgSeq words side epoch schema logNext s = run s dt g ∧ ∀ d, Same d (g d) := by
  refine ⟨_, rfl, fun d => ?_⟩
  repeat' first
    | (with_reducible apply Same.refl)
    | (with_reducible intro _)
    | (with_reducible apply Same.ite)
    | (with_reducible apply Same.pre (catalogueEffect_same ..))
    | simp only [Same.upd]
    | split
    | dsimp only

theorem execResyncBegin_same (dt : Nat) (msgSeq : Nat) (shared : List (Nat × Nat × List Byte)) (s : State) : ∃ g : Dev → Dev, execResyncBegin dt msgSeq shared s = run s dt g ∧ ∀ d, Same d (g d) := by
  refine ⟨_, rfl, fun d => ?_⟩
  repeat' first
    | (with_reducible apply Same.refl)
    | (with_reducible intro _)
    | (with_reducible apply Same.ite)
    | (with_reducible apply Same.pre (resyncBeginEffect_same ..))
    | simp only [Same.upd]
    | split
    | dsimp only

theorem execResyncEnd_same (dt : Nat) (msgSeq : Nat) (s : State) : ∃ g : Dev → Dev, execResyncEnd dt msgSeq s = run s dt g ∧ ∀ d, Same d (g d) := by
  refine ⟨_, rfl, fun d => ?_⟩
  repeat' first
    | (with_reducible apply Same.refl)
    | (with_reducible intro _)
    | (with_reducible apply Same.ite)
    | (with_reducible apply Same.pre (resyncEndEffect_same ..))
    | simp only [Same.upd]
    | split
    | dsimp only

theorem execLeave_same (dt : Nat) (msgSeq : Nat) (s : State) : ∃ g : Dev → Dev, execLeave dt msgSeq s = run s dt g ∧ ∀ d, Same d (g d) := by
  refine ⟨_, rfl, fun d => ?_⟩
  repeat' first
    | (with_reducible apply Same.refl)
    | (with_reducible intro _)
    | (with_reducible apply Same.ite)
    | (with_reducible apply Same.pre (leaveEffect_same ..))
    | simp only [Same.upd]
    | split
    | dsimp only

theorem execBeatSend_same (dt : Nat) (s : State) : ∃ g : Dev → Dev, execBeatSend dt s = run s dt g ∧ ∀ d, Same d (g d) := by
  refine ⟨_, rfl, fun d => ?_⟩
  repeat' first
    | (with_reducible apply Same.refl)
    | (with_reducible intro _)
    | (with_reducible apply Same.ite)
    | (with_reducible apply Same.pre (beatSendEffect_same ..))
    | simp only [Same.upd]
    | split
    | dsimp only

theorem execBeat_same (dt : Nat) (at_ : BeatAt) (payload : List Byte) (s : State) : ∃ g : Dev → Dev, execBeat dt at_ payload s = run s dt g ∧ ∀ d, Same d (g d) := by
  refine ⟨_, rfl, fun d => ?_⟩
  repeat' first
    | (with_reducible apply Same.refl)
    | (with_reducible intro _)
    | (with_reducible apply Same.ite)
    | (with_reducible apply Same.pre (beatEffect_same ..))
    | simp only [Same.upd]
    | split
    | dsimp only

theorem execBeatMissed_same (dt : Nat) (s : State) : ∃ g : Dev → Dev, execBeatMissed dt s = run s dt g ∧ ∀ d, Same d (g d) := by
  refine ⟨_, rfl, fun d => ?_⟩
  repeat' first
    | (with_reducible apply Same.refl)
    | (with_reducible intro _)
    | (with_reducible apply Same.ite)
    | (with_reducible apply Same.pre (beatMissedEffect_same ..))
    | simp only [Same.upd]
    | split
    | dsimp only

theorem execTwinEvent_same (dt : Nat) (originTick : Nat) (slot : Nat) (forwarded : Bool) (input : Fin 128) (mult : Fin 16) (s : State) : ∃ g : Dev → Dev, execTwinEvent dt originTick slot forwarded input mult s = run s dt g ∧ ∀ d, Same d (g d) := by
  refine ⟨_, rfl, fun d => ?_⟩
  repeat' first
    | (with_reducible apply Same.refl)
    | (with_reducible intro _)
    | (with_reducible apply Same.ite)
    | (with_reducible apply Same.pre (twinEventEffect_same ..))
    | simp only [Same.upd]
    | split
    | dsimp only

theorem execStorageTakeover_safe (dt : Nat) (nss : List NsFound) (s : State) : ∃ g : Dev → Dev, execStorageTakeover dt nss s = run s dt g ∧ ∀ d, Safe d (g d) := by
  refine ⟨_, rfl, fun d => ?_⟩
  repeat' first
    | (with_reducible apply Safe.refl)
    | (with_reducible intro _)
    | (with_reducible apply Safe.ite)
    | (with_reducible apply Safe.pre (storageTakeoverEffect_safe ..))
    | simp only [Safe.upd]
    | split
    | dsimp only

theorem execTwinAlign_safe (dt : Nat) (og : Origin) (s : State) : ∃ g : Dev → Dev, execTwinAlign dt og s = run s dt g ∧ ∀ d, Safe d (g d) := by
  refine ⟨_, rfl, fun d => ?_⟩
  repeat' first
    | (with_reducible apply Safe.refl)
    | (with_reducible intro _)
    | (with_reducible apply Safe.ite)
    | (with_reducible apply Safe.pre (Dev.twinAlign_safe ..))
    | (with_reducible apply Safe.pre (Dev.write1_safe ..))
    | simp only [Safe.upd]
    | split
    | dsimp only

theorem execTwinLeave_safe (dt : Nat) (og : Origin) (s : State) : ∃ g : Dev → Dev, execTwinLeave dt og s = run s dt g ∧ ∀ d, Safe d (g d) := by
  refine ⟨_, rfl, fun d => ?_⟩
  repeat' first
    | (with_reducible apply Safe.refl)
    | (with_reducible intro _)
    | (with_reducible apply Safe.ite)
    | (with_reducible apply Safe.pre (Dev.twinLeave_same ..).safe)
    | (with_reducible apply Safe.pre (Dev.write1_safe ..))
    | simp only [Safe.upd]
    | split
    | dsimp only

theorem execTwinTakeover_safe (dt : Nat) (og : Origin) (s : State) : ∃ g : Dev → Dev, execTwinTakeover dt og s = run s dt g ∧ ∀ d, Safe d (g d) := by
  refine ⟨_, rfl, fun d => ?_⟩
  repeat' first
    | (with_reducible apply Safe.refl)
    | (with_reducible intro _)
    | (with_reducible apply Safe.ite)
    | (with_reducible apply Safe.pre (Dev.twinTakeover_same ..).safe)
    | (with_reducible apply Safe.pre (Dev.write1_safe ..))
    | simp only [Safe.upd]
    | split
    | dsimp only

theorem execAdoptStorage_safe (dt : Nat) (og : Origin) (s : State) : ∃ g : Dev → Dev, execAdoptStorage dt og s = run s dt g ∧ ∀ d, Safe d (g d) := by
  refine ⟨_, rfl, fun d => ?_⟩
  repeat' first
    | (with_reducible apply Safe.refl)
    | (with_reducible intro _)
    | (with_reducible apply Safe.ite)
    | (with_reducible apply Safe.pre (Dev.write1_safe ..))
    | simp only [Safe.upd]
    | split
    | dsimp only

theorem execNocTimeout_same (dt : Nat) (ni : Fin 640) (tag : Fin 4096) (s : State) : ∃ g : Dev → Dev, execNocTimeout dt ni tag s = run s dt g ∧ ∀ d, Same d (g d) := by
  refine ⟨_, rfl, fun d => ?_⟩
  repeat' first
    | (with_reducible apply Same.refl)
    | (with_reducible intro _)
    | (with_reducible apply Same.ite)
    | (with_reducible apply Same.pre (nocTimeoutEffect_same ..))
    | simp only [Same.upd]
    | split
    | dsimp only

theorem execNocResponse_same (dt : Nat) (ni : Fin 640) (tag : Fin 4096) (fin : NocEnd) (s : State) : ∃ g : Dev → Dev, execNocResponse dt ni tag fin s = run s dt g ∧ ∀ d, Same d (g d) := by
  refine ⟨_, rfl, fun d => ?_⟩
  repeat' first
    | (with_reducible apply Same.refl)
    | (with_reducible intro _)
    | (with_reducible apply Same.ite)
    | (with_reducible apply Same.pre (nocResponseEffect_same ..))
    | simp only [Same.upd]
    | split
    | dsimp only

theorem execPostedError_same (dt : Nat) (ni : Fin 640) (record : List Byte) (freed : Bool) (s : State) : ∃ g : Dev → Dev, execPostedError dt ni record freed s = run s dt g ∧ ∀ d, Same d (g d) := by
  refine ⟨_, rfl, fun d => ?_⟩
  repeat' first
    | (with_reducible apply Same.refl)
    | (with_reducible intro _)
    | (with_reducible apply Same.ite)
    | (with_reducible apply Same.pre (postedErrorEffect_same ..))
    | simp only [Same.upd]
    | split
    | dsimp only

theorem execFlush_same (dt : Nat) (ni : Fin 640) (target : Fin 640) (s : State) : ∃ g : Dev → Dev, execFlush dt ni target s = run s dt g ∧ ∀ d, Same d (g d) := by
  refine ⟨_, rfl, fun d => ?_⟩
  repeat' first
    | (with_reducible apply Same.refl)
    | (with_reducible intro _)
    | (with_reducible apply Same.ite)
    | (with_reducible apply Same.pre (flushReqEffect_same ..))
    | simp only [Same.upd]
    | split
    | dsimp only

theorem execEkicWrite_same (dt : Nat) (c : Fin 16) (bits : Nat) (arriving : List (Fin 32)) (s : State) : ∃ g : Dev → Dev, execEkicWrite dt c bits arriving s = run s dt g ∧ ∀ d, Same d (g d) := by
  refine ⟨_, rfl, fun d => ?_⟩
  repeat' first
    | (with_reducible apply Same.refl)
    | (with_reducible intro _)
    | (with_reducible apply Same.ite)
    | (with_reducible apply Same.pre (ekicEffect_same ..))
    | simp only [Same.upd]
    | split
    | dsimp only

theorem execEkeqWrite_same (dt : Nat) (c : Fin 16) (value : Nat) (s : State) : ∃ g : Dev → Dev, execEkeqWrite dt c value s = run s dt g ∧ ∀ d, Same d (g d) := by
  refine ⟨_, rfl, fun d => ?_⟩
  repeat' first
    | (with_reducible apply Same.refl)
    | (with_reducible intro _)
    | (with_reducible apply Same.ite)
    | (with_reducible apply Same.pre (ekeqEffect_same ..))
    | simp only [Same.upd]
    | split
    | dsimp only

theorem execCoreRun_safe (dt : Nat) (og : Origin) (c : Fin 16) (s : State) : ∃ g : Dev → Dev, execCoreRun dt og c s = run s dt g ∧ ∀ d, Safe d (g d) := by
  refine ⟨_, rfl, fun d => ?_⟩
  repeat' first
    | (with_reducible apply Safe.refl)
    | (with_reducible intro _)
    | (with_reducible apply Safe.ite)
    | (with_reducible apply Safe.pre (Dev.write1_safe ..))
    | simp only [Safe.upd]
    | split
    | dsimp only

theorem execCoreReset_safe (dt : Nat) (og : Origin) (c : Fin 16) (s : State) : ∃ g : Dev → Dev, execCoreReset dt og c s = run s dt g ∧ ∀ d, Safe d (g d) := by
  refine ⟨_, rfl, fun d => ?_⟩
  repeat' first
    | (with_reducible apply Safe.refl)
    | (with_reducible intro _)
    | (with_reducible apply Safe.ite)
    | (with_reducible apply Safe.pre (Dev.write1_safe ..))
    | simp only [Safe.upd]
    | split
    | dsimp only

theorem execFabricEvent_same (dt : Nat) (f : Fin 8) (j : Fin 32) (s : State) : ∃ g : Dev → Dev, execFabricEvent dt f j s = run s dt g ∧ ∀ d, Same d (g d) := by
  refine ⟨_, rfl, fun d => ?_⟩
  repeat' first
    | (with_reducible apply Same.refl)
    | (with_reducible intro _)
    | (with_reducible apply Same.ite)
    | (with_reducible apply Same.pre (fabricEventEffect_same ..))
    | simp only [Same.upd]
    | split
    | dsimp only

theorem execUserMarkRequest_same (dt : Nat) (f : Fin 8) (set : Fin 16) (value : Nat) (s : State) : ∃ g : Dev → Dev, execUserMarkRequest dt f set value s = run s dt g ∧ ∀ d, Same d (g d) := by
  refine ⟨_, rfl, fun d => ?_⟩
  repeat' first
    | (with_reducible apply Same.refl)
    | (with_reducible intro _)
    | (with_reducible apply Same.ite)
    | (with_reducible apply Same.pre (markRequestEffect_same ..))
    | simp only [Same.upd]
    | split
    | dsimp only

theorem execPePop_same (dt : Nat) (ni : Fin 640) (s : State) : ∃ g : Dev → Dev, execPePop dt ni s = run s dt g ∧ ∀ d, Same d (g d) := by
  refine ⟨_, rfl, fun d => ?_⟩
  repeat' first
    | (with_reducible apply Same.refl)
    | (with_reducible intro _)
    | (with_reducible apply Same.ite)
    | (with_reducible apply Same.pre (pePopEffect_same ..))
    | simp only [Same.upd]
    | split
    | dsimp only

theorem execFabricDictionaryRequest_safe (dt : Nat) (d : Fin 8) (request : List Byte) (s : State) : ∃ g : Dev → Dev, execFabricDictionaryRequest dt d request s = run s dt g ∧ ∀ d, Safe d (g d) := by
  refine ⟨_, rfl, fun d => ?_⟩
  repeat' first
    | (with_reducible apply Safe.refl)
    | (with_reducible intro _)
    | (with_reducible apply Safe.ite)
    | (with_reducible apply Safe.pre (fabricRequestEffect_safe ..))
    | simp only [Safe.upd]
    | split
    | dsimp only

theorem execObjectSample_same (dt : Nat) (index : Nat) (sub : Nat) (value : List Byte) (again : Nat) (s : State) : ∃ g : Dev → Dev, execObjectSample dt index sub value again s = run s dt g ∧ ∀ d, Same d (g d) := by
  refine ⟨_, rfl, fun d => ?_⟩
  repeat' first
    | (with_reducible apply Same.refl)
    | (with_reducible intro _)
    | (with_reducible apply Same.ite)
    | (with_reducible apply Same.pre (sampleEffect_same ..))
    | simp only [Same.upd]
    | split
    | dsimp only

theorem execObjectSampleTimeout_same (dt : Nat) (index : Nat) (sub : Nat) (s : State) : ∃ g : Dev → Dev, execObjectSampleTimeout dt index sub s = run s dt g ∧ ∀ d, Same d (g d) := by
  refine ⟨_, rfl, fun d => ?_⟩
  repeat' first
    | (with_reducible apply Same.refl)
    | (with_reducible intro _)
    | (with_reducible apply Same.ite)
    | (with_reducible apply Same.pre (sampleTimeoutEffect_same ..))
    | simp only [Same.upd]
    | split
    | dsimp only

theorem execRamPortAccess_same (dt : Nat) (blk : Nat) (a : Option RamAcc) (b : Option RamAcc) (sameClock : Bool) (finds : PortFinds) (s : State) : ∃ g : Dev → Dev, execRamPortAccess dt blk a b sameClock finds s = run s dt g ∧ ∀ d, Same d (g d) := by
  refine ⟨_, rfl, fun d => ?_⟩
  repeat' first
    | (with_reducible apply Same.refl)
    | (with_reducible intro _)
    | (with_reducible apply Same.ite)
    | (with_reducible apply Same.pre (ramEffect_same ..))
    | simp only [Same.upd]
    | split
    | dsimp only

theorem execBankVoltageSample_same (dt : Nat) (b : Fin 8) (mv : Nat) (s : State) : ∃ g : Dev → Dev, execBankVoltageSample dt b mv s = run s dt g ∧ ∀ d, Same d (g d) := by
  refine ⟨_, rfl, fun d => ?_⟩
  repeat' first
    | (with_reducible apply Same.refl)
    | (with_reducible intro _)
    | (with_reducible apply Same.ite)
    | (with_reducible apply Same.pre (bankEffect_same ..))
    | simp only [Same.upd]
    | split
    | dsimp only

theorem execSourceStable_same (dt : Nat) (src : Fin 5) (fuses : Option (List (Nat × Nat × List Byte))) (s : State) : ∃ g : Dev → Dev, execSourceStable dt src fuses s = run s dt g ∧ ∀ d, Same d (g d) := by
  refine ⟨_, rfl, fun d => ?_⟩
  repeat' first
    | (with_reducible apply Same.refl)
    | (with_reducible intro _)
    | (with_reducible apply Same.ite)
    | (with_reducible apply Same.pre (sourceStableEffect_same ..))
    | simp only [Same.upd]
    | split
    | dsimp only

theorem execClockMissing_same (dt : Nat) (src : Fin 5) (s : State) : ∃ g : Dev → Dev, execClockMissing dt src s = run s dt g ∧ ∀ d, Same d (g d) := by
  refine ⟨_, rfl, fun d => ?_⟩
  repeat' first
    | (with_reducible apply Same.refl)
    | (with_reducible intro _)
    | (with_reducible apply Same.ite)
    | (with_reducible apply Same.pre (clockMissingEffect_same ..))
    | simp only [Same.upd]
    | split
    | dsimp only

theorem execPllLossOfLock_same (dt : Nat) (pll : Sum (Fin 11) (Sum (Fin 8 × Fin 16) (Fin 36 × Fin 2))) (s : State) : ∃ g : Dev → Dev, execPllLossOfLock dt pll s = run s dt g ∧ ∀ d, Same d (g d) := by
  refine ⟨_, rfl, fun d => ?_⟩
  repeat' first
    | (with_reducible apply Same.refl)
    | (with_reducible intro _)
    | (with_reducible apply Same.ite)
    | (with_reducible apply Same.pre (pllLossEffect_same ..))
    | simp only [Same.upd]
    | split
    | dsimp only

theorem execPllLock_same (dt : Nat) (pll : Sum (Fin 11) (Sum (Fin 8 × Fin 16) (Fin 36 × Fin 2))) (s : State) : ∃ g : Dev → Dev, execPllLock dt pll s = run s dt g ∧ ∀ d, Same d (g d) := by
  refine ⟨_, rfl, fun d => ?_⟩
  repeat' first
    | (with_reducible apply Same.refl)
    | (with_reducible intro _)
    | (with_reducible apply Same.ite)
    | (with_reducible apply Same.pre (pllLockEffect_same ..))
    | simp only [Same.upd]
    | split
    | dsimp only

theorem execPllHoldoverExpiry_safe (dt : Nat) (pll : Sum (Fin 11) (Fin 36 × Fin 2)) (mode : Fin 8) (s : State) : ∃ g : Dev → Dev, execPllHoldoverExpiry dt pll mode s = run s dt g ∧ ∀ d, Safe d (g d) := by
  refine ⟨_, rfl, fun d => ?_⟩
  repeat' first
    | (with_reducible apply Safe.refl)
    | (with_reducible intro _)
    | (with_reducible apply Safe.ite)
    | (with_reducible apply Safe.pre (pllHoldoverEffect_safe ..))
    | simp only [Safe.upd]
    | split
    | dsimp only

theorem execClockRevert_safe (dt : Nat) (og : Origin) (s : State) : ∃ g : Dev → Dev, execClockRevert dt og s = run s dt g ∧ ∀ d, Safe d (g d) := by
  refine ⟨_, rfl, fun d => ?_⟩
  repeat' first
    | (with_reducible apply Safe.refl)
    | (with_reducible intro _)
    | (with_reducible apply Safe.ite)
    | (with_reducible apply Safe.pre (Dev.write1_safe ..))
    | simp only [Safe.upd]
    | split
    | dsimp only

theorem execClockGate_safe (dt : Nat) (og : Origin) (node : Fin 37) (open_ : Bool) (s : State) : ∃ g : Dev → Dev, execClockGate dt og node open_ s = run s dt g ∧ ∀ d, Safe d (g d) := by
  refine ⟨_, rfl, fun d => ?_⟩
  repeat' first
    | (with_reducible apply Safe.refl)
    | (with_reducible intro _)
    | (with_reducible apply Safe.ite)
    | (with_reducible apply Safe.pre (Dev.write1_safe ..))
    | simp only [Safe.upd]
    | split
    | dsimp only

theorem execDeviceReset_safe (dt : Nat) (cause : Fin 9) (mode : Fin 8) (s : State) : ∃ g : Dev → Dev, execDeviceReset dt cause mode s = run s dt g ∧ ∀ d, Safe d (g d) := by
  refine ⟨_, rfl, fun d => ?_⟩
  repeat' first
    | (with_reducible apply Safe.refl)
    | (with_reducible intro _)
    | (with_reducible apply Safe.ite)
    | (with_reducible apply Safe.pre (deviceResetEffect_safe ..))
    | simp only [Safe.upd]
    | split
    | dsimp only

theorem execProgramPin_safe (dt : Nat) (mode : Fin 8) (low : Bool) (s : State) : ∃ g : Dev → Dev, execProgramPin dt mode low s = run s dt g ∧ ∀ d, Safe d (g d) := by
  refine ⟨_, rfl, fun d => ?_⟩
  repeat' first
    | (with_reducible apply Safe.refl)
    | (with_reducible intro _)
    | (with_reducible apply Safe.ite)
    | (with_reducible apply Safe.pre (programPinEffect_safe ..))
    | simp only [Safe.upd]
    | split
    | dsimp only

theorem execPowerGood_safe (dt : Nat) (mode : Fin 8) (s : State) : ∃ g : Dev → Dev, execPowerGood dt mode s = run s dt g ∧ ∀ d, Safe d (g d) := by
  refine ⟨_, rfl, fun d => ?_⟩
  repeat' first
    | (with_reducible apply Safe.refl)
    | (with_reducible intro _)
    | (with_reducible apply Safe.ite)
    | (with_reducible apply Safe.pre (powerGoodEffect_safe ..))
    | simp only [Safe.upd]
    | split
    | dsimp only

theorem execEntropyStartupDone_same (dt : Nat) (ok : Bool) (s : State) : ∃ g : Dev → Dev, execEntropyStartupDone dt ok s = run s dt g ∧ ∀ d, Same d (g d) := by
  refine ⟨_, rfl, fun d => ?_⟩
  repeat' first
    | (with_reducible apply Same.refl)
    | (with_reducible intro _)
    | (with_reducible apply Same.ite)
    | (with_reducible apply Same.pre (entropyStartEffect_same ..))
    | simp only [Same.upd]
    | split
    | dsimp only

theorem execFirmwareStart_same (dt : Nat) (ok0 : Bool) (ok1 : Bool) (v0 : Nat) (v1 : Nat) (s : State) : ∃ g : Dev → Dev, execFirmwareStart dt ok0 ok1 v0 v1 s = run s dt g ∧ ∀ d, Same d (g d) := by
  refine ⟨_, rfl, fun d => ?_⟩
  repeat' first
    | (with_reducible apply Same.refl)
    | (with_reducible intro _)
    | (with_reducible apply Same.ite)
    | (with_reducible apply Same.pre (firmwareEffect_same ..))
    | simp only [Same.upd]
    | split
    | dsimp only

theorem execPersistRestore_same (dt : Nat) (badSeal : List (Nat × Nat)) (s : State) : ∃ g : Dev → Dev, execPersistRestore dt badSeal s = run s dt g ∧ ∀ d, Same d (g d) := by
  refine ⟨_, rfl, fun d => ?_⟩
  repeat' first
    | (with_reducible apply Same.refl)
    | (with_reducible intro _)
    | (with_reducible apply Same.ite)
    | (with_reducible apply Same.pre (restoreEffect_same ..))
    | simp only [Same.upd]
    | split
    | dsimp only

theorem execStreamData_same (dt : Nat) (part : StreamPart) (s : State) : ∃ g : Dev → Dev, execStreamData dt part s = run s dt g ∧ ∀ d, Same d (g d) := by
  refine ⟨_, rfl, fun d => ?_⟩
  repeat' first
    | (with_reducible apply Same.refl)
    | (with_reducible intro _)
    | (with_reducible apply Same.ite)
    | (with_reducible apply Same.pre (streamEffect_same ..))
    | simp only [Same.upd]
    | split
    | dsimp only

theorem execStreamTimeout_same (dt : Nat) (s : State) : ∃ g : Dev → Dev, execStreamTimeout dt s = run s dt g ∧ ∀ d, Same d (g d) := by
  refine ⟨_, rfl, fun d => ?_⟩
  repeat' first
    | (with_reducible apply Same.refl)
    | (with_reducible intro _)
    | (with_reducible apply Same.ite)
    | (with_reducible apply Same.pre (streamTimeoutEffect_same ..))
    | simp only [Same.upd]
    | split
    | dsimp only

theorem execLoadStart_same (dt : Nat) (s : State) : ∃ g : Dev → Dev, execLoadStart dt s = run s dt g ∧ ∀ d, Same d (g d) := by
  refine ⟨_, rfl, fun d => ?_⟩
  repeat' first
    | (with_reducible apply Same.refl)
    | (with_reducible intro _)
    | (with_reducible apply Same.ite)
    | (with_reducible apply Same.pre (loadStartEffect_same ..))
    | simp only [Same.upd]
    | split
    | dsimp only

theorem execLoadAbort_same (dt : Nat) (s : State) : ∃ g : Dev → Dev, execLoadAbort dt s = run s dt g ∧ ∀ d, Same d (g d) := by
  refine ⟨_, rfl, fun d => ?_⟩
  repeat' first
    | (with_reducible apply Same.refl)
    | (with_reducible intro _)
    | (with_reducible apply Same.ite)
    | (with_reducible apply Same.pre (loadAbortEffect_same ..))
    | simp only [Same.upd]
    | split
    | dsimp only

theorem execApertureWrite_same (dt : Nat) (bytes : Nat) (s : State) : ∃ g : Dev → Dev, execApertureWrite dt bytes s = run s dt g ∧ ∀ d, Same d (g d) := by
  refine ⟨_, rfl, fun d => ?_⟩
  repeat' first
    | (with_reducible apply Same.refl)
    | (with_reducible intro _)
    | (with_reducible apply Same.ite)
    | (with_reducible apply Same.pre (apertureEffect_same ..))
    | simp only [Same.upd]
    | split
    | dsimp only

theorem execStartupStep_same (dt : Nat) (s : State) : ∃ g : Dev → Dev, execStartupStep dt s = run s dt g ∧ ∀ d, Same d (g d) := by
  refine ⟨_, rfl, fun d => ?_⟩
  repeat' first
    | (with_reducible apply Same.refl)
    | (with_reducible intro _)
    | (with_reducible apply Same.ite)
    | (with_reducible apply Same.pre (startupEffect_same ..))
    | simp only [Same.upd]
    | split
    | dsimp only

theorem execPllWaitExpiry_same (dt : Nat) (s : State) : ∃ g : Dev → Dev, execPllWaitExpiry dt s = run s dt g ∧ ∀ d, Same d (g d) := by
  refine ⟨_, rfl, fun d => ?_⟩
  repeat' first
    | (with_reducible apply Same.refl)
    | (with_reducible intro _)
    | (with_reducible apply Same.ite)
    | (with_reducible apply Same.pre (pllWaitEffect_same ..))
    | simp only [Same.upd]
    | split
    | dsimp only

theorem execBootComplete_same (dt : Nat) (s : State) : ∃ g : Dev → Dev, execBootComplete dt s = run s dt g ∧ ∀ d, Same d (g d) := by
  refine ⟨_, rfl, fun d => ?_⟩
  repeat' first
    | (with_reducible apply Same.refl)
    | (with_reducible intro _)
    | (with_reducible apply Same.ite)
    | (with_reducible apply Same.pre (bootCompleteEffect_same ..))
    | simp only [Same.upd]
    | split
    | dsimp only

theorem execIdcode_same (dt : Nat) (s : State) : ∃ g : Dev → Dev, execIdcode dt s = run s dt g ∧ ∀ d, Same d (g d) := by
  refine ⟨_, rfl, fun d => ?_⟩
  repeat' first
    | (with_reducible apply Same.refl)
    | (with_reducible intro _)
    | (with_reducible apply Same.ite)
    | (with_reducible apply Same.pre (idcodeEffect_same ..))
    | simp only [Same.upd]
    | split
    | dsimp only

theorem execSamplePreload_same (dt : Nat) (pins : List Bool) (shiftIn : Option (List Bool)) (s : State) : ∃ g : Dev → Dev, execSamplePreload dt pins shiftIn s = run s dt g ∧ ∀ d, Same d (g d) := by
  refine ⟨_, rfl, fun d => ?_⟩
  repeat' first
    | (with_reducible apply Same.refl)
    | (with_reducible intro _)
    | (with_reducible apply Same.ite)
    | (with_reducible apply Same.pre (sampleEffectJ_same ..))
    | simp only [Same.upd]
    | split
    | dsimp only

theorem execExtest_same (dt : Nat) (s : State) : ∃ g : Dev → Dev, execExtest dt s = run s dt g ∧ ∀ d, Same d (g d) := by
  refine ⟨_, rfl, fun d => ?_⟩
  repeat' first
    | (with_reducible apply Same.refl)
    | (with_reducible intro _)
    | (with_reducible apply Same.ite)
    | (with_reducible apply Same.pre (boundaryEffect_same ..))
    | simp only [Same.upd]
    | split
    | dsimp only

theorem execExtestPulse_same (dt : Nat) (s : State) : ∃ g : Dev → Dev, execExtestPulse dt s = run s dt g ∧ ∀ d, Same d (g d) := by
  refine ⟨_, rfl, fun d => ?_⟩
  repeat' first
    | (with_reducible apply Same.refl)
    | (with_reducible intro _)
    | (with_reducible apply Same.ite)
    | (with_reducible apply Same.pre (boundaryEffect_same ..))
    | simp only [Same.upd]
    | split
    | dsimp only

theorem execExtestTrain_same (dt : Nat) (s : State) : ∃ g : Dev → Dev, execExtestTrain dt s = run s dt g ∧ ∀ d, Same d (g d) := by
  refine ⟨_, rfl, fun d => ?_⟩
  repeat' first
    | (with_reducible apply Same.refl)
    | (with_reducible intro _)
    | (with_reducible apply Same.ite)
    | (with_reducible apply Same.pre (boundaryEffect_same ..))
    | simp only [Same.upd]
    | split
    | dsimp only

theorem execHighz_same (dt : Nat) (s : State) : ∃ g : Dev → Dev, execHighz dt s = run s dt g ∧ ∀ d, Same d (g d) := by
  refine ⟨_, rfl, fun d => ?_⟩
  repeat' first
    | (with_reducible apply Same.refl)
    | (with_reducible intro _)
    | (with_reducible apply Same.ite)
    | (with_reducible apply Same.pre (boundaryEffect_same ..))
    | simp only [Same.upd]
    | split
    | dsimp only

theorem execClamp_same (dt : Nat) (s : State) : ∃ g : Dev → Dev, execClamp dt s = run s dt g ∧ ∀ d, Same d (g d) := by
  refine ⟨_, rfl, fun d => ?_⟩
  repeat' first
    | (with_reducible apply Same.refl)
    | (with_reducible intro _)
    | (with_reducible apply Same.ite)
    | (with_reducible apply Same.pre (boundaryEffect_same ..))
    | simp only [Same.upd]
    | split
    | dsimp only

theorem execCfgLoad_same (dt : Nat) (bytes : List Byte) (s : State) : ∃ g : Dev → Dev, execCfgLoad dt bytes s = run s dt g ∧ ∀ d, Same d (g d) := by
  refine ⟨_, rfl, fun d => ?_⟩
  repeat' first
    | (with_reducible apply Same.refl)
    | (with_reducible intro _)
    | (with_reducible apply Same.ite)
    | (with_reducible apply Same.pre (cfgLoadEffect_same ..))
    | simp only [Same.upd]
    | split
    | dsimp only

theorem execDictPost_safe (dt : Nat) (request : List Byte) (s : State) : ∃ g : Dev → Dev, execDictPost dt request s = run s dt g ∧ ∀ d, Safe d (g d) := by
  refine ⟨_, rfl, fun d => ?_⟩
  repeat' first
    | (with_reducible apply Safe.refl)
    | (with_reducible intro _)
    | (with_reducible apply Safe.ite)
    | (with_reducible apply Safe.pre (dictPostEffect_safe ..))
    | simp only [Safe.upd]
    | split
    | dsimp only

theorem execDictPoll_same (dt : Nat) (s : State) : ∃ g : Dev → Dev, execDictPoll dt s = run s dt g ∧ ∀ d, Same d (g d) := by
  refine ⟨_, rfl, fun d => ?_⟩
  repeat' first
    | (with_reducible apply Same.refl)
    | (with_reducible intro _)
    | (with_reducible apply Same.ite)
    | (with_reducible apply Same.pre (dictPollEffect_same ..))
    | simp only [Same.upd]
    | split
    | dsimp only

theorem execDictRead_same (dt : Nat) (count : Nat) (s : State) : ∃ g : Dev → Dev, execDictRead dt count s = run s dt g ∧ ∀ d, Same d (g d) := by
  refine ⟨_, rfl, fun d => ?_⟩
  repeat' first
    | (with_reducible apply Same.refl)
    | (with_reducible intro _)
    | (with_reducible apply Same.ite)
    | (with_reducible apply Same.pre (dictReadEffect_same ..))
    | simp only [Same.upd]
    | split
    | dsimp only

theorem execJtagDebug_same (dt : Nat) (c : Fin 16) (halt : Bool) (s : State) : ∃ g : Dev → Dev, execJtagDebug dt c halt s = run s dt g ∧ ∀ d, Same d (g d) := by
  refine ⟨_, rfl, fun d => ?_⟩
  repeat' first
    | (with_reducible apply Same.refl)
    | (with_reducible intro _)
    | (with_reducible apply Same.ite)
    | (with_reducible apply Same.pre (debugEffect_same ..))
    | simp only [Same.upd]
    | split
    | dsimp only

theorem execDevreset_safe (dt : Nat) (mode : Fin 8) (s : State) : ∃ g : Dev → Dev, execDevreset dt mode s = run s dt g ∧ ∀ d, Safe d (g d) := by
  refine ⟨_, rfl, fun d => ?_⟩
  repeat' first
    | (with_reducible apply Safe.refl)
    | (with_reducible intro _)
    | (with_reducible apply Safe.ite)
    | (with_reducible apply Safe.pre (devresetEffect_safe ..))
    | simp only [Safe.upd]
    | split
    | dsimp only

theorem execBypass_same (dt : Nat) (s : State) : ∃ g : Dev → Dev, execBypass dt s = run s dt g ∧ ∀ d, Same d (g d) := by
  refine ⟨_, rfl, fun d => ?_⟩
  repeat' first
    | (with_reducible apply Same.refl)
    | (with_reducible intro _)
    | (with_reducible apply Same.ite)
    | (with_reducible apply Same.pre (Dev.bypassed_same ..))
    | simp only [Same.upd]
    | split
    | dsimp only

theorem execReadbackFrame_safe (dt : Nat) (frame : Nat) (find : FrameFind) (lastOfSweep : Bool) (mode : Fin 8) (s : State) : ∃ g : Dev → Dev, execReadbackFrame dt frame find lastOfSweep mode s = run s dt g ∧ ∀ d, Safe d (g d) := by
  refine ⟨_, rfl, fun d => ?_⟩
  repeat' first
    | (with_reducible apply Safe.refl)
    | (with_reducible intro _)
    | (with_reducible apply Safe.ite)
    | (with_reducible apply Safe.pre (readbackEffect_safe ..))
    | simp only [Safe.upd]
    | split
    | dsimp only

theorem execWatchdogExpiry_safe (dt : Nat) (mode : Fin 8) (s : State) : ∃ g : Dev → Dev, execWatchdogExpiry dt mode s = run s dt g ∧ ∀ d, Safe d (g d) := by
  refine ⟨_, rfl, fun d => ?_⟩
  repeat' first
    | (with_reducible apply Safe.refl)
    | (with_reducible intro _)
    | (with_reducible apply Safe.ite)
    | (with_reducible apply Safe.pre (watchdogEffect_safe ..))
    | simp only [Safe.upd]
    | split
    | dsimp only

theorem execFwUpdate_safe (dt : Nat) (og : Origin) (s : State) : ∃ g : Dev → Dev, execFwUpdate dt og s = run s dt g ∧ ∀ d, Safe d (g d) := by
  refine ⟨_, rfl, fun d => ?_⟩
  repeat' first
    | (with_reducible apply Safe.refl)
    | (with_reducible intro _)
    | (with_reducible apply Safe.ite)
    | (with_reducible apply Safe.pre (Dev.write1_safe ..))
    | simp only [Safe.upd]
    | split
    | dsimp only

theorem execReconfigure_safe (dt : Nat) (og : Origin) (s : State) : ∃ g : Dev → Dev, execReconfigure dt og s = run s dt g ∧ ∀ d, Safe d (g d) := by
  refine ⟨_, rfl, fun d => ?_⟩
  repeat' first
    | (with_reducible apply Safe.refl)
    | (with_reducible intro _)
    | (with_reducible apply Safe.ite)
    | (with_reducible apply Safe.pre (Dev.write1_safe ..))
    | simp only [Safe.upd]
    | split
    | dsimp only

theorem execReconfigureDelayExpiry_safe (dt : Nat) (mode : Fin 8) (s : State) : ∃ g : Dev → Dev, execReconfigureDelayExpiry dt mode s = run s dt g ∧ ∀ d, Safe d (g d) := by
  refine ⟨_, rfl, fun d => ?_⟩
  repeat' first
    | (with_reducible apply Safe.refl)
    | (with_reducible intro _)
    | (with_reducible apply Safe.ite)
    | (with_reducible apply Safe.pre (reconfigureDelayEffect_safe ..))
    | simp only [Safe.upd]
    | split
    | dsimp only

theorem execFuseProgram_safe (dt : Nat) (og : Origin) (index : Nat) (sub : Nat) (value : List Byte) (s : State) : ∃ g : Dev → Dev, execFuseProgram dt og index sub value s = run s dt g ∧ ∀ d, Safe d (g d) := by
  refine ⟨_, rfl, fun d => ?_⟩
  repeat' first
    | (with_reducible apply Safe.refl)
    | (with_reducible intro _)
    | (with_reducible apply Safe.ite)
    | (with_reducible apply Safe.pre (Dev.fuseWrite_safe ..))
    | simp only [Safe.upd]
    | split
    | dsimp only

theorem execFuseBurnDone_same (dt : Nat) (ok : Bool) (s : State) : ∃ g : Dev → Dev, execFuseBurnDone dt ok s = run s dt g ∧ ∀ d, Same d (g d) := by
  refine ⟨_, rfl, fun d => ?_⟩
  repeat' first
    | (with_reducible apply Same.refl)
    | (with_reducible intro _)
    | (with_reducible apply Same.ite)
    | (with_reducible apply Same.pre (fuseBurnEffect_same ..))
    | simp only [Same.upd]
    | split
    | dsimp only

theorem execBbramErase_safe (dt : Nat) (og : Origin) (s : State) : ∃ g : Dev → Dev, execBbramErase dt og s = run s dt g ∧ ∀ d, Safe d (g d) := by
  refine ⟨_, rfl, fun d => ?_⟩
  repeat' first
    | (with_reducible apply Safe.refl)
    | (with_reducible intro _)
    | (with_reducible apply Safe.ite)
    | (with_reducible apply Safe.pre (Dev.write1_safe ..))
    | simp only [Safe.upd]
    | split
    | dsimp only

theorem execKeyRevoke_safe (dt : Nat) (og : Origin) (bits : Nat) (s : State) : ∃ g : Dev → Dev, execKeyRevoke dt og bits s = run s dt g ∧ ∀ d, Safe d (g d) := by
  refine ⟨_, rfl, fun d => ?_⟩
  repeat' first
    | (with_reducible apply Safe.refl)
    | (with_reducible intro _)
    | (with_reducible apply Safe.ite)
    | (with_reducible apply Safe.pre (Dev.write1_safe ..))
    | simp only [Safe.upd]
    | split
    | dsimp only

theorem execVbatLoss_same (dt : Nat) (s : State) : ∃ g : Dev → Dev, execVbatLoss dt s = run s dt g ∧ ∀ d, Same d (g d) := by
  refine ⟨_, rfl, fun d => ?_⟩
  repeat' first
    | (with_reducible apply Same.refl)
    | (with_reducible intro _)
    | (with_reducible apply Same.ite)
    | (with_reducible apply Same.pre (vbatEffect_same ..))
    | simp only [Same.upd]
    | split
    | dsimp only

theorem execEntropyHealthFailure_same (dt : Nat) (s : State) : ∃ g : Dev → Dev, execEntropyHealthFailure dt s = run s dt g ∧ ∀ d, Same d (g d) := by
  refine ⟨_, rfl, fun d => ?_⟩
  repeat' first
    | (with_reducible apply Same.refl)
    | (with_reducible intro _)
    | (with_reducible apply Same.ite)
    | (with_reducible apply Same.pre (entropyFailEffect_same ..))
    | simp only [Same.upd]
    | split
    | dsimp only

theorem execDuaxisFrameError_same (dt : Nat) (edge : Fin 18) (dir : Fin 2) (bundle : Fin 64) (wire : Option (Fin 34)) (bothCopies : Bool) (s : State) : ∃ g : Dev → Dev, execDuaxisFrameError dt edge dir bundle wire bothCopies s = run s dt g ∧ ∀ d, Same d (g d) := by
  refine ⟨_, rfl, fun d => ?_⟩
  repeat' first
    | (with_reducible apply Same.refl)
    | (with_reducible intro _)
    | (with_reducible apply Same.ite)
    | (with_reducible apply Same.pre (frameErrorEffect_same ..))
    | simp only [Same.upd]
    | split
    | dsimp only

theorem execDuaxisTraining_same (dt : Nat) (errs : List (Fin 18 × Fin 2 × Fin 64 × Fin 34)) (fuseRepairs : List (Fin 18 × Fin 2 × Fin 64 × Fin 34)) (s : State) : ∃ g : Dev → Dev, execDuaxisTraining dt errs fuseRepairs s = run s dt g ∧ ∀ d, Same d (g d) := by
  refine ⟨_, rfl, fun d => ?_⟩
  repeat' first
    | (with_reducible apply Same.refl)
    | (with_reducible intro _)
    | (with_reducible apply Same.ite)
    | (with_reducible apply Same.pre (duaxisTrainingEffect_same ..))
    | simp only [Same.upd]
    | split
    | dsimp only

theorem execAvsStep_same (dt : Nat) (answered : Bool) (s : State) : ∃ g : Dev → Dev, execAvsStep dt answered s = run s dt g ∧ ∀ d, Same d (g d) := by
  refine ⟨_, rfl, fun d => ?_⟩
  repeat' first
    | (with_reducible apply Same.refl)
    | (with_reducible intro _)
    | (with_reducible apply Same.ite)
    | (with_reducible apply Same.pre (avsEffect_same ..))
    | simp only [Same.upd]
    | split
    | dsimp only

theorem execRailFault_safe (dt : Nat) (rail : Fin 10) (mode : Fin 8) (s : State) : ∃ g : Dev → Dev, execRailFault dt rail mode s = run s dt g ∧ ∀ d, Safe d (g d) := by
  refine ⟨_, rfl, fun d => ?_⟩
  repeat' first
    | (with_reducible apply Safe.refl)
    | (with_reducible intro _)
    | (with_reducible apply Safe.ite)
    | (with_reducible apply Safe.pre (railEffect_safe ..))
    | simp only [Safe.upd]
    | split
    | dsimp only

theorem execPowerFailWarning_same (dt : Nat) (s : State) : ∃ g : Dev → Dev, execPowerFailWarning dt s = run s dt g ∧ ∀ d, Same d (g d) := by
  refine ⟨_, rfl, fun d => ?_⟩
  repeat' first
    | (with_reducible apply Same.refl)
    | (with_reducible intro _)
    | (with_reducible apply Same.ite)
    | (with_reducible apply Same.pre (failWarnEffect_same ..))
    | simp only [Same.upd]
    | split
    | dsimp only

theorem execPowerFailClear_same (dt : Nat) (s : State) : ∃ g : Dev → Dev, execPowerFailClear dt s = run s dt g ∧ ∀ d, Same d (g d) := by
  refine ⟨_, rfl, fun d => ?_⟩
  repeat' first
    | (with_reducible apply Same.refl)
    | (with_reducible intro _)
    | (with_reducible apply Same.ite)
    | (with_reducible apply Same.pre (failClearEffect_same ..))
    | simp only [Same.upd]
    | split
    | dsimp only

theorem execDiePowerSample_same (dt : Nat) (die : Fin 10) (mw : Nat) (s : State) : ∃ g : Dev → Dev, execDiePowerSample dt die mw s = run s dt g ∧ ∀ d, Same d (g d) := by
  refine ⟨_, rfl, fun d => ?_⟩
  repeat' first
    | (with_reducible apply Same.refl)
    | (with_reducible intro _)
    | (with_reducible apply Same.ite)
    | (with_reducible apply Same.pre (diePowerEffect_same ..))
    | simp only [Same.upd]
    | split
    | dsimp only

theorem execDomainOn_safe (dt : Nat) (og : Origin) (n : Fin 60) (s : State) : ∃ g : Dev → Dev, execDomainOn dt og n s = run s dt g ∧ ∀ d, Safe d (g d) := by
  refine ⟨_, rfl, fun d => ?_⟩
  repeat' first
    | (with_reducible apply Safe.refl)
    | (with_reducible intro _)
    | (with_reducible apply Safe.ite)
    | (with_reducible apply Safe.pre (Dev.write1_safe ..))
    | simp only [Safe.upd]
    | split
    | dsimp only

theorem execDomainOff_safe (dt : Nat) (og : Origin) (n : Fin 60) (s : State) : ∃ g : Dev → Dev, execDomainOff dt og n s = run s dt g ∧ ∀ d, Safe d (g d) := by
  refine ⟨_, rfl, fun d => ?_⟩
  repeat' first
    | (with_reducible apply Safe.refl)
    | (with_reducible intro _)
    | (with_reducible apply Safe.ite)
    | (with_reducible apply Safe.pre (Dev.write1_safe ..))
    | simp only [Safe.upd]
    | split
    | dsimp only

theorem execDomainSwitchDone_safe (dt : Nat) (n : Fin 60) (s : State) : ∃ g : Dev → Dev, execDomainSwitchDone dt n s = run s dt g ∧ ∀ d, Safe d (g d) := by
  refine ⟨_, rfl, fun d => ?_⟩
  repeat' first
    | (with_reducible apply Safe.refl)
    | (with_reducible intro _)
    | (with_reducible apply Safe.ite)
    | (with_reducible apply Safe.pre (switchDoneEffect_safe ..))
    | simp only [Safe.upd]
    | split
    | dsimp only

theorem execDomainSwitchTimeout_same (dt : Nat) (n : Fin 60) (s : State) : ∃ g : Dev → Dev, execDomainSwitchTimeout dt n s = run s dt g ∧ ∀ d, Same d (g d) := by
  refine ⟨_, rfl, fun d => ?_⟩
  repeat' first
    | (with_reducible apply Same.refl)
    | (with_reducible intro _)
    | (with_reducible apply Same.ite)
    | (with_reducible apply Same.pre (switchLateEffect_same ..))
    | simp only [Same.upd]
    | split
    | dsimp only

theorem execDomainDroop_same (dt : Nat) (n : Fin 60) (s : State) : ∃ g : Dev → Dev, execDomainDroop dt n s = run s dt g ∧ ∀ d, Same d (g d) := by
  refine ⟨_, rfl, fun d => ?_⟩
  repeat' first
    | (with_reducible apply Same.refl)
    | (with_reducible intro _)
    | (with_reducible apply Same.ite)
    | (with_reducible apply Same.pre (droopEffect_same ..))
    | simp only [Same.upd]
    | split
    | dsimp only

theorem execThermalSample_same (dt : Nat) (sensors : List (Fin 10 × Fin 9 × Int)) (hbms : List (Fin 8 × Int)) (dimms : List (Fin 8 × Int)) (s : State) : ∃ g : Dev → Dev, execThermalSample dt sensors hbms dimms s = run s dt g ∧ ∀ d, Same d (g d) := by
  refine ⟨_, rfl, fun d => ?_⟩
  repeat' first
    | (with_reducible apply Same.refl)
    | (with_reducible intro _)
    | (with_reducible apply Same.ite)
    | (with_reducible apply Same.pre (thermalEffect_same ..))
    | simp only [Same.upd]
    | split
    | dsimp only

theorem execAgeingSample_same (dt : Nat) (s : State) : ∃ g : Dev → Dev, execAgeingSample dt s = run s dt g ∧ ∀ d, Same d (g d) := by
  refine ⟨_, rfl, fun d => ?_⟩
  repeat' first
    | (with_reducible apply Same.refl)
    | (with_reducible intro _)
    | (with_reducible apply Same.ite)
    | (with_reducible apply Same.pre (ageingSampleEffect_same ..))
    | simp only [Same.upd]
    | split
    | dsimp only

theorem execMarginMeasure_same (dt : Nat) (monitors : List (Fin 10 × Fin 9 × Nat)) (s : State) : ∃ g : Dev → Dev, execMarginMeasure dt monitors s = run s dt g ∧ ∀ d, Same d (g d) := by
  refine ⟨_, rfl, fun d => ?_⟩
  repeat' first
    | (with_reducible apply Same.refl)
    | (with_reducible intro _)
    | (with_reducible apply Same.ite)
    | (with_reducible apply Same.pre (marginEffect_same ..))
    | simp only [Same.upd]
    | split
    | dsimp only

theorem execWeeklyHistory_same (dt : Nat) (s : State) : ∃ g : Dev → Dev, execWeeklyHistory dt s = run s dt g ∧ ∀ d, Same d (g d) := by
  refine ⟨_, rfl, fun d => ?_⟩
  repeat' first
    | (with_reducible apply Same.refl)
    | (with_reducible intro _)
    | (with_reducible apply Same.ite)
    | (with_reducible apply Same.pre (weeklyEffect_same ..))
    | simp only [Same.upd]
    | split
    | dsimp only

theorem execPoweredTimePersist_same (dt : Nat) (s : State) : ∃ g : Dev → Dev, execPoweredTimePersist dt s = run s dt g ∧ ∀ d, Same d (g d) := by
  refine ⟨_, rfl, fun d => ?_⟩
  repeat' first
    | (with_reducible apply Same.refl)
    | (with_reducible intro _)
    | (with_reducible apply Same.ite)
    | (with_reducible apply Same.pre (poweredTimeEffect_same ..))
    | simp only [Same.upd]
    | split
    | dsimp only

theorem execSliceDue_same (dt : Nat) (unit : Fin 16) (inst : Nat) (s : State) : ∃ g : Dev → Dev, execSliceDue dt unit inst s = run s dt g ∧ ∀ d, Same d (g d) := by
  refine ⟨_, rfl, fun d => ?_⟩
  repeat' first
    | (with_reducible apply Same.refl)
    | (with_reducible intro _)
    | (with_reducible apply Same.ite)
    | (with_reducible apply Same.pre (sliceDueEffect_same ..))
    | simp only [Same.upd]
    | split
    | dsimp only

theorem execHandshakeAck_same (dt : Nat) (unit : Fin 16) (inst : Nat) (s : State) : ∃ g : Dev → Dev, execHandshakeAck dt unit inst s = run s dt g ∧ ∀ d, Same d (g d) := by
  refine ⟨_, rfl, fun d => ?_⟩
  repeat' first
    | (with_reducible apply Same.refl)
    | (with_reducible intro _)
    | (with_reducible apply Same.ite)
    | (with_reducible apply Same.pre (handshakeEffect_same ..))
    | simp only [Same.upd]
    | split
    | dsimp only

theorem execHandshakeTimeout_same (dt : Nat) (unit : Fin 16) (inst : Nat) (s : State) : ∃ g : Dev → Dev, execHandshakeTimeout dt unit inst s = run s dt g ∧ ∀ d, Same d (g d) := by
  refine ⟨_, rfl, fun d => ?_⟩
  repeat' first
    | (with_reducible apply Same.refl)
    | (with_reducible intro _)
    | (with_reducible apply Same.ite)
    | (with_reducible apply Same.pre (handshakeLateEffect_same ..))
    | simp only [Same.upd]
    | split
    | dsimp only

theorem execDeferralRetry_same (dt : Nat) (unit : Fin 16) (inst : Nat) (s : State) : ∃ g : Dev → Dev, execDeferralRetry dt unit inst s = run s dt g ∧ ∀ d, Same d (g d) := by
  refine ⟨_, rfl, fun d => ?_⟩
  repeat' first
    | (with_reducible apply Same.refl)
    | (with_reducible intro _)
    | (with_reducible apply Same.ite)
    | (with_reducible apply Same.pre (retryEffect_same ..))
    | simp only [Same.upd]
    | split
    | dsimp only

theorem execSliceEnd_same (dt : Nat) (unit : Fin 16) (inst : Nat) (signature : Nat) (s : State) : ∃ g : Dev → Dev, execSliceEnd dt unit inst signature s = run s dt g ∧ ∀ d, Same d (g d) := by
  refine ⟨_, rfl, fun d => ?_⟩
  repeat' first
    | (with_reducible apply Same.refl)
    | (with_reducible intro _)
    | (with_reducible apply Same.ite)
    | (with_reducible apply Same.pre (sliceEndEffect_same ..))
    | simp only [Same.upd]
    | split
    | dsimp only

theorem execRunNow_safe (dt : Nat) (og : Origin) (unit : Fin 16) (inst : Nat) (s : State) : ∃ g : Dev → Dev, execRunNow dt og unit inst s = run s dt g ∧ ∀ d, Safe d (g d) := by
  refine ⟨_, rfl, fun d => ?_⟩
  repeat' first
    | (with_reducible apply Safe.refl)
    | (with_reducible intro _)
    | (with_reducible apply Safe.ite)
    | (with_reducible apply Safe.pre (Dev.commitNow_safe ..))
    | simp only [Safe.upd]
    | split
    | dsimp only

theorem execClearPermanent_safe (dt : Nat) (og : Origin) (dies : Nat) (s : State) : ∃ g : Dev → Dev, execClearPermanent dt og dies s = run s dt g ∧ ∀ d, Safe d (g d) := by
  refine ⟨_, rfl, fun d => ?_⟩
  repeat' first
    | (with_reducible apply Safe.refl)
    | (with_reducible intro _)
    | (with_reducible apply Safe.ite)
    | (with_reducible apply Safe.pre (Dev.write1_safe ..))
    | simp only [Safe.upd]
    | split
    | dsimp only

theorem execClearSuspect_safe (dt : Nat) (og : Origin) (edge : Fin 18) (dir : Fin 2) (bundle : Fin 64) (s : State) : ∃ g : Dev → Dev, execClearSuspect dt og edge dir bundle s = run s dt g ∧ ∀ d, Safe d (g d) := by
  refine ⟨_, rfl, fun d => ?_⟩
  repeat' first
    | (with_reducible apply Safe.refl)
    | (with_reducible intro _)
    | (with_reducible apply Safe.ite)
    | (with_reducible apply Safe.pre (Dev.commitNow_safe ..))
    | simp only [Safe.upd]
    | split
    | dsimp only

theorem execPerstAssert_same (dt : Nat) (s : State) : ∃ g : Dev → Dev, execPerstAssert dt s = run s dt g ∧ ∀ d, Same d (g d) := by
  refine ⟨_, rfl, fun d => ?_⟩
  repeat' first
    | (with_reducible apply Same.refl)
    | (with_reducible intro _)
    | (with_reducible apply Same.ite)
    | (with_reducible apply Same.pre (perstAssertEffect_same ..))
    | simp only [Same.upd]
    | split
    | dsimp only

theorem execPerstReleaseExpiry_same (dt : Nat) (q : Fin 36) (s : State) : ∃ g : Dev → Dev, execPerstReleaseExpiry dt q s = run s dt g ∧ ∀ d, Same d (g d) := by
  refine ⟨_, rfl, fun d => ?_⟩
  repeat' first
    | (with_reducible apply Same.refl)
    | (with_reducible intro _)
    | (with_reducible apply Same.ite)
    | (with_reducible apply Same.pre (perstReleaseEffect_same ..))
    | simp only [Same.upd]
    | split
    | dsimp only

theorem execPcieLinkUp_safe (dt : Nat) (q : Fin 36) (speed : Fin 7) (width : Nat) (s : State) : ∃ g : Dev → Dev, execPcieLinkUp dt q speed width s = run s dt g ∧ ∀ d, Safe d (g d) := by
  refine ⟨_, rfl, fun d => ?_⟩
  repeat' first
    | (with_reducible apply Safe.refl)
    | (with_reducible intro _)
    | (with_reducible apply Safe.ite)
    | (with_reducible apply Safe.pre (linkUpEffect_safe ..))
    | simp only [Safe.upd]
    | split
    | dsimp only

theorem execControllerReady_safe (dt : Nat) (c : Fin 64) (rdy : Option Bool) (s : State) : ∃ g : Dev → Dev, execControllerReady dt c rdy s = run s dt g ∧ ∀ d, Safe d (g d) := by
  refine ⟨_, rfl, fun d => ?_⟩
  repeat' first
    | (with_reducible apply Safe.refl)
    | (with_reducible intro _)
    | (with_reducible apply Safe.ite)
    | (with_reducible apply Safe.pre (ctlReadyEffect_safe ..))
    | simp only [Safe.upd]
    | split
    | dsimp only

theorem execDramTrainingDone_same (dt : Nat) (ok : List (Fin 136)) (dimms : List DimmSet) (s : State) : ∃ g : Dev → Dev, execDramTrainingDone dt ok dimms s = run s dt g ∧ ∀ d, Same d (g d) := by
  refine ⟨_, rfl, fun d => ?_⟩
  repeat' first
    | (with_reducible apply Same.refl)
    | (with_reducible intro _)
    | (with_reducible apply Same.ite)
    | (with_reducible apply Same.pre (dramTrainingEffect_same ..))
    | simp only [Same.upd]
    | split
    | dsimp only

theorem execPllLockTimeout_same (dt : Nat) (s : State) : ∃ g : Dev → Dev, execPllLockTimeout dt s = run s dt g ∧ ∀ d, Same d (g d) := by
  refine ⟨_, rfl, fun d => ?_⟩
  repeat' first
    | (with_reducible apply Same.refl)
    | (with_reducible intro _)
    | (with_reducible apply Same.ite)
    | (with_reducible apply Same.pre (pllLockTimeoutEffect_same ..))
    | simp only [Same.upd]
    | split
    | dsimp only

theorem execClockReturn_same (dt : Nat) (src : Fin 5) (s : State) : ∃ g : Dev → Dev, execClockReturn dt src s = run s dt g ∧ ∀ d, Same d (g d) := by
  refine ⟨_, rfl, fun d => ?_⟩
  repeat' first
    | (with_reducible apply Same.refl)
    | (with_reducible intro _)
    | (with_reducible apply Same.ite)
    | (with_reducible apply Same.pre (clockReturnEffect_same ..))
    | simp only [Same.upd]
    | split
    | dsimp only

theorem execEntropyHealthPass_same (dt : Nat) (s : State) : ∃ g : Dev → Dev, execEntropyHealthPass dt s = run s dt g ∧ ∀ d, Same d (g d) := by
  refine ⟨_, rfl, fun d => ?_⟩
  repeat' first
    | (with_reducible apply Same.refl)
    | (with_reducible intro _)
    | (with_reducible apply Same.ite)
    | (with_reducible apply Same.pre (entropyPassEffect_same ..))
    | simp only [Same.upd]
    | split
    | dsimp only

theorem execPerstDeassert_same (dt : Nat) (s : State) : ∃ g : Dev → Dev, execPerstDeassert dt s = run s dt g ∧ ∀ d, Same d (g d) := by
  refine ⟨_, rfl, fun d => ?_⟩
  repeat' first
    | (with_reducible apply Same.refl)
    | (with_reducible intro _)
    | (with_reducible apply Same.ite)
    | (with_reducible apply Same.pre (perstDeassertEffect_same ..))
    | simp only [Same.upd]
    | split
    | dsimp only

theorem execFabricShadowAck_same (dt : Nat) (index : Nat) (sub : Nat) (s : State) : ∃ g : Dev → Dev, execFabricShadowAck dt index sub s = run s dt g ∧ ∀ d, Same d (g d) := by
  refine ⟨_, rfl, fun d => ?_⟩
  repeat' first
    | (with_reducible apply Same.refl)
    | (with_reducible intro _)
    | (with_reducible apply Same.ite)
    | (with_reducible apply Same.pre (shadowAckEffect_same ..))
    | simp only [Same.upd]
    | split
    | dsimp only

end Sys2Proof.Machine
end

