-- ==== Sys2Proof/Laws/Pass.lean ====
section
/-! SUPPORT. What the passing of time keeps: the contents of memory and the map of objects stay, the time and the count go on by what has
passed. -/

set_option Elab.async false
set_option linter.unusedTactic false
set_option linter.unreachableTactic false

namespace Sys2Proof.Machine

/-- Everything that `Dev.pass` can do to the memory, the time, the count, the free values and the objects' map. -/
theorem Dev.pass_spec (d : Dev) (dt : Nat) :
    (d.pass dt).mem.cells = d.mem.cells ∧ (d.pass dt).ns = d.ns + dt ∧
    (d.pass dt).count = (if dt = 0 then d.count else (d.count + 4 * dt) % 2 ^ 64) ∧ d.free ≤ (d.pass dt).free ∧
    (SMap.sorted d.objs = true → SMap.sorted (d.pass dt).objs = true) := by
  unfold Dev.pass
  split
  · rename_i h
    exact ⟨rfl, by rw [h]; rfl, rfl, Nat.le_refl _, id⟩
  · have h1 := Dev.endNs_same d
    have h2 := ((Dev.fabricPass_same (d.endNs.tick dt) d.ns dt).trans (Dev.carryOn_same dt _)).trans ((Dev.releaseAll_same _).trans (Dev.carryOn_same dt _))
    refine ⟨h2.cells.trans h1.cells, ?_, ?_, Nat.le_trans h1.free h2.free, fun w => h2.objs (h1.objs w)⟩
    · rw [h2.ns]
      exact congrArg (· + dt) h1.ns
    · rw [h2.count]
      exact congrArg (fun n => (n + 4 * dt) % 2 ^ 64) h1.count

@[simp] theorem Dev.pass_cells (d : Dev) (dt : Nat) : (d.pass dt).mem.cells = d.mem.cells := (d.pass_spec dt).1

@[simp] theorem Dev.pass_ns (d : Dev) (dt : Nat) : (d.pass dt).ns = d.ns + dt := (d.pass_spec dt).2.1

/-- The count after some time (R13, R14). -/
theorem Dev.pass_count (d : Dev) (dt : Nat) (h : d.count < 2 ^ 64) : (d.pass dt).count = (d.count + 4 * dt) % 2 ^ 64 := by
  rw [(d.pass_spec dt).2.2.1]
  split
  · rename_i h0
    rw [h0]
    exact (Nat.mod_eq_of_lt h).symm
  · rfl

end Sys2Proof.Machine
end

