-- ==== Sys2Proof/Machine/Package.lean ====
section
/-! DEFINITION. The package as tables and functions: what the fabric holds, clock sources, domains and their crossings, configuration sources, dies
and Duaxis allocations, balls, rails, and what the pins show (R333, R334, R345, R346, R352 to R354, R358, R359, R362 to R364, R369, R370, R386 to
R393, R405, R408, R411, R413, R440 to R449). Nothing here changes the state: the commands do. -/

set_option Elab.async false

namespace Sys2Proof.Machine

/-! Fabric resources (R333, R334). -/

/-- Cells, clusters, RAM blocks and multiply-accumulate blocks of a number of regions: 1 a region, 36 a quadrant, 144 a die, 1,152 the package. -/
def fabricHolds (regions : Nat) : List Nat := [32768, 2048, 32, 48].map (fun n => regions * n)

/-- Frequency limits of a speed grade, in MHz: spine clock, RAM block port, multiply-accumulate block, fabric PLL output. -/
def gradeLimits (g : Nat) : List Nat := [400 + 100 * g, 400 + 100 * g, 350 + 100 * g, 600 + 200 * g]

/-! Clock sources (R352, R353, R358, R359). Sources are numbered 0 FOSC, 1 SOSC, 2 XA, 3 XB, 4 REF10M_IN. -/

/-- Consecutive cycles after which a source is STABLE (table "Clock sources"). -/
def stableCycles (i : Nat) : Nat := [4096, 256, 65536, 65536, 65536].getD i 65536

/-- Nominal frequency of a source in Hz, and its tolerance in parts per million. -/
def Dev.sourceNominal (d : Dev) (i : Nat) : Nat × Nat :=
  match i with
  | 0 => (200000000, 30000)
  | 1 => (32768, 50000)
  | 2 => (1000 * ((SMap.find d.inForce (O.clockXaFreq.key 0 0 0)).getD (.num 25000)).nat, 50)
  | 3 => (1000 * ((SMap.find d.inForce (O.clockXbFreq.key 0 0 0)).getD (.num 25000)).nat, 50)
  | _ => (10000000, 10)

/-- A monitor takes a clock as missing: no edge for 8 nominal periods, or a count over 1,024 nominal periods that differs by more than 10 % (R358). -/
def clockGone (silent edges : Nat) : Bool := 8 ≤ silent || edges * 10 < 9 * 1024 || 11 * 1024 < edges * 10

/-- The frequency at which AON logic and the monitors run, in kHz: FOSC, or where it is missing the ION network clock divided by 8 (R359). -/
def Dev.aonKhz (d : Dev) : Nat := if d.src 0 = 3 then 1600000 / 8 else 200000

/-- The clock of the powered-time count and its divider: SOSC, or where it is missing FOSC divided by 6,104 (R352, R359). -/
def Dev.poweredClock (d : Dev) : Nat × Nat := if d.src 1 = 3 then (0, 6104) else (1, 1)

/-- Time within which a system PLL locks, in µs, in the order of Clock.PllStatus (R354). -/
def lockTime (i : Nat) : Nat := if i < 2 then 200 else 100

/-! Clock domains and crossings (R362 to R364). -/

/-- Flip-flops of a synchroniser into a domain of a frequency in MHz. -/
def syncStages (mhz : Nat) : Nat := if 1000 ≤ mhz then 3 else 2

/-- The most that a dual-clock FIFO takes between two domains, in ns times their frequencies' product in MHz over 1,000: one source period and S + 1
destination periods. -/
def fifoBound (src dst : Nat) : Nat := dst + (syncStages dst + 1) * src

/-- Bounds of the table "Crossing latency" in picoseconds, `p` being the parallel or fabric period of the other side. -/
inductive Crossing
  | rxNet | netTime | timeNet | fabNet | netFab | eventTime | applyFab | netDdr | netHbm | hbmNet | hostNet | netHost | vaneNet | netVane | aonNet | netAon
deriving DecidableEq, Repr

/-- The bound of a crossing (R364). -/
def Crossing.bound (x : Crossing) (p : Nat) : Nat :=
  match x with
  | .rxNet | .fabNet => p + 2500
  | .netTime | .netHost => 4625
  | .timeNet | .hostNet => 3500
  | .netFab => 625 + 3 * p
  | .eventTime => 8000
  | .applyFab => 4000
  | .netDdr => 3125
  | .netHbm => 3959
  | .hbmNet => 3334
  | .vaneNet => 8707
  | .netVane => 19244
  | .aonNet => 7500
  | .netAon => 15625

/-- Fixed domains, in kHz: TIME, NET, DDR, HBM, HOST, VANE at 10GBASE-R, AON. -/
def domainKhz : List Nat := [1000000, 1600000, 1600000, 1200000, 1000000, 161133, 200000]

/-! Dies (R386). Dies 0 to 7 are F0 to F7, 8 ION, 9 IOS, and 10 + h the stack Hh. -/

/-- Size of a die, east to west and north to south, in tenths of a millimetre. -/
def dieSize (x : Nat) : Nat × Nat := if x < 8 then (140, 240) else if x < 10 then (560, 100) else (110, 110)

/-- Centre of a die from the package centre, to the east and to the north, in tenths of a millimetre. -/
def dieCentre (x : Nat) : Int × Int :=
  if x < 8 then (140 * (x % 4 : Nat) - 210, if x < 4 then 120 else -120)
  else if x = 8 then (0, 290) else if x = 9 then (0, -290)
  else
    let h := x - 10
    (if h / 2 % 2 = 0 then -345 else 345, (if h < 4 then 180 else -60) - 120 * (h % 2 : Nat))

/-- Thermal resistance of a die to the lid top, in hundredths of a degree per watt. -/
def dieTheta (x : Nat) : Nat := if x < 8 then 10 else if x < 10 then 12 else 45

/-- Two logic dies share a Duaxis edge. -/
def diesMeet (x y : Nat) : Bool := (upTo 18).any (fun e => edgeDies e == (x, y) || edgeDies e == (y, x))

/-- The end die of a stack (R387, R388). -/
def stackDie (h : Nat) : Nat := [0, 0, 3, 3, 4, 4, 7, 7].getD h 0

/-! Duaxis allocations (R389 to R393). -/

/-- What a bundle of an edge carries. -/
inductive Alloc
  | noc | control | quad | user | absent
deriving DecidableEq, Repr

/-- The allocation of a bundle (table "Duaxis edge budget"). -/
def bundleAlloc (edge b : Nat) : Alloc :=
  if edgeBundles edge ≤ b then .absent
  else if b < 12 then .noc
  else if edgeControl edge && b < 14 then .control
  else if edge < 8 then .quad else .user

/-- Payload of an allocation of an edge in each direction, in tenths of GB/s: 62.5 GB/s a bundle, the control allocation duplicated. -/
def allocRate (edge : Nat) (a : Alloc) : Nat :=
  let n := ((upTo 64).filter (fun b => bundleAlloc edge b == a)).length
  if a = .control then 625 * (n / 2) else 625 * n

/-- Bounds on a user port's latency in tenths of a ns, from a source and a destination period in tenths of a ns (table "Duaxis latency"). -/
def crossBound (same : Bool) (src dst : Nat) : Nat := if same then 120 + 2 * dst else 120 + src + 3 * dst

/-! Balls (R405, R441 to R443). Rows are numbered from 1 at the north. -/

/-- The row alphabet. -/
def rowLetters : List Char := ['A', 'B', 'C', 'D', 'E', 'F', 'G', 'H', 'J', 'K', 'L', 'M', 'N', 'P', 'T', 'U', 'V', 'W', 'Y']

/-- Name of a row. -/
def rowName (r : Nat) : List Char :=
  if r ≤ 19 then (rowLetters.drop (r - 1)).take 1 else (rowLetters.drop ((r - 20) / 19)).take 1 ++ (rowLetters.drop ((r - 20) % 19)).take 1

/-- The row of a name. -/
def rowOf (name : List Char) : Nat := ((upTo 101).find? (fun r => r != 0 && rowName r == name)).getD 0

/-- A position of the grid carries a ball. -/
def ballAt (row col : Nat) : Bool :=
  1 ≤ row && row ≤ 100 && 1 ≤ col && col ≤ 100 && !((row == 1 || row == 100) && (col == 1 || col == 100)) &&
  !(rowOf ['B', 'F'] ≤ row && row ≤ rowOf ['B', 'Y'] && 44 ≤ col && col ≤ 57)

/-- Balls of each kind (table "Ball count"): signals, the supplies in the order of the table "Supply rails", ground, reserved. -/
def ballCounts : List Nat := [2110, 1800, 220, 80, 30, 16, 8, 150, 300, 8, 10, 32, 1, 5000, 35]

/-- Balls of a lane: the row and the positive column of its receive pair, then of its transmit pair (R442). -/
def laneBalls (n : Nat) : (Nat × Nat) × (Nat × Nat) :=
  let north := n < 72
  let m := if north then n else n - 72
  let col := 10 + 2 * (m % 36)
  let s := m / 36
  if north then ((rowOf (if s = 0 then ['B'] else ['D']), col), (rowOf (if s = 0 then ['F'] else ['H']), col))
  else ((rowOf (if s = 0 then ['E', 'D'] else ['E', 'B']), col), (rowOf (if s = 0 then ['D', 'Y'] else ['D', 'V']), col))

/-- The positive ball of a quad's reference (R443). -/
def refBall (q : Nat) : Nat × Nat := if q < 18 then (rowOf ['K'], 10 + 2 * q) else (rowOf ['D', 'T'], 10 + 2 * (q - 18))

/-- The ball of GPIOb_i. -/
def gpioBall (b i : Nat) : Nat × Nat :=
  if b < 4 then (rowOf (if i < 12 then ['M'] else ['N']), 14 + 20 * b + i % 12)
  else (rowOf (if i < 12 then ['D', 'N'] else ['D', 'M']), 14 + 20 * (b - 4) + i % 12)

/-- The ball of PERST_N[q]. -/
def perstBall (q : Nat) : Nat × Nat := if q < 18 then (rowOf ['T'], 14 + q) else (rowOf ['D', 'K'], 14 + (q - 18))

/-- The first ball of a signal list that lies in row P, and of the Vane ports: configuration, clock and time, control, JTAG, sense, Vane A, Vane B. -/
def groupBall (g : Nat) : Nat × Nat :=
  match g with
  | 0 => (rowOf ['P'], 14) | 1 => (rowOf ['P'], 40) | 2 => (rowOf ['P'], 50) | 3 => (rowOf ['P'], 60) | 4 => (rowOf ['P'], 70)
  | 5 => (rowOf ['K'], 84) | _ => (rowOf ['K'], 90)

/-! Rails (R408, R411, R413, R448, R449). Rails are numbered from 1 VCC_FAB to 10 VCC_AUX. -/

/-- Nominal voltage of a rail in mV; VCC_FAB follows the setpoint once AVS has taken control. -/
def Dev.railNominal (d : Dev) (r : Nat) : Nat :=
  if r = 1 then d.nat O.powerAvsSetpoint else [0, 720, 750, 900, 1200, 1100, 1800, 1100, 400, 750, 1800].getD r 0

/-- Maximum current of a rail, in A. -/
def railCurrent (r : Nat) : Nat := [0, 1560, 180, 60, 20, 10, 5, 120, 245, 4, 6].getD r 0

/-- A rail lies in the window that the device monitors (R411). -/
def Dev.railGood (d : Dev) (r mv : Nat) : Bool := 93 * d.railNominal r ≤ 100 * mv && 100 * mv ≤ 107 * d.railNominal r

/-- Recommended range of a rail, in mV (R449). -/
def Dev.railRange (d : Dev) (r : Nat) : Nat × Nat :=
  if r = 1 then (d.railNominal 1 - 20, d.railNominal 1 + 20)
  else [(0, 0), (0, 0), (728, 772), (873, 927), (1164, 1236), (1067, 1133), (1746, 1854), (1067, 1133), (388, 412), (728, 772), (1746, 1854)].getD r (0, 0)

/-- Absolute maximum of a rail, in mV (R448). -/
def railMaximum (r : Nat) : Nat := [0, 900, 900, 1050, 1400, 1300, 2000, 1300, 500, 900, 2000].getD r 0

/-- Power budget in W: fabric dies, I/O dies, stacks, and the rest (R413). -/
def powerBudget : List (Nat × Nat) := [(8, 140), (2, 110), (8, 30), (1, 20)]

/-! Configuration sources (R369, R370). -/

/-- The flash address of the first byte of image A (0) or B (1). -/
def imageBase (i : Nat) : Nat := i * 2 ^ 31

/-- The chip select that serves a flash address, and the address on that device: 1 GiB each. -/
def flashSelect (a : Nat) : Nat × Nat := (a / 2 ^ 30 % 4, a % 2 ^ 30)

/-- What a read of 8 bytes of BAR4 gives (table "BAR4 layout"): LOAD_STATUS, LOAD_CREDIT, LOAD_BYTES; reserved offsets and LOAD_CONTROL, which is
write-only, read zero. -/
def Dev.bar4 (d : Dev) (offset : Nat) : Nat :=
  match offset with
  | 0 => d.nat O.configState + 256 * d.nat O.configFault
  | 8 => d.boot.credit / 8 * 8
  | 0x18 => d.boot.loaded
  | _ => 0

/-! Pins (R345, R346, R440, R444 to R446). -/

/-- What the device does with a ball. -/
inductive PinNow
  | low
  | released
  | highZ (pull : Nat)
  | set (cfg : PinCfg)
deriving DecidableEq, Repr

/-- A general-purpose pin: at high impedance with its pull-up until start-up has released the outputs; an output at high impedance with its
termination kept in Integrity Halt, after a thermal trip, and while its bank is out of range (R206, R345, R346, R446). A pin that the stream does
not set stays as it is at reset. -/
def Dev.gpio (d : Dev) (b i : Nat) : PinNow :=
  match d.boot.cfg with
  | none => .highZ 1
  | some c =>
    match c.pins.find? (fun p => p.bank.val == b && p.pin.val == i) with
    | none => .highZ 1
    | some p =>
      if !d.boot.outputs then .highZ 1
      else if p.dir != 0 && (d.stopped || d.nat O.fabricBankStatus 0 0 b == 2) then .highZ p.pull
      else .set p

/-- DONE: released in RUNNING, low otherwise (R368). -/
def Dev.donePin (d : Dev) : PinNow := if d.boot.done && d.nat O.configState = 4 then .released else .low

/-- HALT_N: low in Integrity Halt only (R446). -/
def Dev.haltPin (d : Dev) : PinNow := if d.halted then .low else .released

/-- THERM_TRIP_N: latched low by a trip (R446). -/
def Dev.tripPinNow (d : Dev) : PinNow := if d.power.tripPin then .low else .released

/-- PERST_N[q]: low on a Storage quad until it is released, at high impedance on any other role; the input of the endpoint on Q00 (R444). -/
def Dev.perstPin (d : Dev) (q : Nat) : PinNow :=
  if d.role q = 4 then (if d.pins.released.contains q then .released else .low) else .highZ 0

end Sys2Proof.Machine
end

