-- ==== Sys2Proof/Tests/Slice0.lean ====
section
/-! SUPPORT. Tests: ill-formed terms that WellFormed refuses, states and operands that meet the hypotheses of the statements, and single steps whose
results are worked out by hand from the rules named. -/

set_option Elab.async false
set_option linter.unusedSimpArgs false

namespace Sys2Proof.Tests

open Sys2Proof Sys2Proof.Machine

/-- A label and a namespace for the terms below. -/
def aLabel : NsLabel := { magicOk := true, version := 1, index := 0, base := 0, extents := 0, owner := List.replicate 32 0 }

def aNs : NsFound := { ctl := 0, nsid := 1, fmtOk := true, locked := false, lbas := 0, label := aLabel, entries := [], openData := [] }

def aCfg : StreamCfg := { roles := [], layouts := [], refclk := [], spxUse := [], twinSide := 0, used := 0, banks := [], fabPlls := [], userObjs := [] }

/-- Every term of a list is refused. -/
def refusesAll (l : List Instr) : Bool := l.all (fun i => !i.wellFormed)

/-! WellFormed: an ill-formed term for each check. -/

theorem test_refusesOperandRanges : refusesAll
    [.ptpSync 0 0 ⟨0, (.sync 0 false 0 0 128)⟩,
     .ptpSync 0 0 ⟨0, (.sync 0 false 0 0 (-129))⟩,
     .ptpSync 0 0 ⟨0, (.followUp 65536 0 0)⟩,
     .disciplineModeSet 0 .jtag 256,
     .timebaseSet 0 .jtag (2 ^ 64),
     .pcieRateChange 0 0 0 0 ⟨1, false, 0⟩,
     .pcieRateChange 0 0 0 1 ⟨3, false, 0⟩,
     .pcieRateChange 0 0 0 1 ⟨4, false, 16⟩,
     .alignmentGained 0 ⟨0, 0⟩ (2 ^ 32),
     .quadLayoutSet 0 .jtag [(0, 256)],
     .portModeSet 0 .jtag 0 0 (some 256) none,
     .portModeSet 0 .jtag 0 0 none (some (2 ^ 32)),
     .eyescanPoint 0 0 (2 ^ 64)] = true := by decide

theorem test_refusesEqualiser : refusesAll
    [.laneEqSet 0 .jtag 0 0 (some 256) none [] [],
     .laneEqSet 0 .jtag 0 0 none (some (256, 0)) [] [],
     .laneEqSet 0 .jtag 0 0 none (some (0, 256)) [] [],
     .laneEqSet 0 .jtag 0 0 none none [(0, 128)] [],
     .laneEqSet 0 .jtag 0 0 none none [] [(0, -129)]] = true := by decide

theorem test_refusesLinkFrames : refusesAll
    [.spapaxBlock 0 ⟨0, 0⟩ 0 [],
     .spapaxBlock 0 ⟨0, 0⟩ 0 (List.replicate 32 0),
     .spapaxBlock 0 ⟨0, 0⟩ 0 (List.replicate 35 0),
     .linkManagementFrame 0 ⟨0, 0⟩ (.response []),
     .linkManagementFrame 0 ⟨0, 0⟩ (.caps [] 0 0 0 (List.replicate 16 0)),
     .linkManagementFrame 0 ⟨0, 0⟩ (.caps (List.replicate 32 0) 256 0 0 (List.replicate 16 0)),
     .linkManagementFrame 0 ⟨0, 0⟩ (.caps (List.replicate 32 0) 0 256 0 (List.replicate 16 0)),
     .linkManagementFrame 0 ⟨0, 0⟩ (.caps (List.replicate 32 0) 0 0 (2 ^ 32) (List.replicate 16 0)),
     .linkManagementFrame 0 ⟨0, 0⟩ (.caps (List.replicate 32 0) 0 0 0 []),
     .spapaxFrame 0 ⟨0, 0⟩ (List.replicate 19 0)] = true := by decide

theorem test_refusesHostPorts : refusesAll
    [.pcieInboundRequest 0 0 (2 ^ 64) 0,
     .pcieInboundRequest 0 0 0 4097,
     .vaneFrame 0 0 .arp ⟨4096, [], []⟩,
     .vaneFrame 0 0 .arp ⟨0, [1], []⟩,
     .vaneFrame 0 0 (.udp 65536) ⟨0, [], []⟩,
     .vaneFrame 0 0 (.frag (2 ^ 32)) ⟨0, [], []⟩,
     .pcieCompletionTimeout 0 ⟨0, 640⟩,
     .vaneLockoutExpiry 0 0 [1],
     .pcieLinkUp 0 0 0 1,
     .pcieLinkUp 0 0 1 3,
     .vanePdu 0 0 [] none [],
     .vanePdu 0 0 [1, 2, 3, 4] (some (2 ^ 32)) [],
     .reassemblyTimeout 0 0 (2 ^ 32)] = true := by decide

theorem test_refusesCaptureAndTransmit : refusesAll
    [.unitReceived 0 0 0 { kind := .eth, ticks := 0 },
     .unitReceived 0 0 0 { kind := .eth, lane := 16 },
     .foldMaxSpanExpiry 0 0 0 16,
     .promote 0 0 (some (2 ^ 32)),
     .hookReturn 0 0 0 { offer := 0, word := 2 ^ 64, bytes := [] }] = true := by decide

theorem test_refusesMemoryRequests : refusesAll
    [.memoryRead 0 0 {} {} 0,
     .memoryRead 0 0 {} {} 65537,
     .memoryRead 0 0 { ni := 640 } {} 1,
     .memoryWrite 0 0 {} {} [],
     .memoryWrite 0 0 { ni := 640 } {} [0],
     .memoryTemperatureRead 0 0 (some 32768),
     .memoryTemperatureRead 0 0 (some (-32769)),
     .caParityFailure 0 0 0 256 0,
     .caParityFailure 0 0 0 0 640,
     .drizzleScrub 0 (.inl (2 ^ 32, 0)) {} {} false,
     .drizzleScrub 0 (.inl (0, 2 ^ 32)) {} {} false,
     .dramTrainingDone 0 [] [{ dimms := 3, chan := 0, ranks := 1, bytes := 0 }],
     .dramTrainingDone 0 [] [{ dimms := 1, chan := 0, ranks := 3, bytes := 0 }]] = true := by decide

theorem test_refusesStore : refusesAll
    [.storeMount 0 .jtag [{ quad := 0, bdf := 65536, identity := [], namespaces := 0, cacheless := false, ok := true }] [],
     .storeMount 0 .jtag [] [{ aNs with nsid := 2 ^ 32 }],
     .storeMount 0 .jtag [] [{ aNs with label := { aLabel with index := 65536 } }],
     .storeMount 0 .jtag [] [{ aNs with label := { aLabel with base := 2 ^ 32 } }],
     .storeMount 0 .jtag [] [{ aNs with label := { aLabel with extents := 2 ^ 32 } }],
     .storeMount 0 .jtag [] [{ aNs with label := { aLabel with owner := [] } }],
     .storeMount 0 .jtag [] [{ aNs with entries := [(2 ^ 28, List.replicate 32 0)] }],
     .storeMount 0 .jtag [] [{ aNs with entries := [(0, [])] }],
     .storeMount 0 .jtag [] [{ aNs with openData := [(2 ^ 28, [])] }],
     .storeMount 0 .jtag [] [{ aNs with sources := [(256, [])] }],
     .storageTakeover 0 [{ aNs with nsid := 2 ^ 32 }]] = true := by decide

theorem test_refusesStoreCommands : refusesAll
    [.nvmeCompletion 0 0 65536 .ok [] 0,
     .nvmeCompletion 0 0 0 .ok [] (2 ^ 32),
     .ioTimeout 0 0 65536,
     .quotaCut 0 .jtag 0 (2 ^ 32),
     .remapCopy 0 (2 ^ 28),
     .storeUnpin 0 .jtag (2 ^ 32),
     .queryContinue 0 .jtag 0 (2 ^ 64) 0,
     .queryContinue 0 .jtag 0 0 (2 ^ 64)] = true := by decide

theorem test_refusesRequests : refusesAll
    [.read 0 .jtag (2 ^ 32) 0 0 0 0,
     .read 0 .jtag 0 65536 0 0 0,
     .read 0 .jtag 0 0 256 0 0,
     .read 0 .jtag 0 0 0 (2 ^ 32) 0,
     .read 0 .jtag 0 0 0 0 65536,
     .write 0 .jtag 0 65536 0 0 [],
     .write 0 .jtag (2 ^ 32) 0 0 0 [],
     .write 0 .jtag 0 0 0 256 [],
     .describe 0 .jtag 65536 0,
     .commit 0 .jtag (2 ^ 32) none,
     .commit 0 .jtag 0 (some (2 ^ 64)),
     .rollback 0 .jtag (2 ^ 32)] = true := by decide

theorem test_refusesObjects : refusesAll
    [.objectWrite 0 .jtag 0 256 [],
     .keepPageRefresh 0 (2 ^ 32) false,
     .windowAccess 0 (.bar2 (2 ^ 64)) (.read 1) {},
     .windowAccess 0 (.bar2 0) (.read 0) {},
     .windowAccess 0 (.bar0 0) (.read 4097) {},
     .windowAccess 0 .msixControl (.write []) {},
     .mailboxPost 0 (.inl 0) 65536 [],
     .objectSample 0 65536 0 [] 0,
     .objectSampleTimeout 0 0 256,
     .persistRestore 0 [(65536, 0)],
     .fuseProgram 0 .jtag 0 256 [],
     .keyRevoke 0 .jtag 256] = true := by decide

theorem test_refusesTwinMessages : refusesAll
    [.propose 0 (2 ^ 32) 0 [],
     .propose 0 0 (2 ^ 32) [],
     .propose 0 0 0 [(65536, 0, [])],
     .verdict 0 (2 ^ 32) 0 0 0 0,
     .verdict 0 0 (2 ^ 32) 0 0 0,
     .verdict 0 0 0 256 0 0,
     .verdict 0 0 0 0 65536 0,
     .schedule 0 (2 ^ 32) 0 0,
     .schedule 0 0 (2 ^ 32) 0,
     .schedule 0 0 0 (2 ^ 64),
     .shadow 0 (2 ^ 32) 0 [],
     .shadow 0 0 (2 ^ 64) [],
     .shadow 0 0 0 [(0, 256, [])]] = true := by decide

theorem test_refusesTwinEntries : refusesAll
    [.logbook 0 (2 ^ 32) [],
     .logbook 0 0 [[]],
     .extent 0 (2 ^ 32) 0 (List.replicate 32 0),
     .extent 0 0 (2 ^ 28) (List.replicate 32 0),
     .extent 0 0 0 [],
     .subentry 0 (2 ^ 32) 0 (List.replicate 32 0),
     .subentry 0 0 (2 ^ 28) (List.replicate 32 0),
     .subentry 0 0 0 [],
     .front 0 (2 ^ 32) (List.replicate 32 0),
     .front 0 0 []] = true := by decide

theorem test_refusesTwinJoin : refusesAll
    [.catalogue 0 (2 ^ 32) [] 0 0 0 0,
     .catalogue 0 0 [2 ^ 32] 0 0 0 0,
     .catalogue 0 0 [] 2 0 0 0,
     .catalogue 0 0 [] 0 (2 ^ 32) 0 0,
     .catalogue 0 0 [] 0 0 (2 ^ 32) 0,
     .catalogue 0 0 [] 0 0 0 (2 ^ 32),
     .resyncBegin 0 (2 ^ 32) [],
     .resyncBegin 0 0 [(65536, 0, [])],
     .resyncEnd 0 (2 ^ 32),
     .leave 0 (2 ^ 32),
     .beat 0 {} [],
     .twinEvent 0 (2 ^ 64) 0 false 0 1,
     .twinEvent 0 0 16 false 0 1,
     .twinEvent 0 0 2048 true 0 1,
     .twinEvent 0 0 0 false 0 0] = true := by decide

theorem test_refusesNetworkAndFabric : refusesAll
    [.postedError 0 0 [] false,
     .ekicWrite 0 0 (2 ^ 32) [],
     .ekeqWrite 0 0 (2 ^ 64),
     .userMarkRequest 0 0 0 (2 ^ 64),
     .ramPortAccess 0 36864 none none false {},
     .ramPortAccess 0 0 (some { word := 0, off := 0, size := 0 }) none false {},
     .ramPortAccess 0 0 none (some { word := 0, off := 4, size := 5 }) false {},
     .ramPortAccess 0 0 (some { word := 0, off := 0, size := 2, wdata := some [0] }) none false {}] = true := by decide

theorem test_refusesBoot : refusesAll
    [.bankVoltageSample 0 0 65536,
     .sourceStable 0 0 (some [(65536, 0, [])]),
     .deviceReset 0 0 0,
     .streamData 0 (.header []),
     .streamData 0 (.header (List.replicate 63 0)),
     .streamData 0 (.data []),
     .firmwareStart 0 true true (2 ^ 32) 0,
     .fabricShadowAck 0 65536 0] = true := by decide

theorem test_refusesFabricLogic : refusesAll
    [.streamData 0 (.last { aCfg with cells := [{ num := 37748736 }] }),
     .streamData 0 (.last { aCfg with cells := [{ num := 0, table := 65536 }] }),
     .streamData 0 (.last { aCfg with cells := [{ num := 0, ins := List.replicate 5 (.const true) }] }),
     .streamData 0 (.last { aCfg with macs := [{ num := 55296 }] }),
     .streamData 0 (.last { aCfg with macs := [{ num := 0, b := List.replicate 25 (.const true) }] }),
     .streamData 0 (.last { aCfg with crossings := [{ edge := 7, dir := 0, bundle := 0, port := 0, src := (0, 0), dst := (0, 0) }] }),
     .streamData 0 (.last { aCfg with banks := [(0, 4)] }),
     .streamData 0 (.last { aCfg with banks := [(0, 1)], pins := [{ bank := 0, pin := 0, dir := 1, pull := 0, fast := false, drive := 12 }] }),
     .streamData 0 (.last { aCfg with noScrub := [36864] }),
     .streamData 0 (.last { aCfg with fabPlls := [{ die := 0, pll := 0, config := 0, enable := true, outs := [(1, 0)] }] })] = true := by decide

theorem test_refusesBootEnd : refusesAll
    [.streamData 0 (.last { aCfg with twinSide := 2 }),
     .streamData 0 (.last { aCfg with used := 2 ^ 32 }),
     .streamData 0 (.last { aCfg with roles := [(0, 7)] }),
     .streamData 0 (.last { aCfg with layouts := [(0, 5)] }),
     .streamData 0 (.last { aCfg with userObjs := [{ index := 65536, sub := 0, type := 0, access := 0, cls := 0 }] }),
     .apertureWrite 0 7,
     .readbackFrame 0 (2 ^ 32) .ok false 0] = true := by decide

theorem test_refusesPowerAndTest : refusesAll
    [.diePowerSample 0 0 (2 ^ 32),
     .thermalSample 0 [(0, 0, 32768)] [] [],
     .thermalSample 0 [] [(0, 32768)] [],
     .thermalSample 0 [] [] [(0, -32769)],
     .marginMeasure 0 [(0, 0, 2 ^ 32)],
     .sliceDue 0 0 65536,
     .handshakeAck 0 0 65536,
     .handshakeTimeout 0 0 65536,
     .deferralRetry 0 0 65536,
     .sliceEnd 0 0 65536 0,
     .sliceEnd 0 0 0 (2 ^ 64),
     .runNow 0 .jtag 0 65536,
     .clearPermanent 0 .jtag 65536] = true := by decide

theorem test_refusesLongWindow : Instr.wellFormed (.windowAccess 0 (.bar2 0) (.write (List.replicate 513 0)) {}) = false := by
  simp only [Instr.wellFormed, octets, u16, u32, twinItemOk, named, ipAddress, WinOp.wellFormed, MemReq.wellFormed, RxUnit.wellFormed, List.length_replicate, List.all_cons, List.all_nil]
  rfl

theorem test_refusesLongPostedRequest : Instr.wellFormed (.mailboxPost 0 (.inl 0) 0 (List.replicate 8193 0)) = false := by
  simp only [Instr.wellFormed, octets, u16, u32, twinItemOk, named, ipAddress, WinOp.wellFormed, MemReq.wellFormed, RxUnit.wellFormed, List.length_replicate, List.all_cons, List.all_nil]
  rfl

theorem test_refusesLongMemoryWrite : Instr.wellFormed (.memoryWrite 0 0 {} {} (List.replicate 65537 0)) = false := by
  simp only [Instr.wellFormed, octets, u16, u32, twinItemOk, named, ipAddress, WinOp.wellFormed, MemReq.wellFormed, RxUnit.wellFormed, List.length_replicate, List.all_cons, List.all_nil]
  rfl

theorem test_refusesLongFrame : Instr.wellFormed (.spapaxFrame 0 ⟨0, 0⟩ (List.replicate 4117 0)) = false := by
  simp only [Instr.wellFormed, octets, u16, u32, twinItemOk, named, ipAddress, WinOp.wellFormed, MemReq.wellFormed, RxUnit.wellFormed, List.length_replicate, List.all_cons, List.all_nil]
  rfl

theorem test_refusesLongUnit : Instr.wellFormed (.unitReceived 0 0 0 { kind := .eth, bytes := List.replicate 16777216 0 }) = false := by
  simp only [Instr.wellFormed, octets, u16, u32, twinItemOk, named, ipAddress, WinOp.wellFormed, MemReq.wellFormed, RxUnit.wellFormed, List.length_replicate, List.all_cons, List.all_nil]
  rfl

theorem test_refusesLongPdu : Instr.wellFormed (.vanePdu 0 0 [1, 2, 3, 4] none (List.replicate 65508 0)) = false := by
  simp only [Instr.wellFormed, octets, u16, u32, twinItemOk, named, ipAddress, WinOp.wellFormed, MemReq.wellFormed, RxUnit.wellFormed, List.length_replicate, List.all_cons, List.all_nil]
  rfl

theorem test_refusesLongAdmin : Instr.wellFormed (.adminCommand 0 .jtag 0 (List.replicate 65536 0)) = false := by
  simp only [Instr.wellFormed, octets, u16, u32, twinItemOk, named, ipAddress, WinOp.wellFormed, MemReq.wellFormed, RxUnit.wellFormed, List.length_replicate, List.all_cons, List.all_nil]
  rfl

theorem test_refusesLongWrite : Instr.wellFormed (.write 0 .jtag 0 0 0 0 (List.replicate 65536 0)) = false := by
  simp only [Instr.wellFormed, octets, u16, u32, twinItemOk, named, ipAddress, WinOp.wellFormed, MemReq.wellFormed, RxUnit.wellFormed, List.length_replicate, List.all_cons, List.all_nil]
  rfl

theorem test_refusesLongObjectWrite : Instr.wellFormed (.objectWrite 0 .jtag 0 0 (List.replicate 65536 0)) = false := by
  simp only [Instr.wellFormed, octets, u16, u32, twinItemOk, named, ipAddress, WinOp.wellFormed, MemReq.wellFormed, RxUnit.wellFormed, List.length_replicate, List.all_cons, List.all_nil]
  rfl

theorem test_refusesLongAuthKey : Instr.wellFormed (.authKeyWrite 0 .jtag 0 0 (List.replicate 65536 0)) = false := by
  simp only [Instr.wellFormed, octets, u16, u32, twinItemOk, named, ipAddress, WinOp.wellFormed, MemReq.wellFormed, RxUnit.wellFormed, List.length_replicate, List.all_cons, List.all_nil]
  rfl

theorem test_refusesLongFabricRequest : Instr.wellFormed (.fabricDictionaryRequest 0 0 (List.replicate 8193 0)) = false := by
  simp only [Instr.wellFormed, octets, u16, u32, twinItemOk, named, ipAddress, WinOp.wellFormed, MemReq.wellFormed, RxUnit.wellFormed, List.length_replicate, List.all_cons, List.all_nil]
  rfl

theorem test_refusesLongSample : Instr.wellFormed (.objectSample 0 0 0 (List.replicate 65536 0) 0) = false := by
  simp only [Instr.wellFormed, octets, u16, u32, twinItemOk, named, ipAddress, WinOp.wellFormed, MemReq.wellFormed, RxUnit.wellFormed, List.length_replicate, List.all_cons, List.all_nil]
  rfl

theorem test_refusesLongDictPost : Instr.wellFormed (.dictPost 0 (List.replicate 16384 0)) = false := by
  simp only [Instr.wellFormed, octets, u16, u32, twinItemOk, named, ipAddress, WinOp.wellFormed, MemReq.wellFormed, RxUnit.wellFormed, List.length_replicate, List.all_cons, List.all_nil]
  rfl

theorem test_refusesLongDictRead : Instr.wellFormed (.dictRead 0 16384) = false := by
  simp only [Instr.wellFormed, octets, u16, u32, twinItemOk, named, ipAddress, WinOp.wellFormed, MemReq.wellFormed, RxUnit.wellFormed, List.length_replicate, List.all_cons, List.all_nil]
  rfl

theorem test_refusesLongFuse : Instr.wellFormed (.fuseProgram 0 .jtag 0 0 (List.replicate 65536 0)) = false := by
  simp only [Instr.wellFormed, octets, u16, u32, twinItemOk, named, ipAddress, WinOp.wellFormed, MemReq.wellFormed, RxUnit.wellFormed, List.length_replicate, List.all_cons, List.all_nil]
  rfl

theorem test_refusesLongTwinItem : Instr.wellFormed (.propose 0 0 0 [(0, 0, List.replicate 65536 0)]) = false := by
  simp only [Instr.wellFormed, octets, u16, u32, twinItemOk, named, ipAddress, WinOp.wellFormed, MemReq.wellFormed, RxUnit.wellFormed, List.length_replicate, List.all_cons, List.all_nil]
  rfl

theorem test_acceptsGood : ([.ptpSync 0 1023 ⟨255, (.sync 65535 true (-1) 0 (-128))⟩, .timebaseSet 0 .jtag (2 ^ 64 - 1), .pcieRateChange 0 0 0 6 ⟨16, true, 65535⟩,
     .laneEqSet 0 .jtag 0 0 none none [(0, -128)] [(0, 127)], .spapaxBlock 0 ⟨35, 3⟩ 7 (List.replicate 33 0), .spapaxBlock 0 ⟨35, 3⟩ 7 (List.replicate 34 0),
     .spapaxFrame 0 ⟨0, 0⟩ (List.replicate 20 0), .storeMount 0 .jtag [] [aNs], .streamData 0 (.last aCfg), .streamData 0 (.header (List.replicate 64 0)),
     .memoryRead 0 0 { ni := 639 } {} 65536, .twinEvent 0 0 15 false 0 1, .read 0 .jtag (2 ^ 32 - 1) 0xFFFF 0xFF (2 ^ 32 - 1) 0xFFFF,
     .dictRead 0 16383] : List Instr).all Instr.wellFormed = true := by decide

/-! Witnesses: states and operands that meet the hypotheses of the statements. -/

/-- A state whose block is d. -/
def st (d : Dev) : State := { dev := d }

theorem wit_stepRunsFront : ∃ s : State, s.pending = [.disciplineMeasurement 1, .beatSend 0] := ⟨{ State.reset with pending := [.disciplineMeasurement 1, .beatSend 0] }, rfl⟩

theorem wit_idle : State.reset.pending = [] ∧ State.reset.dev.count < 2 ^ 64 := ⟨rfl, by decide⟩

theorem wit_countWraps : ({ count := 2 ^ 64 - 4 } : Dev).count + 4 * 1 = 2 ^ 64 ∧ ({ count := 2 ^ 64 - 8 } : Dev).count + 4 * 1 < 2 ^ 64 := by decide

theorem wit_invariantKept : State.reset.Inv ∧ ∃ t, step { State.reset with pending := [.beatSend 3] } = .next t :=
  ⟨⟨by decide, rfl, rfl⟩, _, rfl⟩

theorem wit_quiet : State.reset.dev.count < 2 ^ 64 ∧ Instr.quiet (.losAssert 2 35 3) = true ∧ ∃ t, exec (.losAssert 2 35 3) State.reset = .next t := ⟨by decide, rfl, _, rfl⟩

theorem wit_queueStays : ({ State.reset with pending := [.beatSend 0] } : State).queueOk = true ∧ ∃ t, step { State.reset with pending := [.beatSend 0] } = .next t :=
  ⟨rfl, _, rfl⟩

/-- The first and the last address, one byte and a line. -/
theorem wit_memoryWrite : (∃ t, exec (.memoryWrite 0 0 {} {} (List.replicate 64 1)) State.reset = .next t) ∧
    (∃ t, exec (.memoryWrite 0 17592186044415 {} {} [1]) State.reset = .next t) ∧ (63 : Nat) < (List.replicate 64 (1 : Byte)).length ∧
    ({} : LineFind).flips = [] ∧
    (∀ line : Nat, SMap.find (State.reset.dev.pass 0).mem.raw line = none ∧ SMap.find (State.reset.dev.pass 0).mem.upset line = none) ∧
    (State.reset.dev.pass 0).mem.deferred = [] :=
  ⟨⟨_, rfl⟩, ⟨_, rfl⟩, by decide, rfl, fun _ => ⟨rfl, rfl⟩, rfl⟩

theorem wit_otherKey : O.noCTimeouts.key 0 0 0 ≠ O.noCLateResponses.key 0 0 0 ∧ O.laneStatus.key 0 0 0 ≠ O.laneStatus.key 0 1 0 := by decide

/-- A record of 32 bytes, of the session n. -/
def aRec (n : Nat) : Rec := { port := 0, type := 1, tick := 0, session := n, source := 0 }

theorem emptyFifo_ok (n : Nat) : ({} : Fifo).ok n := by
  refine ⟨?_, ?_, ?_⟩ <;> intro p h <;> simp at h

/-- An empty FIFO takes a record into its open packet; with a packet size that the record exceeds, it closes; without room it takes none. -/
theorem wit_packetRules : (({} : Fifo).intake 100 64 0 (aRec 0)).2.cur.isSome = true ∧ (({} : Fifo).intake 100 16 0 (aRec 0)).2.cur.isNone = true ∧
    (({} : Fifo).intake 39 64 0 (aRec 0)).1 = false ∧ ({} : Fifo).ok 64 ∧ ({} : Fifo).ok 16 :=
  ⟨rfl, rfl, by decide, emptyFifo_ok _, emptyFifo_ok _⟩

/-- A record that is not a gap record. -/
theorem wit_records : (aRec 0).type ≠ 0x11 ∧ ((({} : Dev).enterIn 0 35 3 (aRec 0)).port 143).stage.length = 1 := by decide +kernel

/-- A block whose header is level h, with levels that change from each to the next. -/
def aBlock (h : Nat) : List Nat := h :: (List.range 32).map (fun i => (i + 2) % 4)

/-- Blocks with the headers of data and of control, and one with neither. -/
theorem wit_blockLock : ({} : SpxLane).locked = false ∧ ({} : SpxLane).good = 0 ∧
    ((upTo 64).all (fun k =>
      let x := (List.replicate k (aBlock 1)).foldl (fun (y : SpxLane) b => (y.block 0 b 0).1) {}
      grayPair ((destuff x.levels (aBlock 1)).2.1.headD 0) == 1)) = true ∧
    grayPair ((destuff ({} : SpxLane).levels (aBlock 3)).2.1.headD 0) = 2 ∧ ({ good := 63 } : SpxLane).good < 64 ∧
    grayPair ((destuff ({} : SpxLane).levels (aBlock 0)).2.1.headD 0) ≠ 1 ∧ grayPair ((destuff ({} : SpxLane).levels (aBlock 0)).2.1.headD 0) ≠ 2 := by decide +kernel

theorem wit_networkTimeout : niUsed 0 = true ∧ niUsed 613 = true ∧ State.reset.dev.nat O.noCTimeouts < 2 ^ 32 - 1 ∧
    State.reset.dev.nat O.noCLateResponses < 2 ^ 32 - 1 ∧ 4095 ∉ (State.reset.dev.ni 0).late := by decide

/-- The transactions that hold the first n slots. -/
def slots (n : Nat) : List Txn := (List.range n).map (fun k => { slot := some k, txn := 8 + k, origin := 8, sinceNs := 0 })

def withSlots (n : Nat) : Dev := { dict := { txns := slots n } }

theorem wit_begin : (withSlots 0).boot.monitor = false ∧ (withSlots 0).halted = false ∧ (withSlots 0).unanswered (originCode .jtag) < 64 ∧
    (withSlots 0).dict.txns.any (fun t => t.slot == some 0) = false ∧
    (∀ j : Nat, j < 7 → (withSlots 7).dict.txns.any (fun t => t.slot == some j) = true) ∧ (withSlots 7).dict.txns.any (fun t => t.slot == some 7) = false ∧
    (∀ j : Nat, j < 8 → (withSlots 8).dict.txns.any (fun t => t.slot == some j) = true) := by decide

/-- The block in Integrity Halt. -/
def haltedDev : Dev := ({} : Dev).setNat O.integrityHaltState 1

theorem wit_halt : haltedDev.boot.monitor = false ∧ haltedDev.halted = true ∧ (¬(0x1000 ≤ 0x0FFF ∧ 0x0FFF ≤ 0x10FF) ∧ 0x0FFF ≠ 0x6100) ∧
    (¬(0x1000 ≤ 0x1100 ∧ 0x1100 ≤ 0x10FF) ∧ 0x1100 ≠ 0x6100) ∧ (Origin.pcie ≠ .vaneA ∧ Origin.pcie ≠ .vaneB ∧ Origin.pcie ≠ .jtag) := by decide

theorem wit_control : ({} : Dev).halted = false ∧ ({} : Dev).unanswered 8 < 64 ∧ 1 < ([{ op := 4 }, { op := 1 }] : List ReqItem).length ∧
    ∃ it ∈ ([{ op := 4 }, { op := 1 }] : List ReqItem), it.op = 4 ∨ it.op = 5 ∨ it.op = 6 :=
  ⟨by decide, by decide, by decide, { op := 4 }, by simp, .inl rfl⟩

/-- The links work; bundle 0 of edge 0 has had n corrections on wire 33 at the present. -/
def wireDev (n : Nat) : Dev := { boot := { links := true }, bundles := [(0, { times := List.replicate n (33, 0) })] }

theorem wit_suspect : 0 < edgeBundles 17 ∧ 63 < edgeBundles 17 ∧ ((wireDev 16).bundle 0).state ≠ 3 ∧ (wireDev 16).boot.links = true ∧
    16 < ((((wireDev 16).bundle 0).times.filter (fun (e : Nat × Nat) => decide ((wireDev 16).ns < e.2 + 1000000000)) ++ [(33, 0)]).filter (fun (e : Nat × Nat) => e.1 == 33)).length ∧
    ((((wireDev 15).bundle 0).times.filter (fun (e : Nat × Nat) => decide ((wireDev 15).ns < e.2 + 1000000000)) ++ [(33, 0)]).filter (fun (e : Nat × Nat) => e.1 == 33)).length ≤ 16 := by decide

/-- An event that has not occurred in this nanosecond, and one that has occurred 15 times. -/
theorem wit_latched : (({} : Dev).octs O.eventRouterLatched).length = 192 ∧ octBit (octSet (({} : Dev).octs O.eventRouterLatched) 1535) 1535 = true ∧
    ({} : Dev).pulseOf 1535 none 0 < 15 ∧ 15 ≤ (({} : Dev).pulse 1535 none 0 15).pulseOf 1535 none 0 := ⟨rfl, rfl, by decide, by decide⟩

/-- Words of 1 and of 64 bits: the first and the last place of a change. -/
theorem wit_sramCode : (1 : Nat) < 2 ^ 1 ∧ 2 ^ 64 - 1 < 2 ^ 64 ∧ (0 : Nat) < 1 ∧ 1 < 1 + hsiaoBits 1 ∧ 71 < 64 + hsiaoBits 64 ∧ 70 < 71 := by decide

theorem wit_hbm : (0 : Nat) < 144 * 2 ^ 30 ∧ ({} : Dev).chState (8 + 16 * 7 + 15) ≠ 0 ∧ (({} : Dev).setNat O.memChannelState 0 (chA 8) (chB 8)).chState 8 = 0 := by decide

def aUnit : TxUnit := { s := 0, bytes := [] }

theorem wit_routes : (0 : Nat) < 160 ∧ (159 : Nat) < 160 ∧ walk 159 (routeHops 1 159 0) = some 0 ∧ walk 0 (routeHops 0 0 159) = some 159 := by decide

theorem wit_gust : ([{ port := 0, urgency := 15, age := 3 }] : List Contender) ≠ [] ∧ turn 5 4 0 = 0 ∧ turn 5 0 1 = 0 := by decide

theorem wit_units : ({} : Dev).nat O.txState 35 3 ≠ 2 ∧ ((({} : Dev).setTx 0 { wire := some aUnit }).txch 0).wire.isSome = true ∧ haltedDev.stopped = true := by decide

/-- The block with a measured offset, in mode 2. -/
def coarse : Dev := ({ time := { sample := some (4000000 * 256 + 1) } } : Dev).setNat O.timeDisciplineMode 2

/-! Single steps: the expected results are worked out from the rules named. -/

/-- The block after one command. -/
def after (c : Instr) (d : Dev) : Dev :=
  match exec c (st d) with
  | .next t => t.dev
  | _ => d

def g : Dev := {}

/-- R13: 4 ticks for each nanosecond; R14: the wrap. -/
theorem test_count : (after (.timeMarkerInterval 5) g).count = 20 ∧ (after (.beatSend 1) { count := 2 ^ 64 - 4 }).count = 0 := by decide

/-- R27: the next PPS edge comes too early below 0.5 s. -/
theorem test_ppsFault : (after (.ppsEdge 499999999 0) (({ time := { ppsNs := some 0 } } : Dev).setNat O.timeDisciplineMode 1)).nat O.timeDisciplinePpsFaults = 1 ∧
    (after (.ppsEdge 500000000 0) (({ time := { ppsNs := some 0 } } : Dev).setNat O.timeDisciplineMode 1)).nat O.timeDisciplinePpsFaults = 0 := by decide +kernel

/-- R455: an offset beyond 4,000,000 ticks is reported, in whole ticks, and not steered. -/
theorem test_coarse : (after (.disciplineMeasurement 0) coarse).int O.timeDisciplinePtpCoarseOffset = 4000000 := by decide +kernel

/-- R270: the first BEGIN in slot 0 issues 8; with all 8 slots held the answer is TXN_FULL. -/
theorem test_begin : (after (.beginTxn 0 .jtag) g).sent = [.answer 8 0 [8, 0, 0, 0]] ∧ (after (.beginTxn 0 .vaneA) (withSlots 8)).sent = [.answer 2 7 []] := by decide +kernel

/-- R270: a transaction of another origin, and one that does not exist, are unknown. -/
theorem test_unknownTxn : (after (.rollback 0 .jtag 17) g).sent = [.answer 8 8 []] ∧ (after (.commit 0 .vaneA 8 none) (withSlots 1)).sent = [.answer 2 8 []] := by decide +kernel

/-- R247: an index that does not exist; sub-index 0x00 holds the highest sub-index (TimeBase, 0x2200). -/
theorem test_noObject : (after (.read 0 .jtag 0 0xFFFF 0 0 4) g).sent = [.answer 8 1 []] ∧ (after (.read 0 .jtag 0 0x2201 0 0 4) g).sent = [.answer 8 0 [7]] := by decide +kernel

/-- TimeDiscipline.HoldoverLimit: 3,600 at reset, little-endian; Config.StartupOrder: 0xE4. -/
theorem test_defaults : (after (.read 0 .jtag 0 0x2201 5 0 4) g).sent = [.answer 8 0 [0x10, 0x0E, 0, 0]] ∧
    (after (.read 0 .jtag 0 0x9000 0x0B 0 4) g).sent = [.answer 8 0 [0xE4]] := by decide +kernel

/-- R271: a write to an RO object is NO_ACCESS, of another type TYPE. -/
theorem test_writeRefused : (after (.write 0 .jtag 0 0x2201 2 2 [1]) g).sent = [.answer 8 2 []] ∧ (after (.write 0 .jtag 0 0x2201 5 2 [1]) g).sent = [.answer 8 3 []] := by decide +kernel

/-- R322: a timeout counts and is a bus error; the late response counts and is discarded. -/
theorem test_late : (after (.nocTimeout 0 0 5) g).sent = [.noc 0 false []] ∧ (after (.nocResponse 0 0 5 ⟨true, 0⟩) (after (.nocTimeout 0 0 5) g)).nat O.noCLateResponses = 1 := by decide +kernel

/-- R331: a write of ekic clears the bits it names, but not the line that occurs with it. -/
theorem test_ekic : ((after (.ekicWrite 0 3 4 []) (g.setCore 3 { ekip := 12 })).core 3).ekip = 8 ∧
    ((after (.ekicWrite 0 3 4 [2]) (g.setCore 3 { ekip := 12 })).core 3).ekip = 12 := by decide +kernel

/-- R397: the 17th correction within 1 s marks the wire, the 16th does not. -/
theorem test_suspect : (after (.duaxisFrameError 0 0 0 0 (some 33) false) (wireDev 16)).suspects 0 = 2 ^ 33 ∧
    (after (.duaxisFrameError 0 0 0 0 (some 33) false) (wireDev 15)).suspects 0 = 0 := by
  refine ⟨?_, by decide +kernel⟩
  have h : ((wireDev 16).setBundle 0 { ((wireDev 16).bundle 0) with corrected := 1, times := List.replicate 17 (33, 0) }).suspect 0 33 =
      after (.duaxisFrameError 0 0 0 0 (some 33) false) (wireDev 16) := rfl
  rw [← h]
  rw [Dev.suspects, Dev.suspect_diag]
  decide +kernel

/-- R438: IDCODE 0x0014_45AB, least significant bit first; BYPASS is one bit. -/
theorem test_idcode : (after (.idcode 0) g).sent = [.jtag ((List.range 32).map (fun i => (0x001445AB : Nat).testBit i))] ∧ (after (.bypass 0) g).sent = [.jtag [false]] := by decide +kernel

/-- R206: in Integrity Halt JTAG reads the halt state, and PCIe is answered HALTED. -/
theorem test_halt : (after (.read 0 .jtag 0 0x6100 1 0 1) haltedDev).sent = [.answer 8 0 [1]] ∧ (after (.read 0 .pcie 0 0x6100 1 0 1) haltedDev).sent = [.answer 1 0xB []] := by decide +kernel

/-- R161: an access outside populated memory is a bus error; bytes written read back. -/
theorem test_memory : (after (.memoryRead 0 0x3FFFFFFFFFF { ni := 5 } {} 1) g).sent = [.noc 5 false []] ∧
    Memory.get (g.lay 100 [1, 2]).mem.cells 101 = 2 := by decide +kernel

/-- The CRC-32C of the nine bytes "123456789" is 0xE306_9283. -/
theorem test_crc : crc32c [0x31, 0x32, 0x33, 0x34, 0x35, 0x36, 0x37, 0x38, 0x39] = 0xE3069283 := by decide +kernel

/-- R10: byte n holds bits [8n+7:8n]. -/
theorem test_bytes : leBytes 4 0x12345678 = [0x78, 0x56, 0x34, 0x12] ∧ leNat [0x78, 0x56, 0x34, 0x12] = 0x12345678 := by decide

/-- R77: a record of 1,230 bytes takes 32 + 1,230 + 2 bytes of PAD. -/
theorem test_recordSize : ({ aRec 0 with payload := List.replicate 1230 0 } : Rec).size = 1264 := by decide +kernel

/-- R162: 64 KiB of a half hold one block of each of its 64 channels. -/
theorem test_hbm : g.locate 0 = some (8, 0) ∧ g.locate 1024 = some (9, 0) ∧ g.locate 65536 = some (8, 1024) ∧ g.locate 0x2400000000 = some (72, 0) := by decide

/-- R97: SEQ wraps. -/
theorem test_seqWraps : ((g.setPort 3 { seq := 2 ^ 32 - 1 }).place 3 (aRec 0)).1.seq = 2 ^ 32 - 1 ∧
    (((g.setPort 3 { seq := 2 ^ 32 - 1 }).place 3 (aRec 0)).2.port 3).seq = 0 := by decide +kernel

/-- R78: SOURCE of quad 36 - 1, port 3, direction 0, on side 1. -/
theorem test_source : (g.setNat O.twinSide 1).source 35 3 = 0x8000 + 35 * 256 + 3 * 64 := by decide +kernel

/-- R58: the 64th valid header locks the lane. -/
theorem test_lock : (({ good := 63 } : SpxLane).block 0 (aBlock 1) 0).1.locked = true ∧ (({ good := 62 } : SpxLane).block 0 (aBlock 1) 0).1.locked = false := by decide +kernel

/-- R57: Gray levels of 00, 01, 11, 10; R60: the run of 47 equal levels is followed by a stuffed one, which is discarded. -/
theorem test_levels : (upTo 4).map grayPair = [0, 1, 3, 2] ∧ (destuff {} (List.replicate 47 2 ++ [0, 2])).2.1 = List.replicate 47 2 ++ [2] := by decide +kernel

/-- A commit takes effect; a value out of its range is RANGE; a QUIESCE object asks for its unit to be quiesced. -/
theorem test_commit : (after (.disciplineModeSet 0 .jtag 1) g).nat O.timeDisciplineMode = 1 ∧ (after (.disciplineModeSet 0 .jtag 9) g).sent = [.answer 8 4 []] ∧
    (after (.lullEnter 0 .jtag) g).sent = [.answer 8 6 []] := by decide +kernel

/-- StoreSession.Quota takes effect at once; EyeScan.Start may not be written where its lane captures nothing (R76). -/
theorem test_objects : (after (.quotaCut 0 .jtag 5 10) g).nat O.storeSessionQuota 5 = 10 ∧ (after (.eyescanStart 0 .jtag 3) g).sent = [.answer 8 2 []] := by decide +kernel

/-- The battery-backed key is LOST; a die's power is reported. -/
theorem test_power : (after (.vbatLoss 0) g).nat O.keyStoreBbramState = 2 ∧ (after (.diePowerSample 0 3 50000) g).nat O.powerDiePower 0 0 3 = 50000 := by decide +kernel

/-- The example of R321: core 5 reads D7. The route takes 70 cycles, urgency 10 comes at 960 ns and 15 at 1,760 ns, and W is 5,856.25 ns for one flit. -/
theorem test_route : routeHops 0 5 147 = [4, 4, 3, 3, 3, 3, 3, 3, 3, 3, 3] ∧ routeCycles 5 (routeHops 0 5 147) = 70 ∧ niRouter 589 = 147 := by decide

theorem test_urgency : g.urgency 4 95 = 9 ∧ g.urgency 4 96 = 10 ∧ g.urgency 4 176 = 15 ∧ g.waitBound 4 1 = 46850 ∧ g.waitBound 4 2 = 46855 := by decide +kernel

/-- Gust: urgency, then age, then the input after the one granted last. -/
theorem test_gust : gust 5 2 [⟨0, 4, 9⟩, ⟨1, 5, 1⟩, ⟨4, 5, 1⟩, ⟨2, 5, 1⟩] = some ⟨4, 5, 1⟩ := by decide

/-- R325: the fabric window of a router, and a core's doorbell. -/
theorem test_target : targetOf 0x10200000000 = .fabric 17 ∧ targetOf 0x20010040008 = .doorbell 1 ∧ targetOf 0x4800000000 = .reserved := by decide

/-- R182: a 64-bit word carries 8 check bits; words of 8, 16 and 32 bits take 5, 6 and 7. -/
theorem test_checkBits : hsiaoBits 64 = 8 ∧ hsiaoBits 8 = 5 ∧ hsiaoBits 16 = 6 ∧ hsiaoBits 32 = 7 := by decide

/-- FIPS 180-4: SHA-256 of "abc". -/
theorem test_sha256 : (sha256 [0x61, 0x62, 0x63]).take 4 = [0xBA, 0x78, 0x16, 0xBF] := by decide +kernel

/-- FIPS 197, appendix C.3. -/
theorem test_aes256 : (aes256 ((upTo 32).map byteOf) ((upTo 16).map (fun i => byteOf (17 * i)))).take 4 = [0x8E, 0xA2, 0xB7, 0xCA] := by decide +kernel

/-- R183: two of three valid cells decide, and the third is rewritten. -/
theorem test_vote : ({ data := 5, cells := 3 } : SramWord).vote {} = (true, { data := 5, cells := 7 }) ∧
    ({ data := 5, cells := 4 } : SramWord).vote {} = (true, { data := 5, cells := 0 }) := by decide

/-- R336: the index of a cluster is 64u + v. -/
theorem test_cluster : clusterIndex 31 63 = 2047 := by decide

/-- R405: 9,800 balls. The example after R442: L100 at ED66 and DY66, Q25REFP at DT24. -/
theorem test_balls : sumBy id ballCounts = 9800 ∧ laneBalls 100 = ((rowOf ['E', 'D'], 66), (rowOf ['D', 'Y'], 66)) ∧ refBall 25 = (rowOf ['D', 'T'], 24) ∧
    rowName 100 = ['E', 'E'] := by decide +kernel

/-- R31, R83: at one TICK a marker stands before a link record, that before settle, gap, fold and unit. -/
theorem test_order : (([0x16, 0x12, 0x13, 0x11, 0x10, 1] : List Nat).map (fun t => ({ aRec 0 with type := t } : Rec).rank)) = [0, 1, 2, 3, 4, 5] ∧
    ({ aRec 0 with type := 0x16 } : Rec).before (aRec 0) = true ∧ (aRec 0).before { aRec 0 with type := 0x16 } = false := by decide +kernel

/-- R314: D7 is attached at row 9, column 3, port 1 (the example after R321); channel 4 of H3 in the second fabric row of F3, column 15, port 2. -/
theorem test_chanNi : chanNi 7 = 576 + 4 * 3 + 1 ∧ chanNi (8 + 16 * 3 + 4) = 64 * 2 + 4 * 15 + 2 := by decide

/-- R316: a request of 10,000 bytes is split into two of 4,096 and one of 1,808. -/
theorem test_split : (splitRequest { bytes := 10000, address := 64 } 4).map (fun f => (f.address, f.bytes)) = [(64, 4096), (4160, 4096), (8256, 1808)] := by
  decide

/-- R323: a posted-error record is 32 bytes; CLASS_ORIGIN holds the origin above the class. -/
theorem test_posted : (PostedRecord.entry { tick := 1, address := 2, tag := 3, birth := 4, cause := 5, origin := 7, cls := 5, targetNi := 6, bytes := 64 }).length = 32 ∧
    fieldAt (PostedRecord.entry { tick := 1, address := 2, tag := 3, birth := 4, cause := 5, origin := 7, cls := 5, targetNi := 6, bytes := 64 }) 21 1 = 0x75 := by
  decide +kernel

/-- R369: image B begins on the third chip select. -/
theorem test_flash : flashSelect (imageBase 1) = (2, 0) := by decide

/-- R358: 7 silent periods are not enough; a count of 900 over 1,024 periods is more than 10 % low. -/
theorem test_clockGone : clockGone 7 1024 = false ∧ clockGone 8 1024 = true ∧ clockGone 0 921 = true ∧ clockGone 0 922 = false := by decide

/-- One step takes one command. -/
theorem test_commandQueue : step { dev := g, pending := [.bypass 1] } = .next { dev := after (.bypass 1) g, pending := [] } := rfl

theorem test_noWords : decodeTableWord 32 0 = none ∧ (State.reset.withFetchWord 32 0).pending = [] := ⟨rfl, rfl⟩

end Sys2Proof.Tests
end

section
/-! PROOFS. The time base: the count over the passing of time (R13, R14). -/

namespace Sys2Proof.Machine

/-- R14: the tick that takes the count to 2^64 leaves it at 0. -/
theorem Dev.tick_count_of_reaches_wrap (d : Dev) (dt : Nat) (h : d.count + 4 * dt = 2 ^ 64) : (d.tick dt).count = 0 := by
  rw [Dev.tick_count, h, Nat.mod_self]

/-- R13: below the wrap the count goes on by exactly 4 ticks per cycle. -/
theorem Dev.tick_count_of_below_wrap (d : Dev) (dt : Nat) (h : d.count + 4 * dt < 2 ^ 64) :
    (d.tick dt).count = d.count + 4 * dt := by
  rw [Dev.tick_count, Nat.mod_eq_of_lt h]

/-- What else comes about while time passes (`Dev.pass`) leaves the count where the ticks alone take it. -/
theorem Dev.pass_count_eq_tick_count (d : Dev) (dt : Nat) (h : d.count < 2 ^ 64) : (d.pass dt).count = (d.tick dt).count := by
  rw [Dev.pass_count d dt h, Dev.tick_count]

/-- 2^64 ticks of 250 ps lie between 146 and 147 years of 365 days, at 4 * 10^9 ticks a second (R14). -/
theorem wrap_between_146_and_147_years :
    146 * (365 * 24 * 3600) * (4 * 10 ^ 9) < 2 ^ 64 ∧ 2 ^ 64 < 147 * (365 * 24 * 3600) * (4 * 10 ^ 9) := by
  decide

/-- Settles O3: `Dev.tick` is the stated update, its count is read below and at the wrap, and `Dev.pass` counts as it does. -/
theorem countWraps : Obligations.CountWraps :=
  ⟨fun _ _ => rfl, Dev.tick_count_of_reaches_wrap, Dev.tick_count_of_below_wrap, Dev.pass_count_eq_tick_count,
    wrap_between_146_and_147_years⟩

end Sys2Proof.Machine
end

section
/-! PROOFS. The address decode of an HBM half: rotation over its 64 channels, and its inverse (R162, R164). -/

namespace Sys2Proof.Machine

/-- The channel of a half, from 0 to 63, that holds the byte at distance o from the half's base (R162). -/
def hbmLane (o : Nat) : Nat := o / 1024 % 64

/-- The offset of that byte within its channel (R162). -/
def hbmOffset (o : Nat) : Nat := o / 65536 * 1024 + o % 1024

/-- The decode of R162 read backwards: the distance from the half's base of an offset of one of its 64 channels. -/
def hbmDistance (lane off : Nat) : Nat := off / 1024 * 65536 + lane * 1024 + off % 1024

/-- The model's decode of an address of HBM, with the half and the distance from its base as the spec names them. -/
theorem Dev.locate_hbm (d : Dev) {n o : Nat} (hn : n < 2) (ho : o < 144 * 2 ^ 30) :
    d.locate (n * (144 * 2 ^ 30) + o) =
      if d.chState (8 + 64 * n + hbmLane o) = 0 then none else some (8 + 64 * n + hbmLane o, hbmOffset o) := by
  have inHbm : n * (144 * 2 ^ 30) + o < 0x4800000000 := by omega
  have half : (n * (144 * 2 ^ 30) + o) / 0x2400000000 = n := by omega
  have distance : (n * (144 * 2 ^ 30) + o) % 0x2400000000 = o := by omega
  simp only [Dev.locate, if_pos inHbm, half, distance]
  rfl

/-- The channel of a half is channel `lane % 16` of the half's stack `lane / 16`. -/
theorem hbmChannel_eq_stack_channel (n lane : Nat) : 8 + 64 * n + lane = 8 + 16 * (4 * n + lane / 16) + lane % 16 := by
  omega

theorem hbmLane_lt (o : Nat) : hbmLane o < 64 := Nat.mod_lt _ (by decide)

/-- The next block of 1 KiB lies in the next channel of the half, and after the last in the first. -/
theorem hbmLane_add_block (o : Nat) : hbmLane (o + 1024) = (hbmLane o + 1) % 64 := by
  unfold hbmLane
  omega

/-- A channel holds 2.25 GiB of its half's 144 GiB. -/
theorem hbmOffset_lt {o : Nat} (ho : o < 144 * 2 ^ 30) : hbmOffset o < 9 * 2 ^ 28 := by
  unfold hbmOffset
  omega

theorem hbmDistance_lt {lane off : Nat} (hl : lane < 64) (hoff : off < 9 * 2 ^ 28) : hbmDistance lane off < 144 * 2 ^ 30 := by
  unfold hbmDistance
  omega

theorem hbmLane_hbmDistance {lane : Nat} (hl : lane < 64) (off : Nat) : hbmLane (hbmDistance lane off) = lane := by
  unfold hbmLane hbmDistance
  omega

theorem hbmOffset_hbmDistance {lane : Nat} (hl : lane < 64) (off : Nat) : hbmOffset (hbmDistance lane off) = off := by
  unfold hbmOffset hbmDistance
  omega

/-- The channel and the offset together determine the distance: no two addresses of a half share a place. -/
theorem hbmDistance_hbmLane_hbmOffset (o : Nat) : hbmDistance (hbmLane o) (hbmOffset o) = o := by
  unfold hbmDistance hbmLane hbmOffset
  omega

/-- Every offset of every channel of a half belongs to one distance from its base, and to only one. -/
theorem existsUnique_hbm_distance {lane off : Nat} (hl : lane < 64) (hoff : off < 9 * 2 ^ 28) :
    ∃! o, o < 144 * 2 ^ 30 ∧ hbmLane o = lane ∧ hbmOffset o = off := by
  refine ⟨hbmDistance lane off, ⟨hbmDistance_lt hl hoff, hbmLane_hbmDistance hl off, hbmOffset_hbmDistance hl off⟩, ?_⟩
  rintro o ⟨-, rfl, rfl⟩
  exact (hbmDistance_hbmLane_hbmOffset o).symm

/-- Stack k of a half and channel ch of the stack name exactly the half's channel 16 k + ch. -/
theorem hbm_stack_channel_iff {n k ch lane : Nat} (hch : ch < 16) :
    4 * n + lane / 16 = 4 * n + k ∧ lane % 16 = ch ↔ lane = 16 * k + ch := by
  omega

/-- Settles O24: the decode is `Dev.locate_hbm`, and `hbmDistance` is its inverse on each half. -/
theorem hbmAddressDecode : Obligations.HbmAddressDecode := by
  refine ⟨fun d n o hn ho => ?decode, fun n o ho => ⟨hbmLane_add_block o, ?stack, Nat.mod_lt _ (by decide), hbmOffset_lt ho⟩,
    fun n k ch off hk hch hoff => ?once⟩
  case decode =>
    rw [d.locate_hbm hn ho, hbmChannel_eq_stack_channel]
    rfl
  case stack =>
    exact Nat.add_lt_add_left (Nat.div_lt_of_lt_mul (hbmLane_lt o)) _
  case once =>
    obtain ⟨o, ⟨ho, lane, offset⟩, unique⟩ := existsUnique_hbm_distance (lane := 16 * k + ch) (by omega) hoff
    obtain ⟨stack, channel⟩ := (hbm_stack_channel_iff (n := n) hch).mpr lane
    exact ⟨o, ⟨ho, stack, channel, offset⟩, fun o' ho' stack' channel' offset' =>
      unique o' ⟨ho', (hbm_stack_channel_iff hch).mp ⟨stack', channel'⟩, offset'⟩⟩

end Sys2Proof.Machine
end

section
/-! PROOFS. The items of a request: a control operation among others, and the order of service (R206, R260, R262, R272). -/

namespace Sys2Proof.Machine

/-- The operations that R260 has stand alone are BEGIN, COMMIT and ROLLBACK. -/
theorem controlOp_iff (op : Nat) : controlOp op = true ↔ op = 4 ∨ op = 5 ∨ op = 6 := by
  simp only [controlOp, Bool.or_eq_true, beq_iff_eq, or_assoc]

theorem any_controlOp_of_exists {l : List ReqItem} (h : ∃ it ∈ l, it.op = 4 ∨ it.op = 5 ∨ it.op = 6) :
    l.any (fun it => controlOp it.op) = true := by
  obtain ⟨it, mem, control⟩ := h
  exact List.any_eq_true.mpr ⟨it, mem, (controlOp_iff it.op).mpr control⟩

/-- The block with one more request served. -/
def Dev.countRequest (d : Dev) : Dev := { d with dict := { d.dict with replyNo := d.dict.replyNo + 1 } }

/-- The idle time of the open transaction that a request names begins anew (R272); a request that names none restarts none. -/
def Dev.restartIdle (d : Dev) (r : Reply) : Dev :=
  match d.namedTxn r.origin r.txn with
  | some t => if t.state = TxnState.open_ then d.swapTxn t { t with sinceNs := d.ns } else d
  | none => d

/-- The answer that gives every item of a request the status `st` and no value. -/
def Reply.answerEach (r : Reply) (st : Nat) (l : List ReqItem) : Reply :=
  { r with items := l.map (fun it => { op := it.op, status := st, index := it.index, sub := it.sub }) }

/-- Restarting an idle time is a swap of one transaction, or nothing. -/
theorem Dev.restartIdle_cases (d : Dev) (r : Reply) : (∃ t u : Txn, d.restartIdle r = d.swapTxn t u) ∨ d.restartIdle r = d := by
  unfold Dev.restartIdle
  split
  next t _ =>
    split
    · exact .inl ⟨t, _, rfl⟩
    · exact .inr rfl
  next => exact .inr rfl

/-- A transaction's idle time is no response: as many requests wait as before. -/
theorem Dev.restartIdle_unanswered (d : Dev) (r : Reply) (og : Nat) : (d.restartIdle r).unanswered og = d.unanswered og := by
  obtain ⟨t, u, swapped⟩ | unchanged := d.restartIdle_cases r
  · rw [swapped]
    rfl
  · rw [unchanged]

theorem Dev.restartIdle_count (d : Dev) (r : Reply) : (d.restartIdle r).count = d.count := by
  obtain ⟨t, u, swapped⟩ | unchanged := d.restartIdle_cases r
  · rw [swapped]
    rfl
  · rw [unchanged]

/-- R260: where a request is served at all, a control operation among other items makes every item RANGE. -/
theorem Dev.request_control_among_others (d : Dev) (r : Reply) (l : List ReqItem) (running : d.halted = false)
    (room : d.unanswered r.origin < 64) (several : 1 < l.length) (control : l.any (fun it => controlOp it.op) = true) :
    d.request r l = (d.countRequest.restartIdle r).sendReply (r.answerEach 4 l) d.count := by
  have admitted : ¬ 64 ≤ (d.countRequest.restartIdle r).unanswered r.origin := by
    rw [Dev.restartIdle_unanswered]
    exact Nat.not_le.mpr room
  have mixed : (l.any (fun it => controlOp it.op) && decide (1 < l.length)) = true := by
    rw [control, decide_eq_true several]
    rfl
  calc d.request r l
    _ = (d.countRequest.restartIdle r).sendReply (r.answerEach 4 l) (d.countRequest.restartIdle r).count :=
      (if_neg (ne_true_of_eq_false running)).trans ((if_neg admitted).trans (if_pos mixed))
    _ = (d.countRequest.restartIdle r).sendReply (r.answerEach 4 l) d.count := by
      rw [Dev.restartIdle_count]
      rfl

/-- Serving a list is serving its first part and then, on what that leaves, the rest. -/
theorem serveItems_append (n og : Nat) (named : Bool) (l m : List ReqItem) (s : Served) :
    serveItems n og named (l ++ m) s = serveItems n og named m (serveItems n og named l s) :=
  List.foldl_append

/-- Whatever its operation and its outcome, one item adds one answer behind those given before it. -/
theorem serveItems_singleton_items (n og : Nat) (named : Bool) (it : ReqItem) (s : Served) :
    ∃ a : RItem, (serveItems n og named [it] s).items = s.items ++ [a] := by
  simp only [serveItems, List.foldl_cons, List.foldl_nil]
  split
  case h_2 => -- a WRITE that its transaction's state refuses, or one that is staged or fails
    split <;> exact ⟨_, rfl⟩
  case h_1 | h_3 | h_4 => exact ⟨_, rfl⟩

/-- The items of a list add one answer each, behind those given before them. -/
theorem serveItems_items_eq_append (n og : Nat) (named : Bool) (l : List ReqItem) (s : Served) :
    ∃ answers : List RItem, answers.length = l.length ∧ (serveItems n og named l s).items = s.items ++ answers := by
  induction l generalizing s with
  | nil => exact ⟨[], rfl, (List.append_nil _).symm⟩
  | cons it l ih =>
    obtain ⟨a, first⟩ := serveItems_singleton_items n og named it s
    obtain ⟨answers, len, rest⟩ := ih (serveItems n og named [it] s)
    refine ⟨a :: answers, congrArg (· + 1) len, ?_⟩
    calc (serveItems n og named (it :: l) s).items
      _ = (serveItems n og named l (serveItems n og named [it] s)).items := rfl
      _ = s.items ++ a :: answers := by rw [rest, first, List.append_assoc, List.singleton_append]

/-- Settles O20: the refusal is `Dev.request_control_among_others`, the order `serveItems_append`, the answers `serveItems_items_eq_append`. -/
theorem controlOperationsStandAlone : Obligations.ControlOperationsStandAlone := by
  refine ⟨fun d r l running room several control => ?refused, serveItems_append, fun n og named l s => ?answers⟩
  case refused =>
    exact d.request_control_among_others r l running room several (any_controlOp_of_exists control)
  case answers =>
    obtain ⟨answers, len, items⟩ := serveItems_items_eq_append n og named l s
    rw [items]
    exact ⟨by rw [List.length_append, len], List.take_left⟩

end Sys2Proof.Machine
end

section
/-! PROOFS. Over the whole block: what every command keeps, and what a step does with the queue (R13, R14, log entries 1, 3 and 96). -/

namespace Sys2Proof.Machine

/-- From s the command c lets its cycles pass, and then has an effect on the block that is in the relation R. -/
def State.Effects (R : Dev → Dev → Prop) (c : Instr) (s : State) : Prop :=
  ∃ g : Dev → Dev, exec c s = run s c.dt g ∧ ∀ d : Dev, R d (g d)

theorem State.Effects.mono {R S : Dev → Dev → Prop} {c : Instr} {s : State} (weaker : ∀ d e : Dev, R d e → S d e)
    (h : s.Effects R c) : s.Effects S c := by
  obtain ⟨g, runs, effect⟩ := h
  exact ⟨g, runs, fun d => weaker d (g d) (effect d)⟩

/-- The next state of a command is the block after its cycles, changed by its effect, with the queue as it was. -/
theorem State.Effects.next {R : Dev → Dev → Prop} {c : Instr} {s : State} (h : s.Effects R c) :
    ∃ e : Dev, exec c s = .next { s with dev := e } ∧ R (s.dev.pass c.dt) e := by
  obtain ⟨g, runs, effect⟩ := h
  exact ⟨g (s.dev.pass c.dt), runs, effect _⟩

/-- The effect of a quiet command leaves the memory's contents and the count. -/
theorem State.effects_same_of_quiet (c : Instr) (s : State) (quiet : c.quiet = true) : s.Effects Same c := by
  cases c with
  | parityBroadcast => exact execParityBroadcast_same ..
  | replicaRealign => exact execReplicaRealign_same ..
  | timeMarkerInterval => exact execTimeMarkerInterval_same ..
  | ppsEdge => exact execPpsEdge_same ..
  | ptpSync => exact execPtpSync_same ..
  | disciplineMeasurement => exact execDisciplineMeasurement_same ..
  | referenceLoss => exact execReferenceLoss_same ..
  | holdoverLimit => exact execHoldoverLimit_same ..
  | losAssert => exact execLosAssert_same ..
  | losDeassert => exact execLosDeassert_same ..
  | lolAssert => exact execLolAssert_same ..
  | lolDeassert => exact execLolDeassert_same ..
  | alignmentGained => exact execAlignmentGained_same ..
  | alignmentLost => exact execAlignmentLost_same ..
  | upDebounceExpiry => exact execUpDebounceExpiry_same ..
  | downDebounceExpiry => exact execDownDebounceExpiry_same ..
  | flapHoldExpiry => exact execFlapHoldExpiry_same ..
  | refclkStatusChange => exact execRefclkStatusChange_same ..
  | pcieRateChange => exact execPcieRateChange_same ..
  | retuneLimitExpiry => exact execRetuneLimitExpiry_same ..
  | pcieIdleLimitExpiry => exact execPcieIdleLimitExpiry_same ..
  | settleWindowExpiry => exact execSettleWindowExpiry_same ..
  | eyescanPoint => exact execEyescanPoint_same ..
  | receiverDetectPulse => exact execReceiverDetectPulse_same ..
  | spapaxBlock => exact execSpapaxBlock_same ..
  | spapaxStageTimeout => exact execSpapaxStageTimeout_same ..
  | spapaxBackoffExpiry => exact execSpapaxBackoffExpiry_same ..
  | linkManagementFrame => exact execLinkManagementFrame_same ..
  | spapaxFrame => exact execSpapaxFrame_same ..
  | spapaxFrameSend => exact execSpapaxFrameSend_same ..
  | spapaxAckTimeout => exact execSpapaxAckTimeout_same ..
  | spapaxAlignInsert => exact execSpapaxAlignInsert_same ..
  | hostLinkDown => exact execHostLinkDown_same ..
  | pcieCompletionTimeout => exact execPcieCompletionTimeout_same ..
  | pcieRetrain => exact execPcieRetrain_same ..
  | pcieInboundRequest => exact execPcieInboundRequest_same ..
  | vaneFrame => exact execVaneFrame_same ..
  | vaneLockoutExpiry => exact execVaneLockoutExpiry_same ..
  | vaneLinkChange => exact execVaneLinkChange_same ..
  | unitReceived => exact execUnitReceived_same ..
  | foldMaxSpanExpiry => exact execFoldMaxSpanExpiry_same ..
  | recordIngest => exact execRecordIngest_same ..
  | lossRunTimeout => exact execLossRunTimeout_same ..
  | admissionCycle => exact execAdmissionCycle_same ..
  | flushAgeExpiry => exact execFlushAgeExpiry_same ..
  | ringWriteAck => exact execRingWriteAck_same ..
  | flowAgeingVisit => exact execFlowAgeingVisit_same ..
  | quiesceComplete => exact execQuiesceComplete_same ..
  | frontEvaluate => exact execFrontEvaluate_same ..
  | frontTimerExpiry => exact execFrontTimerExpiry_same ..
  | windowEndReached => exact execWindowEndReached_same ..
  | closeLimitExpiry => exact execCloseLimitExpiry_same ..
  | notification => exact execNotification_same ..
  | msixMessage => exact execMsixMessage_same ..
  | txAnchor => exact execTxAnchor_same ..
  | txUnitStart => exact execTxUnitStart_same ..
  | txUnitEnd => exact execTxUnitEnd_same ..
  | hookReturn => exact execHookReturn_same ..
  | hookTimeout => exact execHookTimeout_same ..
  | holdWindowExpiry => exact execHoldWindowExpiry_same ..
  | refresh => exact execRefresh_same ..
  | memoryTemperatureRead => exact execMemoryTemperatureRead_same ..
  | lullDrained => exact execLullDrained_same ..
  | thawRetrainDone => exact execThawRetrainDone_same ..
  | leakPeriod => exact execLeakPeriod_same ..
  | drizzleScrub => exact execDrizzleScrub_same ..
  | subentryAgeExpiry => exact execSubentryAgeExpiry_same ..
  | reassemblyTimeout => exact execReassemblyTimeout_same ..
  | mailboxPost => exact execMailboxPost_same ..
  | mailboxRelease => exact execMailboxRelease_same ..
  | validationStart => exact execValidationStart_same ..
  | validationEnd => exact execValidationEnd_same ..
  | txnIdleTimeout => exact execTxnIdleTimeout_same ..
  | checkpointInterval => exact execCheckpointInterval_same ..
  | checkpointCount => exact execCheckpointCount_same ..
  | keepGroupWrite => exact execKeepGroupWrite_same ..
  | keepPageRefresh => exact execKeepPageRefresh_same ..
  | propose => exact execPropose_same ..
  | verdict => exact execVerdict_same ..
  | schedule => exact execSchedule_same ..
  | shadow => exact execShadow_same ..
  | logbook => exact execLogbook_same ..
  | subentry => exact execSubentry_same ..
  | front => exact execFront_same ..
  | catalogue => exact execCatalogue_same ..
  | resyncBegin => exact execResyncBegin_same ..
  | resyncEnd => exact execResyncEnd_same ..
  | leave => exact execLeave_same ..
  | beatSend => exact execBeatSend_same ..
  | beat => exact execBeat_same ..
  | beatMissed => exact execBeatMissed_same ..
  | twinEvent => exact execTwinEvent_same ..
  | nocTimeout => exact execNocTimeout_same ..
  | nocResponse => exact execNocResponse_same ..
  | postedError => exact execPostedError_same ..
  | flush => exact execFlush_same ..
  | ekicWrite => exact execEkicWrite_same ..
  | ekeqWrite => exact execEkeqWrite_same ..
  | fabricEvent => exact execFabricEvent_same ..
  | userMarkRequest => exact execUserMarkRequest_same ..
  | pePop => exact execPePop_same ..
  | objectSample => exact execObjectSample_same ..
  | objectSampleTimeout => exact execObjectSampleTimeout_same ..
  | ramPortAccess => exact execRamPortAccess_same ..
  | bankVoltageSample => exact execBankVoltageSample_same ..
  | sourceStable => exact execSourceStable_same ..
  | clockMissing => exact execClockMissing_same ..
  | pllLossOfLock => exact execPllLossOfLock_same ..
  | pllLock => exact execPllLock_same ..
  | entropyStartupDone => exact execEntropyStartupDone_same ..
  | firmwareStart => exact execFirmwareStart_same ..
  | persistRestore => exact execPersistRestore_same ..
  | streamData => exact execStreamData_same ..
  | streamTimeout => exact execStreamTimeout_same ..
  | loadStart => exact execLoadStart_same ..
  | loadAbort => exact execLoadAbort_same ..
  | apertureWrite => exact execApertureWrite_same ..
  | startupStep => exact execStartupStep_same ..
  | pllWaitExpiry => exact execPllWaitExpiry_same ..
  | bootComplete => exact execBootComplete_same ..
  | idcode => exact execIdcode_same ..
  | samplePreload => exact execSamplePreload_same ..
  | extest => exact execExtest_same ..
  | extestPulse => exact execExtestPulse_same ..
  | extestTrain => exact execExtestTrain_same ..
  | highz => exact execHighz_same ..
  | clamp => exact execClamp_same ..
  | cfgLoad => exact execCfgLoad_same ..
  | dictPoll => exact execDictPoll_same ..
  | dictRead => exact execDictRead_same ..
  | jtagDebug => exact execJtagDebug_same ..
  | bypass => exact execBypass_same ..
  | fuseBurnDone => exact execFuseBurnDone_same ..
  | vbatLoss => exact execVbatLoss_same ..
  | entropyHealthFailure => exact execEntropyHealthFailure_same ..
  | duaxisFrameError => exact execDuaxisFrameError_same ..
  | duaxisTraining => exact execDuaxisTraining_same ..
  | avsStep => exact execAvsStep_same ..
  | powerFailWarning => exact execPowerFailWarning_same ..
  | powerFailClear => exact execPowerFailClear_same ..
  | diePowerSample => exact execDiePowerSample_same ..
  | domainSwitchTimeout => exact execDomainSwitchTimeout_same ..
  | domainDroop => exact execDomainDroop_same ..
  | thermalSample => exact execThermalSample_same ..
  | ageingSample => exact execAgeingSample_same ..
  | marginMeasure => exact execMarginMeasure_same ..
  | weeklyHistory => exact execWeeklyHistory_same ..
  | poweredTimePersist => exact execPoweredTimePersist_same ..
  | sliceDue => exact execSliceDue_same ..
  | handshakeAck => exact execHandshakeAck_same ..
  | handshakeTimeout => exact execHandshakeTimeout_same ..
  | deferralRetry => exact execDeferralRetry_same ..
  | sliceEnd => exact execSliceEnd_same ..
  | perstAssert => exact execPerstAssert_same ..
  | perstReleaseExpiry => exact execPerstReleaseExpiry_same ..
  | dramTrainingDone => exact execDramTrainingDone_same ..
  | pllLockTimeout => exact execPllLockTimeout_same ..
  | clockReturn => exact execClockReturn_same ..
  | entropyHealthPass => exact execEntropyHealthPass_same ..
  | perstDeassert => exact execPerstDeassert_same ..
  | fabricShadowAck => exact execFabricShadowAck_same ..
  | _ => exact absurd quiet Bool.false_ne_true

/-- The effect of every command keeps the memory canonical, the count a 64-bit number and the objects a map. -/
theorem State.effects_safe (c : Instr) (s : State) : s.Effects Safe c := by
  cases c with
  | disciplineModeSet => exact execDisciplineModeSet_safe ..
  | timebaseSet => exact execTimebaseSet_safe ..
  | quadLayoutSet => exact execQuadLayoutSet_safe ..
  | portModeSet => exact execPortModeSet_safe ..
  | portDirectionSet => exact execPortDirectionSet_safe ..
  | laneEqSet => exact execLaneEqSet_safe ..
  | eyescanStart => exact execEyescanStart_safe ..
  | spapaxEnable => exact execSpapaxEnable_safe ..
  | pcieSurpriseDown => exact execPcieSurpriseDown_safe ..
  | captureFlush => exact execCaptureFlush_safe ..
  | ringWrite => exact execRingWrite_safe ..
  | flowClear => exact execFlowClear_safe ..
  | captureEnable => exact execCaptureEnable_safe ..
  | captureDisable => exact execCaptureDisable_safe ..
  | captureQuiesce => exact execCaptureQuiesce_safe ..
  | captureResume => exact execCaptureResume_safe ..
  | frontRun => exact execFrontRun_safe ..
  | frontIdle => exact execFrontIdle_safe ..
  | retentionTrigger => exact execRetentionTrigger_safe ..
  | promote => exact execPromote_safe ..
  | txStart => exact execTxStart_safe ..
  | txStop => exact execTxStop_safe ..
  | txResume => exact execTxResume_safe ..
  | txForceDown => exact execTxForceDown_safe ..
  | txFetch => exact execTxFetch_safe ..
  | memoryRead => exact execMemoryRead_safe ..
  | memoryWrite => exact execMemoryWrite_safe ..
  | reencryptionLine => exact execReencryptionLine_safe ..
  | caParityFailure => exact execCaParityFailure_safe ..
  | lullEnter => exact execLullEnter_safe ..
  | lullExit => exact execLullExit_safe ..
  | lullRetrainDone => exact execLullRetrainDone_safe ..
  | thaw => exact execThaw_safe ..
  | poisonClear => exact execPoisonClear_safe ..
  | chktestWriteRaw => exact execChktestWriteRaw_safe ..
  | chktestReadRaw => exact execChktestReadRaw_safe ..
  | chktestReadDecoded => exact execChktestReadDecoded_safe ..
  | chktestDramWrite => exact execChktestDramWrite_safe ..
  | chktestDramRead => exact execChktestDramRead_safe ..
  | storeMount => exact execStoreMount_safe ..
  | storeStop => exact execStoreStop_safe ..
  | nvmeCompletion => exact execNvmeCompletion_safe ..
  | adminTimeout => exact execAdminTimeout_safe ..
  | ioTimeout => exact execIoTimeout_safe ..
  | controllerFatal => exact execControllerFatal_safe ..
  | stageDrain => exact execStageDrain_safe ..
  | drainAgeExpiry => exact execDrainAgeExpiry_safe ..
  | flushInterval => exact execFlushInterval_safe ..
  | reclaim => exact execReclaim_safe ..
  | quotaCut => exact execQuotaCut_safe ..
  | remapCopy => exact execRemapCopy_safe ..
  | storeUnpin => exact execStoreUnpin_safe ..
  | unpinAll => exact execUnpinAll_safe ..
  | sessionRelease => exact execSessionRelease_safe ..
  | controllerReset => exact execControllerReset_safe ..
  | adminCommand => exact execAdminCommand_safe ..
  | namespaceInitialise => exact execNamespaceInitialise_safe ..
  | queryStart => exact execQueryStart_safe ..
  | queryContinue => exact execQueryContinue_safe ..
  | queryAbort => exact execQueryAbort_safe ..
  | queryScan => exact execQueryScan_safe ..
  | vanePdu => exact execVanePdu_safe ..
  | mailboxTake => exact execMailboxTake_safe ..
  | read => exact execRead_safe ..
  | write => exact execWrite_safe ..
  | describe => exact execDescribe_safe ..
  | beginTxn => exact execBeginTxn_safe ..
  | commit => exact execCommit_safe ..
  | rollback => exact execRollback_safe ..
  | commitTick => exact execCommitTick_safe ..
  | objectWrite => exact execObjectWrite_safe ..
  | logbookCheckpoint => exact execLogbookCheckpoint_safe ..
  | windowAccess => exact execWindowAccess_safe ..
  | authKeyWrite => exact execAuthKeyWrite_safe ..
  | extent => exact execExtent_safe ..
  | storageTakeover => exact execStorageTakeover_safe ..
  | twinAlign => exact execTwinAlign_safe ..
  | twinLeave => exact execTwinLeave_safe ..
  | twinTakeover => exact execTwinTakeover_safe ..
  | adoptStorage => exact execAdoptStorage_safe ..
  | coreRun => exact execCoreRun_safe ..
  | coreReset => exact execCoreReset_safe ..
  | fabricDictionaryRequest => exact execFabricDictionaryRequest_safe ..
  | pllHoldoverExpiry => exact execPllHoldoverExpiry_safe ..
  | clockRevert => exact execClockRevert_safe ..
  | clockGate => exact execClockGate_safe ..
  | deviceReset => exact execDeviceReset_safe ..
  | programPin => exact execProgramPin_safe ..
  | powerGood => exact execPowerGood_safe ..
  | dictPost => exact execDictPost_safe ..
  | devreset => exact execDevreset_safe ..
  | readbackFrame => exact execReadbackFrame_safe ..
  | watchdogExpiry => exact execWatchdogExpiry_safe ..
  | fwUpdate => exact execFwUpdate_safe ..
  | reconfigure => exact execReconfigure_safe ..
  | reconfigureDelayExpiry => exact execReconfigureDelayExpiry_safe ..
  | fuseProgram => exact execFuseProgram_safe ..
  | bbramErase => exact execBbramErase_safe ..
  | keyRevoke => exact execKeyRevoke_safe ..
  | railFault => exact execRailFault_safe ..
  | domainOn => exact execDomainOn_safe ..
  | domainOff => exact execDomainOff_safe ..
  | domainSwitchDone => exact execDomainSwitchDone_safe ..
  | runNow => exact execRunNow_safe ..
  | clearPermanent => exact execClearPermanent_safe ..
  | clearSuspect => exact execClearSuspect_safe ..
  | pcieLinkUp => exact execPcieLinkUp_safe ..
  | controllerReady => exact execControllerReady_safe ..
  | _ => exact (s.effects_same_of_quiet _ rfl).mono (fun _ _ => Same.safe)

/-- A command answers exactly one next state: one whose block its effect relates to the block after its cycles. -/
theorem State.Effects.of_next {R : Dev → Dev → Prop} {c : Instr} {s t : State} (h : s.Effects R c) (answers : exec c s = .next t) :
    R (s.dev.pass c.dt) t.dev ∧ t.pending = s.pending := by
  obtain ⟨e, next, effect⟩ := h.next
  obtain rfl : ({ s with dev := e } : State) = t := Host.Outcome.next.inj (next.symm.trans answers)
  exact ⟨effect, rfl⟩

/-- The passing of time keeps what the invariant says of the block. -/
theorem Dev.Ok.pass {d : Dev} (ok : d.Ok) (dt : Nat) : (d.pass dt).Ok := by
  obtain ⟨count, memory, objects⟩ := ok
  refine ⟨?_, ?_, (d.pass_spec dt).2.2.2.2 objects⟩
  · rw [Dev.pass_count d dt count]
    exact Nat.mod_lt _ (by decide)
  · rw [Dev.pass_cells]
    exact memory

/-- A safe effect keeps what the invariant says of the block. -/
theorem Dev.Ok.of_safe {d e : Dev} (ok : d.Ok) (safe : Safe d e) : e.Ok := by
  obtain ⟨count, memory, objects⟩ := ok
  exact ⟨safe.count count, safe.cells memory, safe.objs objects⟩

theorem step_of_pending_nil {s : State} (idle : s.pending = []) : step s = .next { s with dev := s.dev.pass 1 } := by
  unfold step
  rw [idle]

theorem step_of_pending_cons {s : State} {c : Instr} {rest : List Instr} (front : s.pending = c :: rest) :
    step s = exec c { s with pending := rest } := by
  unfold step
  rw [front]

/-- What a step can do: with no command waiting one cycle passes; otherwise the command in front leaves the queue, its cycles pass, and
its effect is safe. -/
theorem step_cases {s t : State} (answers : step s = .next t) :
    (s.pending = [] ∧ t.pending = [] ∧ t.dev = s.dev.pass 1) ∨
    ∃ c rest, s.pending = c :: rest ∧ t.pending = rest ∧ Safe (s.dev.pass c.dt) t.dev := by
  cases front : s.pending with
  | nil =>
    rw [step_of_pending_nil front] at answers
    obtain rfl := Host.Outcome.next.inj answers
    exact .inl ⟨rfl, front, rfl⟩
  | cons c rest =>
    rw [step_of_pending_cons front] at answers
    obtain ⟨safe, queue⟩ := (State.effects_safe c _).of_next answers
    exact .inr ⟨c, rest, rfl, queue, safe⟩

/-- Settles O6: both the passing of time and a safe effect keep the invariant (`Dev.Ok.pass`, `Dev.Ok.of_safe`). -/
theorem invariantKept : Obligations.InvariantKept := by
  intro s t inv answers
  obtain ⟨_, _, idle⟩ | ⟨c, rest, _, _, safe⟩ := step_cases answers
  · rw [State.Inv, idle]
    exact Dev.Ok.pass inv 1
  · exact (Dev.Ok.pass inv c.dt).of_safe safe

/-- Settles O7: the effect of every command is a function of the block (`State.effects_safe`), so it answers a next state. -/
theorem everyCommandCompletes : Obligations.EveryCommandCompletes := by
  intro c s
  obtain ⟨e, next, safe⟩ := (State.effects_safe c s).next
  obtain ⟨_, _, _, free, _⟩ := s.dev.pass_spec c.dt
  exact ⟨_, next, rfl, safe.ns.trans (Dev.pass_ns ..), Nat.le_trans free safe.free⟩

/-- Settles O8: the cycles of a quiet command advance the count, and its effect is `Same`. -/
theorem quietCommandsFrame : Obligations.QuietCommandsFrame := by
  intro c s t count quiet answers
  obtain ⟨same, _⟩ := (State.effects_same_of_quiet c s quiet).of_next answers
  refine ⟨same.count.trans (Dev.pass_count _ _ count), fun a => ?_⟩
  rw [same.cells, Dev.pass_cells]

/-- Settles O1. -/
theorem stepRunsFront : Obligations.StepRunsFront :=
  fun _ _ _ => step_of_pending_cons

/-- Settles O2: an idle step is `Dev.pass 1`, of which `Dev.pass_spec` says what it does to the time, the count and the memory. -/
theorem idleStepCounts : Obligations.IdleStepCounts := by
  intro s idle
  refine ⟨step_of_pending_nil idle, Dev.pass_ns _ 1, Dev.pass_count _ 1, fun a => ?_⟩
  rw [Dev.pass_cells]

/-- Settles O4: every field of the reset state is its default, so every lookup finds nothing. -/
theorem resetState : Obligations.ResetState :=
  ⟨rfl, rfl, rfl, rfl, fun _ _ _ _ => rfl, fun _ => rfl, fun _ => rfl, fun _ => rfl, fun _ => rfl, rfl, rfl⟩

/-- Settles O5. -/
theorem resetInvariant : Obligations.ResetInvariant :=
  ⟨⟨Nat.two_pow_pos 64, reset_memory_wf, rfl⟩, rfl⟩

/-- Settles O10: an idle step leaves the queue, and any other leaves the commands behind the one in front. -/
theorem queueStaysWellFormed : Obligations.QueueStaysWellFormed := by
  intro s t queue answers
  obtain ⟨_, none, _⟩ | ⟨c, rest, front, left, _⟩ := step_cases answers
  · rw [State.queueOk, none]
    rfl
  · rw [State.queueOk, front, List.all_cons, Bool.and_eq_true] at queue
    rw [State.queueOk, left]
    exact queue.2

/-- Settles O12. -/
theorem objectsHoldWhatIsPut : Obligations.ObjectsHoldWhatIsPut :=
  fun d o p v a b c _ _ _ => ⟨d.put_val o v a b c, d.put_val_ne o p v, rfl⟩

end Sys2Proof.Machine
end

section
/-! PROOFS. The Hsiao code over an SRAM word (R182): its columns are distinct and of odd weight, so one changed bit has its own syndrome and two
have a syndrome of even weight that is not 0. -/

namespace Sys2Proof.Machine

/-! Weights. -/

theorem ones_zero_right (n : Nat) : ones n 0 = 0 := by
  induction n with
  | zero => rfl
  | succ n ih => rw [ones, Nat.zero_mod, Nat.zero_div, ih]

/-- Bits above those of a number add nothing to its weight. -/
theorem ones_add_of_lt {r v : Nat} (k : Nat) (h : v < 2 ^ r) : ones (r + k) v = ones r v := by
  induction r generalizing v with
  | zero => rw [Nat.lt_one_iff.mp h, ones_zero_right, ones_zero_right]
  | succ r ih => rw [Nat.add_right_comm, ones, ones, ih (by omega)]

theorem ones_eight_of_lt {r v : Nat} (hr : r ≤ 8) (h : v < 2 ^ r) : ones 8 v = ones r v := by
  rw [← ones_add_of_lt (8 - r) h, Nat.add_sub_cancel' hr]

/-- The weight of a sum modulo 2 is that of its parts, modulo 2. -/
theorem ones_xor_mod_two (n a b : Nat) : ones n (a ^^^ b) % 2 = (ones n a + ones n b) % 2 := by
  induction n generalizing a b with
  | zero => rfl
  | succ n ih =>
    have rest := ih (a / 2) (b / 2)
    have low : (a ^^^ b) % 2 = (a % 2 + b % 2) % 2 := by rw [Nat.xor_mod_two_eq, Nat.add_mod]
    rw [ones, ones, ones, Nat.xor_div_two]
    omega

theorem ones_two_pow {n j : Nat} (h : j < n) : ones n (2 ^ j) = 1 := by
  induction n generalizing j with
  | zero => omega
  | succ n ih =>
    cases j with
    | zero => exact congrArg (1 + ·) (ones_zero_right n)
    | succ j => rw [ones, pow_succ, Nat.mul_mod_left, Nat.mul_div_cancel _ (by decide), ih (by omega), Nat.zero_add]

/-! The free picks. -/

/-- As many columns are picked as are asked for and there are. -/
theorem hsiaoPick_length (k i : Nat) (l : List Nat) : (hsiaoPick k i l).length = min k l.length := by
  induction k generalizing i l with
  | zero => rw [hsiaoPick, List.length_nil, Nat.zero_min]
  | succ k ih =>
    rw [hsiaoPick]
    split
    next none =>
      have empty : l.length = 0 := by
        by_contra ne
        exact absurd (List.getElem?_eq_none_iff.mp none) (Nat.not_le.mpr (Nat.mod_lt _ (Nat.pos_of_ne_zero ne)))
      rw [empty, List.length_nil, Nat.min_zero]
    next c some =>
      have member : c ∈ l := List.mem_of_getElem? some
      have pos : 0 < l.length := List.length_pos_of_mem member
      rw [List.length_cons, ih, List.length_erase_of_mem member]
      omega

theorem mem_of_mem_hsiaoPick {k i c : Nat} {l : List Nat} (h : c ∈ hsiaoPick k i l) : c ∈ l := by
  induction k generalizing i l with
  | zero => exact absurd h List.not_mem_nil
  | succ k ih =>
    rw [hsiaoPick] at h
    split at h
    next => exact absurd h List.not_mem_nil
    next c' some =>
      obtain rfl | later := List.mem_cons.mp h
      · exact List.mem_of_getElem? some
      · exact List.mem_of_mem_erase (ih later)

theorem hsiaoPick_nodup (k i : Nat) {l : List Nat} (h : l.Nodup) : (hsiaoPick k i l).Nodup := by
  induction k generalizing i l with
  | zero => exact List.nodup_nil
  | succ k ih =>
    rw [hsiaoPick]
    split
    next => exact List.nodup_nil
    next c some =>
      exact List.nodup_cons.mpr ⟨fun again => h.not_mem_erase (mem_of_mem_hsiaoPick again), ih (i + 1) (h.erase c)⟩

/-! The columns of the data bits. -/

/-- The columns of r bits that have a weight. -/
def columnsOf (r w : Nat) : List Nat := (upTo (2 ^ r)).filter (fun v => ones r v == w)

/-- Columns of a weight join those of lower weights, until there are n. -/
def addColumns (n r : Nat) (cols : List Nat) (w : Nat) : List Nat :=
  cols ++ hsiaoPick (n - cols.length) cols.length (columnsOf r w)

theorem hsiaoColumns_eq (n : Nat) : hsiaoColumns n = [3, 5, 7].foldl (addColumns n (hsiaoBits n)) [] := rfl

theorem mem_columnsOf {r w c : Nat} : c ∈ columnsOf r w ↔ c < 2 ^ r ∧ ones r c = w := by
  rw [columnsOf, List.mem_filter, upTo, List.mem_range, beq_iff_eq]

theorem columnsOf_nodup (r w : Nat) : (columnsOf r w).Nodup := List.nodup_range.filter _

theorem foldl_addColumns_length {n : Nat} (r : Nat) (ws acc : List Nat) (h : acc.length ≤ n) :
    (ws.foldl (addColumns n r) acc).length = min n (acc.length + (ws.map (fun w => (columnsOf r w).length)).sum) := by
  induction ws generalizing acc with
  | nil => simp only [List.foldl_nil, List.map_nil, List.sum_nil]; omega
  | cons w ws ih =>
    have len : (addColumns n r acc w).length = acc.length + min (n - acc.length) (columnsOf r w).length := by
      rw [addColumns, List.length_append, hsiaoPick_length]
    rw [List.foldl_cons, ih _ (by omega), len, List.map_cons, List.sum_cons]
    omega

theorem mem_foldl_addColumns {n r c : Nat} {ws acc : List Nat} (h : c ∈ ws.foldl (addColumns n r) acc) :
    c ∈ acc ∨ ∃ w ∈ ws, c ∈ columnsOf r w := by
  induction ws generalizing acc with
  | nil => exact .inl h
  | cons w ws ih =>
    obtain here | ⟨w', hw', later⟩ := ih h
    · obtain before | picked := List.mem_append.mp here
      · exact .inl before
      · exact .inr ⟨w, List.mem_cons_self, mem_of_mem_hsiaoPick picked⟩
    · exact .inr ⟨w', List.mem_cons_of_mem _ hw', later⟩

theorem foldl_addColumns_nodup {n r : Nat} {ws acc : List Nat} (distinct : ws.Nodup) (h : acc.Nodup)
    (lighter : ∀ c ∈ acc, ones r c ∉ ws) : (ws.foldl (addColumns n r) acc).Nodup := by
  induction ws generalizing acc with
  | nil => exact h
  | cons w ws ih =>
    obtain ⟨fresh, distinct⟩ := List.nodup_cons.mp distinct
    have weight : ∀ c ∈ hsiaoPick (n - acc.length) acc.length (columnsOf r w), ones r c = w :=
      fun c hc => (mem_columnsOf.mp (mem_of_mem_hsiaoPick hc)).2
    refine ih distinct (h.append (hsiaoPick_nodup _ _ (columnsOf_nodup r w)) ?apart) ?above
    case apart =>
      intro c old new
      exact lighter c old (List.mem_cons.mpr (.inl (weight c new)))
    case above =>
      intro c hc
      obtain old | new := List.mem_append.mp hc
      · exact fun later => lighter c old (List.mem_cons_of_mem _ later)
      · rw [weight c new]
        exact fresh

/-- 3 to 8 check bits cover 1 to 64 data bits: with r check bits there are 2^(r-1) columns of odd weight, r of them the check bits'. -/
theorem hsiaoBits_covers : ∀ n : Nat, n < 65 → 1 ≤ n → 3 ≤ hsiaoBits n ∧ hsiaoBits n ≤ 8 ∧ n + hsiaoBits n ≤ 2 ^ (hsiaoBits n - 1) := by
  decide

/-- Of the 2^(r-1) columns of odd weight all but r have weight 3, 5 or 7. -/
theorem columnsOf_total : ∀ r : Nat, r < 9 → 3 ≤ r →
    ([3, 5, 7].map (fun w => (columnsOf r w).length)).sum + r = 2 ^ (r - 1) := by
  decide

/-- There is a column for each data bit. -/
theorem hsiaoColumns_length {n : Nat} (h1 : 1 ≤ n) (h64 : n ≤ 64) : (hsiaoColumns n).length = n := by
  obtain ⟨low, high, covers⟩ := hsiaoBits_covers n (by omega) h1
  have total := columnsOf_total (hsiaoBits n) (by omega) low
  rw [hsiaoColumns_eq, foldl_addColumns_length _ _ _ (Nat.zero_le n), List.length_nil]
  omega

theorem hsiaoColumns_nodup (n : Nat) : (hsiaoColumns n).Nodup :=
  foldl_addColumns_nodup (by decide) List.nodup_nil (fun _ h => absurd h List.not_mem_nil)

/-- The column of a data bit has weight 3, 5 or 7. -/
theorem ones_of_mem_hsiaoColumns {n c : Nat} (h1 : 1 ≤ n) (h64 : n ≤ 64) (h : c ∈ hsiaoColumns n) : ones 8 c ∈ [3, 5, 7] := by
  obtain ⟨_, high, _⟩ := hsiaoBits_covers n (by omega) h1
  obtain none | ⟨w, hw, column⟩ := mem_foldl_addColumns h
  · exact absurd none List.not_mem_nil
  · obtain ⟨lt, weight⟩ := mem_columnsOf.mp column
    rw [ones_eight_of_lt high lt, weight]
    exact hw

/-! Syndromes. -/

/-- What the columns from data bit k on add to the check bits c of a word v. -/
def addChecks (cols : List Nat) (k v c : Nat) : Nat :=
  (cols.zipIdx k).foldl (fun c x => if v.testBit x.2 then Nat.xor c x.1 else c) c

theorem hsiaoCheck_eq (n v : Nat) : hsiaoCheck n v = addChecks (hsiaoColumns n) 0 v 0 := rfl

theorem addChecks_cons (col : Nat) (cols : List Nat) (k v c : Nat) :
    addChecks (col :: cols) k v c = addChecks cols (k + 1) v (if v.testBit k then c ^^^ col else c) := rfl

/-- What is added does not depend on what is there. -/
theorem addChecks_xor (cols : List Nat) (k v c x : Nat) : addChecks cols k v (c ^^^ x) = addChecks cols k v c ^^^ x := by
  induction cols generalizing k c with
  | nil => rfl
  | cons col cols ih =>
    rw [addChecks_cons, addChecks_cons, ← ih]
    split
    · rw [Nat.xor_right_comm]
    · rfl

theorem testBit_xor_two_pow (v p i : Nat) : (v ^^^ 2 ^ p).testBit i = (v.testBit i ^^ decide (p = i)) := by
  rw [Nat.testBit_xor, Nat.testBit_two_pow]

/-- Only the bits from k on count. -/
theorem addChecks_flip_below (cols : List Nat) {k p : Nat} (v c : Nat) (h : p < k) :
    addChecks cols k (v ^^^ 2 ^ p) c = addChecks cols k v c := by
  induction cols generalizing k c with
  | nil => rfl
  | cons col cols ih =>
    have kept : (v ^^^ 2 ^ p).testBit k = v.testBit k := by
      rw [testBit_xor_two_pow, decide_eq_false (Nat.ne_of_lt h), Bool.xor_false]
    rw [addChecks_cons, addChecks_cons, kept, ih _ (Nat.lt_succ_of_lt h)]

/-- A changed data bit adds its column to the check bits. -/
theorem addChecks_flip (cols : List Nat) (k v c : Nat) {j : Nat} (h : j < cols.length) :
    addChecks cols k (v ^^^ 2 ^ (k + j)) c = addChecks cols k v c ^^^ cols[j] := by
  induction cols generalizing k c j with
  | nil => exact absurd h (Nat.not_lt_zero j)
  | cons col cols ih =>
    rw [addChecks_cons, addChecks_cons]
    cases j with
    | zero =>
      rw [show k + 0 = k from rfl, addChecks_flip_below _ _ _ (Nat.lt_add_one k), ← addChecks_xor, testBit_xor_two_pow, decide_eq_true rfl,
        Bool.xor_true, List.getElem_cons_zero]
      cases v.testBit k with
      | true => exact congrArg _ (Nat.xor_xor_cancel_right ..).symm
      | false => rfl
    | succ j =>
      have kept : (v ^^^ 2 ^ (k + (j + 1))).testBit k = v.testBit k := by
        rw [testBit_xor_two_pow, decide_eq_false (by omega), Bool.xor_false]
      have later := ih (k + 1) (if v.testBit k then c ^^^ col else c) (Nat.lt_of_succ_lt_succ h)
      rw [kept, List.getElem_cons_succ, ← later, Nat.add_right_comm, Nat.add_assoc]

/-- The column of a bit of the code word: a data bit's, or a check bit's, which has that bit alone. -/
def codeColumn (n p : Nat) : Nat := if p < n then (hsiaoColumns n).getD p 0 else 2 ^ (p - n)

/-- The word with a bit of the code word changed, where it is a data bit. -/
def flipData (n v p : Nat) : Nat := if p < n then v ^^^ 2 ^ p else v

/-- The check bits with a bit of the code word changed, where it is a check bit. -/
def flipCheck (n c p : Nat) : Nat := if p < n then c else c ^^^ 2 ^ (p - n)

/-- What the decoder computes first: the check bits read, against those of the word read. -/
def syndrome (n v c : Nat) : Nat := c ^^^ hsiaoCheck n v

theorem codeColumn_data {n p : Nat} (h1 : 1 ≤ n) (h64 : n ≤ 64) (h : p < n) :
    codeColumn n p = (hsiaoColumns n)[p]'(by rwa [hsiaoColumns_length h1 h64]) := by
  rw [codeColumn, if_pos h, List.getD_eq_getElem]

/-- A changed bit adds its column to the syndrome. -/
theorem syndrome_flip {n p : Nat} (h1 : 1 ≤ n) (h64 : n ≤ 64) (v c : Nat) :
    syndrome n (flipData n v p) (flipCheck n c p) = syndrome n v c ^^^ codeColumn n p := by
  unfold syndrome flipData flipCheck
  by_cases h : p < n
  · have added := addChecks_flip (hsiaoColumns n) 0 v 0 (j := p) (by rwa [hsiaoColumns_length h1 h64])
    rw [Nat.zero_add] at added
    rw [if_pos h, if_pos h, hsiaoCheck_eq, hsiaoCheck_eq, added, codeColumn_data h1 h64 h, Nat.xor_assoc]
  · rw [if_neg h, if_neg h, codeColumn, if_neg h, Nat.xor_right_comm]

theorem ones_codeColumn_odd {n p : Nat} (h1 : 1 ≤ n) (h64 : n ≤ 64) (h : p < n + hsiaoBits n) : ones 8 (codeColumn n p) % 2 = 1 := by
  obtain ⟨_, high, _⟩ := hsiaoBits_covers n (by omega) h1
  by_cases data : p < n
  · have weight := ones_of_mem_hsiaoColumns h1 h64 (List.getElem_mem (by rwa [hsiaoColumns_length h1 h64] : p < (hsiaoColumns n).length))
    rw [← codeColumn_data h1 h64 data] at weight
    generalize ones 8 (codeColumn n p) = w at weight
    revert w
    decide
  · rw [codeColumn, if_neg data, ones_two_pow (by omega)]

/-- A check bit's column has weight 1, a data bit's has not. -/
theorem ones_codeColumn_eq_one_iff {n p : Nat} (h1 : 1 ≤ n) (h64 : n ≤ 64) (h : p < n + hsiaoBits n) :
    ones 8 (codeColumn n p) = 1 ↔ ¬ p < n := by
  obtain ⟨_, high, _⟩ := hsiaoBits_covers n (by omega) h1
  by_cases data : p < n
  · have weight := ones_of_mem_hsiaoColumns h1 h64 (List.getElem_mem (by rwa [hsiaoColumns_length h1 h64] : p < (hsiaoColumns n).length))
    rw [← codeColumn_data h1 h64 data] at weight
    exact iff_of_false (fun one => absurd (one ▸ weight) (by decide)) (not_not_intro data)
  · exact iff_of_true (by rw [codeColumn, if_neg data, ones_two_pow (by omega)]) data

/-- The bits of the code word have distinct columns. -/
theorem codeColumn_injective {n p q : Nat} (h1 : 1 ≤ n) (h64 : n ≤ 64) (hp : p < n + hsiaoBits n) (hq : q < n + hsiaoBits n)
    (same : codeColumn n p = codeColumn n q) : p = q := by
  have kind : ¬ p < n ↔ ¬ q < n := by
    rw [← ones_codeColumn_eq_one_iff h1 h64 hp, ← ones_codeColumn_eq_one_iff h1 h64 hq, same]
  by_cases data : p < n
  · have data' : q < n := not_not.mp (fun no => kind.mpr no data)
    rw [codeColumn_data h1 h64 data, codeColumn_data h1 h64 data'] at same
    exact (hsiaoColumns_nodup n).getElem_inj_iff.mp same
  · have data' := kind.mp data
    rw [codeColumn, codeColumn, if_neg data, if_neg data'] at same
    have := Nat.pow_right_injective (le_refl 2) same
    omega

/-! The decoder. -/

theorem hsiaoDecode_clean {n v c : Nat} (h : syndrome n v c = 0) : hsiaoDecode n v c = (.clean, v) :=
  if_pos h

/-- A syndrome of weight 1 is that of a check bit: the word stands. -/
theorem hsiaoDecode_check {n v c : Nat} (one : ones 8 (syndrome n v c) = 1) : hsiaoDecode n v c = (.corrected, v) := by
  have nonzero : syndrome n v c ≠ 0 := fun zero => absurd (zero ▸ one) (by decide)
  exact (if_neg nonzero).trans (if_pos one)

/-- A syndrome that is the column of a data bit has that bit changed back. -/
theorem hsiaoDecode_data {n v c p : Nat} (h : p < (hsiaoColumns n).length) (column : syndrome n v c = (hsiaoColumns n)[p])
    (heavy : 1 < ones 8 (syndrome n v c)) : hsiaoDecode n v c = (.corrected, v ^^^ 2 ^ p) := by
  have nonzero : syndrome n v c ≠ 0 := fun zero => absurd (zero ▸ heavy) (by decide)
  have found : (hsiaoColumns n).findIdx? (fun col => col == syndrome n v c) = some p := by
    rw [List.findIdx?_eq_some_iff_getElem]
    refine ⟨h, by rw [column, beq_self_eq_true], fun j hj again => ?_⟩
    rw [column, beq_iff_eq, (hsiaoColumns_nodup n).getElem_inj_iff] at again
    exact absurd again (Nat.ne_of_lt hj)
  refine (if_neg nonzero).trans ((if_neg (Nat.ne_of_gt heavy)).trans ?_)
  change (match (hsiaoColumns n).findIdx? (fun col => col == syndrome n v c) with | some i => _ | none => _) = _
  rw [found]
  rfl

/-- A syndrome of even weight that is not 0 is no column's. -/
theorem hsiaoDecode_even {n v c : Nat} (h1 : 1 ≤ n) (h64 : n ≤ 64) (nonzero : syndrome n v c ≠ 0)
    (even : ones 8 (syndrome n v c) % 2 = 0) : hsiaoDecode n v c = (.uncorrectable, 0) := by
  have absent : (hsiaoColumns n).findIdx? (fun col => col == syndrome n v c) = none := by
    rw [List.findIdx?_eq_none_iff]
    intro col member
    rw [beq_eq_false_iff_ne]
    rintro rfl
    have weight := ones_of_mem_hsiaoColumns h1 h64 member
    generalize ones 8 _ = w at weight even
    revert w
    decide
  refine (if_neg nonzero).trans ((if_neg (fun one => absurd (one ▸ even) (by decide))).trans ?_)
  change (match (hsiaoColumns n).findIdx? (fun col => col == syndrome n v c) with | some i => _ | none => _) = _
  rw [absent]

/-- Settles O28: each bit changed adds its column to the syndrome (`syndrome_flip`), which is 0 for a word as it was encoded. -/
theorem sramCodeCorrects : Obligations.SramCodeCorrects := by
  refine ⟨by decide, fun n v h1 h64 _ => ?_⟩
  have encoded : syndrome n v (hsiaoCheck n v) = 0 := Nat.xor_self _
  have once : ∀ p, syndrome n (flipData n v p) (flipCheck n (hsiaoCheck n v) p) = codeColumn n p := by
    intro p
    rw [syndrome_flip h1 h64, encoded, Nat.zero_xor]
  refine ⟨hsiaoDecode_clean encoded, fun p hp => ?single, fun p q hpq hq => ?double⟩
  case single =>
    change hsiaoDecode n (flipData n v p) (flipCheck n (hsiaoCheck n v) p) = _
    have weight := ones_codeColumn_eq_one_iff h1 h64 hp
    have odd := ones_codeColumn_odd h1 h64 hp
    rw [← once p] at weight odd
    by_cases data : p < n
    · rw [hsiaoDecode_data (by rwa [hsiaoColumns_length h1 h64]) ((once p).trans (codeColumn_data h1 h64 data)) (by omega), flipData,
        if_pos data, Nat.xor_xor_cancel_right]
    · rw [hsiaoDecode_check (weight.mpr data), flipData, if_neg data]
  case double =>
    change hsiaoDecode n (flipData n (flipData n v p) q) (flipCheck n (flipCheck n (hsiaoCheck n v) p) q) = _
    have hp : p < n + hsiaoBits n := Nat.lt_trans hpq hq
    have twice : syndrome n (flipData n (flipData n v p) q) (flipCheck n (flipCheck n (hsiaoCheck n v) p) q) =
        codeColumn n p ^^^ codeColumn n q := by
      rw [syndrome_flip h1 h64, once p]
    refine hsiaoDecode_even h1 h64 ?distinct ?even <;> rw [twice]
    case distinct =>
      exact fun zero => Nat.ne_of_lt hpq (codeColumn_injective h1 h64 hp hq (Nat.xor_eq_zero_iff.mp zero))
    case even =>
      rw [ones_xor_mod_two, Nat.add_mod, ones_codeColumn_odd h1 h64 hp, ones_codeColumn_odd h1 h64 hq]

end Sys2Proof.Machine
end

section
/-! PROOFS. The Logbook ring (R277): an entry changes the dictionary service's own state, and beside it only what a twin is sent. -/

namespace Sys2Proof.Machine

/-- Frames that are queued change the links alone. -/
theorem Dev.foldl_queueFrame_eq (i cls : Nat) (l : List (List Byte)) (d : Dev) :
    ∃ links : LinkSt, l.foldl (fun d b => d.queueFrame i cls b) d = { d with links := links } := by
  induction l generalizing d with
  | nil => exact ⟨d.links, rfl⟩
  | cons b l ih =>
    obtain ⟨links, later⟩ := ih (d.queueFrame i cls b)
    exact ⟨links, later⟩

/-- A mirror message changes the links and what the pair holds. -/
theorem Dev.mirror_eq (d : Dev) (kind status count txn : Nat) (entries : List Byte) :
    ∃ (links : LinkSt) (twin : TwinSt), d.mirror kind status count txn entries = { d with links := links, twin := twin } := by
  unfold Dev.mirror
  extract_lets n h l
  split
  · obtain ⟨links, queued⟩ := Dev.foldl_queueFrame_eq twinPort 1 (framesOf (l.length / 4088 + 1) l) { d with twin := { d.twin with txMsg := n } }
    exact ⟨links, _, queued⟩
  · exact ⟨d.links, d.twin, rfl⟩

/-- An entry as the Logbook takes it: under the next ENTRY_SEQ and the present boot count, with the side of the pair. -/
def Dev.numbered (d : Dev) (e : LogEntry) : LogEntry :=
  { e with seq := d.dict.logSeq, boot := d.nat O.identityBootCount, flags := Nat.lor e.flags (if d.side = 1 then 8 else 0) }

/-- Making an entry changes the dictionary service's own state, the links and what the pair holds. -/
theorem Dev.logEntry_eq (d : Dev) (e : LogEntry) :
    ∃ (links : LinkSt) (twin : TwinSt) (toStream : List LogEntry) (streamLost : Bool), d.logEntry e =
      { d with links := links, twin := twin, dict := { d.dict with
          log := newest 65536 (d.dict.log ++ [d.numbered e]), logSeq := (d.dict.logSeq + 1) % 2 ^ 32,
          toStream := toStream, streamLost := streamLost } } := by
  unfold Dev.logEntry
  extract_lets e' on q g d'
  split
  · obtain ⟨links, twin, mirrored⟩ := d'.mirror_eq 5 0 1 0 e'.bytes
    exact ⟨links, twin, _, _, mirrored⟩
  · exact ⟨d.links, d.twin, _, _, rfl⟩

theorem length_newest_le {α : Type} (n : Nat) (l : List α) : (newest n l).length ≤ n := by
  rw [newest, List.length_drop]
  omega

/-- The newest elements end as the list does. -/
theorem getLast?_newest_concat {α : Type} {n : Nat} (l : List α) (x : α) (h : 0 < n) : (newest n (l ++ [x])).getLast? = some x := by
  rw [newest, List.getLast?_drop, if_neg (by rw [List.length_append, List.length_singleton]; omega), List.getLast?_concat]

/-- R277: the fields of an entry take 60 bytes, and their CRC the last 4. -/
theorem LogEntry.bytes_length (e : LogEntry) : e.bytes.length = 64 := by
  unfold LogEntry.bytes
  extract_lets b
  have fields : b.length = 60 := by simp only [b, List.length_append, leBytes_length, fit_length]
  rw [List.length_append, fields, leBytes_length]

/-- Settles O13. -/
theorem logbookRing : Obligations.LogbookRing := by
  intro d e
  obtain ⟨links, twin, toStream, streamLost, made⟩ := d.logEntry_eq e
  rw [made]
  dsimp only
  exact ⟨rfl, length_newest_le .., getLast?_newest_concat _ _ (by decide), rfl, LogEntry.bytes_length _, rfl, rfl⟩

end Sys2Proof.Machine
end

section
/-! PROOFS. Records on their way to the ingest buffer: their place among those that wait, and the SEQ they then take (R80, R83, R97). -/

namespace Sys2Proof.Machine

/-- What is inserted stands behind every element that it does not precede and in front of the first that it does. -/
theorem insertBy_eq_append {α : Type} (lt : α → α → Bool) (x : α) (l : List α) :
    ∃ front back : List α, l = front ++ back ∧ insertBy lt x l = front ++ x :: back ∧ (∀ y ∈ front, lt x y = false) ∧
      ∀ y, back.head? = some y → lt x y = true := by
  induction l with
  | nil => exact ⟨[], [], rfl, rfl, fun _ h => absurd h List.not_mem_nil, fun _ h => (nomatch h)⟩
  | cons z l ih =>
    rw [insertBy]
    split
    next here => exact ⟨[], z :: l, rfl, rfl, fun _ h => absurd h List.not_mem_nil, fun y h => Option.some.inj h ▸ here⟩
    next later =>
      obtain ⟨front, back, whole, inserted, behind, ahead⟩ := ih
      refine ⟨z :: front, back, congrArg (z :: ·) whole, congrArg (z :: ·) inserted, fun y hy => ?_, ahead⟩
      obtain rfl | hy := List.mem_cons.mp hy
      · exact Bool.eq_false_iff.mpr later
      · exact behind y hy

/-- Settles O14: a record is inserted into its port's list (`insertBy_eq_append`), and `Dev.place` sets that port alone. -/
theorem recordsTakeSequence : Obligations.RecordsTakeSequence := by
  refine ⟨fun d era q p r => ⟨?place, fun j other => d.setPort_port_ne _ other⟩, fun d i r => ?sequence⟩
  case place =>
    let x : Staging := { r := { r with source := d.source q p, port := 4 * q + p }, era := era,
                         due := if r.isUnit then max (d.ns + 1) (((d.port (4 * q + p)).unitEnd + 3) / 4) else d.ns + 1 }
    obtain ⟨front, back, whole, inserted, behind, ahead⟩ :=
      insertBy_eq_append (fun (u v : Staging) => beforeIn u.era u.r v.era v.r) x (d.port (4 * q + p)).stage
    have waits : d.ns < x.due := by
      simp only [x]
      split <;> omega
    refine ⟨front, back, x, whole, ?_, rfl, rfl, waits, behind, ahead⟩
    exact (congrArg PortAux.stage (Dev.setPort_port ..)).trans inserted
  case sequence =>
    have set : ((d.place i r).2.port i).seq = ((d.port i).seq + 1) % 2 ^ 32 ∧
        ((d.place i r).2.port i).held = (d.port i).held ++ [(d.place i r).1] := by
      simp only [Dev.place, Dev.setPort_port, and_self]
    obtain ⟨seq, held⟩ := set
    refine ⟨rfl, seq, rfl, rfl, rfl, rfl, rfl, fun notGap => if_neg notGap, Nat.mod_lt _ (by decide), held,
      fun j other => d.setPort_port_ne _ other⟩

end Sys2Proof.Machine
end

section
/-! PROOFS. The packets of a record FIFO: one session each, and no longer than the packet size but for a single record (R107, R108). -/

namespace Sys2Proof.Machine

variable {f : Fifo} {psize : Nat}

theorem Packet.size_append (p : Packet) (r : Rec) : ({ p with recs := p.recs ++ [r] } : Packet).size = p.size + r.size := by
  simp only [Packet.size, sumBy, List.foldl_append, List.foldl_cons, List.foldl_nil, Nat.add_assoc]

/-- A record of the packet's session for which it has room leaves it as R107 says. -/
theorem Packet.ok_append {p : Packet} {r : Rec} (ok : p.ok psize) (session : r.session = p.session) (room : p.size + r.size ≤ psize) :
    ({ p with recs := p.recs ++ [r] } : Packet).ok psize := by
  obtain ⟨same, _⟩ := ok
  refine ⟨fun x hx => ?_, .inl (p.size_append r ▸ room)⟩
  obtain before | rfl := List.mem_append.mp hx |>.imp_right List.mem_singleton.mp
  · exact same x before
  · exact session

theorem Packet.ok_singleton (r : Rec) (ns : Nat) : ({ session := r.session, recs := [r], openNs := ns } : Packet).ok psize :=
  ⟨fun _ hx => congrArg Rec.session (List.mem_singleton.mp hx), .inr rfl⟩

theorem Fifo.closeCur_cur (f : Fifo) (close ns : Nat) : (f.closeCur close ns).cur = none := by
  unfold Fifo.closeCur
  split
  next none => exact none
  next => dsimp only; split_ifs <;> rfl

/-- Closing moves the open packet, with its records, to the end of a bank. -/
theorem Fifo.ok.closeCur (ok : f.ok psize) (close ns : Nat) : (f.closeCur close ns).ok psize := by
  obtain ⟨cur, filling, draining⟩ := ok
  unfold Fifo.closeCur
  split
  next => exact ⟨cur, filling, draining⟩
  next p opened =>
    obtain ⟨_, closed⟩ := cur p opened
    have joins : ∀ l : List Packet, (∀ x ∈ l, x.ok psize) → ∀ x ∈ l ++ [{ p with close := close, closeNs := ns }], x.ok psize := by
      intro l all x hx
      obtain before | rfl := List.mem_append.mp hx |>.imp_right List.mem_singleton.mp
      · exact all x before
      · exact closed
    dsimp only
    split_ifs
    · exact ⟨fun _ h => (nomatch h), filling, draining⟩
    · exact ⟨fun _ h => (nomatch h), filling, joins _ draining⟩
    · exact ⟨fun _ h => (nomatch h), joins _ filling, draining⟩

theorem Fifo.swap_cur (f : Fifo) : f.swap.cur = f.cur := by
  unfold Fifo.swap
  split <;> rfl

/-- The banks exchange their packets. -/
theorem Fifo.ok.swap (ok : f.ok psize) : f.swap.ok psize := by
  obtain ⟨cur, filling, draining⟩ := ok
  unfold Fifo.swap
  split
  · exact ⟨cur, fun _ h => absurd h List.not_mem_nil, filling⟩
  · exact ⟨cur, filling, draining⟩

/-- The open packet, if any, takes a record: it is of its session, and has room for it within the packet size. -/
def Fifo.Takes (psize : Nat) (r : Rec) (f : Fifo) : Prop := ∀ p, f.cur = some p → r.session = p.session ∧ p.size + r.size ≤ psize

/-- A FIFO whose open packet has been closed takes any record. -/
theorem Fifo.takes_closed (f : Fifo) (close ns : Nat) (r : Rec) : ((f.closeCur close ns).swap).Takes psize r := by
  intro p opened
  rw [Fifo.swap_cur, Fifo.closeCur_cur] at opened
  exact nomatch opened

/-- The packet closures that a record causes by its session or its size (R108, CLOSE 3 and 0). -/
def Fifo.closeFor (f : Fifo) (psize ns : Nat) (r : Rec) : Fifo :=
  match f.cur with
  | none => f
  | some p =>
    if p.session != r.session then (f.closeCur 3 ns).swap
    else if psize < p.size + r.size then (f.closeCur 0 ns).swap
    else f

theorem Fifo.closeFor_spec (ok : f.ok psize) (ns : Nat) (r : Rec) : (f.closeFor psize ns r).ok psize ∧ (f.closeFor psize ns r).Takes psize r := by
  unfold Fifo.closeFor
  split
  next none => exact ⟨ok, fun p opened => absurd (none.symm.trans opened) (by simp)⟩
  next p opened =>
    split_ifs with session size
    · exact ⟨(ok.closeCur 3 ns).swap, f.takes_closed 3 ns r⟩
    · exact ⟨(ok.closeCur 0 ns).swap, f.takes_closed 0 ns r⟩
    · refine ⟨ok, fun p' opened' => ?_⟩
      obtain rfl : p = p' := Option.some.inj (opened.symm.trans opened')
      exact ⟨(by simpa using session : p.session = r.session).symm, Nat.not_lt.mp size⟩

/-- The exchange of banks that a record without room causes (R108, CLOSE 4). -/
def Fifo.makeRoom (f : Fifo) (bank ns : Nat) (r : Rec) : Fifo := if f.room bank r.size then f else (f.closeCur 4 ns).swap

theorem Fifo.makeRoom_spec {r : Rec} (ok : f.ok psize) (takes : f.Takes psize r) (bank ns : Nat) :
    (f.makeRoom bank ns r).ok psize ∧ (f.makeRoom bank ns r).Takes psize r := by
  unfold Fifo.makeRoom
  split
  · exact ⟨ok, takes⟩
  · exact ⟨(ok.closeCur 4 ns).swap, f.takes_closed 4 ns r⟩

/-- A record joins the open packet, or opens one; a packet that one record fills closes at once. -/
def Fifo.put (f : Fifo) (psize ns : Nat) (r : Rec) : Fifo :=
  match f.cur with
  | some p => { f with cur := some { p with recs := p.recs ++ [r] } }
  | none =>
    let f : Fifo := { f with cur := some { session := r.session, recs := [r], openNs := ns } }
    if psize < 8 + r.size then (f.closeCur 0 ns).swap else f

theorem Fifo.ok.put {r : Rec} (ok : f.ok psize) (takes : f.Takes psize r) (ns : Nat) : (f.put psize ns r).ok psize := by
  obtain ⟨cur, filling, draining⟩ := ok
  unfold Fifo.put
  split
  next p opened =>
    obtain ⟨session, size⟩ := takes p opened
    refine ⟨fun x hx => ?_, filling, draining⟩
    obtain rfl := Option.some.inj hx
    exact ⟨List.append_ne_nil_of_right_ne_nil _ (List.cons_ne_nil r []), Packet.ok_append (cur p opened).2 session size⟩
  next =>
    have opened : ({ f with cur := some { session := r.session, recs := [r], openNs := ns } } : Fifo).ok psize := by
      refine ⟨fun x hx => ?_, filling, draining⟩
      obtain rfl := Option.some.inj hx
      exact ⟨List.cons_ne_nil r [], Packet.ok_singleton r ns⟩
    dsimp only
    split
    · exact (opened.closeCur 0 ns).swap
    · exact opened

/-- Admission: the closures, the exchange of banks, and the record where there is room. -/
theorem Fifo.intake_eq (f : Fifo) (bank psize ns : Nat) (r : Rec) : (f.intake bank psize ns r).2 =
    let g := (f.closeFor psize ns r).makeRoom bank ns r
    if g.room bank r.size then g.put psize ns r else g := by
  have last : ∀ g : Fifo,
      (if g.room bank r.size then
        match g.cur with
        | some p => (true, { g with cur := some { p with recs := p.recs ++ [r] } })
        | none =>
          let g : Fifo := { g with cur := some { session := r.session, recs := [r], openNs := ns } }
          (true, if psize < 8 + r.size then (g.closeCur 0 ns).swap else g)
      else (false, g) : Bool × Fifo).2 = if g.room bank r.size then g.put psize ns r else g := by
    intro g
    unfold Fifo.put
    split
    · split <;> rfl
    · rfl
  exact last _

/-- Settles O15: each stage of admission keeps R107, and leaves an open packet that can take the record or none. -/
theorem packetRules : Obligations.PacketRules := by
  intro f bank psize ns r ok
  obtain ⟨closed, takes⟩ := Fifo.closeFor_spec ok ns r
  obtain ⟨ready, takes⟩ := Fifo.makeRoom_spec closed takes bank ns
  rw [Fifo.intake_eq]
  dsimp only
  split
  · exact ready.put takes ns
  · exact ready

end Sys2Proof.Machine
end

section
/-! PROOFS. Block lock on a Spapax lane (R58): the run of valid headers while the lane is not locked. -/

namespace Sys2Proof.Machine

/-- The header of a block as a lane reads it (R57). -/
def SpxLane.header (x : SpxLane) (levels : List Nat) : Nat := grayPair ((destuff x.levels levels).2.1.headD 0)

/-- A lane that is not locked counts a valid header, forgets its run at another one, and locks at 64. -/
theorem SpxLane.block_of_unlocked {x : SpxLane} (lane : Nat) (levels : List Nat) (ns : Nat) (unlocked : x.locked = false) :
    (x.block lane levels ns).1.good = (if x.header levels = 1 ∨ x.header levels = 2 then x.good + 1 else 0) ∧
    (x.block lane levels ns).1.locked = decide (64 ≤ if x.header levels = 1 ∨ x.header levels = 2 then x.good + 1 else 0) := by
  simp only [SpxLane.block, SpxLane.header, unlocked, Bool.false_and, Bool.false_eq_true, if_false, Bool.not_false, Bool.true_and,
    Bool.false_or, Bool.or_eq_true, beq_iff_eq]
  exact ⟨by congr, by congr⟩

/-- The lane after the first k blocks of a list. -/
def SpxLane.after (x : SpxLane) (lane ns : Nat) (l : List (List Nat)) (k : Nat) : SpxLane :=
  (l.take k).foldl (fun y b => (y.block lane b ns).1) x

theorem SpxLane.after_succ (x : SpxLane) (lane ns : Nat) {l : List (List Nat)} {k : Nat} (h : k < l.length) :
    x.after lane ns l (k + 1) = ((x.after lane ns l k).block lane (l.getD k []) ns).1 := by
  rw [SpxLane.after, List.take_succ_eq_append_getElem h, List.foldl_concat, List.getD_eq_getElem _ _ h]
  rfl

/-- From a lane that is not locked and has counted no header, valid headers are counted one by one, up to the lock at 64. -/
theorem SpxLane.after_valid {x : SpxLane} {lane ns : Nat} {l : List (List Nat)} (unlocked : x.locked = false) (fresh : x.good = 0)
    (short : l.length ≤ 64) (valid : ∀ k, k < l.length → (x.after lane ns l k).header (l.getD k []) = 1 ∨
      (x.after lane ns l k).header (l.getD k []) = 2) (k : Nat) (h : k ≤ l.length) :
    (x.after lane ns l k).good = k ∧ (x.after lane ns l k).locked = decide (64 ≤ k) := by
  induction k with
  | zero => exact ⟨fresh, unlocked⟩
  | succ k ih =>
    obtain ⟨good, locked⟩ := ih (Nat.le_of_succ_le h)
    rw [decide_eq_false (by omega)] at locked
    have counted := SpxLane.block_of_unlocked lane (l.getD k []) ns locked
    rw [if_pos (valid k h), good] at counted
    rw [SpxLane.after_succ _ _ _ h]
    exact counted

/-- Settles O16. -/
theorem spapaxBlockLock : Obligations.SpapaxBlockLock := by
  refine ⟨fun x lane ns l unlocked fresh short valid => ?lock, fun x lane ns levels unlocked => ?run⟩
  case lock =>
    obtain ⟨_, locked⟩ := SpxLane.after_valid unlocked fresh short valid l.length (le_refl _)
    change (x.after lane ns l l.length).locked = true ↔ _
    rw [locked, decide_eq_true_iff]
    omega
  case run =>
    obtain ⟨good, locked⟩ := SpxLane.block_of_unlocked lane levels ns unlocked
    refine ⟨fun valid => good.trans (if_pos valid), fun not1 not2 _ => ?_⟩
    have bad : ¬(x.header levels = 1 ∨ x.header levels = 2) := not_or.mpr ⟨not1, not2⟩
    rw [if_neg bad] at good locked
    exact ⟨good, locked⟩

end Sys2Proof.Machine
end

section
/-! PROOFS. Single requests: HALTED in Integrity Halt (R206), and BEGIN (R270). -/

namespace Sys2Proof.Machine

/-- An answer to an origin is no traffic of the lanes, so it leaves in every state. -/
theorem Dev.send_answer (d : Dev) (og st : Nat) (v : List Byte) : d.send (.answer og st v) = { d with sent := d.sent ++ [.answer og st v] } := rfl

/-- Outside the recovery monitor the dictionary service serves a single operation. -/
theorem oneEffect_of_no_monitor {d : Dev} (og : Origin) (txn : Nat) (it : ReqItem) (monitor : d.boot.monitor = false) :
    oneEffect og txn it d = d.request { origin := originCode og, txn := txn } [it] :=
  if_neg (ne_true_of_eq_false monitor)

/-- R206: in Integrity Halt an item that is not served is answered HALTED. -/
theorem oneEffect_halted {d : Dev} (og : Origin) (txn : Nat) (it : ReqItem) (monitor : d.boot.monitor = false) (halted : d.halted = true)
    (barred : haltServes (originCode og) it = false) : oneEffect og txn it d = d.countRequest.send (.answer (originCode og) 0xB []) := by
  have refused : d.countRequest.haltedRequest { origin := originCode og, txn := txn } [it] =
      d.countRequest.send (.answer (originCode og) 0xB []) := by
    simp only [Dev.haltedRequest, List.foldl_cons, List.foldl_nil, barred, Bool.false_eq_true, if_false, List.nil_append, Dev.sendReply]
  rw [oneEffect_of_no_monitor og txn it monitor, ← refused]
  exact if_pos halted

theorem haltServes_of_not_read (og : Nat) {it : ReqItem} (h : it.op ≠ 1) : haltServes og it = false := by
  rw [haltServes, beq_false_of_ne h, Bool.false_and, Bool.false_and]

/-- R206: only the Vane ports and JTAG read on, and only the identity and the Integrity.Halt objects. -/
theorem haltServes_read_eq_false {og : Origin} {it : ReqItem}
    (h : (¬(0x1000 ≤ it.index ∧ it.index ≤ 0x10FF) ∧ it.index ≠ 0x6100) ∨ (og ≠ .vaneA ∧ og ≠ .vaneB ∧ og ≠ .jtag)) :
    haltServes (originCode og) it = false := by
  obtain ⟨range, halt⟩ | ⟨notA, notB, notJtag⟩ := h
  · have outside : (decide (0x1000 ≤ it.index) && decide (it.index ≤ 0x10FF)) = false := by
      rw [← Bool.decide_and, decide_eq_false range]
    rw [haltServes, outside, beq_false_of_ne halt, Bool.or_false, Bool.and_false]
  · have other : (originCode og == 2 || originCode og == 3 || originCode og == 8) = false := by
      cases og <;> first | rfl | contradiction
    rw [haltServes, other, Bool.and_false, Bool.false_and]

/-- Settles O19. -/
theorem haltAnswersHalted : Obligations.HaltAnswersHalted := by
  intro dt og s d answered monitor halted
  have control : ∀ (txn : Nat) (it : ReqItem), it.op ≠ 1 → run s dt (oneEffect og txn it) = answered :=
    fun txn it notRead => congrArg s.goesTo (oneEffect_halted og txn it monitor halted (haltServes_of_not_read _ notRead))
  refine ⟨fun txn index sub type value => control txn _ (by decide : (2 : Nat) ≠ 1), fun index sub => control 0 _ (by decide : (3 : Nat) ≠ 1),
    control 0 _ (by decide : (4 : Nat) ≠ 1), fun txn tick => control txn _ (by decide : (5 : Nat) ≠ 1),
    fun txn => control txn _ (by decide : (6 : Nat) ≠ 1), fun txn index sub offset length barred => ?_⟩
  exact congrArg s.goesTo (oneEffect_halted og txn _ monitor halted (haltServes_read_eq_false barred))

/-- A response whose only item does not wait leaves at once. -/
theorem Dev.putReply_single (d : Dev) (n og tick : Nat) {i : RItem} (done : i.wait = 0) :
    d.putReply n { origin := og, items := [i] } tick =
      { d with dict := { d.dict with replies := SMap.del d.dict.replies n }, sent := d.sent ++ [.answer og i.status i.value] } := by
  have complete : ([i].any (fun i : RItem => i.wait != 0)) = false := by
    rw [List.any_cons, done]
    rfl
  exact if_neg (ne_true_of_eq_false complete)

/-- A request that names no transaction restarts no idle time. -/
theorem Dev.restartIdle_unnamed (d : Dev) (og : Nat) : d.restartIdle { origin := og } = d := rfl

/-- R270: outside Integrity Halt and below the bound of unanswered requests, BEGIN is carried out and answered. -/
theorem oneEffect_begin {d : Dev} (og : Origin) (monitor : d.boot.monitor = false) (running : d.halted = false)
    (room : d.unanswered (originCode og) < 64) : oneEffect og 0 { op := 4 } d =
      let y := d.countRequest.beginOp (originCode og) 0
      y.2.putReply (d.dict.replyNo + 1) { origin := originCode og, items := [y.1] } d.count := by
  have admitted : ¬ 64 ≤ d.countRequest.unanswered (originCode og) := Nat.not_le.mpr room
  have unnamed : ¬((0 : Nat) ≠ 0 ∧ (d.countRequest.namedTxn (originCode og) 0).isNone = true) := fun h => h.1 rfl
  rw [oneEffect_of_no_monitor og 0 _ monitor]
  exact (if_neg (ne_true_of_eq_false running)).trans ((if_neg admitted).trans ((if_neg Bool.false_ne_true).trans (if_neg unnamed)))

/-- The number that BEGIN gives a slot: its count of BEGIN operations in 29 bits, never 0 (R270). -/
def Dev.nextBegin (d : Dev) (k : Nat) : Nat :=
  if SMap.getD d.dict.counts k 0 + 1 < 2 ^ 29 then SMap.getD d.dict.counts k 0 + 1 else 1

theorem Dev.nextBegin_pos (d : Dev) (k : Nat) : 0 < d.nextBegin k := by
  unfold Dev.nextBegin
  split <;> omega

theorem Dev.nextBegin_lt (d : Dev) (k : Nat) : d.nextBegin k < 2 ^ 29 := by
  unfold Dev.nextBegin
  split
  · assumption
  · decide

/-- A transaction holds slot k. -/
def Dev.holdsSlot (d : Dev) (k : Nat) : Bool := d.dict.txns.any (fun t => t.slot == some k)

/-- BEGIN in the lowest free slot. -/
theorem Dev.beginOp_free {d : Dev} (og : Nat) {k : Nat} (hk : k < 8) (lower : ∀ j, j < k → d.holdsSlot j = true)
    (free : d.holdsSlot k = false) : d.beginOp og 0 =
      ({ op := 4, type := 4, value := leBytes 4 (8 * d.nextBegin k + k) },
        { d with dict := { d.dict with counts := SMap.ins d.dict.counts k (d.nextBegin k),
                                       txns := d.dict.txns ++ [{ slot := some k, txn := 8 * d.nextBegin k + k, origin := og, sinceNs := d.ns }] } }) := by
  have found : (upTo 8).find? (fun k => !d.holdsSlot k) = some k := by
    rw [upTo, List.find?_range_eq_some, free]
    exact ⟨rfl, List.mem_range.mpr hk, fun j hj => by rw [lower j hj]; rfl⟩
  have number : (if 2 ^ 29 ≤ SMap.getD d.dict.counts k 0 + 1 then 1 else SMap.getD d.dict.counts k 0 + 1) = d.nextBegin k := by
    unfold Dev.nextBegin
    split_ifs <;> omega
  unfold Dev.beginOp
  change (match (upTo 8).find? (fun k => !d.holdsSlot k) with | none => _ | some k => _) = _
  rw [found]
  dsimp only
  rw [number]

/-- BEGIN with every slot held. -/
theorem Dev.beginOp_full {d : Dev} (og : Nat) (full : ∀ j, j < 8 → d.holdsSlot j = true) : d.beginOp og 0 = ({ op := 4, status := 7 }, d) := by
  have absent : (upTo 8).find? (fun k => !d.holdsSlot k) = none := by
    rw [List.find?_eq_none]
    intro j hj
    rw [full j (List.mem_range.mp hj)]
    exact Bool.false_ne_true
  unfold Dev.beginOp
  change (match (upTo 8).find? (fun k => !d.holdsSlot k) with | none => _ | some k => _) = _
  rw [absent]

/-- Settles O18. -/
theorem beginIssuesTransaction : Obligations.BeginIssuesTransaction := by
  intro dt og s d monitor running room
  have served := oneEffect_begin og monitor running room
  refine ⟨fun k hk lower free => ?free, fun full => ?full⟩
  case free =>
    rw [Dev.beginOp_free (d := d.countRequest) _ hk lower free, Dev.putReply_single _ _ _ _ rfl] at served
    exact ⟨_, d.nextBegin k, congrArg s.goesTo served, d.nextBegin_pos k, d.nextBegin_lt k, rfl,
      congrArg (Option.getD · 0) (SMap.find_ins_self ..), rfl, rfl, rfl⟩
  case full =>
    rw [Dev.beginOp_full (d := d.countRequest) _ full, Dev.putReply_single _ _ _ _ rfl] at served
    exact ⟨_, congrArg s.goesTo served, rfl, rfl, rfl⟩

end Sys2Proof.Machine
end

section
/-! PROOFS. Corrected errors of a Duaxis wire (R397), and the pending lines of a core (R331). -/

namespace Sys2Proof.Machine

@[simp] theorem Dev.setBundle_bundle (d : Dev) (k : Nat) (x : Bundle) : (d.setBundle k x).bundle k = x :=
  SMap.getD_setD_self ..

theorem Dev.setBundle_bundle_ne (d : Dev) {k j : Nat} (x : Bundle) (h : j ≠ k) : (d.setBundle k x).bundle j = d.bundle j :=
  SMap.getD_setD_ne _ _ _ _ h

@[simp] theorem Dev.suspect_bundle (d : Dev) (k w j : Nat) : (d.suspect k w).bundle j = d.bundle j := by
  rw [Dev.bundle, Dev.suspect_bundles, Dev.bundle]

/-- Marking a wire marks no other wire of its bundle and takes no mark back. -/
theorem Dev.bitOf_suspect_suspects (d : Dev) (k w i : Nat) :
    bitOf ((d.suspect k w).suspects k) i = (bitOf (d.suspects k) i || decide (w = i)) := by
  rw [Dev.suspects, Dev.suspect_diag]
  by_cases marked : bitOf (d.suspects k) w = true
  · rw [if_pos marked]
    change bitOf (d.suspects k) i = _
    by_cases same : w = i
    · rw [← same, marked, Bool.true_or]
    · rw [decide_eq_false same, Bool.or_false]
  · rw [if_neg marked, SMap.getD_setD_self]
    change (d.suspects k ||| 2 ^ w).testBit i = _
    rw [Nat.testBit_or, Nat.testBit_two_pow]
    rfl

theorem Dev.suspect_suspects_ne (d : Dev) {k j : Nat} (w : Nat) (h : j ≠ k) : (d.suspect k w).suspects j = d.suspects j := by
  rw [Dev.suspects, Dev.suspect_diag]
  split
  · rfl
  · exact SMap.getD_setD_ne _ _ _ _ h

/-- What a corrected error leaves in its bundle: one more correction, and the times of those of the last second. -/
def Dev.corrections (d : Dev) (k w : Nat) : List (Nat × Nat) :=
  (d.bundle k).times.filter (fun e => decide (d.ns < e.2 + 1000000000)) ++ [(w, d.ns)]

/-- The bundle of a corrected error counts it. -/
def Dev.countCorrection (d : Dev) (k w : Nat) : Dev :=
  d.setBundle k { d.bundle k with corrected := (d.bundle k).corrected + 1, times := d.corrections k w }

/-- R397: a corrected error of a bundle in service is counted, and marks its wire where there are more than 16 in the last second. -/
theorem frameErrorEffect_corrected {d : Dev} {edge dir b : Nat} (w : Fin 34) (both : Bool) (exists_ : b < edgeBundles edge)
    (serves : (d.bundle (bundleKey edge dir b)).state ≠ 3) (links : d.boot.links = true) :
    frameErrorEffect edge dir b (some w) both d =
      let k := bundleKey edge dir b
      if 16 < ((d.corrections k w).filter (fun e => e.1 == w.val)).length then (d.countCorrection k w).suspect k w
      else d.countCorrection k w := by
  have occurred : (decide (b < edgeBundles edge) && (d.bundle (bundleKey edge dir b)).state != 3 && d.boot.links) = true := by
    rw [decide_eq_true exists_, bne_iff_ne.mpr serves, links]
    rfl
  exact if_pos occurred

/-- Settles O21. -/
theorem suspectWires : Obligations.SuspectWires := by
  intro dt edge dir b w h_edge h_dir h_b h_w both s d k times exists_ serves links
  have effect := frameErrorEffect_corrected ⟨w, h_w⟩ both exists_ serves links
  by_cases many : 16 < (times.filter (fun e => e.1 == w)).length
  · refine ⟨_, congrArg s.goesTo (effect.trans (if_pos many)), fun _ => ?mark, fun few => absurd many (Nat.not_lt.mpr few), fun i marked => ?kept, ?state, ?counted,
      fun j other => ⟨?bundle, Dev.suspect_suspects_ne _ w other⟩⟩
    case mark => rw [Dev.bitOf_suspect_suspects, decide_eq_true rfl, Bool.or_true]
    case kept => exact (Dev.bitOf_suspect_suspects ..).trans ((Bool.or_eq_true _ _).mpr (.inl marked))
    case state => rw [Dev.suspect_bundle, Dev.countCorrection, Dev.setBundle_bundle]
    case counted => rw [Dev.suspect_bundle, Dev.countCorrection, Dev.setBundle_bundle]
    case bundle => rw [Dev.suspect_bundle, Dev.countCorrection, Dev.setBundle_bundle_ne _ _ other]
  · refine ⟨_, congrArg s.goesTo (effect.trans (if_neg many)), fun above => absurd above many, fun _ => rfl, fun i marked => marked, ?state, ?counted,
      fun j other => ⟨Dev.setBundle_bundle_ne _ _ other, rfl⟩⟩
    case state => rw [Dev.countCorrection, Dev.setBundle_bundle]
    case counted => rw [Dev.countCorrection, Dev.setBundle_bundle]

/-! Interrupt lines. -/

/-- A number made of the powers of 2 that a test picks has just those bits. -/
theorem foldl_pick_two_pow (p : Nat → Bool) (n : Nat) :
    (upTo n).foldl (fun m i => if p i then m + 2 ^ i else m) 0 < 2 ^ n ∧
    ∀ i, ((upTo n).foldl (fun m i => if p i then m + 2 ^ i else m) 0).testBit i = (decide (i < n) && p i) := by
  induction n with
  | zero => exact ⟨Nat.one_pos, fun i => Nat.zero_testBit i⟩
  | succ n ih =>
    obtain ⟨below, bits⟩ := ih
    rw [upTo, List.range_succ, List.foldl_concat]
    rw [upTo] at below bits
    generalize (List.range n).foldl _ 0 = m at below bits
    by_cases picked : p n = true
    · rw [if_pos picked]
      refine ⟨by rw [pow_succ]; omega, fun i => ?_⟩
      rw [Nat.add_comm, ← Nat.mul_one (2 ^ n), Nat.two_pow_add_eq_or_of_lt below, Nat.mul_one, Nat.testBit_or, Nat.testBit_two_pow, bits]
      by_cases here : n = i
      · rw [← here, picked, decide_eq_true rfl, decide_eq_true (Nat.lt_succ_self n), Bool.true_or, Bool.true_and]
      · rw [decide_eq_false here, Bool.false_or, show decide (i < n + 1) = decide (i < n) from decide_eq_decide.mpr (by omega)]
    · rw [if_neg picked]
      refine ⟨by rw [pow_succ]; omega, fun i => ?_⟩
      rw [bits]
      by_cases here : n = i
      · rw [← here, Bool.eq_false_iff.mpr picked, Bool.and_false, Bool.and_false]
      · rw [show decide (i < n + 1) = decide (i < n) from decide_eq_decide.mpr (by omega)]

/-- Raised lines are set in their core and in no other. -/
theorem Dev.foldl_raiseLine (d : Dev) (c : Nat) (lines : List (Fin 32)) :
    (∀ i, bitOf ((lines.foldl (fun d l => d.raiseLine c l.val) d).core c).ekip i = true ↔
      bitOf (d.core c).ekip i = true ∨ ∃ l ∈ lines, l.val = i) ∧
    (∀ j, j ≠ c → (lines.foldl (fun d l => d.raiseLine c l.val) d).core j = d.core j) ∧
    (lines.foldl (fun d l => d.raiseLine c l.val) d).objs = d.objs := by
  induction lines generalizing d with
  | nil => exact ⟨fun i => by simp only [List.foldl_nil, List.not_mem_nil, false_and, exists_false, or_false], fun _ _ => rfl, rfl⟩
  | cons l lines ih =>
    obtain ⟨bits, others, objs⟩ := ih (d.raiseLine c l.val)
    have raised : ∀ i, bitOf ((d.raiseLine c l.val).core c).ekip i = true ↔ bitOf (d.core c).ekip i = true ∨ l.val = i := by
      intro i
      rw [Dev.raiseLine, Dev.setCore_core]
      change ((d.core c).ekip ||| 2 ^ l.val).testBit i = true ↔ _
      rw [Nat.testBit_or, Nat.testBit_two_pow, Bool.or_eq_true, decide_eq_true_iff]
      rfl
    refine ⟨fun i => ?_, fun j other => (others j other).trans (d.setCore_core_ne _ other), objs⟩
    rw [List.foldl_cons, bits, raised, List.exists_mem_cons_iff, or_assoc]

/-- Settles O22: the write leaves the lines that it does not name (`foldl_pick_two_pow`), and the arriving ones are raised after it. -/
theorem interruptClear : Obligations.InterruptClear := by
  intro dt c bits h_c arriving s d
  let left := (upTo 33).foldl (fun n i => if bitOf (d.core c).ekip i && !bitOf bits i then n + 2 ^ i else n) 0
  obtain ⟨raised, others, objs⟩ := (d.setCore c { d.core c with ekip := left }).foldl_raiseLine c arriving
  refine ⟨_, rfl, fun i hi => ?line, fun j other => (others j other).trans (d.setCore_core_ne _ other), objs⟩
  obtain ⟨_, picked⟩ := foldl_pick_two_pow (fun i => bitOf (d.core c).ekip i && !bitOf bits i) 33
  have cleared : bitOf left i = (bitOf (d.core c).ekip i && !bitOf bits i) := by
    rw [bitOf, picked, decide_eq_true hi, Bool.true_and]
  refine (raised i).trans ?_
  rw [Dev.setCore_core, cleared, Bool.and_eq_true, Bool.not_eq_true']

end Sys2Proof.Machine
end

section
/-! PROOFS. Units on the wire (R143, R206). -/

namespace Sys2Proof.Machine

/-- R143, R206: no unit starts on a channel that is not RUNNING, behind another unit, or in a stopped device. -/
theorem unitStartEffect_of_barred {d : Dev} {q p : Nat} (pos : Nat)
    (barred : d.nat O.txState q p ≠ 2 ∨ (d.txch (4 * q + p)).wire.isSome = true ∨ d.stopped = true) : unitStartEffect q p pos d = d := by
  have free : (!d.stopped && d.nat O.txState q p == 2 && !(d.txch (4 * q + p)).stopping && (d.txch (4 * q + p)).wire.isNone) = false := by
    obtain idle | busy | stopped := barred
    · rw [beq_false_of_ne idle, Bool.and_false, Bool.false_and, Bool.false_and]
    · rw [Option.isNone_eq_false_iff.mpr busy, Bool.and_false]
    · rw [stopped, Bool.not_true, Bool.false_and, Bool.false_and, Bool.false_and]
  unfold unitStartEffect
  extract_lets x a
  split
  next => rfl
  next u us _ => rw [free, Bool.false_and, Bool.false_and]; rfl

/-- Settles O27. -/
theorem unitsOnlyWhenRunning : Obligations.UnitsOnlyWhenRunning :=
  fun _ _ _ pos _ _ _ s barred => congrArg s.goesTo (unitStartEffect_of_barred pos barred)

end Sys2Proof.Machine
end

section
/-! PROOFS. Arbitration (R320): the order of contenders is total and transitive, so the arbiter's choice precedes every contender. -/

namespace Sys2Proof.Machine

/-- A contender precedes another by urgency, among equals by age, and among those by turn. -/
theorem Contender.before_iff {n last : Nat} {x y : Contender} : x.before n last y = true ↔
    y.urgency < x.urgency ∨ x.urgency = y.urgency ∧ (y.age < x.age ∨ x.age = y.age ∧ turn n last x.port ≤ turn n last y.port) := by
  simp only [Contender.before, Bool.or_eq_true, Bool.and_eq_true, decide_eq_true_eq, beq_iff_eq]

theorem Contender.before_refl (n last : Nat) (x : Contender) : x.before n last x = true :=
  Contender.before_iff.mpr (.inr ⟨rfl, .inr ⟨rfl, le_refl _⟩⟩)

theorem Contender.before_trans {n last : Nat} {x y z : Contender} (h : x.before n last y = true) (k : y.before n last z = true) :
    x.before n last z = true := by
  rw [Contender.before_iff] at *
  omega

theorem Contender.before_of_not {n last : Nat} {x y : Contender} (h : ¬ x.before n last y = true) : y.before n last x = true := by
  rw [Contender.before_iff] at *
  omega

/-- The arbiter grants a contender that precedes every one. -/
theorem gust_grants_first (n last : Nat) (l : List Contender) (some_ : l ≠ []) :
    ∃ w, gust n last l = some w ∧ w ∈ l ∧ ∀ x ∈ l, w.before n last x = true := by
  induction l with
  | nil => exact absurd rfl some_
  | cons x l ih =>
    by_cases alone : l = []
    · subst alone
      exact ⟨x, rfl, List.mem_cons_self, fun y hy => List.mem_singleton.mp hy ▸ x.before_refl n last⟩
    · obtain ⟨w, granted, member, first⟩ := ih alone
      have grant : gust n last (x :: l) = some (if x.before n last w then x else w) := by rw [gust, granted]
      by_cases ahead : x.before n last w = true
      · rw [if_pos ahead] at grant
        refine ⟨x, grant, List.mem_cons_self, fun y hy => ?_⟩
        obtain rfl | hy := List.mem_cons.mp hy
        · exact y.before_refl n last
        · exact Contender.before_trans ahead (first y hy)
      · rw [if_neg ahead] at grant
        refine ⟨w, grant, List.mem_cons_of_mem x member, fun y hy => ?_⟩
        obtain rfl | hy := List.mem_cons.mp hy
        · exact Contender.before_of_not ahead
        · exact first y hy

/-- The input right behind the one granted last is the first in turn. -/
theorem turn_next {n last : Nat} (h : last < n) : turn n last ((last + 1) % n) = 0 := by
  rw [turn, Nat.mod_eq_of_lt h]
  obtain inner | outer := Nat.lt_or_eq_of_le (Nat.succ_le_of_lt h)
  · rw [Nat.mod_eq_of_lt inner, show last + 1 + n - last + n - 1 = n + n by omega, Nat.add_mod_left, Nat.mod_self]
  · rw [show last + 1 = n from outer, Nat.mod_self, show 0 + n - last + n - 1 = n by omega, Nat.mod_self]

/-- Settles O26. -/
theorem gustGrantsTheFirst : Obligations.GustGrantsTheFirst := by
  intro n last l some_
  refine ⟨?_, turn_next, fun _ _ _ => rfl⟩
  obtain ⟨w, granted, member, first⟩ := gust_grants_first n last l some_
  refine ⟨w, granted, member, fun x hx => ?_⟩
  have ahead := Contender.before_iff.mp (first x hx)
  omega

end Sys2Proof.Machine
end

section
/-! PROOFS. Routes (R315, R317, R318): where they lead, that none is shorter, and their encoding in a header. -/

namespace Sys2Proof.Machine

/-! Walks. -/

theorem walk_append (r : Nat) (a b : List Nat) : walk r (a ++ b) = (walk r a).bind (fun n => walk n b) := by
  induction a generalizing r with
  | nil => rfl
  | cons c a ih =>
    rw [List.cons_append, walk, walk]
    cases hopTo r c with
    | none => rfl
    | some n => exact ih n

theorem walk_east {r n : Nat} (h : routerCol r + n ≤ 15) : walk r (List.replicate n 2) = some (r + n) := by
  unfold routerCol at h
  induction n generalizing r with
  | zero => rfl
  | succ n ih =>
    have hop : hopTo r 2 = some (r + 1) := if_neg (by rw [routerCol]; omega)
    rw [List.replicate_succ, walk, hop]
    exact (ih (by omega)).trans (congrArg some (by omega))

theorem walk_west {r n : Nat} (h : n ≤ routerCol r) : walk r (List.replicate n 4) = some (r - n) := by
  unfold routerCol at h
  induction n generalizing r with
  | zero => rfl
  | succ n ih =>
    have hop : hopTo r 4 = some (r - 1) := if_neg (by rw [routerCol]; omega)
    rw [List.replicate_succ, walk, hop]
    exact (ih (by omega)).trans (congrArg some (by omega))

theorem walk_south {r n : Nat} (h : routerRow r + n ≤ 9) : walk r (List.replicate n 3) = some (r + 16 * n) := by
  unfold routerRow at h
  induction n generalizing r with
  | zero => rfl
  | succ n ih =>
    have hop : hopTo r 3 = some (r + 16) := if_neg (by rw [routerRow]; omega)
    rw [List.replicate_succ, walk, hop]
    exact (ih (by omega)).trans (congrArg some (by omega))

theorem walk_north {r n : Nat} (h : n ≤ routerRow r) : walk r (List.replicate n 1) = some (r - 16 * n) := by
  unfold routerRow at h
  induction n generalizing r with
  | zero => rfl
  | succ n ih =>
    have hop : hopTo r 1 = some (r - 16) := if_neg (by rw [routerRow]; omega)
    rw [List.replicate_succ, walk, hop]
    exact (ih (by omega)).trans (congrArg some (by omega))

/-- The row hops of a route lead, from any router of its column, to the column of its end. -/
theorem walk_rowHops {r src : Nat} (dst : Nat) (col : routerCol r = routerCol src) :
    walk r (rowHops src dst) = some (16 * routerRow r + routerCol dst) := by
  have bound : routerCol dst < 16 := Nat.mod_lt _ (by decide)
  have split : 16 * routerRow r + routerCol r = r := Nat.div_add_mod r 16
  unfold rowHops
  split
  · rw [walk_east (by omega)]
    exact congrArg some (by omega)
  · rw [walk_west (by omega)]
    exact congrArg some (by omega)

/-- The column hops of a route lead, from any router of its row, to the row of its end. -/
theorem walk_colHops {r src dst : Nat} (row : routerRow r = routerRow src) (h : dst < 160) :
    walk r (colHops src dst) = some (16 * routerRow dst + routerCol r) := by
  have bound : routerRow dst ≤ 9 := by unfold routerRow; omega
  have split : 16 * routerRow r + routerCol r = r := Nat.div_add_mod r 16
  unfold colHops
  split
  · rw [walk_south (by omega)]
    exact congrArg some (by omega)
  · rw [walk_north (by omega)]
    exact congrArg some (by omega)

theorem routerRow_of_place {row col : Nat} (h : col < 16) : routerRow (16 * row + col) = row := by
  unfold routerRow
  omega

theorem routerCol_of_place {row col : Nat} (h : col < 16) : routerCol (16 * row + col) = col := by
  unfold routerCol
  omega

/-- A route leads to its end. -/
theorem walk_routeHops (order src : Nat) {dst : Nat} (h : dst < 160) : walk src (routeHops order src dst) = some dst := by
  have whole : 16 * routerRow dst + routerCol dst = dst := Nat.div_add_mod dst 16
  have col : ∀ r, routerCol r < 16 := fun r => Nat.mod_lt r (by decide)
  unfold routeHops
  split
  · rw [walk_append, walk_rowHops dst rfl, Option.bind_some, walk_colHops (routerRow_of_place (col dst)) h, routerCol_of_place (col dst), whole]
  · rw [walk_append, walk_colHops rfl h, Option.bind_some, walk_rowHops dst (routerCol_of_place (col src)), routerRow_of_place (col src), whole]

/-! Lengths. -/

/-- How far apart two routers are along one axis. -/
def apart (a b : Nat) : Nat := max a b - min a b

/-- Columns and rows by which two routers differ. -/
def routerDistance (a b : Nat) : Nat := apart (routerCol a) (routerCol b) + apart (routerRow a) (routerRow b)

theorem length_rowHops (src dst : Nat) : (rowHops src dst).length = apart (routerCol src) (routerCol dst) := by
  unfold rowHops apart
  split <;> rw [List.length_replicate] <;> omega

theorem length_colHops (src dst : Nat) : (colHops src dst).length = apart (routerRow src) (routerRow dst) := by
  unfold colHops apart
  split <;> rw [List.length_replicate] <;> omega

theorem length_routeHops (order src dst : Nat) : (routeHops order src dst).length = routerDistance src dst := by
  unfold routeHops routerDistance
  split <;> rw [List.length_append, length_rowHops, length_colHops]
  exact Nat.add_comm ..

/-- The grid has 16 columns and 10 rows. -/
theorem routerDistance_le {src dst : Nat} (hs : src < 160) (hd : dst < 160) : routerDistance src dst ≤ 24 := by
  unfold routerDistance apart routerCol routerRow
  omega

/-- A hop brings no router nearer by more than 1. -/
theorem routerDistance_le_of_hopTo {r n code : Nat} (dst : Nat) (h : hopTo r code = some n) : routerDistance r dst ≤ routerDistance n dst + 1 := by
  unfold hopTo at h
  unfold routerDistance apart routerRow routerCol
  split at h
  case h_5 => exact nomatch h
  all_goals
    rw [Option.ite_none_left_eq_some, Option.some_inj] at h
    obtain ⟨inside, rfl⟩ := h
    simp only [routerRow, routerCol] at inside
    omega

theorem routerDistance_le_length {src dst : Nat} {m : List Nat} (h : walk src m = some dst) : routerDistance src dst ≤ m.length := by
  induction m generalizing src with
  | nil =>
    obtain rfl : src = dst := Option.some.inj h
    unfold routerDistance apart
    omega
  | cons c m ih =>
    rw [walk] at h
    split at h
    next n hop =>
      have later := ih h
      have first := routerDistance_le_of_hopTo dst hop
      rw [List.length_cons]
      omega
    next => exact nomatch h

/-! Shape. -/

theorem rowHops_eq_replicate (src dst : Nat) : ∃ a x : Nat, (x = 2 ∨ x = 4) ∧ rowHops src dst = List.replicate a x := by
  unfold rowHops
  split
  · exact ⟨_, 2, .inl rfl, rfl⟩
  · exact ⟨_, 4, .inr rfl, rfl⟩

theorem colHops_eq_replicate (src dst : Nat) : ∃ b y : Nat, (y = 1 ∨ y = 3) ∧ colHops src dst = List.replicate b y := by
  unfold colHops
  split
  · exact ⟨_, 3, .inr rfl, rfl⟩
  · exact ⟨_, 1, .inl rfl, rfl⟩

/-- Every hop has one of the codes 1 to 4, and EJECT is 0: three bits hold it. -/
theorem getD_routeHops_lt (order src dst i : Nat) : (routeHops order src dst).getD i 0 < 8 := by
  obtain ⟨a, x, hx, row⟩ := rowHops_eq_replicate src dst
  obtain ⟨b, y, hy, col⟩ := colHops_eq_replicate src dst
  have codes : ∀ c ∈ routeHops order src dst, c < 8 := by
    intro c hc
    have member : c ∈ rowHops src dst ∨ c ∈ colHops src dst := by
      unfold routeHops at hc
      split at hc
      · exact List.mem_append.mp hc
      · exact (List.mem_append.mp hc).symm
    rw [row, col] at member
    obtain h | h := member <;> have := List.eq_of_mem_replicate h <;> omega
  rw [List.getD_eq_getElem?_getD]
  cases hop : (routeHops order src dst)[i]? with
  | none => exact Nat.zero_lt_succ 7
  | some c => exact codes c (List.mem_of_getElem? hop)

/-! The field of a header. -/

/-- The sum of the first n digits of base 8. -/
def octalOf (c : Nat → Nat) (n : Nat) : Nat := ((upTo n).map (fun i => c i * 2 ^ (3 * i))).foldl (fun m n => m + n) 0

theorem octalOf_succ (c : Nat → Nat) (n : Nat) : octalOf c (n + 1) = octalOf c n + c n * 2 ^ (3 * n) := by
  rw [octalOf, upTo, List.range_succ, List.map_append, List.foldl_append]
  rfl

theorem octalOf_lt {c : Nat → Nat} (digit : ∀ i, c i < 8) (n : Nat) : octalOf c n < 2 ^ (3 * n) := by
  induction n with
  | zero => exact Nat.one_pos
  | succ n ih =>
    have top : c n * 2 ^ (3 * n) ≤ 7 * 2 ^ (3 * n) := Nat.mul_le_mul_right _ (Nat.le_of_lt_succ (digit n))
    rw [octalOf_succ, Nat.mul_succ, pow_add]
    omega

/-- Each digit is found again in its three bits. -/
theorem octalOf_digit {c : Nat → Nat} (digit : ∀ i, c i < 8) {n i : Nat} (h : i < n) : octalOf c n / 2 ^ (3 * i) % 8 = c i := by
  induction n with
  | zero => exact absurd h (Nat.not_lt_zero i)
  | succ n ih =>
    rw [octalOf_succ]
    obtain before | rfl := Nat.lt_or_eq_of_le (Nat.le_of_lt_succ h)
    · obtain ⟨k, rfl⟩ : ∃ k, n = i + k + 1 := ⟨n - i - 1, by omega⟩
      have shift : c (i + k + 1) * 2 ^ (3 * (i + k + 1)) = c (i + k + 1) * 2 ^ (3 * k) * 8 * 2 ^ (3 * i) := by
        rw [show 3 * (i + k + 1) = 3 * k + 3 + 3 * i by omega, pow_add, pow_add]
        ring
      rw [shift, Nat.add_mul_div_right _ _ (Nat.two_pow_pos _), Nat.add_mul_mod_self_right, ih before]
    · rw [Nat.add_mul_div_right _ _ (Nat.two_pow_pos _), Nat.div_eq_of_lt (octalOf_lt digit i), Nat.zero_add, Nat.mod_eq_of_lt (digit i)]

/-- Settles O25. -/
theorem routesAreMinimal : Obligations.RoutesAreMinimal := by
  intro order src dst hs hd l
  have length : l.length = routerDistance src dst := length_routeHops order src dst
  refine ⟨walk_routeHops order src hd, length, length ▸ routerDistance_le hs hd, fun m leads => length ▸ routerDistance_le_length leads,
    ?shape, fun i hi => octalOf_digit (getD_routeHops_lt order src dst) hi⟩
  obtain ⟨a, x, hx, row⟩ := rowHops_eq_replicate src dst
  obtain ⟨b, y, hy, col⟩ := colHops_eq_replicate src dst
  exact ⟨a, b, x, y, hx, hy, by rw [← row, ← col]; rfl⟩

end Sys2Proof.Machine
end

section
/-! PROOFS. EventRouter.Latched (R114, R119): an occurrence sets its bit, and nothing that its routes lead to writes the object. -/

namespace Sys2Proof.Machine

/-! Bits of a byte string (R139). -/

theorem octSet_length (l : List Byte) (j : Nat) : (octSet l j).length = l.length := List.length_set

/-- Setting a bit within a byte string sets that bit and no other. -/
theorem octBit_octSet {l : List Byte} {j : Nat} (h : j / 8 < l.length) (i : Nat) : octBit (octSet l j) i = (octBit l i || decide (j = i)) := by
  unfold octBit octSet
  by_cases byte : j / 8 = i / 8
  · have value : (l.set (j / 8) (byteOf ((l.getD (j / 8) 0).toNat ||| 2 ^ (j % 8)))).getD (i / 8) 0 =
        byteOf ((l.getD (i / 8) 0).toNat ||| 2 ^ (j % 8)) := by
      rw [← byte, List.getD_eq_getElem?_getD, List.getElem?_set_self h, Option.getD_some]
    rw [value, BitVec.toNat_ofNat, Nat.testBit_mod_two_pow, decide_eq_true (Nat.mod_lt i (by decide)), Bool.true_and, Nat.testBit_or,
      Nat.testBit_two_pow, show decide (j % 8 = i % 8) = decide (j = i) from decide_eq_decide.mpr (by omega)]
  · have value : (l.set (j / 8) (byteOf ((l.getD (j / 8) 0).toNat ||| 2 ^ (j % 8)))).getD (i / 8) 0 = l.getD (i / 8) 0 := by
      rw [List.getD_eq_getElem?_getD, List.getElem?_set_ne byte, List.getD_eq_getElem?_getD]
    rw [value, decide_eq_false (fun same => byte (congrArg (· / 8) same)), Bool.or_false]

/-- No bit is cleared by setting one, within the string or beyond it. -/
theorem octBit_octSet_of_octBit {l : List Byte} (j : Nat) {i : Nat} (h : octBit l i = true) : octBit (octSet l j) i = true := by
  by_cases inside : j / 8 < l.length
  · rw [octBit_octSet inside, h, Bool.true_or]
  · rw [octSet, List.set_eq_of_length_le (Nat.not_lt.mp inside), h]

/-! What the routes lead to. -/

/-- EventRouter.Latched. -/
def Dev.latched (d : Dev) : List Byte := d.octs O.eventRouterLatched

theorem Dev.latched_of_objs {d e : Dev} (h : e.objs = d.objs) : e.latched = d.latched := by
  unfold Dev.latched Dev.octs Dev.val
  rw [h]

/-- Counting at another key leaves Latched. -/
theorem Dev.inc_latched (d : Dev) (o : ObjDef) (a b c : Nat) (other : O.eventRouterLatched.key 0 0 0 ≠ o.key a b c) :
    (d.inc o a b c).latched = d.latched :=
  congrArg Val.bytes (d.inc_val_ne o O.eventRouterLatched other)

theorem Dev.setNat_latched (d : Dev) (o : ObjDef) (n a b c : Nat) (other : O.eventRouterLatched.key 0 0 0 ≠ o.key a b c) :
    (d.setNat o n a b c).latched = d.latched :=
  congrArg Val.bytes (d.put_val_ne o O.eventRouterLatched (.num n) other)

theorem Dev.frontInput_latched (d : Dev) (n i : Nat) (o : Occ) : (d.frontInput n i o).latched = d.latched := by
  unfold Dev.frontInput
  split_ifs
  · rfl
  · rfl
  · exact Dev.inc_latched _ _ _ _ _ (by decide)

theorem Dev.captureMark_latched (d : Dev) (m tM value ev origin : Nat) (record : Bool) :
    (d.captureMark m tM value ev origin record).latched = d.latched := by
  unfold Dev.captureMark
  refine foldl_keeps (f := Dev.latched) (fun d i => ?_) _ d
  dsimp only
  split_ifs
  · rfl
  · exact Dev.inc_latched _ _ _ _ _ (by simp only [ObjDef.key, O.eventRouterLatched, O.markLapsed]; omega)
  all_goals rfl

theorem Dev.remark_latched (d : Dev) (ev tick value : Nat) : (d.remark ev tick value).latched = d.latched := by
  unfold Dev.remark
  dsimp only
  refine foldl_keeps (f := Dev.latched) (fun d i => ?_) _ d
  exact Dev.latched_of_objs rfl

theorem Dev.markPulse_latched (d : Dev) (o : Occ) (m : Nat) : (d.markPulse o m).latched = d.latched := by
  unfold Dev.markPulse
  dsimp only
  split
  · exact Dev.captureMark_latched ..
  · exact Dev.remark_latched ..

theorem Dev.closeStage_latched (d : Dev) (e close : Nat) : (d.closeStage e close).latched = d.latched := by
  unfold Dev.closeStage
  dsimp only
  split <;> rfl

theorem Dev.latched_setEng (d : Dev) (e : Nat) (x : EngAux) : (d.setEng e x).latched = d.latched := rfl

theorem Dev.flushEngine_latched (d : Dev) (e : Nat) : (d.flushEngine e).latched = d.latched := by
  unfold Dev.flushEngine
  dsimp only
  rw [Dev.closeStage_latched]
  rw [Dev.latched_setEng]
  refine foldl_keeps (f := Dev.latched) (fun d i => ?_) _ d
  exact Dev.latched_of_objs rfl

/-- No destination of a route writes EventRouter.Latched. -/
theorem Dev.deliver_latched (d : Dev) (o : Occ) (w : Nat) : (d.deliver o w).1.latched = d.latched := by
  unfold Dev.deliver
  dsimp only
  split
  · exact Dev.frontInput_latched ..
  · exact Dev.setNat_latched _ _ _ _ _ _ (by simp only [ObjDef.key, O.eventRouterLatched, O.counterValue]; omega)
  · rfl
  · dsimp only
    split <;> rfl
  · rfl
  · exact Dev.markPulse_latched ..
  · dsimp only
    split
    · exact (Dev.flushEngine_latched ..).trans (Dev.flushEngine_latched ..)
    · exact Dev.flushEngine_latched ..

/-! Occurrences. -/

/-- From d to e the object keeps its length, and no bit is cleared. -/
def Latches (d e : Dev) : Prop := e.latched.length = d.latched.length ∧ ∀ i, octBit d.latched i = true → octBit e.latched i = true

theorem Latches.of_eq {d e : Dev} (h : e.latched = d.latched) : Latches d e := by
  rw [Latches, h]
  exact ⟨rfl, fun _ => id⟩

theorem Latches.trans {d e f : Dev} (h : Latches d e) (k : Latches e f) : Latches d f :=
  ⟨k.1.trans h.1, fun i set => k.2 i (h.2 i set)⟩

theorem Latches.foldl {α : Type} {g : Dev → α → Dev} (h : ∀ (d : Dev) (x : α), Latches d (g d x)) (l : List α) (d : Dev) :
    Latches d (l.foldl g d) := by
  induction l generalizing d with
  | nil => exact Latches.of_eq rfl
  | cons x l ih => exact (h d x).trans (ih (g d x))

/-- The bit of an event is set. -/
def Dev.latch (d : Dev) (ev : Nat) : Dev := d.setOct O.eventRouterLatched (octSet (d.octs O.eventRouterLatched) ev)

theorem Dev.latch_latched (d : Dev) (ev : Nat) : (d.latch ev).latched = octSet d.latched ev := Dev.setOct_octs ..

theorem latches_latch (d : Dev) (ev : Nat) : Latches d (d.latch ev) := by
  rw [Latches, Dev.latch_latched]
  exact ⟨octSet_length .., fun _ => octBit_octSet_of_octBit ev⟩

/-- What an occurrence brings about clears nothing, the threshold events of counters included (R120). -/
theorem latches_occurN (n : Nat) (d : Dev) (o : Occ) : Latches d (Dev.occurN n d o) := by
  induction n generalizing d o with
  | zero => exact Latches.of_eq rfl
  | succ n ih =>
    refine (latches_latch d o.ev).trans (Latches.foldl (fun d w => ?_) _ _)
    exact (Latches.of_eq (d.deliver_latched o w)).trans (Latches.foldl (fun d ev => ih d _) _ _)

/-- An occurrence sets its bit. -/
theorem octBit_occurN (n : Nat) {d : Dev} {o : Occ} (h : o.ev / 8 < d.latched.length) : octBit (Dev.occurN (n + 1) d o).latched o.ev = true := by
  have set : octBit (d.latch o.ev).latched o.ev = true := by
    rw [Dev.latch_latched, octBit_octSet h, decide_eq_true rfl, Bool.or_true]
  refine Latches.foldl (d := d.latch o.ev) (fun d w => ?_) _ |>.2 _ set
  exact (Latches.of_eq (d.deliver_latched o w)).trans (Latches.foldl (fun d ev => latches_occurN n d _) _ _)

/-- An event's first 15 occurrences in a nanosecond take effect in it (R114). -/
theorem Dev.occur_of_room {d : Dev} {ev : Nat} (h : d.pulseOf ev none d.count < 15) :
    ∃ n, d.occur ev = Dev.occurN 17 (d.pulse ev none d.count n) { ev := ev, tick := d.count } := by
  have one : min 1 (15 - d.pulseOf ev none d.count) = 1 := by omega
  refine ⟨1, ?_⟩
  unfold Dev.occur Dev.occurAs
  dsimp only
  rw [one, if_pos (show 1 ≤ 15 - d.pulseOf ev none d.count by omega), if_neg (show ¬ 15 - d.pulseOf ev none d.count = 0 by omega)]

/-- Those beyond wait for the next nanosecond, with its tick (R114). -/
theorem Dev.occur_of_full {d : Dev} {ev : Nat} (h : 15 ≤ d.pulseOf ev none d.count) :
    (d.occur ev).objs = d.objs ∧
    (d.occur ev).events.carry = d.events.carry ++ [(d.nsAt d.count + 1, { ev := ev, tick := (d.count + 4) % 2 ^ 64 })] := by
  have full : 15 - d.pulseOf ev none d.count = 0 := by omega
  unfold Dev.occur Dev.occurAs
  dsimp only
  rw [full, if_pos rfl, if_neg (by decide)]
  exact ⟨rfl, rfl⟩

/-- Settles O23. -/
theorem eventsAreLatched : Obligations.EventsAreLatched := by
  intro d ev size hev
  change d.latched.length = 192 at size
  refine ⟨fun room => ?set, fun full => ?carried, ?kept⟩
  case set =>
    obtain ⟨n, occurs⟩ := Dev.occur_of_room room
    rw [occurs]
    exact octBit_occurN 16 (d := d.pulse ev none d.count n) (size ▸ (by omega : ev / 8 < 192))
  case carried =>
    obtain ⟨objs, carry⟩ := Dev.occur_of_full full
    exact ⟨Dev.latched_of_objs objs, carry⟩
  case kept =>
    have latches : Latches d (d.occur ev) := by
      obtain room | full := Nat.lt_or_ge (d.pulseOf ev none d.count) 15
      · obtain ⟨n, occurs⟩ := Dev.occur_of_room room
        rw [occurs]
        exact latches_occurN 17 (d.pulse ev none d.count n) _
      · exact Latches.of_eq (Dev.latched_of_objs (Dev.occur_of_full full).1)
    exact ⟨latches.2, latches.1.trans size⟩

end Sys2Proof.Machine
end

section
/-! PROOFS. What leaves device memory and all that lies about it: occurrences, Logbook entries, port transitions and Integrity Halt. -/

namespace Sys2Proof.Machine

@[simp] theorem Dev.add_mem (d : Dev) (o : ObjDef) (n a b c : Nat) : (d.add o n a b c).mem = d.mem := by unfold Dev.add; split <;> rfl

@[simp] theorem Dev.incCh_mem (d : Dev) (o : ObjDef) (ch : Nat) : (d.incCh o ch).mem = d.mem := Dev.inc_mem ..

@[simp] theorem Dev.pulse_mem (d : Dev) (ev : Nat) (set : Option Nat) (tick n : Nat) : (d.pulse ev set tick n).mem = d.mem := rfl

@[simp] theorem Dev.updPort_mem (d : Dev) (i : Nat) (f : PortAux → PortAux) : (d.updPort i f).mem = d.mem := rfl

/-! The twin link and the Logbook. -/

@[simp] theorem Dev.mirror_mem (d : Dev) (kind status count txn : Nat) (l : List Byte) : (d.mirror kind status count txn l).mem = d.mem := by
  unfold Dev.mirror
  split
  · exact foldl_keeps (f := Dev.mem) (g := fun (d : Dev) b => d.queueFrame twinPort 1 b) (fun _ _ => rfl) _ _
  · rfl

@[simp] theorem Dev.logEntry_mem (d : Dev) (e : LogEntry) : (d.logEntry e).mem = d.mem := by
  unfold Dev.logEntry
  extract_lets
  split
  · exact Dev.mirror_mem ..
  · rfl

@[simp] theorem Dev.logNote_mem (d : Dev) (kind code : Nat) (old new : List Byte) (index : Nat) : (d.logNote kind code old new index).mem = d.mem :=
  Dev.logEntry_mem ..

/-! The destinations of a route (R115). -/

@[simp] theorem Dev.closeStage_mem (d : Dev) (e close : Nat) : (d.closeStage e close).mem = d.mem := by
  unfold Dev.closeStage
  dsimp only
  split <;> rfl

@[simp] theorem Dev.flushEngine_mem (d : Dev) (e : Nat) : (d.flushEngine e).mem = d.mem := by
  unfold Dev.flushEngine
  dsimp only
  rw [Dev.closeStage_mem, Dev.setEng_mem]
  exact foldl_keeps (f := Dev.mem) (fun _ _ => Dev.setFifo_mem ..) _ d

@[simp] theorem Dev.frontInput_mem (d : Dev) (n i : Nat) (o : Occ) : (d.frontInput n i o).mem = d.mem := by
  unfold Dev.frontInput
  split_ifs
  · rfl
  · rfl
  · exact Dev.inc_mem ..

@[simp] theorem Dev.captureMark_mem (d : Dev) (m tM value ev origin : Nat) (record : Bool) : (d.captureMark m tM value ev origin record).mem = d.mem := by
  unfold Dev.captureMark
  refine foldl_keeps (f := Dev.mem) (fun d i => ?_) _ d
  dsimp only
  split_ifs
  · rfl
  · exact Dev.inc_mem ..
  all_goals rfl

@[simp] theorem Dev.remark_mem (d : Dev) (ev tick value : Nat) : (d.remark ev tick value).mem = d.mem := by
  unfold Dev.remark
  dsimp only
  exact foldl_keeps (f := Dev.mem) (fun _ _ => Dev.setPort_mem ..) _ d

@[simp] theorem Dev.markPulse_mem (d : Dev) (o : Occ) (m : Nat) : (d.markPulse o m).mem = d.mem := by
  unfold Dev.markPulse
  dsimp only
  split
  · exact Dev.captureMark_mem ..
  · exact Dev.remark_mem ..

@[simp] theorem Dev.deliver_mem (d : Dev) (o : Occ) (w : Nat) : (d.deliver o w).1.mem = d.mem := by
  unfold Dev.deliver
  dsimp only
  split
  · exact Dev.frontInput_mem ..
  · rfl
  · rfl
  · dsimp only
    split <;> rfl
  · rfl
  · exact Dev.markPulse_mem ..
  · dsimp only
    split <;> simp only [Dev.flushEngine_mem]

@[simp] theorem Dev.occurN_mem (n : Nat) (d : Dev) (o : Occ) : (Dev.occurN n d o).mem = d.mem := by
  induction n generalizing d o with
  | zero => rfl
  | succ n ih =>
    refine (foldl_keeps (f := Dev.mem) (fun d w => ?_) _ _).trans (Dev.setOct_mem ..)
    exact (foldl_keeps (f := Dev.mem) (fun d ev => ih d _) _ _).trans (Dev.deliver_mem ..)

@[simp] theorem Dev.occur_mem (d : Dev) (ev : Nat) : (d.occur ev).mem = d.mem := by
  unfold Dev.occur Dev.occurAs
  dsimp only
  split_ifs <;> simp only [Dev.occurN_mem, Dev.pulse_mem]

/-! A port goes down (R39, R43). -/

@[simp] theorem Dev.transition_mem (d : Dev) (q p st : Nat) : (d.transition q p st).mem = d.mem := by
  unfold Dev.transition
  dsimp only
  rw [Dev.occur_mem]
  split
  · rw [Dev.updPort_mem, Dev.inc_mem, Dev.setNat_mem, Dev.setNat_mem]
  · rw [Dev.setNat_mem, Dev.setNat_mem]

@[simp] theorem Dev.abortEye_mem (d : Dev) (l : Nat) : (d.abortEye l).mem = d.mem := by
  unfold Dev.abortEye Dev.when
  dsimp only
  split <;> rfl

@[simp] theorem Dev.downReason_mem (d : Dev) (q p reason : Nat) : (d.downReason q p reason).2.mem = d.mem := by
  unfold Dev.downReason
  dsimp only
  rw [Dev.setNat_mem, Dev.updPort_mem]

theorem Dev.linkTransition_down (d : Dev) (q p reason : Nat) :
    d.linkTransition q p 0 reason =
      (((d.downReason q p reason).2.transition q p 0).lanesOf q p).foldl Dev.abortEye ((d.downReason q p reason).2.transition q p 0) := by
  unfold Dev.linkTransition
  rw [if_pos rfl]

theorem Dev.linkTransition_mem (d : Dev) (q p st reason : Nat) : (d.linkTransition q p st reason).mem = d.mem := by
  by_cases down : st = 0
  · rw [down, Dev.linkTransition_down, foldl_keeps (f := Dev.mem) Dev.abortEye_mem, Dev.transition_mem, Dev.downReason_mem]
  · unfold Dev.linkTransition
    rw [if_neg down, Dev.transition_mem]

@[simp] theorem Dev.pcieDown_mem (d : Dev) (q : Nat) : (d.pcieDown q).mem = d.mem := by
  unfold Dev.pcieDown Dev.pcieFall
  dsimp only
  split_ifs
  all_goals simp only [Dev.linkTransition_mem, Dev.setNat_mem]

theorem Dev.dropMailboxes_mem (d : Dev) : d.dropMailboxes.mem = d.mem := rfl

theorem Dev.checkpoint_mem (d : Dev) : d.checkpoint.mem = d.mem := rfl

/-- Integrity Halt stops the memory; it changes nothing that lies there (R206). -/
@[simp] theorem Dev.integrityHalt_mem (d : Dev) (cause addr initiator : Nat) : (d.integrityHalt cause addr initiator).mem = d.mem := by
  unfold Dev.integrityHalt
  split
  · rfl
  · extract_lets running d1 d2 d3 d4 d5 d6 d7 d8
    have objects : d4.mem = d.mem := rfl
    have idle : d5.mem = d4.mem := by
      refine foldl_keeps (f := Dev.mem) (fun d i => ?_) _ d4
      split
      · exact Dev.send_mem ..
      · rfl
    have down : d6.mem = d5.mem := (Dev.pcieDown_mem ..).trans (Dev.dropMailboxes_mem _)
    have cores : d7.mem = d6.mem := by
      refine foldl_keeps (f := Dev.mem) (fun d i => ?_) _ d6
      split
      · rfl
      · exact Dev.setNat_mem ..
    have noted : d8.mem = d7.mem := Dev.logNote_mem ..
    rw [Dev.checkpoint_mem]
    exact noted.trans (cores.trans (down.trans (idle.trans objects)))

@[simp] theorem Dev.replyTo_mem (d : Dev) (x : Deferred) (ok : Bool) (l : List Byte) : (d.replyTo x ok l).mem = d.mem := by
  unfold Dev.replyTo
  split
  · rfl
  · exact Dev.send_mem ..
  · split_ifs
    · exact Dev.send_mem ..
    · rfl
    · exact Dev.inc_mem ..

end Sys2Proof.Machine
end

section
/-! PROOFS. Which operations of the memory store nothing: they let the bytes be, bring no request to wait, and leave no further line raw or disturbed. -/

namespace Sys2Proof.Machine

/-- From d to e nothing is stored, no further request waits, and no further line lies raw from the checker test or disturbed. -/
structure Still (d e : Dev) : Prop where
  cells : e.mem.cells = d.mem.cells
  waits : ∀ y ∈ e.mem.deferred, y ∈ d.mem.deferred
  raw : ∀ line, SMap.find d.mem.raw line = none → SMap.find e.mem.raw line = none
  upset : ∀ line, SMap.find d.mem.upset line = none → SMap.find e.mem.upset line = none

section
variable {d e f : Dev}

theorem Still.of_fields (cells : e.mem.cells = d.mem.cells) (waits : e.mem.deferred = d.mem.deferred) (raw : e.mem.raw = d.mem.raw)
    (upset : e.mem.upset = d.mem.upset) : Still d e :=
  ⟨cells, fun _ => waits ▸ id, fun _ => raw ▸ id, fun _ => upset ▸ id⟩

theorem Still.of_mem (h : e.mem = d.mem) : Still d e := .of_fields (h ▸ rfl) (h ▸ rfl) (h ▸ rfl) (h ▸ rfl)

theorem Still.refl (d : Dev) : Still d d := .of_mem rfl

theorem Still.trans (h : Still d e) (k : Still e f) : Still d f :=
  ⟨k.cells.trans h.cells, fun y hy => h.waits y (k.waits y hy), fun l hl => k.raw l (h.raw l hl), fun l hl => k.upset l (h.upset l hl)⟩

theorem Still.ite {c : Prop} [Decidable c] (h : Still d e) (k : Still d f) : Still d (if c then e else f) := by
  split <;> assumption

theorem Still.foldl {α : Type} {g : Dev → α → Dev} (h : ∀ (d : Dev) (x : α), Still d (g d x)) (l : List α) (d : Dev) : Still d (l.foldl g d) := by
  induction l generalizing d with
  | nil => exact .refl d
  | cons x l ih => exact (h d x).trans (ih (g d x))

end

theorem Dev.inc_still (d : Dev) (o : ObjDef) (a b c : Nat) : Still d (d.inc o a b c) := .of_mem (Dev.inc_mem ..)

theorem Dev.add_still (d : Dev) (o : ObjDef) (n a b c : Nat) : Still d (d.add o n a b c) := .of_mem (Dev.add_mem ..)

theorem Dev.drawn_still (d : Dev) : Still d d.drawn := .of_mem d.drawn_mem

theorem Dev.incCh_still (d : Dev) (o : ObjDef) (ch : Nat) : Still d (d.incCh o ch) := .of_mem (Dev.incCh_mem ..)

theorem Dev.setCh_still (d : Dev) (o : ObjDef) (ch n : Nat) : Still d (d.setCh o ch n) := .of_mem (Dev.setNat_mem ..)

theorem Dev.occur_still (d : Dev) (ev : Nat) : Still d (d.occur ev) := .of_mem (Dev.occur_mem ..)

theorem Dev.logNote_still (d : Dev) (kind code : Nat) (old new : List Byte) (index : Nat) : Still d (d.logNote kind code old new index) :=
  .of_mem (Dev.logNote_mem ..)

/-! Channels, counters and jobs. -/

theorem Dev.setChan_still (d : Dev) (ch : Nat) (x : ChanAux) : Still d (d.setChan ch x) := .of_fields rfl rfl rfl rfl

theorem Dev.touch_still (d : Dev) (ch line m : Nat) : Still d (d.touch ch line m) := Dev.setChan_still ..

theorem Dev.unpoison_still (d : Dev) (ch line : Nat) : Still d (d.unpoison ch line) := Dev.setChan_still ..

theorem Dev.setMinor_still (d : Dev) (line m : Nat) : Still d (d.setMinor line m) := .of_fields rfl rfl rfl rfl

theorem Dev.setJob_still (d : Dev) (j : Reenc) : Still d (d.setJob j) := .of_fields rfl rfl rfl rfl

theorem Dev.setSlice_still (d : Dev) (k : Nat) (s : Slice) : Still d (d.setSlice k s) := .of_fields rfl rfl rfl rfl

theorem Dev.startJob_still (d : Dev) (r : Nat) : Still d (d.startJob r) := by
  unfold Dev.startJob
  split
  · exact .refl d
  · exact (Still.ite (.refl d) (d.inc_still ..)).trans (.of_fields rfl rfl rfl rfl)

theorem Dev.jobDone_still (d : Dev) (line : Nat) : Still d (d.jobDone line) := by
  unfold Dev.jobDone
  split
  · exact .refl d
  · exact .ite (.refl d) (d.setJob_still _)

theorem Dev.linesDone_still (d : Dev) (r : Nat) (ls : List Nat) : Still d (d.linesDone r ls) := by
  unfold Dev.linesDone
  split
  · exact .refl d
  · exact d.setJob_still _

theorem Dev.endJob_still (d : Dev) (j : Reenc) : Still d (d.endJob j) := by
  unfold Dev.endJob
  extract_lets mem e
  have taken : Still d e := .of_fields rfl rfl rfl rfl
  exact (taken.trans (e.inc_still ..)).trans (Dev.occur_still ..)

theorem Dev.finishJob_still (d : Dev) (r : Nat) : Still d (d.finishJob r) := by
  unfold Dev.finishJob
  split
  · exact .refl d
  · exact .ite (.refl d) (d.endJob_still _)

theorem Dev.countWrite_still (d : Dev) (a m : Nat) : Still d (d.countWrite a m) := by
  unfold Dev.countWrite
  dsimp only
  split
  · exact .ite (d.setMinor_still ..) ((d.setMinor_still ..).trans (Dev.jobDone_still ..))
  · exact .ite (((d.startJob_still _).trans (Dev.setMinor_still ..)).trans (Dev.jobDone_still ..)) (d.setMinor_still ..)

theorem Dev.freshLine_still (d : Dev) (ch line : Nat) : Still d (d.freshLine ch line) :=
  ((d.setMinor_still ..).trans (Dev.jobDone_still ..)).trans (Dev.touch_still ..)

theorem Dev.releaseTest_still (d : Dev) (line : Nat) : Still d (d.releaseTest line) := by
  unfold Dev.releaseTest
  split
  · exact .of_fields rfl rfl rfl rfl
  · exact .refl d

/-! Rows and slices. -/

theorem Dev.rowAccess_still (d : Dev) (ch off : Nat) (hint : Option Bool) : Still d (d.rowAccess ch off hint) := by
  unfold Dev.rowAccess
  extract_lets x bank row near hit e1 e2 c same keepOpen y
  have activate : Still d e1 := d.drawn_still.trans (Dev.incCh_still ..)
  have opened : Still d e2 := .ite (.refl d) (.ite (activate.trans (e1.add_still ..)) activate)
  exact opened.trans (Dev.setChan_still ..)

theorem Dev.zeroLines_still (d : Dev) (ls : List Nat) (hint : Option Bool) : Still d (d.zeroLines ls hint) := by
  refine Still.foldl (fun d l => ?_) ls d
  split
  · exact d.rowAccess_still ..
  · exact .refl d

theorem Dev.closeSlice_still (d : Dev) (k : Nat) : Still d (d.closeSlice k) := by
  unfold Dev.closeSlice
  split
  · exact .refl d
  · exact .ite (.refl d) ((d.zeroLines_still ..).trans (Dev.setSlice_still ..))

theorem Dev.openSlice_still (d : Dev) (k ch ptr who : Nat) : Still d (d.openSlice k ch ptr who) := by
  unfold Dev.openSlice
  extract_lets f e1 e2
  have room : Still d e1 := by
    refine .ite ?_ (.refl d)
    split
    · exact (d.closeSlice_still _).trans (Dev.inc_still ..)
    · exact .refl d
  have opened : Still e1 e2 := e1.setSlice_still ..
  exact (room.trans opened).trans (.of_fields rfl rfl rfl rfl)

theorem Dev.endStream_still (d : Dev) (who : Nat) : Still d (d.endStream who) := by
  unfold Dev.endStream
  exact Still.foldl (fun d (e : Nat × Slice) => d.closeSlice_still e.1) _ d

theorem Dev.zeroFill_still (d : Dev) (a ch : Nat) (hint : Option Bool) : Still d (d.zeroFill a ch hint) := by
  unfold Dev.zeroFill
  extract_lets g k ls e
  have zeroed : Still d e := ((d.inc_still ..).trans (Dev.linesDone_still ..)).trans (Dev.zeroLines_still ..)
  exact .ite (zeroed.trans (e.setSlice_still ..)) (zeroed.trans (.of_fields rfl rfl rfl rfl))

/-! The checks of a read (R204, R205). -/

theorem Dev.corrected_still (d : Dev) (inst : Nat) : Still d (d.corrected inst) := by
  unfold Dev.corrected
  extract_lets b since bytes mem e
  have bucket : Still d e := .of_fields rfl rfl rfl rfl
  exact .ite ((bucket.trans (e.inc_still ..)).trans (Dev.occur_still ..)) (.of_fields rfl rfl rfl rfl)

theorem Dev.lineCorrected_still (d : Dev) (ch : Nat) (e : Ecc) : Still d (d.lineCorrected ch e) :=
  .ite ((d.inc_still ..).trans (Dev.corrected_still ..)) (.refl d)

theorem Dev.linePassed_still (d : Dev) (ch line m : Nat) : Still d (d.linePassed ch line m) :=
  (Still.ite (.refl d) (d.inc_still ..)).trans (Dev.touch_still ..)

/-- A channel in FROST: of the requests that wait, those on it are gone. -/
theorem Dev.frost_still (d : Dev) (ch cause command initiator addr syn : Nat) : Still d (d.frost ch cause command initiator addr syn) := by
  unfold Dev.frost
  extract_lets st x snap off at_ queue s mem e1 e2 e3 e4 e5
  have dropped : Still d e1 := ⟨rfl, fun y hy => List.mem_of_mem_filter hy, fun _ => id, fun _ => id⟩
  have answered : Still e1 e2 := Still.foldl (fun d y => .of_mem (d.replyTo_mem ..)) queue e1
  have frozen : Still e2 e3 := (e2.setCh_still ..).trans (Dev.setChan_still ..)
  have counted : Still e3 e4 := e3.incCh_still ..
  have occurred : Still e4 e5 := e4.occur_still ..
  exact .ite (d.setChan_still ..) (((((dropped.trans answered).trans frozen).trans counted).trans occurred).trans (e5.logNote_still ..))

theorem Dev.integrityHalt_still (d : Dev) (cause addr initiator : Nat) : Still d (d.integrityHalt cause addr initiator) :=
  .of_mem (Dev.integrityHalt_mem ..)

theorem Dev.checkLine_still (d : Dev) (a ch kind ni : Nat) : Still d (d.checkLine a ch kind ni).2 := by
  unfold Dev.checkLine
  extract_lets line l e
  split_ifs
  · exact .refl d
  · exact .refl d
  · dsimp only
    exact (d.inc_still ..).trans (Dev.frost_still ..)
  · exact (d.lineCorrected_still ..).trans (Dev.integrityHalt_still ..)
  · exact (d.lineCorrected_still ..).trans (Dev.linePassed_still ..)

/-! Requests that store nothing. -/

theorem Dev.haltFrost_still (d : Dev) (a n ni : Nat) : Still d (d.haltFrost a n ni) := by
  unfold Dev.haltFrost Dev.when
  split
  · refine Still.foldl (fun d i => ?_) _ d
    dsimp only
    split
    · exact .refl d
    · exact .ite ((d.inc_still ..).trans (Dev.frost_still ..)) (.refl d)
  · exact .refl d

theorem Dev.refused_still (d : Dev) (a n ni : Nat) : Still d (d.refused a n ni) :=
  (Still.ite (d.inc_still ..) (.refl d)).trans (Dev.haltFrost_still ..)

theorem Dev.readSpan_still (d : Dev) (r : MemReq) (k a n : Nat) (acc : List Byte) : Still d (d.readSpan r k a n acc).2 := by
  induction k generalizing d a n acc with
  | zero => exact .refl d
  | succ k ih =>
    unfold Dev.readSpan
    split
    · exact .refl d
    · extract_lets m e l
      split
      · exact .refl d
      · extract_lets z e' c
        have opened : Still d e' := (d.releaseTest_still _).trans (.ite (.refl e) (e.rowAccess_still ..))
        have checked : Still d c.2 := opened.trans (e'.checkLine_still ..)
        split
        · exact checked.trans (ih ..)
        · exact checked

/-- Disturbances change what a read finds of a line, not the bytes stored; without any, nothing changes. -/
theorem Dev.disturb_lain (d : Dev) (f : LineFind) :
    (d.disturb f).mem.cells = d.mem.cells ∧ (d.disturb f).mem.deferred = d.mem.deferred := by
  constructor
  · refine foldl_keeps (f := fun d => d.mem.cells) (fun d line => ?_) _ d
    split
    · rfl
    · split <;> rfl
  · refine foldl_keeps (f := fun d => d.mem.deferred) (fun d line => ?_) _ d
    split
    · rfl
    · split <;> rfl

theorem Dev.disturb_of_no_flips (d : Dev) {f : LineFind} (h : f.flips = []) : d.disturb f = d := by
  unfold Dev.disturb
  rw [h]
  rfl

end Sys2Proof.Machine
end

section
/-! PROOFS. MEM_WRITE and the bytes of memory (R174, R197, R204): what a write, and the writes that wait, may leave at one byte. -/

namespace Sys2Proof.Machine

/-! What a read of a line finds. -/

theorem lineData_length_le (w : List Byte) : (lineData w).length ≤ 64 := (List.length_take ..).trans_le (Nat.min_le_left ..)

theorem Dev.peek_length (d : Dev) (a n : Nat) : (d.peek a n).length = n := (List.length_map ..).trans List.length_range

theorem Dev.openWord_plain_length (d : Dev) (line : Nat) (e : Ecc) (syn : Nat) (w : List Byte) : (d.openWord line e syn w).plain.length ≤ 64 := by
  have text : (d.openWord line e syn w).plain.length ≤ (lineData w).length := (List.length_zipWith ..).trans_le (Nat.min_le_left ..)
  exact text.trans (lineData_length_le w)

theorem Dev.lookLine_plain_length (d : Dev) (line : Nat) : (d.lookLine line).plain.length ≤ 64 := by
  have peeked : (d.peek (64 * line) 64).length ≤ 64 := (d.peek_length ..).le
  unfold Dev.lookLine
  dsimp only
  split
  · exact peeked
  · split
    · exact peeked
    · exact d.openWord_plain_length ..
  · exact d.openWord_plain_length ..

/-- A line lies neither raw from the checker test nor disturbed. -/
def Dev.Clean (d : Dev) (line : Nat) : Prop := SMap.find d.mem.raw line = none ∧ SMap.find d.mem.upset line = none

theorem Dev.lookLine_plain_of_clean {d : Dev} {line : Nat} (h : d.Clean line) : (d.lookLine line).plain = d.peek (64 * line) 64 := by
  unfold Dev.lookLine
  rw [h.1, h.2]

theorem Still.clean {d e : Dev} (k : Still d e) {line : Nat} (h : d.Clean line) : e.Clean line := ⟨k.raw line h.1, k.upset line h.2⟩

theorem Still.peek {d e : Dev} (k : Still d e) (a n : Nat) : e.peek a n = d.peek a n := by
  unfold Dev.peek
  rw [k.cells]

/-! One byte. -/

/-- Data for an address, seen from the byte x: none of it falls in the line of x, or that line is to be clean (c) and what falls on x is v. -/
def Aims (x : Nat) (v : Byte) (c : Prop) (a : Nat) (l : List Byte) : Prop :=
  ∀ j < l.length, (a + j) / 64 = x / 64 → c ∧ (a + j = x → l.getD j 0 = v)

/-- The byte x is as it was (w) or has become v; every write that waits aims so; and the line of x is clean if it is to be. -/
structure Spared (x : Nat) (w v : Byte) (c : Prop) (d : Dev) : Prop where
  byte : Memory.get d.mem.cells x = w ∨ Memory.get d.mem.cells x = v
  waits : ∀ y ∈ d.mem.deferred, y.write = true → Aims x v c y.addr y.data
  clean : c → d.Clean (x / 64)

section
variable {x : Nat} {w v : Byte} {c : Prop} {d e : Dev} {a : Nat} {l : List Byte}

theorem Aims.take (h : Aims x v c a l) (m : Nat) : Aims x v c a (l.take m) := by
  intro j hj line
  rw [List.length_take] at hj
  obtain ⟨clean, value⟩ := h j (by omega) line
  refine ⟨clean, fun here => ?_⟩
  rw [List.getD_eq_getElem?_getD, List.getElem?_take_of_lt (by omega), ← List.getD_eq_getElem?_getD, value here]

theorem Aims.drop (h : Aims x v c a l) (m : Nat) : Aims x v c (a + m) (l.drop m) := by
  intro j hj line
  rw [List.length_drop] at hj
  obtain ⟨clean, value⟩ := h (m + j) (by omega) (by rwa [← Nat.add_assoc])
  refine ⟨clean, fun here => ?_⟩
  rw [List.getD_eq_getElem?_getD, List.getElem?_drop, ← List.getD_eq_getElem?_getD, value (by omega)]

/-- What lies in no line of the data is not aimed at. -/
theorem Aims.of_away (h : x < a / 64 * 64 ∨ (a + l.length + 63) / 64 * 64 ≤ x) : Aims x v c a l := by
  intro j hj line
  omega

theorem Spared.still (h : Spared x w v c d) (k : Still d e) : Spared x w v c e where
  byte := k.cells ▸ h.byte
  waits y hy := h.waits y (k.waits y hy)
  clean hc := k.clean (h.clean hc)

theorem SMap.find_del_of_none {α : Type} {m : SMap α} {i : Nat} (k : Nat) (h : SMap.find m i = none) : SMap.find (SMap.del m k) i = none := by
  obtain rfl | other := eq_or_ne i k
  · exact SMap.find_del_self ..
  · rw [SMap.find_del_ne m other, h]

/-- Laying data whose byte at x is v or the one that lies there. -/
theorem Spared.lay (h : Spared x w v c d) (value : ∀ j < l.length, a + j = x → l.getD j 0 = v ∨ l.getD j 0 = Memory.get d.mem.cells x) :
    Spared x w v c (d.lay a l) where
  byte := by
    change Memory.get (Memory.write d.mem.cells a l) x = w ∨ Memory.get (Memory.write d.mem.cells a l) x = v
    by_cases inside : a ≤ x ∧ x < a + l.length
    · have within : x - a < l.length := by omega
      have written := Memory.get_write_in d.mem.cells a l (x - a) within
      rw [Nat.add_sub_cancel' inside.1, ← List.getD_eq_getElem l 0 within] at written
      rw [written]
      obtain new | kept := value (x - a) within (by omega)
      · exact .inr new
      · exact kept ▸ h.byte
    · rw [Memory.get_write_out _ _ _ _ (by omega)]
      exact h.byte
  waits := h.waits
  clean hc := ⟨SMap.find_del_of_none _ (h.clean hc).1, SMap.find_del_of_none _ (h.clean hc).2⟩

theorem Spared.lay_aimed (h : Spared x w v c d) (aims : Aims x v c a l) : Spared x w v c (d.lay a l) :=
  h.lay (fun j hj here => .inl ((aims j hj (congrArg (· / 64) here)).2 here))

/-- The contents of a line of which some bytes are new. -/
def mergeLine (a : Nat) (l plain : List Byte) : List Byte := plain.take (a % 64) ++ l ++ plain.drop (a % 64 + l.length)

theorem mergeLine_length_le {plain : List Byte} (within : a % 64 + l.length ≤ 64) (full : plain.length ≤ 64) : (mergeLine a l plain).length ≤ 64 := by
  simp only [mergeLine, List.length_append, List.length_take, List.length_drop]
  omega

/-- A byte of a line with new bytes is the new one, or the line's own. -/
theorem mergeLine_getD {plain : List Byte} (full : plain.length = 64) (j : Nat) :
    (mergeLine a l plain).getD j 0 = plain.getD j 0 ∨ ∃ i < l.length, j = a % 64 + i ∧ (mergeLine a l plain).getD j 0 = l.getD i 0 := by
  have before : (plain.take (a % 64)).length = a % 64 := by rw [List.length_take, full]; omega
  simp only [mergeLine, List.getD_eq_getElem?_getD]
  obtain left | right := Nat.lt_or_ge j (a % 64)
  · left
    rw [List.append_assoc, List.getElem?_append_left (by omega), List.getElem?_take_of_lt left]
  · rw [List.append_assoc, List.getElem?_append_right (by omega), before]
    obtain new | after := Nat.lt_or_ge (j - a % 64) l.length
    · right
      exact ⟨j - a % 64, new, by omega, by rw [List.getElem?_append_left new]⟩
    · left
      rw [List.getElem?_append_right after, List.getElem?_drop, show a % 64 + l.length + (j - a % 64 - l.length) = j by omega]

theorem Dev.peek_getD (d : Dev) (a : Nat) {n j : Nat} (h : j < n) : (d.peek a n).getD j 0 = Memory.get d.mem.cells (a + j) := by
  rw [List.getD_eq_getElem _ _ (by rwa [d.peek_length])]
  simp only [Dev.peek, Memory.read, upTo, List.getElem_map, List.getElem_range]

/-- A line is written back with new bytes: the other bytes of the line of x are those that lay there. -/
theorem Spared.lay_line (h : Spared x w v c d) {plain : List Byte} (aims : Aims x v c a l) (some_ : 0 < l.length) (within : a % 64 + l.length ≤ 64)
    (full : plain.length ≤ 64) (same : c → a / 64 = x / 64 → plain = d.peek (64 * (a / 64)) 64) :
    Spared x w v c (d.lay (64 * (a / 64)) (mergeLine a l plain)) := by
  refine h.lay (fun j hj here => ?_)
  have short := mergeLine_length_le within full
  have line : x / 64 = a / 64 := by omega
  have found : plain = d.peek (64 * (a / 64)) 64 := same (aims 0 some_ line.symm).1 line.symm
  obtain kept | ⟨i, hi, place, new⟩ := mergeLine_getD (a := a) (l := l) (found ▸ d.peek_length ..) j
  · right
    rw [kept, found, d.peek_getD _ (by omega), here]
  · left
    rw [new]
    exact (aims i hi (by omega)).2 (by omega)

/-- A whole line is replaced, and other data is merged into what the read of its line has found. -/
theorem Spared.lay_over (h : Spared x w v c d) (k : Still d e) (aims : Aims x v c a l) (some_ : 0 < l.length) (within : a % 64 + l.length ≤ 64) :
    Spared x w v c (e.lay (64 * (a / 64)) (if a % 64 == 0 && l.length == 64 then l else mergeLine a l (d.lookLine (a / 64)).plain)) := by
  split
  next all =>
    have start : a % 64 = 0 := eq_of_beq (Bool.and_eq_true_iff.mp all).1
    rw [show 64 * (a / 64) = a by omega]
    exact (h.still k).lay_aimed aims
  next =>
    refine (h.still k).lay_line aims some_ within (d.lookLine_plain_length _) (fun clean here => ?_)
    rw [k.peek, Dev.lookLine_plain_of_clean (here ▸ h.clean clean)]

/-! Writes. -/

/-- A write within a line. -/
theorem Spared.writeLine (h : Spared x w v c d) (ch : Nat) (r : MemReq) (fresh : Bool) (aims : Aims x v c a l) (some_ : 0 < l.length)
    (within : a % 64 + l.length ≤ 64) : Spared x w v c (d.writeLine a ch r l fresh).2 := by
  unfold Dev.writeLine
  extract_lets line whole k idx listed d1 e1 order e2
  split
  · exact h
  · have h1 : Spared x w v c d1 := h.still (.ite (d.unpoison_still ..) (.refl d))
    clear_value d1
    split
    · split
      · have laid : Spared x w v c e1 := (h1.still (d1.openSlice_still ..)).lay_aimed aims
        exact (laid.still (.ite (Dev.closeSlice_still ..) (.refl _))).still (Dev.freshLine_still ..)
      · exact ((h1.still (d1.zeroFill_still ..)).lay_aimed aims).still (Dev.freshLine_still ..)
    · split
      · have laid : Spared x w v c e2 := (h1.still (d1.setSlice_still ..)).lay_aimed aims
        exact (laid.still (.ite (Dev.closeSlice_still ..) (.refl _))).still (Dev.freshLine_still ..)
      · split
        · exact (h1.lay_aimed aims).still (Dev.freshLine_still ..)
        · extract_lets d2 known look n chk new e3
          have h2 : Spared x w v c d2 := h1.still (.ite (d1.closeSlice_still ..) (.refl d1))
          clear_value d2
          split
          · have started := (h2.still (d2.startJob_still (regionOf a))).still ((Dev.setMinor_still _ line 0).trans (Dev.jobDone_still _ line))
            exact (started.lay_aimed aims).still (Dev.touch_still ..)
          · have counted : Still d2 n := .ite (.refl d2) (d2.inc_still ..)
            have checked : Still d2 chk.2 := by
              simp only [chk]
              split
              · exact counted
              · exact counted.trans (n.checkLine_still ..)
            clear_value chk
            split
            · have written : Still d2 (chk.2.countWrite a (known.getD look.minor)) := checked.trans (Dev.countWrite_still ..)
              have laid : Spared x w v c e3 := h2.lay_over written aims some_ within
              exact laid.still (Dev.touch_still ..)
            · exact h2.still checked

/-- Line by line: what is left, where a line must wait, aims as the whole did. -/
theorem Spared.writeSpan (h : Spared x w v c d) (r : MemReq) (k : Nat) (fresh : List Nat) (ok : Bool) (aims : Aims x v c a l) :
    Spared x w v c (d.writeSpan r k a l fresh ok).2 ∧
    Aims x v c (d.writeSpan r k a l fresh ok).1.at_ (d.writeSpan r k a l fresh ok).1.rest := by
  induction k generalizing d a l fresh ok with
  | zero => exact ⟨h, aims⟩
  | succ k ih =>
    unfold Dev.writeSpan
    split
    · exact ⟨h.still (.ite (d.endStream_still _) (.refl d)), fun j hj => absurd hj (Nat.not_lt_zero j)⟩
    next nonempty =>
      have some_ : 0 < l.length := List.length_pos_iff.mpr (fun none_ => nonempty (none_ ▸ rfl))
      extract_lets m e
      have part : (l.take m).length = m := (List.length_take ..).trans (Nat.min_eq_left (Nat.min_le_left ..))
      split
      · exact ih h _ _ (aims.drop m)
      next ch off _ =>
        extract_lets mine fresh' chk
        have released : Spared x w v c e := h.still (d.releaseTest_still _)
        split
        · exact ⟨released, aims⟩
        · have written : Spared x w v c chk.2 :=
            (released.still (e.rowAccess_still ..)).writeLine ch r mine (aims.take m) (by omega) (by omega)
          exact ih (written.still (Dev.finishJob_still ..)) _ _ (aims.drop m)

theorem Spared.defer (h : Spared x w v c d) (y : Deferred) (aims : y.write = true → Aims x v c y.addr y.data) : Spared x w v c (d.defer y) where
  byte := h.byte
  waits z hz hw := by
    obtain before | rfl := List.mem_append.mp hz |>.imp_right List.mem_singleton.mp
    · exact h.waits z before hw
    · exact aims hw
  clean := h.clean

/-- A request is performed as far as it can be, and the rest of it waits. -/
theorem Spared.perform (h : Spared x w v c d) (y : Deferred) (aims : y.write = true → Aims x v c y.addr y.data) : Spared x w v c (d.perform y) := by
  unfold Dev.perform
  split
  next write =>
    extract_lets z
    obtain ⟨spared, rest⟩ : Spared x w v c z.2 ∧ Aims x v c z.1.at_ z.1.rest := h.writeSpan y.req _ y.fresh y.ok (aims write)
    split
    · exact spared.still (.of_mem (Dev.replyTo_mem ..))
    · exact spared.defer _ (fun _ => rest)
  next =>
    split
    · exact h.defer y aims
    · exact h.still ((d.readSpan_still ..).trans (.of_mem (Dev.replyTo_mem ..)))

theorem Spared.perform_all {ys : List Deferred} (h : Spared x w v c d) (aims : ∀ y ∈ ys, y.write = true → Aims x v c y.addr y.data) :
    Spared x w v c (ys.foldl Dev.perform d) := by
  induction ys generalizing d with
  | nil => exact h
  | cons y ys ih => exact ih (h.perform y (aims y List.mem_cons_self)) (fun z hz => aims z (List.mem_cons_of_mem y hz))

theorem Spared.wake (h : Spared x w v c d) (n : Nat) : Spared x w v c (d.wake n) := by
  induction n generalizing d with
  | zero => exact h
  | succ n ih =>
    unfold Dev.wake
    split
    · exact h
    · have none_ : Still d { d with mem := { d.mem with deferred := [] } } := ⟨rfl, fun y hy => absurd hy List.not_mem_nil, fun _ => id, fun _ => id⟩
      have tried := (h.still none_).perform_all h.waits
      dsimp only
      split
      · exact tried
      · exact ih tried

/-- A request that is asked is refused, performed or waits; then what waits is tried. -/
theorem Spared.ask (h : Spared x w v c d) (y : Deferred) (aims : y.write = true → Aims x v c y.addr y.data) : Spared x w v c (d.ask y) := by
  unfold Dev.ask
  split
  · exact h.still ((d.refused_still ..).trans (.of_mem (Dev.replyTo_mem ..)))
  · extract_lets waits e
    have counted : Still d e := by
      simp only [e]
      split
      · exact .ite (d.incCh_still ..) (.refl d)
      · exact .refl d
    exact ((h.still counted).perform y aims).wake _

end

/-- The state in which MEM_WRITE asks: the bytes and what waits are as they were; with no changed symbol, so is what lies raw or disturbed. -/
theorem spared_disturb {x : Nat} {v : Byte} {c : Prop} {d : Dev} (f : LineFind) (waits : ∀ y ∈ d.mem.deferred, y.write = true → Aims x v c y.addr y.data)
    (clean : c → (d.disturb f).Clean (x / 64)) : Spared x (Memory.get d.mem.cells x) v c (d.disturb f) where
  byte := .inl (by rw [(d.disturb_lain f).1])
  waits := by rwa [(d.disturb_lain f).2]
  clean := clean

/-- Settles O11. -/
theorem memoryWriteFrame : Obligations.MemoryWriteFrame := by
  intro dt addr req find data s t d done x waiting
  obtain rfl : t = { s with dev := memWriteEffect addr.val req find data d } := (Host.Outcome.next.inj done).symm
  have spared {v : Byte} {c : Prop} (aims : Aims x v c addr.val data) (clean : c → (d.disturb find).Clean (x / 64)) :
      Spared x (Memory.get s.dev.mem.cells x) v c (memWriteEffect addr.val req find data d) := by
    rw [← Dev.pass_cells s.dev dt]
    exact (spared_disturb find (fun y hy write => .of_away (waiting y hy write)) clean).ask _ (fun _ => aims)
  refine ⟨fun outside => ?elsewhere, fun none_ lines => ?unchanged⟩
  case elsewhere => exact or_self_iff.mp (spared (c := False) (.of_away outside) False.elim).byte
  case unchanged =>
    have same : d.Clean (x / 64) → (d.disturb find).Clean (x / 64) := by rw [d.disturb_of_no_flips none_]; exact id
    have touched {j : Nat} (hj : j < data.length) (line : (addr.val + j) / 64 = x / 64) : d.Clean (x / 64) := lines _ (by omega) (by omega)
    refine ⟨fun beside => ?beside, fun i _ here => ?inside⟩
    case beside =>
      exact or_self_iff.mp (spared (fun j hj line => ⟨touched hj line, fun at_ => absurd at_ (by omega)⟩) same).byte
    case inside =>
      have value {j : Nat} (at_ : addr.val + j = x) : data.getD j 0 = data.getD i 0 := by rw [show j = i by omega]
      exact (spared (fun j hj line => ⟨touched hj line, value⟩) same).byte.symm

end Sys2Proof.Machine
end

section
/-! PROOFS. Family by family, what each command does: a command is the passing of its cycles and then its effect (`run`), and the effect's
definition is the block that the statement writes out. -/

namespace Sys2Proof.Machine

/-- Settles O29. -/
theorem timeBaseCommands : Obligations.TimeBaseCommands := by
  intro dt s
  refine ⟨?parityBroadcast, ?replicaRealign, ?timeMarkerInterval, ?ppsEdge, ?ptpSync, ?disciplineMeasurement, ?referenceLoss,
    ?holdoverLimit, ?disciplineModeSet, ?timebaseSet⟩ <;> intros <;> rfl

/-- Settles O30. -/
theorem laneCommands : Obligations.LaneCommands := by
  intro dt s
  refine ⟨?losAssert, ?losDeassert, ?lolAssert, ?lolDeassert, ?alignmentGained, ?alignmentLost, ?upDebounceExpiry,
    ?downDebounceExpiry, ?flapHoldExpiry, ?refclkStatusChange⟩ <;> intros <;> rfl

/-- Settles O31. -/
theorem portCommands : Obligations.PortCommands := by
  intro dt s
  refine ⟨?pcieRateChange, ?retuneLimitExpiry, ?pcieIdleLimitExpiry, ?quadLayoutSet, ?portModeSet, ?portDirectionSet, ?laneEqSet,
    ?settleWindowExpiry, ?eyescanStart, ?eyescanPoint⟩ <;> intros <;> rfl

/-- Settles O32. -/
theorem spapaxCommands : Obligations.SpapaxCommands := by
  intro dt s
  refine ⟨?spapaxEnable, ?receiverDetectPulse, ?spapaxBlock, ?spapaxStageTimeout, ?spapaxBackoffExpiry, ?linkManagementFrame,
    ?spapaxFrame, ?spapaxFrameSend, ?spapaxAckTimeout, ?spapaxAlignInsert⟩ <;> intros <;> rfl

/-- Settles O33. -/
theorem linkPartnerCommands : Obligations.LinkPartnerCommands := by
  intro dt s
  refine ⟨?hostLinkDown, ?pcieCompletionTimeout, ?pcieSurpriseDown, ?pcieRetrain, ?pcieInboundRequest, ?vaneFrame,
    ?vaneLockoutExpiry, ?vaneLinkChange⟩ <;> intros <;> rfl

/-- Settles O34. -/
theorem capturePathCommands : Obligations.CapturePathCommands := by
  intro dt s
  refine ⟨?unitReceived, ?foldMaxSpanExpiry, ?recordIngest, ?lossRunTimeout, ?admissionCycle, ?flushAgeExpiry, ?captureFlush,
    ?ringWrite⟩ <;> intros <;> rfl

/-- Settles O35. -/
theorem captureControlCommands : Obligations.CaptureControlCommands := by
  intro dt s
  refine ⟨?ringWriteAck, ?flowAgeingVisit, ?flowClear, ?captureEnable, ?captureDisable, ?captureQuiesce, ?quiesceComplete,
    ?captureResume⟩ <;> intros <;> rfl

/-- What NOTIFICATION sends (R136, R263), with the events whose report is due. -/
def notifySend (v : Nat) (d : Dev) (due : List Nat) : Dev :=
  let target := if v = 0 then d.octs O.notifyTargetA else d.octs O.notifyTargetB
  let sent := (SMap.getD d.events.notified v []).filter (fun t => decide (d.ns < t + 1000000000))
  d.when (d.on O.vaneLinkState v && target.any (fun b => b != 0) && sent.length < d.nat O.notifyMaxRate && !due.isEmpty) (fun d =>
    let items := due.flatMap (fun ev =>
      let s := SMap.getD d.events.slots (v * 2048 + ev) {}
      itemBytes 7 0 ev 0 0x0E 0 (leBytes 4 s.count ++ leBytes 8 s.first ++ leBytes 8 s.last))
    let seq := SMap.getD d.dict.portSeq v 0
    let d := d.sendPdu v (d.vaneOwn v) target (d.pdu v 3 0 0 0 seq 0 due.length items d.count)
    let d := due.foldl (fun d ev =>
      { d with events := { d.events with slots := SMap.ins d.events.slots (v * 2048 + ev) { sentNs := some d.ns } } }) d
    let d := { d with dict := { d.dict with portSeq := SMap.ins d.dict.portSeq v ((seq + 1) % 2 ^ 64) },
                      events := { d.events with notified := SMap.ins d.events.notified v (sent ++ [d.ns]) } }
    d.inc O.notifySent)

/-- Settles O36. In the case of NOTIFICATION the effect is named, and the reports that are due are compared event by event: as a whole Lean compares
the list of all events, unfolded. -/
theorem frontCommands : Obligations.FrontCommands := by
  intro dt s
  refine ⟨?frontEvaluate, ?frontTimerExpiry, ?frontRun, ?frontIdle, ?retentionTrigger, ?windowEndReached, ?closeLimitExpiry,
    ?promote, ?notification, ?msixMessage⟩
  case notification =>
    intro v _
    refine congrArg s.goesTo (a₁ := notifyEffect v _) ?_
    refine congrArg (notifySend v _) (congrArg (List.take 64) (List.filter_congr (fun ev _ => ?_)))
    generalize SMap.getD _ (v * 2048 + ev) ({} : Slot) = slot
    obtain ⟨count, first, last, sentNs⟩ := slot
    cases sentNs <;> rfl
  all_goals
    intros
    rfl

/-- Settles O37. -/
theorem transmitCommands : Obligations.TransmitCommands := by
  intro dt s
  refine ⟨?txStart, ?txStop, ?txResume, ?txForceDown, ?txAnchor, ?txUnitStart, ?txUnitEnd, ?txFetch, ?hookReturn, ?hookTimeout,
    ?holdWindowExpiry⟩ <;> intros <;> rfl

/-- Settles O38. -/
theorem memoryCommands : Obligations.MemoryCommands := by
  intro dt s
  refine ⟨?memoryRead, ?memoryWrite, ?reencryptionLine, ?refresh, ?memoryTemperatureRead, ?caParityFailure⟩ <;> intros <;> rfl

/-- Settles O39. -/
theorem lullCommands : Obligations.LullCommands := by
  intro dt s
  refine ⟨?lullEnter, ?lullDrained, ?lullExit, ?lullRetrainDone, ?thaw, ?thawRetrainDone, ?poisonClear⟩ <;> intros <;> rfl

/-- Settles O40. -/
theorem integrityCommands : Obligations.IntegrityCommands := by
  intro dt s
  refine ⟨?leakPeriod, ?drizzleScrub, ?chktestWriteRaw, ?chktestReadRaw, ?chktestReadDecoded, ?chktestDramWrite, ?chktestDramRead⟩
    <;> intros <;> rfl

/-- Settles O41. -/
theorem storeCommands : Obligations.StoreCommands := by
  intro dt s
  refine ⟨?storeMount, ?storeStop, ?nvmeCompletion, ?adminTimeout, ?ioTimeout, ?controllerFatal, ?stageDrain, ?drainAgeExpiry,
    ?flushInterval⟩ <;> intros <;> rfl

/-- Settles O42. -/
theorem storeSpaceCommands : Obligations.StoreSpaceCommands := by
  intro dt s
  refine ⟨?subentryAgeExpiry, ?reclaim, ?quotaCut, ?remapCopy, ?storeUnpin, ?unpinAll, ?sessionRelease, ?controllerReset,
    ?adminCommand, ?namespaceInitialise⟩ <;> intros <;> rfl

/-- Settles O43. -/
theorem queryCommands : Obligations.QueryCommands := by
  intro dt s
  refine ⟨?queryStart, ?queryContinue, ?queryAbort, ?queryScan⟩ <;> intros <;> rfl

/-- Settles O44. -/
theorem requestCommands : Obligations.RequestCommands := by
  intro dt s
  refine ⟨?vanePdu, ?reassemblyTimeout, ?mailboxPost, ?mailboxRelease, ?mailboxTake, ?read, ?write, ?describe⟩ <;> intros <;> rfl

/-- Settles O45. -/
theorem transactionCommands : Obligations.TransactionCommands := by
  intro dt s
  refine ⟨?beginTxn, ?commit, ?rollback, ?validationStart, ?validationEnd, ?commitTick, ?objectWrite, ?txnIdleTimeout⟩ <;> intros
    <;> rfl

/-- Settles O46. -/
theorem keepCommands : Obligations.KeepCommands := by
  intro dt s
  refine ⟨?checkpointInterval, ?checkpointCount, ?logbookCheckpoint, ?keepGroupWrite, ?keepPageRefresh, ?windowAccess,
    ?authKeyWrite⟩ <;> intros <;> rfl

/-- Settles O47. -/
theorem mirrorCommands : Obligations.MirrorCommands := by
  intro dt s
  refine ⟨?propose, ?verdict, ?schedule, ?shadow, ?logbook, ?extent, ?subentry, ?front, ?catalogue, ?resyncBegin, ?resyncEnd⟩ <;>
    intros <;> rfl

/-- Settles O48. -/
theorem pairCommands : Obligations.PairCommands := by
  intro dt s
  refine ⟨?leave, ?beatSend, ?beat, ?beatMissed, ?twinEvent, ?storageTakeover, ?twinAlign, ?twinLeave, ?twinTakeover, ?adoptStorage⟩
    <;> intros <;> rfl

/-- Settles O49. -/
theorem networkCommands : Obligations.NetworkCommands := by
  intro dt s
  refine ⟨?nocTimeout, ?nocResponse, ?postedError, ?flush, ?ekicWrite, ?ekeqWrite, ?coreRun, ?coreReset⟩ <;> intros <;> rfl

/-- Settles O50. -/
theorem fabricCommands : Obligations.FabricCommands := by
  intro dt s
  refine ⟨?fabricEvent, ?userMarkRequest, ?pePop, ?fabricDictionaryRequest, ?objectSample, ?objectSampleTimeout, ?ramPortAccess,
    ?bankVoltageSample⟩ <;> intros <;> rfl

/-- Settles O51. -/
theorem clockCommands : Obligations.ClockCommands := by
  intro dt s
  refine ⟨?sourceStable, ?clockMissing, ?pllLossOfLock, ?pllLock, ?pllHoldoverExpiry, ?clockRevert, ?clockGate⟩ <;> intros <;> rfl

/-- Settles O52. -/
theorem resetCommands : Obligations.ResetCommands := by
  intro dt s
  refine ⟨?deviceReset, ?programPin, ?powerGood, ?entropyStartupDone, ?firmwareStart, ?persistRestore, ?streamData⟩ <;> intros <;>
    rfl

/-- Settles O53. -/
theorem loadCommands : Obligations.LoadCommands := by
  intro dt s
  refine ⟨?streamTimeout, ?loadStart, ?loadAbort, ?apertureWrite, ?startupStep, ?pllWaitExpiry, ?bootComplete⟩ <;> intros <;> rfl

/-- Settles O54. -/
theorem boundaryCommands : Obligations.BoundaryCommands := by
  intro dt s
  refine ⟨?idcode, ?samplePreload, ?extest, ?extestPulse, ?extestTrain, ?highz, ?clamp⟩ <;> intros <;> rfl

/-- Settles O55. -/
theorem jtagCommands : Obligations.JtagCommands := by
  intro dt s
  refine ⟨?cfgLoad, ?dictPost, ?dictPoll, ?dictRead, ?jtagDebug, ?devreset, ?bypass⟩ <;> intros <;> rfl

/-- Settles O56. -/
theorem keyCommands : Obligations.KeyCommands := by
  intro dt s
  refine ⟨?readbackFrame, ?watchdogExpiry, ?fwUpdate, ?reconfigure, ?reconfigureDelayExpiry, ?fuseProgram, ?fuseBurnDone,
    ?bbramErase, ?keyRevoke, ?vbatLoss, ?entropyHealthFailure⟩ <;> intros <;> rfl

/-- Settles O57. -/
theorem powerCommands : Obligations.PowerCommands := by
  intro dt s
  refine ⟨?avsStep, ?railFault, ?powerFailWarning, ?powerFailClear, ?diePowerSample, ?domainOn, ?domainOff, ?domainSwitchDone⟩ <;>
    intros <;> rfl

/-- Settles O58. -/
theorem thermalAgeingCommands : Obligations.ThermalAgeingCommands := by
  intro dt s
  refine ⟨?domainSwitchTimeout, ?domainDroop, ?thermalSample, ?ageingSample, ?marginMeasure, ?weeklyHistory, ?poweredTimePersist⟩
    <;> intros <;> rfl

/-- Settles O59. -/
theorem selfTestCommands : Obligations.SelfTestCommands := by
  intro dt s
  refine ⟨?duaxisFrameError, ?duaxisTraining, ?sliceDue, ?handshakeAck, ?handshakeTimeout, ?deferralRetry, ?sliceEnd, ?runNow,
    ?clearPermanent, ?clearSuspect⟩ <;> intros <;> rfl

/-- Settles O60. -/
theorem lateRowCommands : Obligations.LateRowCommands := by
  intro dt s
  refine ⟨?perstAssert, ?perstReleaseExpiry, ?pcieLinkUp, ?controllerReady, ?dramTrainingDone, ?pllLockTimeout, ?clockReturn,
    ?entropyHealthPass, ?perstDeassert, ?fabricShadowAck⟩ <;> intros <;> rfl

end Sys2Proof.Machine
end
